-- ==== Sys2Proof/Syntax.lean ====
section
/-!
DEFINITION. The commands the block takes: one constructor per row of spec/opcode_table.json, with the operands of each row:
the Garnet instructions first, then the other rows, those without operands last, each in the table's order (a constructor with operands
beyond the 245th cannot be built by compiled code, and Machine/Encoding.lean builds instructions). An operand carries what comes from outside the model: the thread or unit the row is about, the data of a transfer, what
the analogue parts measured, and for a row that time brings about the PCLK edges that pass before it (`edges`, log entry 6).
-/
namespace Sys2Proof

/-- A command in a control ring (R107): the ring, the envelope's IRQ and FENCE bits and TOKEN, and the twelve words of its body. -/
structure Ctl where
  ring : Fin 64
  irq : Bool
  fence : Bool
  token : W32
  body : List W32
deriving DecidableEq, Repr

/-- A TX descriptor as HIF reads it (R95), with the bytes of its buffer. -/
structure TxDesc where
  len : W16
  eop : Bool
  cqe : Bool
  tsCap : Bool
  offload : W16
  meta_ : W32
  cookie : W16
  data : List Byte
deriving DecidableEq, Repr

/-- An RX descriptor as HIF reads it (R101): its buffer's address and size. -/
structure RxDesc where
  addr : W64
  len : BitVec 15
deriving DecidableEq, Repr

/-- What HIF reads for a TX packet (R97): the descriptors from its ring's consumer index on, and for the other rings of the priority the
bytes of the packet at each one's head. -/
structure TxRead where
  descs : List TxDesc
  heads : List (BitVec 12 × Nat)
deriving DecidableEq, Repr

/-- An RX packet in whose delivery a read fails (R110): the egress queue that it comes from, and the buffers filled before. -/
structure RxCut where
  queue : BitVec 14
  filled : List RxDesc
deriving DecidableEq, Repr

/-- A burst as the devices return it (R422): the x4 positions at which it is corrupted, and the PCLK edges that pass before. -/
structure BurstBack where
  pos : List (Fin 10)
  edges : Nat
deriving DecidableEq, Repr

/-- A reading of MR4 (R418): the rank, the refresh interval that it indicates in ns, and whether it indicates more than 85 °C. -/
structure Mr4Read where
  rank : Fin 2
  ns : BitVec 16
  hot : Bool
deriving DecidableEq, Repr

/-- The capabilities that R85 names. -/
inductive PciCap where
  | msix | sriov | ari | aer | flr | margining | msi | ats | pri | pasid | tph | ptm | ide | l1Substates | serialNumber
deriving DecidableEq, Repr

/-- A register or a capability of a function's configuration space that 04 names. -/
inductive CfgReg where
  | capability (c : PciCap)
  /-- Max_Payload_Size Supported, Device Control, and AER's uncorrectable error status. -/
  | maxPayload
  | devctl
  | aer
  /-- PF0's SR-IOV capability (R88). -/
  | totalVfs
  | firstVfOffset
  | vfStride
deriving DecidableEq, Repr

/-- An access of host software (R87, R550, R551): through PF1 BAR0 of a link, of `size` bytes, a write with its data or a read; or to a
word of a function's MSI-X table; or a read of a word of its pending-bit array. -/
inductive RegAcc where
  /-- The configuration space of function `f`: a read, or a write of one register. -/
  | config (f : BitVec 9) (r : CfgReg) (wr : Option W32)
  /-- `size` bytes at an offset of PF0's BAR0, PF1's BAR2 or a VF's BAR0 (R89). -/
  | bar (f : BitVec 9) (ofs : BitVec 20) (size : Nat) (wr : Option W64)
  | pf1 (h : Fin 2) (addr : BitVec 28) (size : Nat) (wr : Option W64)
  | vector (f : BitVec 9) (word : BitVec 13) (wr : Option W32)
  | pba (f : BitVec 9) (word : BitVec 6)
deriving DecidableEq, Repr

/-- A resource with an enable and a DRAINED bit (R24). -/
inductive Resource where
  | port (p : Fin 16)
  /-- Rings by kind: 0 TX, 1 RX, 2 completion, 3 control, 4 event-log. -/
  | ring (kind : Fin 5) (i : BitVec 12)
  | pool (k : Fin 64)
  | parser
  | agate
  | table (t : Fin 64)
  | orrery
  | queue (q : BitVec 12)
  | delayList (l : Fin 16)
  | egress
  | egressQueue (e : BitVec 14)
  | cpx (n : Fin 32) (u : Fin 2)
  | channel (n : Fin 32) (c : Fin 64)
  | drc
  | cluster (n : Fin 32)
deriving DecidableEq, Repr

/-! The fields of an instruction word after OP (and FN, COND, SENSE or COP, which the mnemonic fixes), by format (R303). A field that
must be 0 is kept, because a non-zero value there faults ILLEGAL. -/

/-- Format R: [25:21] RD, [20:16] RA, [15:11] RB, [4:0] SH. -/
structure FmtR where
  rd : BitVec 5
  ra : BitVec 5
  rb : BitVec 5
  sh : BitVec 5
deriving DecidableEq, Repr

/-- Format I: [25:21] RD, [20:16] RA, [15:0] IMM16. -/
structure FmtI where
  rd : BitVec 5
  ra : BitVec 5
  imm : BitVec 16
deriving DecidableEq, Repr

/-- Format U: [25:21] RD, [20:16] RA, [15:11] RB, [10:6] RC. -/
structure FmtU where
  rd : BitVec 5
  ra : BitVec 5
  rb : BitVec 5
  rc : BitVec 5
deriving DecidableEq, Repr

/-- Format UI: [25:21] RD, [20:16] RA, [15:6] IMM10. -/
structure FmtUI where
  rd : BitVec 5
  ra : BitVec 5
  imm : BitVec 10
deriving DecidableEq, Repr

/-- Format BR: [25:21] RA, [20:16] RB, [12:0] OFF13. -/
structure FmtBR where
  ra : BitVec 5
  rb : BitVec 5
  off : BitVec 13
deriving DecidableEq, Repr

/-- Format BB: [24:12] BIT, [11:0] OFF12. -/
structure FmtBB where
  bit : BitVec 13
  off : BitVec 12
deriving DecidableEq, Repr

/-- Format J: [25:0] OFF26. -/
structure FmtJ where
  off : BitVec 26
deriving DecidableEq, Repr

/-- Format BT: [21:17] R, [16] IDX, [15:13] 0, [12:0] BIT. -/
structure FmtBT where
  r : BitVec 5
  idx : Bool
  zero : BitVec 3
  bit : BitVec 13
deriving DecidableEq, Repr

/-- Format MD: [25:21] PX, [20:16] PY, [15] ACC, [14:13] TYPE, [12] SAT, [11:6] SX, [5:0] SY. -/
structure FmtMD where
  px : BitVec 5
  py : BitVec 5
  acc : Bool
  ty : BitVec 2
  sat : Bool
  sx : BitVec 6
  sy : BitVec 6
deriving DecidableEq, Repr

/-- Format X1: [25] UNIT, [24:21] LANE, [20:17] CD, [16:13] CA, [12:9] CB. -/
structure FmtX1 where
  unit : Bool
  lane : BitVec 4
  cd : BitVec 4
  ca : BitVec 4
  cb : BitVec 4
deriving DecidableEq, Repr

/-- Format X2: [25] UNIT, [24:21] LANE, [20:17] C, [16:12] G, [11:10] W, [6:0] 0. -/
structure FmtX2 where
  unit : Bool
  lane : BitVec 4
  c : BitVec 4
  g : BitVec 5
  w : BitVec 2
  zero : BitVec 7
deriving DecidableEq, Repr

/-- Format X3: [25] UNIT, [24:21] LANE, [20:17] C, [16:12] G, [11:9] 0, [5:0] 0. -/
structure FmtX3 where
  unit : Bool
  lane : BitVec 4
  c : BitVec 4
  g : BitVec 5
  mid : BitVec 3
  zero : BitVec 6
deriving DecidableEq, Repr

/-- Format X4: [25] UNIT, [24:21] LANE, [20:9] 0, [6:0] 0. -/
structure FmtX4 where
  unit : Bool
  lane : BitVec 4
  mid : BitVec 12
  zero : BitVec 7
deriving DecidableEq, Repr

/-- A command. -/
inductive Instr where
  -- Instructions
  /-- ADD (R305): gD = gA + gB, setting C, V, Z, N. -/
  | add (t : BitVec 14) (f : FmtR)
  /-- SUB (R305): gD = gA − gB, setting borrow, V, Z, N. -/
  | sub (t : BitVec 14) (f : FmtR)
  /-- AND (R305): Bitwise AND of two registers. -/
  | and (t : BitVec 14) (f : FmtR)
  /-- OR (R305): Bitwise OR of two registers. -/
  | or (t : BitVec 14) (f : FmtR)
  /-- XOR (R305): Bitwise XOR of two registers. -/
  | xor (t : BitVec 14) (f : FmtR)
  /-- SHL (R305): Shift left by gB[4:0]. -/
  | shl (t : BitVec 14) (f : FmtR)
  /-- SHR (R305): Logical shift right by gB[4:0]. -/
  | shr (t : BitVec 14) (f : FmtR)
  /-- SAR (R305): Arithmetic shift right by gB[4:0]. -/
  | sar (t : BitVec 14) (f : FmtR)
  /-- ROL (R305): Rotate left by gB[4:0]. -/
  | rol (t : BitVec 14) (f : FmtR)
  /-- ROR (R305): Rotate right by gB[4:0]. -/
  | ror (t : BitVec 14) (f : FmtR)
  /-- MUL (R305): Low 32 bits of the product. -/
  | mul (t : BitVec 14) (f : FmtR)
  /-- MULHU (R305): High 32 bits of the unsigned product. -/
  | mulhu (t : BitVec 14) (f : FmtR)
  /-- MULHS (R305): High 32 bits of the signed product. -/
  | mulhs (t : BitVec 14) (f : FmtR)
  /-- MIN (R305): Signed minimum. -/
  | min (t : BitVec 14) (f : FmtR)
  /-- MAX (R305): Signed maximum. -/
  | max (t : BitVec 14) (f : FmtR)
  /-- MINU (R305): Unsigned minimum. -/
  | minu (t : BitVec 14) (f : FmtR)
  /-- MAXU (R305): Unsigned maximum. -/
  | maxu (t : BitVec 14) (f : FmtR)
  /-- SLT (R305): Set gD to 1 if gA < gB signed. -/
  | slt (t : BitVec 14) (f : FmtR)
  /-- SLTU (R305): Set gD to 1 if gA < gB unsigned. -/
  | sltu (t : BitVec 14) (f : FmtR)
  /-- CLZ (R305): Leading zero count. -/
  | clz (t : BitVec 14) (f : FmtR)
  /-- POPC (R305): Count of 1 bits. -/
  | popc (t : BitVec 14) (f : FmtR)
  /-- BSWAP (R305): Reverses the bytes of gA. -/
  | bswap (t : BitVec 14) (f : FmtR)
  /-- CSUM (R305): End-around-carry addition. -/
  | csum (t : BitVec 14) (f : FmtR)
  /-- CSUMF (R305): Folds and complements a checksum to 16 bits. -/
  | csumf (t : BitVec 14) (f : FmtR)
  /-- EXT (R305): Extracts a bit field. -/
  | ext (t : BitVec 14) (f : FmtR)
  /-- INS (R305): Inserts a bit field. -/
  | ins (t : BitVec 14) (f : FmtR)
  /-- ADDC (R305): Add with carry. -/
  | addc (t : BitVec 14) (f : FmtR)
  /-- SUBB (R305): Subtract with borrow. -/
  | subb (t : BitVec 14) (f : FmtR)
  /-- SEL (R305): Selects gA or gB by C. -/
  | sel (t : BitVec 14) (f : FmtR)
  /-- ADDI (R305): Adds a sign-extended immediate. -/
  | addi (t : BitVec 14) (f : FmtI)
  /-- ANDI (R305): AND with a zero-extended immediate. -/
  | andi (t : BitVec 14) (f : FmtI)
  /-- ORI (R305): OR with a zero-extended immediate. -/
  | ori (t : BitVec 14) (f : FmtI)
  /-- XORI (R305): XOR with a zero-extended immediate. -/
  | xori (t : BitVec 14) (f : FmtI)
  /-- LUI (R305): Loads an immediate into the upper half. -/
  | lui (t : BitVec 14) (f : FmtI)
  /-- SHI (R305): Shift or rotate by an immediate. -/
  | shi (t : BitVec 14) (f : FmtI)
  /-- CMPI (R305): Sets flags from gA minus an immediate. -/
  | cmpi (t : BitVec 14) (f : FmtI)
  /-- LD_B (R306): Loads a zero-extended byte. -/
  | ldB (t : BitVec 14) (f : FmtI)
  /-- LD_BS (R306): Loads a sign-extended byte. -/
  | ldBs (t : BitVec 14) (f : FmtI)
  /-- LD_H (R306): Loads a little-endian halfword, zero-extended. -/
  | ldH (t : BitVec 14) (f : FmtI)
  /-- LD_HS (R306): Loads a little-endian halfword, sign-extended. -/
  | ldHs (t : BitVec 14) (f : FmtI)
  /-- LD_W (R306): Loads a little-endian word. -/
  | ldW (t : BitVec 14) (f : FmtI)
  /-- LDN_H (R306): Loads a network-order halfword. -/
  | ldnH (t : BitVec 14) (f : FmtI)
  /-- LDN_W (R306): Loads a network-order word. -/
  | ldnW (t : BitVec 14) (f : FmtI)
  /-- LDA (R306): Loads 64 bits into an accumulator. -/
  | lda (t : BitVec 14) (f : FmtI)
  /-- ST_B (R306): Stores a byte. -/
  | stB (t : BitVec 14) (f : FmtI)
  /-- ST_H (R306): Stores a little-endian halfword. -/
  | stH (t : BitVec 14) (f : FmtI)
  /-- ST_W (R306): Stores a little-endian word. -/
  | stW (t : BitVec 14) (f : FmtI)
  /-- STN_H (R306): Stores a network-order halfword. -/
  | stnH (t : BitVec 14) (f : FmtI)
  /-- STN_W (R306): Stores a network-order word. -/
  | stnW (t : BitVec 14) (f : FmtI)
  /-- STA (R306): Stores 64 bits of an accumulator. -/
  | sta (t : BitVec 14) (f : FmtI)
  /-- CSLD (R306): Adds a network-order word from memory into gD with end-around carry. -/
  | csld (t : BitVec 14) (f : FmtI)
  /-- BEQ (R308): Branches if equal. -/
  | beq (t : BitVec 14) (f : FmtBR)
  /-- BNE (R308): Branches if not equal. -/
  | bne (t : BitVec 14) (f : FmtBR)
  /-- BLT (R308): Branches if less, signed. -/
  | blt (t : BitVec 14) (f : FmtBR)
  /-- BGE (R308): Branches if greater or equal, signed. -/
  | bge (t : BitVec 14) (f : FmtBR)
  /-- BLTU (R308): Branches if less, unsigned. -/
  | bltu (t : BitVec 14) (f : FmtBR)
  /-- BGEU (R308): Branches if greater or equal, unsigned. -/
  | bgeu (t : BitVec 14) (f : FmtBR)
  /-- BB_S (R308): Branches if the named bit is set. -/
  | bbS (t : BitVec 14) (f : FmtBB)
  /-- BB_C (R308): Branches if the named bit is clear. -/
  | bbC (t : BitVec 14) (f : FmtBB)
  /-- JMP (R308): Jumps by a word offset. -/
  | jmp (t : BitVec 14) (f : FmtJ)
  /-- CALL (R308): Jumps and writes the return address to g31. -/
  | call (t : BitVec 14) (f : FmtJ)
  /-- JR (R308): Jumps to the address in gA. -/
  | jr (t : BitVec 14) (f : FmtR)
  /-- JALR (R308): Jumps to gA and writes the return address to gD. -/
  | jalr (t : BitVec 14) (f : FmtR)
  /-- BSET (R309): Sets a bit. -/
  | bset (t : BitVec 14) (f : FmtBT)
  /-- BCLR (R309): Clears a bit. -/
  | bclr (t : BitVec 14) (f : FmtBT)
  /-- BNOT (R309): Inverts a bit. -/
  | bnot (t : BitVec 14) (f : FmtBT)
  /-- BTST (R309): Tests a bit into C and Z. -/
  | btst (t : BitVec 14) (f : FmtBT)
  /-- BTAS (R309): Tests and sets a bit atomically. -/
  | btas (t : BitVec 14) (f : FmtBT)
  /-- BTAC (R309): Tests and clears a bit atomically. -/
  | btac (t : BitVec 14) (f : FmtBT)
  /-- BPUT (R309): Writes gR[0] into a bit. -/
  | bput (t : BitVec 14) (f : FmtBT)
  /-- BGET (R309): Reads a bit into gR. -/
  | bget (t : BitVec 14) (f : FmtBT)
  /-- MACD (R310): Loads two operands, multiply-accumulates with optional saturation and post-increments the pointers. -/
  | macd (t : BitVec 14) (f : FmtMD)
  /-- MAC (R311): Signed multiply-accumulate into an accumulator. -/
  | mac (t : BitVec 14) (f : FmtR)
  /-- MACU (R311): Unsigned multiply-accumulate into an accumulator. -/
  | macu (t : BitVec 14) (f : FmtR)
  /-- MFA (R311): Moves half an accumulator to a register. -/
  | mfa (t : BitVec 14) (f : FmtR)
  /-- MTA (R311): Moves a register to half an accumulator. -/
  | mta (t : BitVec 14) (f : FmtR)
  /-- CLRA (R311): Clears an accumulator. -/
  | clra (t : BitVec 14) (f : FmtR)
  /-- CRCB (R312): Updates a CRC32C with one byte. -/
  | crcb (t : BitVec 14) (f : FmtR)
  /-- CRCH (R312): Updates a CRC32C with two bytes. -/
  | crch (t : BitVec 14) (f : FmtR)
  /-- CRCW (R312): Updates a CRC32C with four bytes. -/
  | crcw (t : BitVec 14) (f : FmtR)
  /-- LKP (R315): Issues an Agate lookup into a response slot, waiting only while the slot is pending. -/
  | lkp (t : BitVec 14) (f : FmtU)
  /-- LKPW (R315): Issues a lookup and waits for its response. -/
  | lkpw (t : BitVec 14) (f : FmtU)
  /-- LKW (R315): Waits until every listed lookup slot is not pending. -/
  | lkw (t : BitVec 14) (f : FmtUI)
  /-- CLD (R316): Copies bytes at a packet offset of a chain into local memory. -/
  | cld (t : BitVec 14) (f : FmtU)
  /-- CST (R317): Copies bytes from local memory into a chain in place, extending it if needed, or returns NOBUF. -/
  | cst (t : BitVec 14) (f : FmtU)
  /-- CALLOC (R319): Allocates a chain of n cells under the cluster's requester and returns its handle or the null handle. -/
  | calloc (t : BitVec 14) (f : FmtU)
  /-- CREF (R316): Adds a reference to a chain, or returns REF_SAT. -/
  | cref (t : BitVec 14) (f : FmtU)
  /-- CFREE (R318): Removes a reference from a chain without waiting. -/
  | cfree (t : BitVec 14) (f : FmtU)
  /-- GET (R222): The thread asks a schedule group for work and waits until an item is dispatched. -/
  | get (t : BitVec 14) (f : FmtUI)
  /-- ENQ_INSTRUCTION (R230): A blocking disposing enqueue of the current item, keeping or replacing its tag by R230. -/
  | enqInstruction (t : BitVec 14) (f : FmtU)
  /-- ENQ_NB (R238): A non-blocking disposing enqueue that returns XOFF or FULL without waiting. -/
  | enqNb (t : BitVec 14) (f : FmtU)
  /-- ENQD (R230): A blocking derived enqueue of a thread-built item; the current item is unchanged. -/
  | enqd (t : BitVec 14) (f : FmtU)
  /-- ENQD_NB (R238): A non-blocking derived enqueue. -/
  | enqdNb (t : BitVec 14) (f : FmtU)
  /-- EMIT (R228): The final emit sends the item to an egress queue through the ordering gate and disposes of it. -/
  | emit (t : BitVec 14) (f : FmtU)
  /-- EMITK (R228): An emit that keeps the item, adding a chain reference, or returns REPL_OVER or REF_SAT. -/
  | emitk (t : BitVec 14) (f : FmtU)
  /-- DROP (R227): Discards the current item, marking its tag done and releasing its context. -/
  | drop (t : BitVec 14) (f : FmtU)
  /-- AEND (R233): Ends the atomic section and releases the context while keeping the item. -/
  | aend (t : BitVec 14) (f : FmtU)
  /-- DLY (R247): Inserts a thread-form item into a delay list and returns the status without waiting. -/
  | dly (t : BitVec 14) (f : FmtU)
  /-- WFRM (R324): Converts the current item to thread form. -/
  | wfrm (t : BitVec 14) (f : FmtU)
  /-- FLA (R368): Blocking lock acquire. -/
  | fla (t : BitVec 14) (f : FmtU)
  /-- FLT (R370): Lock try-acquire, returning BUSY when it cannot succeed. -/
  | flt (t : BitVec 14) (f : FmtU)
  /-- FLR (R368): Lock release, or forced release by the supervisor. -/
  | flr (t : BitVec 14) (f : FmtU)
  /-- FSA (R369): Blocking semaphore acquire of a count. -/
  | fsa (t : BitVec 14) (f : FmtU)
  /-- FST (R369): Semaphore try-acquire. -/
  | fst (t : BitVec 14) (f : FmtU)
  /-- FSR (R369): Semaphore release, or forced release of a holder's units by the supervisor. -/
  | fsr (t : BitVec 14) (f : FmtU)
  /-- FWR (R372): Registers the thread for a freed event on a lock. -/
  | fwr (t : BitVec 14) (f : FmtU)
  /-- FWC (R372): Removes the thread's registration on a lock. -/
  | fwc (t : BitVec 14) (f : FmtU)
  /-- CHSEND (R286): Blocking commit of staging words as one message to a channel. -/
  | chsend (t : BitVec 14) (f : FmtU)
  /-- CHSEND_NB (R286): Non-blocking channel send. -/
  | chsendNb (t : BitVec 14) (f : FmtU)
  /-- CHRECV (R286): Blocking receive of the oldest message of a local channel. -/
  | chrecv (t : BitVec 14) (f : FmtU)
  /-- CHRECV_NB (R286): Non-blocking channel receive. -/
  | chrecvNb (t : BitVec 14) (f : FmtU)
  /-- STW (R326): Writes one staging word. -/
  | stw (t : BitVec 14) (f : FmtUI)
  /-- STGM (R326): Writes n staging words from local memory. -/
  | stgm (t : BitVec 14) (f : FmtUI)
  /-- STGR (R326): Reads one staging word. -/
  | stgr (t : BitVec 14) (f : FmtUI)
  /-- CHWATCH (R326): Sets the thread's channel watch mask. -/
  | chwatch (t : BitVec 14) (f : FmtU)
  /-- WAIT (R272): Returns set masked event bits, or waits until one sets. -/
  | wait (t : BitVec 14) (f : FmtU)
  /-- WAITT (R273): Arms the timer compare and waits with TIMER added to the mask. -/
  | waitt (t : BitVec 14) (f : FmtU)
  /-- TARM (R273): Arms the timer compare without waiting. -/
  | tarm (t : BitVec 14) (f : FmtU)
  /-- TDIS (R328): Disarms the timer compare. -/
  | tdis (t : BitVec 14) (f : FmtU)
  /-- SEV (R328): Sets software event bits of a target thread. -/
  | sev (t : BitVec 14) (f : FmtU)
  /-- RDNT (R328): Reads the cluster's local view of NT64. -/
  | rdnt (t : BitVec 14) (f : FmtU)
  /-- DMA (R329): Starts a transfer between local memory and DRAM or host memory as the descriptor gives. -/
  | dma (t : BitVec 14) (f : FmtU)
  /-- MTC (R356): Writes a general register into a word of a lane register at commit. -/
  | mtc (t : BitVec 14) (f : FmtX2)
  /-- MFC (R356): Reads a word of a lane register once earlier commands have committed. -/
  | mfc (t : BitVec 14) (f : FmtX2)
  /-- LCQ (R356): Loads 16 bytes of local memory into a lane register. -/
  | lcq (t : BitVec 14) (f : FmtX3)
  /-- SCQ (R356): Stores a lane register to 16 bytes of local memory. -/
  | scq (t : BitVec 14) (f : FmtX3)
  /-- CPWAIT (R331): Waits until every confirmed command of the thread on the lane is complete. -/
  | cpwait (t : BitVec 14) (f : FmtX4)
  /-- CPX_LOCK (R342): LOCK grants a free lane or queues for it, writing the grant status into cD. -/
  | cpxLock (t : BitVec 14) (f : FmtX1)
  /-- CPX_UNLOCK (R344): UNLOCK frees the lane, optionally clears it, clears ABANDONED and grants the next waiter. -/
  | cpxUnlock (t : BitVec 14) (f : FmtX1)
  /-- CPX_CLR (R351): Clears the lane registers, state and ERR. -/
  | cpxClr (t : BitVec 14) (f : FmtX1)
  /-- LSTAT (R351): Writes the lane status into cD. -/
  | lstat (t : BitVec 14) (f : FmtX1)
  /-- CPX_MOV (R351): cD = cA. -/
  | cpxMov (t : BitVec 14) (f : FmtX1)
  /-- CPX_XOR (R351): cD = cA XOR cB. -/
  | cpxXor (t : BitVec 14) (f : FmtX1)
  /-- GCM_INIT (R352): Copies a slot key, derives H and J0 and starts GCM. -/
  | gcmInit (t : BitVec 14) (f : FmtX1)
  /-- GCM_AAD (R352): Takes 16 bytes of AAD into GHASH. -/
  | gcmAad (t : BitVec 14) (f : FmtX1)
  /-- GCM_AADP (R352): Takes a partial final AAD block. -/
  | gcmAadp (t : BitVec 14) (f : FmtX1)
  /-- GCM_ENC (R352): Encrypts one block and hashes the ciphertext. -/
  | gcmEnc (t : BitVec 14) (f : FmtX1)
  /-- GCM_ENCP (R352): Encrypts a partial final block. -/
  | gcmEncp (t : BitVec 14) (f : FmtX1)
  /-- GCM_DEC (R352): Decrypts one block and hashes the ciphertext. -/
  | gcmDec (t : BitVec 14) (f : FmtX1)
  /-- GCM_DECP (R352): Decrypts a partial final block. -/
  | gcmDecp (t : BitVec 14) (f : FmtX1)
  /-- GCM_TAG (R352): Writes the GCM tag and ends the operation. -/
  | gcmTag (t : BitVec 14) (f : FmtX1)
  /-- GCM_VERIFY (R352): Compares the computed tag with the expected one and reports match or mismatch. -/
  | gcmVerify (t : BitVec 14) (f : FmtX1)
  /-- CMAC_INIT (R352): Copies a slot key, derives CMAC subkeys and starts CMAC. -/
  | cmacInit (t : BitVec 14) (f : FmtX1)
  /-- CMAC_BLK (R352): Takes one full CMAC block that is not the last. -/
  | cmacBlk (t : BitVec 14) (f : FmtX1)
  /-- CMAC_LAST (R352): Takes the last bytes and writes the MAC. -/
  | cmacLast (t : BitVec 14) (f : FmtX1)
  /-- KEYLD (R353): Writes a key slot and sets VALID at commit. -/
  | keyld (t : BitVec 14) (f : FmtX1)
  /-- KEYCLR (R353): Clears a key slot and VALID. -/
  | keyclr (t : BitVec 14) (f : FmtX1)
  /-- SHA256_INIT (R355): Starts a SHA-256 hash. -/
  | sha256Init (t : BitVec 14) (f : FmtX1)
  /-- SHA384_INIT (R355): Starts a SHA-384 hash. -/
  | sha384Init (t : BitVec 14) (f : FmtX1)
  /-- SHA_UPD (R355): Appends 16 message bytes and compresses full blocks. -/
  | shaUpd (t : BitVec 14) (f : FmtX1)
  /-- SHA_UPDP (R355): Appends the last partial bytes. -/
  | shaUpdp (t : BitVec 14) (f : FmtX1)
  /-- SHA256_FINAL (R355): Pads and writes the 32-byte digest. -/
  | sha256Final (t : BitVec 14) (f : FmtX1)
  /-- SHA384_FINAL (R355): Pads and writes the 48-byte digest. -/
  | sha384Final (t : BitVec 14) (f : FmtX1)
  /-- CRC32C_INIT (R355): Starts a CRC32C. -/
  | crc32cInit (t : BitVec 14) (f : FmtX1)
  /-- CRC64_INIT (R355): Starts a CRC64. -/
  | crc64Init (t : BitVec 14) (f : FmtX1)
  /-- CRC_UPD (R355): Updates the CRC with 16 bytes. -/
  | crcUpd (t : BitVec 14) (f : FmtX1)
  /-- CRC_UPDP (R355): Updates the CRC with the last partial bytes. -/
  | crcUpdp (t : BitVec 14) (f : FmtX1)
  /-- CRC_FINAL (R355): Writes the CRC with its final exclusive-or. -/
  | crcFinal (t : BitVec 14) (f : FmtX1)
  /-- CRC_SEED (R355): Sets the running CRC value. -/
  | crcSeed (t : BitVec 14) (f : FmtX1)
  /-- FEAT (R333): Reads a feature word. -/
  | feat (t : BitVec 14) (f : FmtUI)
  /-- CNT (R332): Adds one packet and gB bytes to a cluster counter set. -/
  | cnt (t : BitVec 14) (f : FmtU)
  /-- RDTID (R332): Reads the thread's ID. -/
  | rdtid (t : BitVec 14) (f : FmtU)
  /-- TRAP (R332): Faults with cause TRAP. -/
  | trap (t : BitVec 14) (f : FmtUI)
  /-- BRK (R519): Enters DEBUG when Edsen takes it, otherwise faults with cause BRK. -/
  | brk (t : BitVec 14) (f : FmtU)
  -- Commands and events
  /-- REGISTER_WRITE (R8): A write to a register field that has no row of its own sets, clears or ignores the field by its access code. -/
  | registerWrite (x : RegAcc)
  /-- RESOURCE_DRAIN_COMPLETE (R24): When no accepted work remains on a resource whose enable has been cleared, the device sets its
  DRAINED bit. -/
  | resourceDrainComplete (r : Resource)
  /-- TIM_INCR_WRITE (R35): A write to TIM_INCR clamps the value to the permitted range and sets INCR_CLAMP if it was limited; in holdover
  the write is ignored. -/
  | timIncrWrite (v : W32)
  /-- HOLD_TIMEOUT_INCR (R45): TIM_HOLD_TIMEOUT µs without a TIM_INCR write that takes effect enter holdover with cause 1. -/
  | holdTimeoutIncr (edges : Nat)
  /-- HOLD_TIMEOUT_PPS (R45): With REF_SEL = 1, TIM_HOLD_TIMEOUT µs without a valid PPS_IN edge enter holdover with cause 2. -/
  | holdTimeoutPps (edges : Nat)
  /-- PPS_IN_EDGE (R50): A valid rising edge on PPS_IN records its network time and increments the PPS count. -/
  | ppsInEdge (highNs : Nat)
  /-- CAL_SYNC_IN_EDGE (R50): A valid rising edge on CAL_SYNC_IN records its network time, increments the count and makes an EXT-mode
  calendar anchor. -/
  | calSyncInEdge (highNs : Nat)
  /-- PPS_OUT_PULSE (R51): When network time reaches a multiple of 10^9 ns with EN = 1, PPS_OUT rises. -/
  | ppsOutPulse (edges : Nat)
  /-- PPS_OUT_PULSE_END (R51): PPS_OUT falls when its pulse width in µs has elapsed. -/
  | ppsOutPulseEnd (edges : Nat)
  /-- TIME_COMPARE_FIRE (R51): A time-compare unit drives its GPIO high at AT, sets FIRED, raises TCMP and advances AT by PER if periodic.
  -/
  | timeCompareFire (k : Fin 4) (edges : Nat)
  /-- TIME_COMPARE_PULSE_END (R51): A time-compare pulse ends after WIDTH ns. -/
  | timeComparePulseEnd (k : Fin 4) (edges : Nat)
  /-- TXTS_META_READ (R49): A read of TIM_TXTS_META pops the head of the port's two-step timestamp FIFO and latches its time into
  TIM_TXTS. -/
  | txtsMetaRead (p : Fin 16)
  /-- EPOCH_AT_WRITE (R61): A write of TIM_EPOCH_AT while armed applies the new instant, flipping at the next edge if it is already past.
  -/
  | epochAtWrite (v : W64)
  /-- EPOCH_FLIP (R54): At the armed instant, or after deferral or a forward step, every unit swaps live and frozen counter banks, SEQ and
  LAST update and EPOCH_FLIP is raised. -/
  | epochFlip (edges : Nat)
  /-- CNT_DUMP (R59): A CNT_DUMP command is checked and starts reading and clearing the frozen banks of the named counter sets. -/
  | cntDump (c : Ctl)
  /-- CNT_DUMP_COMPLETE (R60): The dump writes its records and header, stopping with FLIP_CUT at a flip, and completes with DONE and
  EPOCH_SEQ. -/
  | cntDumpComplete (k : Fin 64) (index : BitVec 17)
  /-- RX_FRAME (R66): A frame received by a MAC is checked, classified to a priority, admitted and written to cells, or counted by the
  first check it fails. -/
  | rxFrame (p : Fin 16) (frame : List Byte) (corr syms bad : Nat)
  /-- PAUSE_REFRESH (R70): Every FC_REFRESH ns while any priority stays paused, the port repeats its pause or PFC frame. -/
  | pauseRefresh (p : Fin 16) (edges : Nat)
  /-- FRAME_TX_COMPLETE (R72): The last bit of a transmitted frame leaves, counters update and the chain's reference is removed. -/
  | frameTxComplete (p : Fin 16) (edges : Nat)
  /-- PHY_EN_SET (R74): Setting PHY_EN moves the link from OFF to WAIT_SIGNAL, applies stored loopback and AN mode and clears PRBS
  enables. -/
  | phyEnSet (p : Fin 16)
  /-- PHY_EN_CLEAR (R74): Clearing PHY_EN returns the link to OFF with transmitters in electrical idle. -/
  | phyEnClear (p : Fin 16) (part : Option Nat)
  /-- PORT_EN_SET (R80): Setting LPT[p]_CFG.EN resumes the MAC datapath and egress admission for the port. -/
  | portEnSet (p : Fin 16)
  /-- PORT_EN_CLEAR (R80): Clearing EN truncates the frame in reception, completes the frame in transmission and makes egress drop the
  port's packets as PORT_OFF. -/
  | portEnClear (p : Fin 16) (part : Option Nat)
  /-- SIGNAL_DETECT (R74): When every lane of the port detects signal in WAIT_SIGNAL, the link enters TRAIN. -/
  | signalDetect (p : Fin 16)
  /-- TRAIN_COMPLETE (R74): When all lanes are trained and CDR locked, the link enters ALIGN. -/
  | trainComplete (p : Fin 16) (taps : List (BitVec 6 × BitVec 6 × BitVec 6 × BitVec 6))
  /-- TRAIN_TIMEOUT (R74): When TRAIN_MS elapses in TRAIN, the link returns to WAIT_SIGNAL and DOWN_CNT increments. -/
  | trainTimeout (p : Fin 16) (edges : Nat)
  /-- ALIGN_DONE (R74): When FEC and PCS lanes are aligned, the link enters UP. -/
  | alignDone (p : Fin 16)
  /-- SIGNAL_LOSS (R74): Loss of signal or alignment returns the link to WAIT_SIGNAL, truncating reception and aborting transmission. -/
  | signalLoss (p : Fin 16) (part : Option Nat)
  /-- LINK_FAULT (R74): A local or remote fault detected in UP moves the link to FAULT. -/
  | linkFault (p : Fin 16) (remote : Bool) (part : Option Nat)
  /-- LINK_FAULT_CLEAR (R74): When faults clear in FAULT, the link returns to UP. -/
  | linkFaultClear (p : Fin 16)
  /-- QUAD_MODE_WRITE (R81): A write to LPT_QUAD[q]_CFG.MODE changes the quad's ports if they are all drained and disabled, or is refused
  with MODE_REJECT. -/
  | quadModeWrite (q : Fin 4) (m : BitVec 3)
  /-- EYE_MEASURE_GO (R77): GO starts an eye measurement at PHASE over DWELL × 1,024 bits, or is ignored while BUSY. -/
  | eyeMeasureGo (l : Fin 16)
  /-- EYE_MEASURE_DONE (R77): The three eye heights are written to EYE_RES and BUSY clears. -/
  | eyeMeasureDone (l : Fin 16) (upper middle lower : Byte)
  /-- PRBS_ENABLE (R78): A write enabling a lane's PRBS generator or checker takes effect only with MODE non-zero and PHY_EN = 0, or sets
  REJECT. -/
  | prbsEnable (l : Fin 16) (gen chk : Bool)
  /-- PRBS_CHECKER_LOCK (R78): The checker locks to the pattern, sets CHK_LOCK and starts counting bit errors. -/
  | prbsCheckerLock (l : Fin 16) (errors : Nat)
  /-- DOORBELL_TX (R94): A TX doorbell sets the producer index of the named TX ring, or is discarded and counted DB_DROP. -/
  | doorbellTx (f : BitVec 9) (ring : BitVec 13) (index : BitVec 17) (formed : Bool)
  /-- DOORBELL_RX (R94): An RX doorbell posts buffers by setting the RX ring's producer index, releasing packets held for buffers. -/
  | doorbellRx (f : BitVec 9) (ring : BitVec 13) (index : BitVec 17) (formed : Bool)
  /-- DOORBELL_CQ (R105): A CQ doorbell sets the consumer index, resumes a stalled ring and arms it when ARM = 1. -/
  | doorbellCq (f : BitVec 9) (ring : BitVec 13) (index : BitVec 17) (arm formed : Bool)
  /-- DOORBELL_CONTROL (R94): A control doorbell sets the producer index of a control ring so that new commands start. -/
  | doorbellControl (f : BitVec 9) (ring : BitVec 13) (index : BitVec 17) (formed : Bool)
  /-- DOORBELL_EVENT_LOG (R105): An event-log doorbell sets the consumer index and arms the ring when ARM = 1. -/
  | doorbellEventLog (f : BitVec 9) (ring : BitVec 13) (index : BitVec 17) (arm formed : Bool)
  /-- RING_ENABLE (R92): Setting EN on a ring zeroes its indices, or is refused with REJECT under the conditions of R92. -/
  | ringEnable (k : Fin 5) (i : BitVec 12)
  /-- RING_DISABLE (R117): Clearing EN on a ring stops fetching or delivery; work in flight completes and DRAINED follows. -/
  | ringDisable (k : Fin 5) (i : BitVec 12)
  /-- TX_PACKET_FETCH (R97): HIF chooses the next TX ring by priority and DWRR and fetches a packet's descriptors and data into cells. -/
  | txPacketFetch (i : BitVec 12) (x : TxRead)
  /-- TX_PACKET_COMPLETE (R100): Once a packet's data is in Cairn or it is dropped, CONS advances and a completion is written when CQE or
  an error requires it. -/
  | txPacketComplete (i : BitVec 12)
  /-- DMA_READ_ERROR (R110): A failed read for a ring stops that ring, sets ERR, writes a ring-error entry and a RING_STOP record and
  counts DMAERR. -/
  | dmaReadError (k : Fin 3) (i : BitVec 12) (x : RxCut)
  /-- RX_PACKET_DELIVER (R101): HIF writes a packet released to an RX ring into posted buffers and then its completion entry, or drops or
  holds it. -/
  | rxPacketDeliver (e : BitVec 14) (descs : List RxDesc)
  /-- CQ_MODERATION_TIMEOUT (R105): MOD_NS after the oldest unread entry or arming, an armed completion ring sends its message. -/
  | cqModerationTimeout (c : BitVec 10) (edges : Nat)
  /-- MSIX_PENDING_SEND (R90): A message held as pending is sent as soon as the function can send it. -/
  | msixPendingSend (f : BitVec 9) (v : BitVec 11)
  /-- NOP (R108): The NOP control command completes OK. -/
  | nop (c : Ctl) (op : W16)
  /-- PF0_READY_WRITE (R112): Firmware sets or clears a link's PF0 ready bit through the MGT register port; writes from PF1 are ignored.
  -/
  | pf0ReadyWrite (h : Fin 2) (v fromMgt : Bool)
  /-- FUNCTION_LEVEL_RESET (R113): FLR of a function stops its rings, abandons RX buffers and drops packets destined to it. -/
  | functionLevelReset (f : BitVec 9)
  /-- FLR_COMPLETE (R113): FLR of a function completes within 1 ms and FLR_BUSY clears. -/
  | flrComplete (f : BitVec 9)
  /-- VF_DISABLE (R113): Clearing VF Enable acts as FLR of every VF. -/
  | vfDisable (h : Fin 2)
  /-- VF_ENABLE (R554): Setting VF Enable makes VFs up to NumVFs exist. -/
  | vfEnable (h : Fin 2) (n : Byte)
  /-- BUS_MASTER_ENABLE_CHANGE (R115): A function's Bus Master Enable changes, stopping or resuming its DMA. -/
  | busMasterEnableChange (f : BitVec 9) (v : Bool)
  /-- D3HOT_CHANGE (R115): A function enters or leaves D3hot, stopping or resuming its DMA and messages. -/
  | d3hotChange (f : BitVec 9) (v : Bool)
  /-- PCIE_LINK_UP (R554): A host link's data link layer comes up and its functions' rings may fetch and deliver again. -/
  | pcieLinkUp (h : Fin 2) (speed : BitVec 3) (width : BitVec 5) (flit : Bool)
  /-- PCIE_LINK_DOWN (R554): A host link goes down; its rings keep state and packets to its RX rings are dropped FN_OFF. -/
  | pcieLinkDown (h : Fin 2)
  /-- CELL_ALLOC (R134): CELL_ALLOC grants zero-filled cells as an unowned chain under the named requester, or completes NOBUF or RANGE.
  -/
  | cellAlloc (c : Ctl)
  /-- CHAIN_FREE (R134): CHAIN_FREE removes one reference from a checked chain and returns the remaining count. -/
  | chainFree (c : Ctl)
  /-- CELL_READ (R134): CELL_READ checks its fields and handle and copies packet bytes to host memory. -/
  | cellRead (c : Ctl)
  /-- POOL_ENABLE (R124): Setting a pool's EN makes its cells free and grantable, or is refused with REJECT. -/
  | poolEnable (k : Fin 64)
  /-- POOL_DISABLE (R125): Clearing a pool's EN stops grants at once; allocated cells free normally. -/
  | poolDisable (k : Fin 64)
  /-- CHAIN_SWEEP (R133): After a cluster reset, Cairn removes the allocation reference of every chain the cluster owns and clears
  RECLAIM_BUSY when done. -/
  | chainSweep (n : Fin 32)
  /-- CRN_REQ_PEAK_READ (R552): A read of CRN_REQ_PEAK returns the value and restarts it from the current USED. -/
  | crnReqPeakRead (r : BitVec 9)
  /-- LOOKUP_COMPLETE (R182): Agate writes the 32-byte response into the named slot, counts the hit, sets hit bits and resumes a waiting
  thread. -/
  | lookupComplete (j : Nat)
  /-- TABLE_ENABLE (R168): Setting AGT_TBL[t]_CFG.EN checks the configuration and starts initialising the table, or is refused with
  REJECT. -/
  | tableEnable (t : Fin 64)
  /-- TABLE_INIT_COMPLETE (R168): A table's initialisation writes finish and INIT clears. -/
  | tableInitComplete (t : Fin 64)
  /-- TABLE_DISABLE (R169): Clearing a table's EN makes later lookups ABSENT, closes its cursor and discards queued learn requests. -/
  | tableDisable (t : Fin 64)
  /-- FC_INVALIDATE_TABLE_DONE (R174): After FC_EN clears, the table's cached copies are invalidated within 25 µs. -/
  | fcInvalidateTableDone (t : Fin 64)
  /-- MOVE_WINDOW_CLOSE (R198): An entry's move window closes MOVE_WINDOW ns after it opened. -/
  | moveWindowClose (t : Fin 64) (key : List Byte) (edges : Nat)
  /-- AGEING_PASS_START (R199): Every PERIOD_MS the ageing scanner begins a pass over a table, or as soon as the previous pass ends. -/
  | ageingPassStart (t : Fin 64) (edges : Nat)
  /-- AGEING_VISIT (R199): At each location, the scanner clears a set hit bit or deletes an entry that has not been hit. -/
  | ageingVisit (x : Fin 64 × Nat)
  /-- TBL_INSERT (R208): TBL_INSERT adds an EM entry, LPM prefix or DIR entry, completing OK, EXISTS, FULL or FULL_DEFERRED. -/
  | tblInsert (c : Ctl) (img : List Byte)
  /-- TBL_UPDATE (R207): TBL_UPDATE rewrites the selected fields of an existing entry found by key or location. -/
  | tblUpdate (c : Ctl) (img : List Byte)
  /-- TBL_DELETE (R208): TBL_DELETE deletes the entry found by key, prefix or location. -/
  | tblDelete (c : Ctl) (img : List Byte)
  /-- TBL_SEARCH (R208): TBL_SEARCH writes the entry found by key, prefix or location to the host buffer. -/
  | tblSearch (c : Ctl) (img : List Byte)
  /-- TBL_NEXT (R209): TBL_NEXT opens or continues the table cursor and writes up to COUNT records. -/
  | tblNext (c : Ctl)
  /-- TBL_FLUSH (R212): TBL_FLUSH bumps the generation or starts a pass deleting entries selected by MODE. -/
  | tblFlush (c : Ctl)
  /-- FLUSH_VISIT (R212): A flush pass visits one location and deletes the entry its mode selects. -/
  | flushVisit (t : Fin 64)
  /-- TBL_FLUSH_COMPLETE (R212): The flush pass ends and the command completes with DONE set to the number of deletes. -/
  | tblFlushComplete (t : Fin 64)
  /-- TBL_CURSOR_CLOSE (R209): TBL_CURSOR_CLOSE closes the table's cursor. -/
  | tblCursorClose (c : Ctl)
  /-- TBL_LOC_CLEAR (R202): TBL_LOC_CLEAR writes a listed location invalid with good parity and removes it from the parity list. -/
  | tblLocClear (c : Ctl)
  /-- CURSOR_TIMEOUT (R209): A cursor closes after 1 s with no TBL_NEXT. -/
  | cursorTimeout (t : Fin 64) (edges : Nat)
  /-- DISPATCH (R223): Orrery chooses a queue and a waiting thread of a member cluster and writes the work item and packet bytes to it. -/
  | dispatch (g : Fin 64) (edges : Nat)
  /-- TAG_SKIP (R241): A head tag held by a halted thread for HOLD_LIMIT ns is skipped, its emits released and its item marked LATE. -/
  | tagSkip (d : BitVec 14) (edges : Nat)
  /-- QUEUE_DISABLE (R221): Clearing an Orrery queue's EN keeps its items, stops dispatch and refuses enqueues with QOFF. -/
  | queueDisable (q : BitVec 12)
  /-- PURGE (R221): Writing PURGE while EN = 0 starts dropping every item of the queue, or sets REJECT while EN = 1. -/
  | purge (q : BitVec 12)
  /-- PURGE_COMPLETE (R221): The last item of a purge is dropped and PURGE_BUSY clears. -/
  | purgeComplete (q : BitVec 12)
  /-- GROUP_MEMBERSHIP_WRITE (R242): A write to ORY_GRP_MEMBERS changes which clusters receive dispatches from the group at the next
  decision. -/
  | groupMembershipWrite (g : Fin 64) (v : W32)
  /-- DELAY_TICK (R248): At each tick of a delay list, items whose release tick is due are enqueued in order, or dropped if refused. -/
  | delayTick (l : Fin 16) (edges : Nat)
  /-- DELAY_LIST_DISABLE (R250): Clearing a delay list's EN refuses inserts while pending items still release. -/
  | delayListDisable (l : Fin 16)
  /-- ENQ (R253): The ENQ control command enqueues the thread-form item at ADDR and returns any tag. -/
  | enq (c : Ctl) (it : BitVec 512)
  /-- DLY_INSERT (R253): The DLY_INSERT control command inserts the item into a delay list and returns its release tick. -/
  | dlyInsert (c : Ctl) (it : BitVec 512)
  /-- ENQ_UNBLOCK (R238): A blocking enq or enqd waiting on XOFF, limit, slot or tag completes once the queue can accept it. -/
  | enqUnblock (t : BitVec 14)
  /-- GATE_RECORD_WAIT_END (R227): An emit waiting for a gate record proceeds when a record frees. -/
  | gateRecordWaitEnd (t : BitVec 14)
  /-- CELL_OP_COMPLETE (R318): Cairn completes a cld, cst, calloc or cref and the thread's status or handle is written. -/
  | cellOpComplete (t : BitVec 14)
  /-- CHSEND_UNBLOCK (R286): A sender blocked on a full channel commits once room appears. -/
  | chsendUnblock (t : BitVec 14)
  /-- CHRECV_UNBLOCK (R286): A receiver blocked on an empty channel takes the message that arrives. -/
  | chrecvUnblock (t : BitVec 14)
  /-- TIMER_COMPARE_FIRE (R273): When the local view reaches the armed instant, TIMER sets and the compare disarms. -/
  | timerCompareFire (t : BitVec 14) (edges : Nat)
  /-- DMA_COMPLETE (R330): A DMA transfer completes or fails, and the thread resumes with OK or DMAERR. -/
  | dmaComplete (t : BitVec 14) (data : List Byte) (err : Bool)
  /-- CPX_COMMIT (R350): A confirmed coprocessor command whose computation is complete commits its results in lane order. -/
  | cpxCommit (n : Fin 32) (u : Fin 2) (l : Fin 16)
  /-- ICACHE_MISS_FILL (R264): An instruction-cache fill completes and the stalled thread becomes ready. -/
  | icacheMissFill (t : BitVec 14)
  /-- IC_INV (R269): Setting GCL_CTL.IC_INV starts invalidating all instruction caches of the cluster. -/
  | icInv (n : Fin 32)
  /-- IC_INV_DONE (R269): The instruction-cache invalidation completes and IC_INV reads 0. -/
  | icInvDone (n : Fin 32)
  /-- CLUSTER_START (R270): GCL_CTL.START starts the supervisor and every enabled DORMANT thread at their entry points. -/
  | clusterStart (n : Fin 32)
  /-- BUDGET_EXPIRE (R276): A thread's budget timer expires and the thread faults with cause BUDGET. -/
  | budgetExpire (t : BitVec 14) (edges : Nat)
  /-- FAULTQ_POP (R279): A read of GCL_FAULTQ_POP pops the head fault record into GCL_FAULTQ_REC. -/
  | faultqPop (n : Fin 32)
  /-- THRCTL_RESUME (R279): Re-executes the faulting instruction of a thread in FAULT. -/
  | thrctlResume (n : Fin 32) (i : Byte)
  /-- THRCTL_SKIP (R279): Continues a faulted thread at the faulting pc + 4. -/
  | thrctlSkip (n : Fin 32) (i : Byte)
  /-- THRCTL_REDIRECT (R279): Continues a faulted thread at PC. -/
  | thrctlRedirect (n : Fin 32) (i : Byte) (pc : W32)
  /-- THRCTL_DROP (R279): Drops a faulted thread's item and restarts it at GCL_ENTRY. -/
  | thrctlDrop (n : Fin 32) (i : Byte)
  /-- THRCTL_RESET (R282): Resets a thread that is not the supervisor, freeing what it holds and making it DORMANT. -/
  | thrctlReset (n : Fin 32) (i : Byte)
  /-- THRCTL_START (R279): Starts a DORMANT thread at PC. -/
  | thrctlStart (n : Fin 32) (i : Byte) (pc : W32)
  /-- THRCTL_SIGNAL (R279): Sets software event bits of a thread. -/
  | thrctlSignal (n : Fin 32) (i sev : Byte)
  /-- SUPERVISOR_CHANGE (R280): A write of GCL_SUPV.TID makes a new thread supervisor, or is refused if it names a wait-group member. -/
  | supervisorChange (n : Fin 32) (i : Byte)
  /-- CHANNEL_DISABLE (R287): Clearing a channel's EN completes blocked senders and empty-channel receivers with CHOFF. -/
  | channelDisable (n : Fin 32) (c : Fin 64)
  /-- DEADLOCK_DETECT (R289): When a wait group's condition has held for the window, the cluster raises DEADLOCK for it. -/
  | deadlockDetect (n : Fin 32) (w : Fin 8) (edges : Nat)
  /-- FREQUENCY_STEP (R292): A new CCLK step takes effect at a turn of slot 0. -/
  | frequencyStep (n : Fin 32)
  /-- CLUSTER_PARK (R482): With PARK = 1 and the cluster drained, its CCLK stops at a turn boundary. -/
  | clusterPark (n : Fin 32)
  /-- CLUSTER_UNPARK (R482): After PARK clears, CCLK restarts and PARKED clears at the first turn. -/
  | clusterUnpark (n : Fin 32)
  /-- LANE_FREE (R345): Lane control FREE waits for the holder's confirmed commands, clears the lane, marks it ABANDONED and frees it. -/
  | laneFree (n : Fin 32) (u : Fin 2) (l : Fin 16)
  /-- LANE_CLR_ERR (R351): Lane control CLR_ERR clears the lane's ERR bit. -/
  | laneClrErr (n : Fin 32) (u : Fin 2) (l : Fin 16)
  /-- KEY_SLOT_COMMIT (R353): A write of CPX_KEY[s]_CTL commits the written key words as one change of the slot. -/
  | keySlotCommit (n : Fin 32) (k : Fin 512) (valid k256 : Bool)
  /-- CPX_DISABLE (R358): Clearing CPX EN lets confirmed commands complete and ends waiting LOCKs with BUSY. -/
  | cpxDisable (n : Fin 32) (u : Fin 2)
  /-- FLINT_FORCE_RELEASE (R373): A write of FLT_FORCE releases the named owner's holding as abandoned, or sets FORCE_MISS. -/
  | flintForceRelease (w : W32)
  /-- FLT_LOCK_TRY (R377): Host try-acquire of a lock. -/
  | fltLockTry (c : Ctl)
  /-- FLT_LOCK_REL (R377): Host release of a lock. -/
  | fltLockRel (c : Ctl)
  /-- FLT_SEM_TRY (R377): Host try-acquire of semaphore units. -/
  | fltSemTry (c : Ctl)
  /-- FLT_SEM_REL (R377): Host release of semaphore units. -/
  | fltSemRel (c : Ctl)
  /-- FLT_QUERY (R377): Host query of a lock's or semaphore's state. -/
  | fltQuery (c : Ctl)
  /-- EGRESS_START (R387): When a port can start a packet, egress chooses a queue by priority, DWRR, shapers and calendar and starts its
  head. -/
  | egressStart (p : Fin 18) (edges : Nat) (enters : Bool)
  /-- PAUSE_EXPIRE (R390): A received pause timer for a priority runs out and its groups may send again. -/
  | pauseExpire (p : Fin 16) (i : Fin 8) (edges : Nat)
  /-- PERIOD_START (R398): A calendar period begins at its anchor, switching a pending shadow and loading slot 0. -/
  | periodStart (p : Fin 16) (edges : Nat)
  /-- SLOT_BOUNDARY (R401): At a slot boundary ALLOC reloads, DWRR deficits zero and admission changes to the new class. -/
  | slotBoundary (p : Fin 16) (edges : Nat)
  /-- PREROLL_START (R402): PREROLL ns before a slot boundary, egress starts fetching the next slot's cells. -/
  | prerollStart (p : Fin 16) (edges : Nat)
  /-- SW_REQ (R403): Setting MER[p]_CTL.SW_REQ requests a calendar switch. -/
  | swReq (p : Fin 16)
  /-- CALENDAR_ENABLE (R403): Setting MER EN starts the calendar by R398 or R399, or is refused with REJECT. -/
  | calendarEnable (p : Fin 16)
  /-- CALENDAR_DISABLE (R403): Clearing MER EN stops the calendar at the end of the running period, or at once in a gap. -/
  | calendarDisable (p : Fin 16)
  /-- CALENDAR_STOP (R403): At the end of the running period after EN clears, STATE becomes OFF and every queue is admitted. -/
  | calendarStop (p : Fin 16) (edges : Nat)
  /-- DRAM_REQUEST (R413): A client request enters its channel's read or write queue by port priority and weight. -/
  | dramRequest (k : Fin 8) (burst : BitVec 33) (wr : Option (Fin 64 × List Byte)) (line : Fin 16) (edges : Nat)
  /-- DRAM_READ_COMPLETE (R422): A channel returns a burst, corrected or marked poisoned by ECC, and records any error. -/
  | dramReadComplete (c : Fin 6) (x : BurstBack)
  /-- DRAM_WRITE_DRAIN (R416): A channel drains queued writes to DRAM. -/
  | dramWriteDrain (c : Fin 6) (edges : Nat)
  /-- DRAM_REFRESH (R418): A channel issues same-bank refresh at its interval. -/
  | dramRefresh (x : Fin 6 × Fin 2)
  /-- MR4_POLL (R418): Every 1 ms the controller reads MR4 and halves or restores the refresh interval. -/
  | mr4Poll (c : Fin 6) (x : Mr4Read)
  /-- MODE_REGISTER_WRITE (R425): DRC_MRW GO with OP 0 writes a DDR5 mode register. -/
  | modeRegisterWrite (ch : BitVec 3) (sub rank : Bool) (addr : BitVec 12) (data : Byte)
  /-- MODE_REGISTER_READ (R425): DRC_MRW GO with OP 1 reads a DDR5 mode register. -/
  | modeRegisterRead (ch : BitVec 3) (sub rank : Bool) (addr : BitVec 12) (data : Byte)
  /-- RCD_WRITE (R425): DRC_MRW GO with OP 2 writes an RCD register. -/
  | rcdWrite (ch : BitVec 3) (sub rank : Bool) (addr : BitVec 12) (data : Byte)
  /-- RCD_READ (R425): DRC_MRW GO with OP 3 reads an RCD register. -/
  | rcdRead (ch : BitVec 3) (sub rank : Bool) (addr : BitVec 12) (data : Byte)
  /-- MRW_COMPLETE (R425): A command-engine operation finishes and BUSY clears. -/
  | mrwComplete (v : Byte)
  /-- CS_TRAINING (R425): Training STEP 0 sweeps chip select. -/
  | csTraining (ch : BitVec 3) (sub rank : Bool) (lo hi : Byte)
  /-- CA_TRAINING (R425): Training STEP 1 sweeps command and address lanes. -/
  | caTraining (ch : BitVec 3) (sub rank : Bool) (lo hi : Byte)
  /-- WRITE_LEVELLING (R425): Training STEP 2 performs write levelling. -/
  | writeLevelling (ch : BitVec 3) (sub rank : Bool) (lo hi : Byte)
  /-- READ_STROBE_GATING (R425): Training STEP 3 trains read strobe gating. -/
  | readStrobeGating (ch : BitVec 3) (sub rank : Bool) (lo hi : Byte)
  /-- READ_DATA_EYE (R425): Training STEP 4 sweeps the read data eye. -/
  | readDataEye (ch : BitVec 3) (sub rank : Bool) (lo hi : Byte)
  /-- WRITE_DATA_EYE (R425): Training STEP 5 sweeps the write data eye. -/
  | writeDataEye (ch : BitVec 3) (sub rank : Bool) (lo hi : Byte)
  /-- DQ_REFERENCE_VOLTAGE (R425): Training STEP 6 sweeps DQ reference voltage. -/
  | dqReferenceVoltage (ch : BitVec 3) (sub rank : Bool) (lo hi : Byte)
  /-- CA_REFERENCE_VOLTAGE (R425): Training STEP 7 sweeps CA reference voltage. -/
  | caReferenceVoltage (ch : BitVec 3) (sub rank : Bool) (lo hi : Byte)
  /-- TRAINING_STEP_DONE (R425): A training step finishes, writes its window edges to DRC_TRN_RES and clears BUSY. -/
  | trainingStepDone (res : List (Byte × Byte × Bool))
  /-- DRC_ECC_READ (R423): A read of DRC_CH[c]_ECC clears the counts and re-arms the corrected-threshold source. -/
  | drcEccRead (c : Fin 6)
  /-- DRC_ECC_ADDR_READ (R423): A read covering bit 63 of DRC_CH[c]_ECC_ADDR clears its UE mark and fields. -/
  | drcEccAddrRead (c : Fin 6)
  /-- ICU_ROUTE_CHOICE (R434): A deliverable source is routed by round robin to an available target, or counted STALLED. -/
  | icuRouteChoice (i : BitVec 10)
  /-- ICU_DELIVERY_COMPLETE (R435): A delivery makes the source outstanding at its target and notifies the target. -/
  | icuDeliveryComplete (i : BitVec 10)
  /-- ICU_CLAIM (R437): A 4-byte read of a claim address returns and claims an outstanding source, or returns 1,023. -/
  | icuClaim (t : Fin 97) (i : BitVec 10)
  /-- ICU_PEND_SET (R431): Writing 1 to an ICU_PEND_SET bit makes an EDGE source pending. -/
  | icuPendSet (j : Fin 32) (w : W32)
  /-- ICU_PEND_CLR (R438): Writing 1 to an ICU_PEND_CLR bit clears an EDGE source's pending bit and withdraws it. -/
  | icuPendClr (j : Fin 32) (w : W32)
  /-- ICU_MASK_SET (R439): Writing 1 to an ICU_MASK_SET bit masks a source and withdraws it if outstanding. -/
  | icuMaskSet (j : Fin 32) (w : W32)
  /-- ICU_MASK_CLR (R432): Writing 1 to an ICU_MASK_CLR bit unmasks a source. -/
  | icuMaskClr (j : Fin 32) (w : W32)
  /-- SW_SET (R444): A supervisor write to SW_SET makes a software source pending. -/
  | swSet (n : Fin 32) (w : W32)
  /-- MGT_WAKE (R483): A delivery, event or imminent timer wakes MGT and restores the retention copy. -/
  | mgtWake (edges : Nat)
  /-- NOC_BEAT_RESEND (R453): A hop resends a beat that arrived with a parity error and counts a replay. -/
  | nocBeatResend (h : Byte) (again : Bool)
  /-- NOC_STUCK (R453): After 256 consecutive failures of one beat, the hop stops, writes NOC_STUCK and sets the status bit. -/
  | nocStuck (h : Byte)
  /-- EINJ_ARM (R463): Writing ARM arms one error injection into the target memory. -/
  | einjArm (target : BitVec 4) (bts : BitVec 2) (cluster : Fin 32) (mtch : Bool) (addr : W64)
  /-- POWER_ON (R470): With PWR_OK high and SYSREF running, AON is released after 1,024 SYSREF cycles and the PLLs start. -/
  | powerOn (cold : Bool) (strap : BitVec 2)
  /-- PERST_ASSERT (R114): PERST_N[h] low resets HOST h, acting as FLR of every function on the link and clearing its PF0 ready bit. -/
  | perstAssert (h : Fin 2)
  /-- PERST_RELEASE (R469): PERST_N[h] high releases its hold on HOST h. -/
  | perstRelease (h : Fin 2)
  /-- SOFTWARE_RESET_REQUEST (R474): A write to RST_SWRST or RST_SWRST_CL asserts reset on the named domains, or is refused with REJECT.
  -/
  | softwareResetRequest (w : BitVec 9) (cl : W32)
  /-- SOFTWARE_RESET_RELEASE (R474): A write to RST_SWRST_CLR or RST_SWRST_CL_CLR releases held software requests. -/
  | softwareResetRelease (w : BitVec 9) (cl : W32)
  /-- RESET_PULSE_END (R466): A pulse source releases after 256 SYSREF cycles. -/
  | resetPulseEnd (edges : Nat)
  /-- DOMAIN_RELEASE (R469): The sequencer releases the next free domain in start-up order after its gap and PLL lock. -/
  | domainRelease (edges : Nat)
  /-- BLOCK_RESET (R475): Writing a RST_BLK_RST bit resets that block's registers and internal state. -/
  | blockReset (b : Fin 8)
  /-- BLOCK_RESET_DONE (R475): A block reset completes within 1 µs and its bit reads 0. -/
  | blockResetDone (b : Fin 8)
  /-- WDT_KICK (R476): A write of 0xC1A5 to RST_WDT_KICK restarts the watchdog, and any other value sets BADKICK. -/
  | wdtKick (key : W16)
  /-- WDT_WARN (R476): When the time remaining reaches WARN_MS, the ICU raises WDT_WARN once per count. -/
  | wdtWarn (edges : Nat)
  /-- WDT_EXPIRE (R476): At zero, the watchdog asserts its pulse source with the reach of REACH and counts EXPIRED. -/
  | wdtExpire (edges : Nat)
  /-- CLOCK_FAILURE (R480): A monitor judges a reference or PLL failed and asserts the clock-failure source. -/
  | clockFailure (k : Fin 48)
  /-- CLOCK_RECOVERY (R480): After 100 µs of good reference and PLL lock, the clock-failure source releases. -/
  | clockRecovery (k : Fin 48)
  /-- THERMAL_SAMPLE (R484): Every 10 µs each sensor is sampled and the alarm condition evaluated. -/
  | thermalSample (ts : List (BitVec 12)) (edges : Nat)
  /-- THROTTLE_STEP_DOWN (R485): Every 100 µs above THROTTLE_C, a cluster's LIMIT falls by one step. -/
  | throttleStepDown (n : Fin 32) (edges : Nat)
  /-- THROTTLE_STEP_UP (R485): Every 1 ms below THROTTLE_C − HYST_C, a cluster's LIMIT rises by one step. -/
  | throttleStepUp (n : Fin 32) (edges : Nat)
  /-- SPI_LOAD_COMPLETE (R498): The ROM finishes reading a flash copy and proceeds to verification or the next copy. -/
  | spiLoadComplete (bs : List Byte)
  /-- MGT_FAULT_DONE (R493): A write to MGT_FAULT_DONE from an MGT thread clears its IN_FAULT. -/
  | mgtFaultDone (t : Fin 8)
  /-- MGT_THRCTL_START (R494): Starts a DORMANT MGT slot at PC. -/
  | mgtThrctlStart (i : Fin 8) (pc : W32)
  /-- MGT_THRCTL_RESET (R494): Resets an MGT slot, freeing its Flint holdings as abandoned. -/
  | mgtThrctlReset (i : Fin 8)
  /-- MGT_THRCTL_SIGNAL (R494): Sets software event bits of an MGT slot. -/
  | mgtThrctlSignal (i : Fin 8) (sev : Byte)
  /-- MGT_MEMWIN_ACCESS (R501): An access through the MGT memory window is served in STAGE 2 or as HOST_MEM allows, otherwise refused with
  WIN_REJECT. -/
  | mgtMemwinAccess (ofs : W16) (wide : Bool) (wr : Option W64)
  /-- TAP_EXTEST (R507): The EXTEST TAP instruction drives boundary-scan outputs while Edsen is unlocked, otherwise acts as BYPASS. -/
  | tapExtest (levels new : BitVec 169)
  /-- TAP_SAMPLE_PRELOAD (R535): The SAMPLE/PRELOAD TAP instruction captures and preloads the boundary-scan cells. -/
  | tapSamplePreload (levels new : BitVec 169)
  /-- DBGACC (R508): Update-DR of DBGACC performs a register access within the permitted reach, or reports DENIED. -/
  | dbgacc (w : BitVec 96)
  /-- DBG_CLAIM (R509): Writing CLAIM while no path owns the session gives it to the writer's path. -/
  | dbgClaim (jtag : Bool)
  /-- DBG_RELEASE (R509): Writing RELEASE ends the writer's session. -/
  | dbgRelease (jtag : Bool)
  /-- CHAL_GO (R511): CHAL_GO issues a fresh 32-byte challenge from the on-die random source. -/
  | chalGo (jtag : Bool)
  /-- VERIFY_GO (R511): VERIFY_GO starts checking the debug token against the challenge, identity and key hash. -/
  | verifyGo (jtag : Bool)
  /-- CHALLENGE_LOCKOUT_END (R511): One second after a failed token, CHAL_GO is accepted again. -/
  | challengeLockoutEnd (edges : Nat)
  /-- RELOCK (R512): A write to RELOCK locks Edsen, resumes halted threads and clears its controls. -/
  | relock (jtag : Bool)
  /-- DBG_HALT (R513): HALT puts the named threads, core or cluster into DEBUG at their next turn. -/
  | dbgHalt (jtag : Bool) (scope : BitVec 2) (tid : BitVec 14)
  /-- DBG_RESUME (R514): RESUME returns a halted thread to the state that R514 gives. -/
  | dbgResume (jtag : Bool) (scope : BitVec 2) (tid : BitVec 14)
  /-- DBG_STEP (R515): STEP runs a halted thread for one instruction and halts it again with REASON = STEP. -/
  | dbgStep (jtag : Bool) (scope : BitVec 2) (tid : BitVec 14)
  /-- DISCARD_STAGE (R516): DISCARD_STAGE sets all staging words of a halted thread to 0. -/
  | discardStage (jtag : Bool) (scope : BitVec 2) (tid : BitVec 14)
  /-- DBG_THREAD_RESET (R525): OP RESET performs a thread reset of each named thread, or is refused for a supervisor. -/
  | dbgThreadReset (jtag : Bool) (scope : BitVec 2) (tid : BitVec 14)
  /-- DEBUG_RESET_REQUEST (R525): Writing DBG_RST or DBG_RST_CL asserts or releases the debug reset request on the named domains. -/
  | debugResetRequest (jtag : Bool) (rst cl : W32)
  /-- SPI_TRANSFER (R490): GO starts an SPI flash transfer, ignored while the ROM owns the controller or BUSY. -/
  | spiTransfer (ctl : W32)
  /-- SPI_TRANSFER_DONE (R490): An SPI transfer finishes and BUSY clears. -/
  | spiTransferDone (bs : List Byte)
  /-- I2C1_TRANSFER (R547): GO starts an I2C1 host transfer to a target. -/
  | i2c1Transfer (ctl : W32)
  /-- I2C1_TRANSFER_DONE (R547): An I2C1 transfer ends, setting NACK if the target did not acknowledge. -/
  | i2c1TransferDone (ack : Bool) (bs : List Byte)
  /-- I2C0_TRANSACTION (R534): A board controller's I2C0 transaction reads AON registers at the written offset. -/
  | i2c0Transaction (ofs : W32) (n : Nat)
  /-- REGISTER_PORT_LOAD_COMPLETE (R491): An MGT load through the register port returns its data some 60 ns after issue, ending the
  thread's long stall. -/
  | registerPortLoadComplete (k : Fin 8)
  /-- CHANNEL_MESSAGE_ARRIVAL (R285): A message committed by a sender in another cluster reaches the target channel after its transit, is
  placed in order and raises CHRX. -/
  | channelMessageArrival (n : Fin 32) (c : Fin 64) (i : Nat)
  /-- MSIX_ENABLE_CHANGE (R433): Host software changes a function's MSI-X Enable or function mask, which makes the function's ICU targets
  available or unavailable and holds or releases its messages. -/
  | msixEnableChange (f : BitVec 9) (en mask : Bool)
  -- Commands and events without operands
  /-- TIM_NT_LOW_READ (R550): A 4-byte read of the low word of TIM_NT latches the high word and TIM_NT_FRAC. -/
  | timNtLowRead
  /-- ADJ_SET (R39): GO with MODE SET arms the load of an absolute NT64 64 PCLK cycles later, or is refused with ADJ_REJECT. -/
  | adjSet
  /-- ADJ_STEP (R39): GO with MODE STEP arms the addition of a signed offset 64 PCLK cycles later, or is refused with ADJ_REJECT. -/
  | adjStep
  /-- ADJ_SLEW (R40): GO with MODE SLEW starts a uniform slew of the offset over the interval, or is refused if the bound is broken. -/
  | adjSlew
  /-- ADJ_ABORT (R41): ABORT stops a running slew, keeps the increments already added, and clears ADJ_BUSY at the next edge. -/
  | adjAbort
  /-- SET_STEP_APPLY (R39): At the Sidereal edge 64 cycles after GO, a SET or STEP takes effect in every local view and STEP_SEQ
  increments. -/
  | setStepApply
  /-- SLEW_COMPLETE (R40): At the end of the slew interval exactly the offset has been added and ADJ_BUSY clears. -/
  | slewComplete
  /-- HOLD_REQ (R45): A write of 1 to HOLD_REQ enters holdover with cause request. -/
  | holdReq
  /-- HOLD_EXIT (R46): A write of 1 to HOLD_EXIT ends holdover, lets TIM_INCR accept writes again and restarts the timeout periods. -/
  | holdExit
  /-- EPOCH_ARM (R54): Setting TIM_EPOCH_CTL.ARM requests a counter-bank flip at TIM_EPOCH_AT. -/
  | epochArm
  /-- EPOCH_DISARM (R61): Clearing ARM before the instant withdraws the pending flip. -/
  | epochDisarm
  /-- PARSE_PACKET (R143): A pipeline accepts a ready packet, walks the graph, classifies it, hashes it and presents the work item to
  Orrery. -/
  | parsePacket
  /-- PARSER_ENABLE (R159): Setting PRS_CTL.EN resumes acceptance, and any pending switch takes effect within 1 µs. -/
  | parserEnable
  /-- PARSER_DISABLE (R160): Clearing PRS_CTL.EN drops every packet not yet taken as PRS_OFF; taken packets complete. -/
  | parserDisable
  /-- GRAPH_REQ (R159): Setting PRS_CTL.GRAPH_REQ requests a switch of the graph set. -/
  | graphReq
  /-- CLS_REQ (R159): Setting PRS_CTL.CLS_REQ requests a switch of the classifier set. -/
  | clsReq
  /-- GRAPH_SWITCH (R159): At a packet boundary the shadow graph set becomes active on all pipelines and GRAPH_SWITCHED sets. -/
  | graphSwitch
  /-- CLASSIFIER_SWITCH (R159): At a packet boundary the shadow classifier set becomes active and CLS_SWITCHED sets. -/
  | classifierSwitch
  /-- FC_FLUSH (R174): Setting AGT_CTL.FC_FLUSH starts invalidating every flow-cache copy. -/
  | fcFlush
  /-- FC_FLUSH_DONE (R174): The flow-cache flush finishes within 25 µs and FC_FLUSH reads 0. -/
  | fcFlushDone
  /-- LEARN_REQUEST (R196): The learning engine takes a request from the queue and inserts, moves, ignores or drops it at its bucket. -/
  | learnRequest
  /-- SPILL_REFILL (R239): When a slot frees and fewer than ONCHIP_MAX items are on-chip, Orrery refills a spill queue from its ring. -/
  | spillRefill
  /-- ORRERY_DISABLE (R257): Clearing ORY_CTL.EN refuses all enqueues while dispatch and delay releases continue. -/
  | orreryDisable
  /-- DELAY_AREA_DISABLE (R256): Clearing ORY_DLY_CTL.EN loses pending delayed items, reading each back to remove its chain reference. -/
  | delayAreaDisable
  /-- DRAM_SCRUB_READ (R424): The patrol scrubber reads the next burst and writes back corrected data. -/
  | dramScrubRead
  /-- INIT_GO (R426): INIT_GO starts writing zero data with valid check bits to all DRAM, or is ignored with REJECT. -/
  | initGo
  /-- INIT_DONE (R426): DRAM initialisation writes finish and INIT_DONE sets. -/
  | initDone
  /-- DRC_ENABLE (R419): Setting DRC_CTL.EN enables the client ports and READY, or is refused with REJECT. -/
  | drcEnable
  /-- DRC_DISABLE (R420): Clearing DRC_CTL.EN stops ports 0–6, or is refused while a DRAM client area is enabled. -/
  | drcDisable
  /-- MGT_SLEEP (R483): With SLEEP_EN, when all MGT threads wait, target 32 is saved and MGCLK stops. -/
  | mgtSleep
  /-- ONCHIP_SCRUB_READ (R462): The on-chip scrubber reads the next word or entry, correcting or recording errors. -/
  | onchipScrubRead
  /-- BROWN_OUT (R466): PWR_OK falling or a rail dropping below its threshold resets every domain except the kept AON records. -/
  | brownOut
  /-- RESET_N_ASSERT (R466): RESET_N low asserts reset on the warm device and sets its cause bit. -/
  | resetNAssert
  /-- RESET_N_RELEASE (R469): RESET_N high releases its hold on the warm device. -/
  | resetNRelease
  /-- SPI_FLASH_TIMEOUT (R498): No flash response within 1 ms records ERR = SPI and moves to the next copy or to fall-back. -/
  | spiFlashTimeout
  /-- HOST_GO (R499): HOST_GO in STAGE 2 starts verification of the host-loaded image. -/
  | hostGo
  /-- IMAGE_VERIFY_COMPLETE (R496): Verification accepts the image and jumps to FW_RUN, or records the error and retries another source.
  -/
  | imageVerifyComplete
  /-- ROM_WDT_KICK (R498): The ROM kicks the watchdog on entering each stage and every 10 ms. -/
  | romWdtKick
  /-- TAP_BYPASS (R507): The BYPASS TAP instruction selects the bypass register. -/
  | tapBypass
  /-- TOKEN_VERIFY_DONE (R511): Verification unlocks Edsen with the signed scope, or sets FAIL, counts it and raises DBG_EVENT. -/
  | tokenVerifyDone
  /-- TAP_RESET (R507): A reset of the TAP, by TRST_N or the TAP controller, selects BYPASS. -/
  | tapReset
deriving DecidableEq, Repr

end Sys2Proof
end

