-- ==== Sys2Proof/Decode.lean ====
section
/-!
DEFINITION. The command that a word of the opcode table spells. The table gives no row bits, so no word spells a command; the words of
the Garnet instructions are in Machine/Encoding.lean.
-/

namespace Sys2Proof

/-- spec/opcode_table.json gives no row any bits. -/
def decodeTableWord (_nbits _w : Nat) : Option Instr := none

end Sys2Proof
end

