-- ==== Sys2Proof/Machine/Crc.lean ====
section
/-!
DEFINITION. Cyclic redundancy checks: CRC32C (R151), CRC64 (R354) and the Ethernet frame check sequence.
-/

namespace Sys2Proof.Machine

/-- One byte through a reflected CRC of 32 bits. -/
def crc32Step (poly crc : Nat) (b : Byte) : Nat :=
  (List.range 8).foldl (fun c _ => if c % 2 = 1 then (c / 2) ^^^ poly else c / 2) (crc ^^^ b.toNat)

/-- CRC32C over bytes, with no initial value and no final exclusive-or (R151, R312). -/
def crc32cRun (crc : Nat) (bs : List Byte) : Nat := bs.foldl (crc32Step 0x82F63B78) crc

/-- CRC32C (R151). -/
def crc32c (bs : List Byte) : Nat := crc32cRun 0xFFFFFFFF bs ^^^ 0xFFFFFFFF

/-- The frame check sequence of IEEE 802.3 as a number whose bytes, least significant first, follow the frame. -/
def ethFcs (bs : List Byte) : Nat := bs.foldl (crc32Step 0xEDB88320) 0xFFFFFFFF ^^^ 0xFFFFFFFF

/-- One byte through CRC64 of ECMA-182, which is not reflected (R354). -/
def crc64Step (crc : Nat) (b : Byte) : Nat :=
  (List.range 8).foldl (fun c _ => if 2 ^ 63 ≤ c then (c * 2 % 2 ^ 64) ^^^ 0x42F0E1EBA9EA3693 else c * 2 % 2 ^ 64)
    (crc ^^^ (b.toNat * 2 ^ 56))

/-- CRC64 over bytes from a running value (R354). -/
def crc64Run (crc : Nat) (bs : List Byte) : Nat := bs.foldl crc64Step crc

end Sys2Proof.Machine
end

