-- ==== Sys2Proof/Machine/RegMap.lean ====
section
/-!
DEFINITION. The register map: one name per register kind of spec/22_register_index.md, and for each its PF1 BAR0 address,
its replication, its width, its reset domain and the fields of its field table (position, access code, reset value), as the
chapters' field tables give them (R8, R10, R548, R550).
-/

namespace Sys2Proof.Machine

/-- A register kind; a replicated register is one kind with an index. -/
inductive RegName where
  | GLB_ID
  | GLB_FEAT0
  | GLB_FEAT1
  | GLB_FEAT2
  | GLB_FEAT3
  | GLB_CLUSTER_PRESENT
  | GLB_ASSIGNED_ID
  | GLB_SCRATCH
  | RST_CAUSE
  | RST_LOCKUP_CL
  | RST_DOM_STS
  | RST_DOM_STS_CL
  | RST_SWRST
  | RST_SWRST_CLR
  | RST_SWRST_CL
  | RST_SWRST_CL_CLR
  | RST_SWRST_CFG
  | RST_BLK_RST
  | RST_WDT_CFG
  | RST_WDT_KICK
  | RST_WDT_STS
  | RST_CLKMON_STS
  | RST_CLKMON_CNT
  | RST_PLL_STS
  | RST_MGT_PWR
  | RST_CLU_CLK
  | RST_THERM_CFG
  | RST_THERM_STS
  | RST_TS
  | RST_ELOG_CFG
  | RST_ELOG_STS
  | RST_ELOG_SEQ
  | RST_ELOG_CNT
  | RST_ERR_CNT
  | RST_SCRUB_CFG
  | RST_SCRUB_STS
  | RST_EINJ_CTL
  | RST_EINJ_ADDR
  | TIM_CTL
  | TIM_STS
  | TIM_NT
  | TIM_NT_FRAC
  | TIM_INCR
  | TIM_HOLD_TIMEOUT
  | TIM_ADJ_CTL
  | TIM_ADJ_OFFSET
  | TIM_ADJ_INTERVAL
  | TIM_PPS_IN_TS
  | TIM_CSI_TS
  | TIM_INPUT_CNT
  | TIM_PPS_OUT_CFG
  | TIM_TCMP_AT
  | TIM_TCMP_CFG
  | TIM_TCMP_PER
  | TIM_TXTS
  | TIM_TXTS_META
  | TIM_TXTS_LOST
  | TIM_EPOCH_CTL
  | TIM_EPOCH_AT
  | TIM_EPOCH_PERIOD
  | TIM_EPOCH_STS
  | TIM_EPOCH_LAST
  | TIM_EPOCH_MERGE
  | ICU_PEND_SET
  | ICU_PEND_CLR
  | ICU_MASK_SET
  | ICU_MASK_CLR
  | ICU_STS
  | ICU_RET_STS
  | ICU_DETAIL
  | ICU_ROUTE
  | ICU_TGT_CFG
  | ICU_TGT_STS
  | ICU_TGT_SUM
  | ICU_CLAIM
  | HIF_LINK_CFG
  | HIF_FN_STS
  | HIF_LINK_STS
  | HIF_FN
  | HIF_TXR_BASE
  | HIF_TXR_CFG
  | HIF_TXR_CFG2
  | HIF_TXR_STS
  | HIF_TXR_PROD
  | HIF_RXR_BASE
  | HIF_RXR_CFG
  | HIF_RXR_CFG2
  | HIF_RXR_STS
  | HIF_RXR_PROD
  | HIF_CQ_BASE
  | HIF_CQ_CFG
  | HIF_CQ_CFG2
  | HIF_CQ_STS
  | HIF_CQ_CONS
  | HIF_CQ_CFG3
  | HIF_CTR_BASE
  | HIF_CTR_CFG
  | HIF_CTR_CFG2
  | HIF_CTR_STS
  | HIF_CTR_PROD
  | HIF_EVR_BASE
  | HIF_EVR_CFG
  | HIF_EVR_CFG2
  | HIF_EVR_STS
  | HIF_EVR_CONS
  | HIF_EVR_CLASS
  | HIF_EVR_LOST
  | LPT_QUAD_CFG
  | LPT_QUAD_STS
  | LPT_CFG
  | LPT_FC
  | LPT_FC_REFRESH
  | LPT_PRI
  | LPT_STS
  | LPT_LINK
  | LPT_LINK_NT
  | LPT_LINK_CFG
  | LPT_TS_ADJ
  | LPT_MAC_LO
  | LPT_MAC_HI
  | LPT_LANE_TXEQ
  | LPT_LANE_ADAPT
  | LPT_LANE_EYE_CTL
  | LPT_LANE_EYE_RES
  | LPT_LANE_PRBS_CTL
  | LPT_LANE_PRBS_ERR
  | CRN_DRAM_CFG
  | CRN_DRAM_BASE
  | CRN_DRAM_LINK
  | CRN_ERR
  | CRN_ERR_HANDLE
  | CRN_POOL_CFG
  | CRN_POOL_SIZE
  | CRN_POOL_STS
  | CRN_REQ_POOL
  | CRN_REQ_HARD
  | CRN_REQ_XOFF
  | CRN_REQ_XON
  | CRN_REQ_STS
  | CRN_REQ_PEAK
  | CRN_CLU_CFG
  | CRN_CLU_STS
  | PRS_CTL
  | PRS_STS
  | AGT_CTL
  | AGT_STS
  | AGT_ERR
  | AGT_ERR_LOC
  | AGT_TBL_CFG
  | AGT_TBL_SIZE
  | AGT_TBL_OBLK
  | AGT_TBL_DBASE
  | AGT_TBL_CBASE
  | AGT_TBL_HB
  | AGT_TBL_AGE
  | AGT_TBL_STASH
  | AGT_TBL_GEN
  | AGT_TBL_STS
  | ORY_CTL
  | ORY_STS
  | ORY_SLOT_XOFF
  | ORY_TAG_XOFF
  | ORY_SLOTS_FREE
  | ORY_TAGS_FREE
  | ORY_POOL_STS
  | ORY_DOM_CFG
  | ORY_GATE_STS
  | ORY_DLY_BASE
  | ORY_DLY_CTL
  | ORY_DLY_STS
  | ORY_GRP_MEMBERS
  | ORY_CLU_STS
  | ORY_BPC_LINE
  | ORY_BPC_SRC
  | ORY_BPC_CFG
  | ORY_BPC_STS
  | ORY_DLY_L_CFG
  | ORY_DLY_L_STS
  | ORY_Q_CFG
  | ORY_Q_ONCHIP
  | ORY_Q_XOFF
  | ORY_Q_XON
  | ORY_Q_LIMIT
  | ORY_Q_SPILL
  | ORY_Q_SPILL_CFG
  | ORY_Q_STS
  | ORY_Q_DEPTH
  | ORY_Q_SDEPTH
  | ORY_Q_CTL
  | ORY_DOM_STS
  | EGR_CTL
  | EGR_STS
  | EGR_PORT_CFG
  | EGR_PORT_SHAPE
  | EGR_PORT_STS
  | EGR_PORT_QUEUED
  | EGR_GRP_CFG
  | EGR_GRP_SHAPE
  | EGR_MCL
  | EGR_MCM
  | EGR_Q_CFG
  | EGR_Q_DEST
  | EGR_Q_SHAPE
  | EGR_Q_LIMIT
  | EGR_Q_CLASS
  | EGR_Q_STS
  | EGR_Q_DEPTH
  | MER_CFG
  | MER_CTL
  | MER_STS
  | MER_ANCHOR
  | MER_PERIOD
  | MER_PREROLL
  | MER_SYNC
  | MER_NSLOTS
  | MER_PSEQ
  | FLT_STS
  | FLT_FORCE
  | FLT_ABN_LAST
  | FLT_ABN_CNT
  | FLT_LGRP_CLU
  | FLT_LGRP_ACC
  | FLT_SGRP_CLU
  | FLT_SGRP_ACC
  | FLT_SEM_CFG
  | FLT_SEM_STS
  | FLT_LOCK
  | DRC_CFG
  | DRC_CTL
  | DRC_STS
  | DRC_RT_CFG
  | DRC_AGE
  | DRC_DMAWIN_BASE
  | DRC_DMAWIN_SIZE
  | DRC_SCRUB
  | DRC_SCRUB_STS
  | DRC_MRW
  | DRC_TRN_CTL
  | DRC_PORT_CFG
  | DRC_PORT_STS
  | DRC_TRN_RES
  | DRC_CH_STS
  | DRC_CH_ECC
  | DRC_CH_ECC_THR
  | DRC_CH_ECC_ADDR
  | DRC_CH_DLY
  | MGT_BOOT_STS
  | MGT_BOOT_CTL
  | MGT_FW_VERSION
  | MGT_CFG
  | MGT_MEMWIN_BASE
  | MGT_FAULT_VEC
  | MGT_FAULT_DONE
  | MGT_THRCTL
  | MGT_STS
  | MGT_THR_STS
  | MGT_THR_PC
  | MGT_THR_FAULT
  | MGT_THR_DETAIL
  | DBG_ID
  | DBG_ID_ASSIGNED
  | DBG_SESSION
  | DBG_LOCK
  | DBG_CTL
  | DBG_RST
  | DBG_RST_CL
  | DBG_CHAL
  | DBG_TOKEN
  | DBG_THR_CTL
  | DBG_THR_STS
  | DBG_THR_PC
  | DBG_LMEM_SEL
  | DBG_TRC_WIN
  | DBG_OTRC_CFG
  | DBG_OTRC_STS
  | DBG_MTRC_CFG
  | DBG_MTRC_STS
  | DBG_THR_REG
  | DBG_CORE_BP
  | DBG_CORE_BPC
  | DBG_CORE_WP
  | DBG_CORE_WPC
  | DBG_TRC_CFG
  | DBG_TRC_STS
  | PIO_GPIO_OUT
  | PIO_GPIO_SET
  | PIO_GPIO_CLR
  | PIO_GPIO_OE
  | PIO_GPIO_IN
  | PIO_GPIO_PULL
  | PIO_GPIO_FN
  | PIO_SPI_CTL
  | PIO_SPI_ADDR
  | PIO_SPI_DATA
  | PIO_I2C0_CFG
  | PIO_I2C1_CTL
  | PIO_I2C1_DATA
  | GCL_CTL
  | GCL_STS
  | GCL_SUPV
  | GCL_ENTRY
  | GCL_SUPV_ENTRY
  | GCL_IMG
  | GCL_BUDGET
  | GCL_WG_WINDOW
  | GCL_THR_EN
  | GCL_THR_PRIV
  | GCL_FAULTQ_REC
  | GCL_FAULTQ_POP
  | GCL_THRCTL
  | GCL_WG_MEMBERS
  | GCL_WG_STS
  | GCL_WG_NT
  | GCL_CH_CFG
  | GCL_CH_STS
  | GCL_THR_STS
  | GCL_THR_PC
  | GCL_THR_EV
  | GCL_THR_FAULT
  | GCL_THR_DETAIL
  | CPX_CFG
  | CPX_STS
  | CPX_SLANE
  | CPX_LANE_STS
  | CPX_LANE_CTL
  | CPX_KEY_KEY
  | CPX_KEY_CTL
deriving DecidableEq, Repr

/-- Access codes of R8. -/
inductive Acc where
  | rw | ro | wo | w1c | w1s | rc
deriving DecidableEq, Repr

/-- Reset domains of R465; `aonPor` is the AON domain of registers that only power-on or brown-out clears (GLB, HIF_LINK_CFG). -/
inductive RegDom where
  | aonPor | aon | pkt | line | mem | mgt | cl
deriving DecidableEq, Repr

/-- A field: its register kind and its bit range. -/
structure Fld where
  reg : RegName
  hi : Nat
  lo : Nat
deriving DecidableEq, Repr

/-- A row of a field table; a bit no row names is RSV. -/
structure FldRow where
  fld : Fld
  acc : Acc
  rst : Nat
deriving DecidableEq, Repr

/-- A register description: BAR0 address of its first instance, replication as (count, stride) from the widest, width, domain, fields. -/
structure RegDesc where
  base : Nat
  dims : List (Nat × Nat)
  w64 : Bool
  dom : RegDom
  rows : List FldRow
deriving DecidableEq, Repr

namespace F
def GLB_ID_FAMILY : Fld := ⟨.GLB_ID, 31, 24⟩
def GLB_ID_DIE : Fld := ⟨.GLB_ID, 23, 12⟩
def GLB_ID_VARIANT : Fld := ⟨.GLB_ID, 11, 8⟩
def GLB_ID_STEP_MAJOR : Fld := ⟨.GLB_ID, 7, 4⟩
def GLB_ID_STEP_MINOR : Fld := ⟨.GLB_ID, 3, 0⟩
def GLB_FEAT0_DRC_PRESENT : Fld := ⟨.GLB_FEAT0, 21, 16⟩
def GLB_FEAT0_QUAD_PRESENT : Fld := ⟨.GLB_FEAT0, 15, 12⟩
def GLB_FEAT0_P800_23 : Fld := ⟨.GLB_FEAT0, 2, 2⟩
def GLB_FEAT0_CPX_H : Fld := ⟨.GLB_FEAT0, 1, 1⟩
def GLB_FEAT0_CPX_C : Fld := ⟨.GLB_FEAT0, 0, 0⟩
def GLB_FEAT1_THREADS : Fld := ⟨.GLB_FEAT1, 28, 15⟩
def GLB_FEAT1_CORES : Fld := ⟨.GLB_FEAT1, 14, 6⟩
def GLB_FEAT1_CLUSTERS : Fld := ⟨.GLB_FEAT1, 5, 0⟩
def GLB_FEAT2_EM_MAX_LOG2 : Fld := ⟨.GLB_FEAT2, 23, 16⟩
def GLB_FEAT2_CELLS_LOG2 : Fld := ⟨.GLB_FEAT2, 15, 8⟩
def GLB_FEAT2_LINE_LANES : Fld := ⟨.GLB_FEAT2, 7, 0⟩
def GLB_FEAT3_PTP_1STEP : Fld := ⟨.GLB_FEAT3, 9, 9⟩
def GLB_FEAT3_MER : Fld := ⟨.GLB_FEAT3, 8, 8⟩
def GLB_FEAT3_ISA_VERSION : Fld := ⟨.GLB_FEAT3, 7, 0⟩
def GLB_CLUSTER_PRESENT_PRESENT : Fld := ⟨.GLB_CLUSTER_PRESENT, 31, 0⟩
def GLB_ASSIGNED_ID_ID : Fld := ⟨.GLB_ASSIGNED_ID, 63, 0⟩
def GLB_SCRATCH_DATA : Fld := ⟨.GLB_SCRATCH, 31, 0⟩
def RST_CAUSE_THERMTRIP : Fld := ⟨.RST_CAUSE, 14, 14⟩
def RST_CAUSE_LOCKUP_MGT : Fld := ⟨.RST_CAUSE, 13, 13⟩
def RST_CAUSE_LOCKUP_CL : Fld := ⟨.RST_CAUSE, 12, 12⟩
def RST_CAUSE_CLK_PLL : Fld := ⟨.RST_CAUSE, 11, 11⟩
def RST_CAUSE_CLK_PCIE : Fld := ⟨.RST_CAUSE, 10, 10⟩
def RST_CAUSE_CLK_ETH : Fld := ⟨.RST_CAUSE, 9, 9⟩
def RST_CAUSE_CLK_SYSREF : Fld := ⟨.RST_CAUSE, 8, 8⟩
def RST_CAUSE_DBG : Fld := ⟨.RST_CAUSE, 7, 7⟩
def RST_CAUSE_SW : Fld := ⟨.RST_CAUSE, 6, 6⟩
def RST_CAUSE_WDT : Fld := ⟨.RST_CAUSE, 5, 5⟩
def RST_CAUSE_PERST1 : Fld := ⟨.RST_CAUSE, 4, 4⟩
def RST_CAUSE_PERST0 : Fld := ⟨.RST_CAUSE, 3, 3⟩
def RST_CAUSE_RESET_N : Fld := ⟨.RST_CAUSE, 2, 2⟩
def RST_CAUSE_BOR : Fld := ⟨.RST_CAUSE, 1, 1⟩
def RST_CAUSE_POR : Fld := ⟨.RST_CAUSE, 0, 0⟩
def RST_LOCKUP_CL_CLU : Fld := ⟨.RST_LOCKUP_CL, 31, 0⟩
def RST_DOM_STS_LINE : Fld := ⟨.RST_DOM_STS, 6, 6⟩
def RST_DOM_STS_PKT : Fld := ⟨.RST_DOM_STS, 5, 5⟩
def RST_DOM_STS_MEM : Fld := ⟨.RST_DOM_STS, 4, 4⟩
def RST_DOM_STS_HOST1 : Fld := ⟨.RST_DOM_STS, 3, 3⟩
def RST_DOM_STS_HOST0 : Fld := ⟨.RST_DOM_STS, 2, 2⟩
def RST_DOM_STS_MGT : Fld := ⟨.RST_DOM_STS, 1, 1⟩
def RST_DOM_STS_CL_CLU : Fld := ⟨.RST_DOM_STS_CL, 31, 0⟩
def RST_SWRST_WARM : Fld := ⟨.RST_SWRST, 8, 8⟩
def RST_SWRST_LINE : Fld := ⟨.RST_SWRST, 6, 6⟩
def RST_SWRST_PKT : Fld := ⟨.RST_SWRST, 5, 5⟩
def RST_SWRST_MEM : Fld := ⟨.RST_SWRST, 4, 4⟩
def RST_SWRST_HOST1 : Fld := ⟨.RST_SWRST, 3, 3⟩
def RST_SWRST_HOST0 : Fld := ⟨.RST_SWRST, 2, 2⟩
def RST_SWRST_MGT : Fld := ⟨.RST_SWRST, 1, 1⟩
def RST_SWRST_CLR_REQ : Fld := ⟨.RST_SWRST_CLR, 8, 1⟩
def RST_SWRST_CL_CLU : Fld := ⟨.RST_SWRST_CL, 31, 0⟩
def RST_SWRST_CL_CLR_CLU : Fld := ⟨.RST_SWRST_CL_CLR, 31, 0⟩
def RST_SWRST_CFG_REJECT : Fld := ⟨.RST_SWRST_CFG, 31, 31⟩
def RST_SWRST_CFG_HOLD : Fld := ⟨.RST_SWRST_CFG, 0, 0⟩
def RST_BLK_RST_DRC : Fld := ⟨.RST_BLK_RST, 7, 7⟩
def RST_BLK_RST_EGR : Fld := ⟨.RST_BLK_RST, 6, 6⟩
def RST_BLK_RST_ORY : Fld := ⟨.RST_BLK_RST, 5, 5⟩
def RST_BLK_RST_AGT : Fld := ⟨.RST_BLK_RST, 4, 4⟩
def RST_BLK_RST_PRS : Fld := ⟨.RST_BLK_RST, 3, 3⟩
def RST_BLK_RST_CRN : Fld := ⟨.RST_BLK_RST, 2, 2⟩
def RST_BLK_RST_LPT : Fld := ⟨.RST_BLK_RST, 1, 1⟩
def RST_BLK_RST_HIF : Fld := ⟨.RST_BLK_RST, 0, 0⟩
def RST_WDT_CFG_EN : Fld := ⟨.RST_WDT_CFG, 31, 31⟩
def RST_WDT_CFG_REACH : Fld := ⟨.RST_WDT_CFG, 30, 30⟩
def RST_WDT_CFG_WARN_MS : Fld := ⟨.RST_WDT_CFG, 29, 16⟩
def RST_WDT_CFG_TIMEOUT_MS : Fld := ⟨.RST_WDT_CFG, 15, 0⟩
def RST_WDT_KICK_KEY : Fld := ⟨.RST_WDT_KICK, 15, 0⟩
def RST_WDT_STS_BADKICK : Fld := ⟨.RST_WDT_STS, 31, 31⟩
def RST_WDT_STS_WARNED : Fld := ⟨.RST_WDT_STS, 30, 30⟩
def RST_WDT_STS_EXPIRED : Fld := ⟨.RST_WDT_STS, 23, 16⟩
def RST_WDT_STS_REMAIN_MS : Fld := ⟨.RST_WDT_STS, 15, 0⟩
def RST_CLKMON_STS_PCIE_OK : Fld := ⟨.RST_CLKMON_STS, 3, 3⟩
def RST_CLKMON_STS_ETH1_OK : Fld := ⟨.RST_CLKMON_STS, 2, 2⟩
def RST_CLKMON_STS_ETH0_OK : Fld := ⟨.RST_CLKMON_STS, 1, 1⟩
def RST_CLKMON_STS_SYSREF_OK : Fld := ⟨.RST_CLKMON_STS, 0, 0⟩
def RST_CLKMON_CNT_PCIE : Fld := ⟨.RST_CLKMON_CNT, 31, 24⟩
def RST_CLKMON_CNT_ETH1 : Fld := ⟨.RST_CLKMON_CNT, 23, 16⟩
def RST_CLKMON_CNT_ETH0 : Fld := ⟨.RST_CLKMON_CNT, 15, 8⟩
def RST_CLKMON_CNT_PLL : Fld := ⟨.RST_CLKMON_CNT, 7, 0⟩
def RST_PLL_STS_G : Fld := ⟨.RST_PLL_STS, 2, 2⟩
def RST_PLL_STS_M : Fld := ⟨.RST_PLL_STS, 1, 1⟩
def RST_PLL_STS_P : Fld := ⟨.RST_PLL_STS, 0, 0⟩
def RST_MGT_PWR_SLEEP_EN : Fld := ⟨.RST_MGT_PWR, 31, 31⟩
def RST_MGT_PWR_ASLEEP : Fld := ⟨.RST_MGT_PWR, 30, 30⟩
def RST_MGT_PWR_SLEEPS : Fld := ⟨.RST_MGT_PWR, 15, 0⟩
def RST_CLU_CLK_PARK : Fld := ⟨.RST_CLU_CLK, 31, 31⟩
def RST_CLU_CLK_DEEP : Fld := ⟨.RST_CLU_CLK, 30, 30⟩
def RST_CLU_CLK_PARKED : Fld := ⟨.RST_CLU_CLK, 29, 29⟩
def RST_CLU_CLK_PLL_LOCK : Fld := ⟨.RST_CLU_CLK, 28, 28⟩
def RST_CLU_CLK_THROTTLED : Fld := ⟨.RST_CLU_CLK, 27, 27⟩
def RST_CLU_CLK_STEP_BUSY : Fld := ⟨.RST_CLU_CLK, 26, 26⟩
def RST_CLU_CLK_LIMIT : Fld := ⟨.RST_CLU_CLK, 5, 4⟩
def RST_CLU_CLK_STEP_CUR : Fld := ⟨.RST_CLU_CLK, 3, 2⟩
def RST_CLU_CLK_STEP : Fld := ⟨.RST_CLU_CLK, 1, 0⟩
def RST_THERM_CFG_THR_EN : Fld := ⟨.RST_THERM_CFG, 31, 31⟩
def RST_THERM_CFG_ALARM_C : Fld := ⟨.RST_THERM_CFG, 23, 16⟩
def RST_THERM_CFG_THROTTLE_C : Fld := ⟨.RST_THERM_CFG, 15, 8⟩
def RST_THERM_CFG_HYST_C : Fld := ⟨.RST_THERM_CFG, 7, 0⟩
def RST_THERM_STS_TRIPPED : Fld := ⟨.RST_THERM_STS, 31, 31⟩
def RST_THERM_STS_ALARM : Fld := ⟨.RST_THERM_STS, 30, 30⟩
def RST_THERM_STS_MAX_SENSOR : Fld := ⟨.RST_THERM_STS, 15, 8⟩
def RST_THERM_STS_THROTTLE_CNT : Fld := ⟨.RST_THERM_STS, 7, 0⟩
def RST_TS_VALID : Fld := ⟨.RST_TS, 12, 12⟩
def RST_TS_TEMP : Fld := ⟨.RST_TS, 11, 0⟩
def RST_ELOG_CFG_CE_REC : Fld := ⟨.RST_ELOG_CFG, 0, 0⟩
def RST_ELOG_STS_NOC_STUCK : Fld := ⟨.RST_ELOG_STS, 31, 31⟩
def RST_ELOG_STS_STATE_LOST : Fld := ⟨.RST_ELOG_STS, 30, 30⟩
def RST_ELOG_SEQ_NEXT : Fld := ⟨.RST_ELOG_SEQ, 31, 0⟩
def RST_ELOG_CNT_MADE : Fld := ⟨.RST_ELOG_CNT, 31, 16⟩
def RST_ELOG_CNT_UNTAKEN : Fld := ⟨.RST_ELOG_CNT, 15, 0⟩
def RST_ERR_CNT_CE : Fld := ⟨.RST_ERR_CNT, 31, 16⟩
def RST_ERR_CNT_UE : Fld := ⟨.RST_ERR_CNT, 15, 0⟩
def RST_SCRUB_CFG_EN : Fld := ⟨.RST_SCRUB_CFG, 31, 31⟩
def RST_SCRUB_CFG_PERIOD_MS : Fld := ⟨.RST_SCRUB_CFG, 15, 0⟩
def RST_SCRUB_STS_PASSES : Fld := ⟨.RST_SCRUB_STS, 31, 16⟩
def RST_EINJ_CTL_ARM : Fld := ⟨.RST_EINJ_CTL, 31, 31⟩
def RST_EINJ_CTL_DONE : Fld := ⟨.RST_EINJ_CTL, 30, 30⟩
def RST_EINJ_CTL_MATCH : Fld := ⟨.RST_EINJ_CTL, 29, 29⟩
def RST_EINJ_CTL_CLUSTER : Fld := ⟨.RST_EINJ_CTL, 28, 24⟩
def RST_EINJ_CTL_BITS : Fld := ⟨.RST_EINJ_CTL, 21, 20⟩
def RST_EINJ_CTL_TARGET : Fld := ⟨.RST_EINJ_CTL, 3, 0⟩
def RST_EINJ_ADDR_ADDR : Fld := ⟨.RST_EINJ_ADDR, 63, 0⟩
def TIM_CTL_HOLD_EXIT : Fld := ⟨.TIM_CTL, 3, 3⟩
def TIM_CTL_HOLD_REQ : Fld := ⟨.TIM_CTL, 2, 2⟩
def TIM_CTL_REF_SEL : Fld := ⟨.TIM_CTL, 1, 1⟩
def TIM_STS_STEP_SEQ : Fld := ⟨.TIM_STS, 15, 8⟩
def TIM_STS_HOLD_CAUSE : Fld := ⟨.TIM_STS, 7, 6⟩
def TIM_STS_HOLDOVER : Fld := ⟨.TIM_STS, 5, 5⟩
def TIM_STS_SET_DONE : Fld := ⟨.TIM_STS, 4, 4⟩
def TIM_STS_INCR_CLAMP : Fld := ⟨.TIM_STS, 3, 3⟩
def TIM_STS_ADJ_REJECT : Fld := ⟨.TIM_STS, 2, 2⟩
def TIM_STS_ADJ_BUSY : Fld := ⟨.TIM_STS, 1, 1⟩
def TIM_NT_NS : Fld := ⟨.TIM_NT, 63, 0⟩
def TIM_NT_FRAC_FRAC : Fld := ⟨.TIM_NT_FRAC, 31, 0⟩
def TIM_INCR_INCR : Fld := ⟨.TIM_INCR, 31, 0⟩
def TIM_HOLD_TIMEOUT_US : Fld := ⟨.TIM_HOLD_TIMEOUT, 31, 0⟩
def TIM_ADJ_CTL_ABORT : Fld := ⟨.TIM_ADJ_CTL, 3, 3⟩
def TIM_ADJ_CTL_GO : Fld := ⟨.TIM_ADJ_CTL, 2, 2⟩
def TIM_ADJ_CTL_MODE : Fld := ⟨.TIM_ADJ_CTL, 1, 0⟩
def TIM_ADJ_OFFSET_OFFSET : Fld := ⟨.TIM_ADJ_OFFSET, 63, 0⟩
def TIM_ADJ_INTERVAL_NS : Fld := ⟨.TIM_ADJ_INTERVAL, 31, 0⟩
def TIM_PPS_IN_TS_NT : Fld := ⟨.TIM_PPS_IN_TS, 63, 0⟩
def TIM_CSI_TS_NT : Fld := ⟨.TIM_CSI_TS, 63, 0⟩
def TIM_INPUT_CNT_CSI : Fld := ⟨.TIM_INPUT_CNT, 31, 16⟩
def TIM_INPUT_CNT_PPS : Fld := ⟨.TIM_INPUT_CNT, 15, 0⟩
def TIM_PPS_OUT_CFG_EN : Fld := ⟨.TIM_PPS_OUT_CFG, 31, 31⟩
def TIM_PPS_OUT_CFG_WIDTH : Fld := ⟨.TIM_PPS_OUT_CFG, 19, 0⟩
def TIM_TCMP_AT_AT : Fld := ⟨.TIM_TCMP_AT, 63, 0⟩
def TIM_TCMP_CFG_EN : Fld := ⟨.TIM_TCMP_CFG, 31, 31⟩
def TIM_TCMP_CFG_FIRED : Fld := ⟨.TIM_TCMP_CFG, 30, 30⟩
def TIM_TCMP_CFG_PERIODIC : Fld := ⟨.TIM_TCMP_CFG, 29, 29⟩
def TIM_TCMP_CFG_WIDTH : Fld := ⟨.TIM_TCMP_CFG, 23, 0⟩
def TIM_TCMP_PER_PER : Fld := ⟨.TIM_TCMP_PER, 31, 0⟩
def TIM_TXTS_NT : Fld := ⟨.TIM_TXTS, 63, 0⟩
def TIM_TXTS_META_VALID : Fld := ⟨.TIM_TXTS_META, 31, 31⟩
def TIM_TXTS_META_FRAC : Fld := ⟨.TIM_TXTS_META, 23, 16⟩
def TIM_TXTS_META_COOKIE : Fld := ⟨.TIM_TXTS_META, 15, 0⟩
def TIM_TXTS_LOST_LOST : Fld := ⟨.TIM_TXTS_LOST, 7, 0⟩
def TIM_EPOCH_CTL_ARM : Fld := ⟨.TIM_EPOCH_CTL, 0, 0⟩
def TIM_EPOCH_AT_AT : Fld := ⟨.TIM_EPOCH_AT, 63, 0⟩
def TIM_EPOCH_PERIOD_NS : Fld := ⟨.TIM_EPOCH_PERIOD, 31, 0⟩
def TIM_EPOCH_STS_SEQ : Fld := ⟨.TIM_EPOCH_STS, 31, 16⟩
def TIM_EPOCH_STS_DEFERRED : Fld := ⟨.TIM_EPOCH_STS, 2, 2⟩
def TIM_EPOCH_STS_SWITCHED : Fld := ⟨.TIM_EPOCH_STS, 1, 1⟩
def TIM_EPOCH_STS_LIVE : Fld := ⟨.TIM_EPOCH_STS, 0, 0⟩
def TIM_EPOCH_LAST_NT : Fld := ⟨.TIM_EPOCH_LAST, 63, 0⟩
def TIM_EPOCH_MERGE_MERGED : Fld := ⟨.TIM_EPOCH_MERGE, 31, 31⟩
def TIM_EPOCH_MERGE_SEQ : Fld := ⟨.TIM_EPOCH_MERGE, 15, 0⟩
def ICU_PEND_SET_PEND : Fld := ⟨.ICU_PEND_SET, 31, 0⟩
def ICU_PEND_CLR_PEND : Fld := ⟨.ICU_PEND_CLR, 31, 0⟩
def ICU_MASK_SET_MASK : Fld := ⟨.ICU_MASK_SET, 31, 0⟩
def ICU_MASK_CLR_MASK : Fld := ⟨.ICU_MASK_CLR, 31, 0⟩
def ICU_STS_STALLED : Fld := ⟨.ICU_STS, 10, 0⟩
def ICU_RET_STS_SAVED : Fld := ⟨.ICU_RET_STS, 31, 31⟩
def ICU_RET_STS_WAKES : Fld := ⟨.ICU_RET_STS, 15, 0⟩
def ICU_DETAIL_DETAIL : Fld := ⟨.ICU_DETAIL, 31, 0⟩
def ICU_ROUTE_EN : Fld := ⟨.ICU_ROUTE, 63, 56⟩
def ICU_ROUTE_T : Fld := ⟨.ICU_ROUTE, 55, 0⟩
def ICU_TGT_CFG_EN : Fld := ⟨.ICU_TGT_CFG, 31, 31⟩
def ICU_TGT_CFG_VECTOR : Fld := ⟨.ICU_TGT_CFG, 30, 20⟩
def ICU_TGT_CFG_FN : Fld := ⟨.ICU_TGT_CFG, 17, 9⟩
def ICU_TGT_STS_AVAIL : Fld := ⟨.ICU_TGT_STS, 31, 31⟩
def ICU_TGT_STS_OUT : Fld := ⟨.ICU_TGT_STS, 10, 0⟩
def ICU_TGT_SUM_OUT : Fld := ⟨.ICU_TGT_SUM, 31, 0⟩
def ICU_CLAIM_SOURCE : Fld := ⟨.ICU_CLAIM, 9, 0⟩
def HIF_LINK_CFG_BIFUR : Fld := ⟨.HIF_LINK_CFG, 7, 7⟩
def HIF_LINK_CFG_BIFUR_PEND : Fld := ⟨.HIF_LINK_CFG, 6, 6⟩
def HIF_LINK_CFG_WAKE : Fld := ⟨.HIF_LINK_CFG, 5, 5⟩
def HIF_LINK_CFG_PF1_HL1_ACC : Fld := ⟨.HIF_LINK_CFG, 4, 4⟩
def HIF_LINK_CFG_MAX_SPEED : Fld := ⟨.HIF_LINK_CFG, 2, 0⟩
def HIF_FN_STS_HL1_PF0_READY : Fld := ⟨.HIF_FN_STS, 3, 3⟩
def HIF_FN_STS_HL0_PF0_READY : Fld := ⟨.HIF_FN_STS, 2, 2⟩
def HIF_LINK_STS_PERST : Fld := ⟨.HIF_LINK_STS, 15, 15⟩
def HIF_LINK_STS_DL_UP : Fld := ⟨.HIF_LINK_STS, 14, 14⟩
def HIF_LINK_STS_FLIT : Fld := ⟨.HIF_LINK_STS, 13, 13⟩
def HIF_LINK_STS_WIDTH : Fld := ⟨.HIF_LINK_STS, 12, 8⟩
def HIF_LINK_STS_SPEED : Fld := ⟨.HIF_LINK_STS, 2, 0⟩
def HIF_FN_PRESENT : Fld := ⟨.HIF_FN, 31, 31⟩
def HIF_FN_D3HOT : Fld := ⟨.HIF_FN, 30, 30⟩
def HIF_FN_FLR_BUSY : Fld := ⟨.HIF_FN, 29, 29⟩
def HIF_FN_BME : Fld := ⟨.HIF_FN, 28, 28⟩
def HIF_TXR_BASE_ADDR : Fld := ⟨.HIF_TXR_BASE, 63, 12⟩
def HIF_TXR_CFG_EN : Fld := ⟨.HIF_TXR_CFG, 31, 31⟩
def HIF_TXR_CFG_FN : Fld := ⟨.HIF_TXR_CFG, 30, 22⟩
def HIF_TXR_CFG_LOCAL : Fld := ⟨.HIF_TXR_CFG, 21, 9⟩
def HIF_TXR_CFG_SIZE_LOG2 : Fld := ⟨.HIF_TXR_CFG, 8, 4⟩
def HIF_TXR_CFG_PRI : Fld := ⟨.HIF_TXR_CFG, 2, 0⟩
def HIF_TXR_CFG2_CQ : Fld := ⟨.HIF_TXR_CFG2, 31, 22⟩
def HIF_TXR_CFG2_REQ : Fld := ⟨.HIF_TXR_CFG2, 21, 13⟩
def HIF_TXR_CFG2_QUANTUM : Fld := ⟨.HIF_TXR_CFG2, 12, 8⟩
def HIF_TXR_CFG2_SRC : Fld := ⟨.HIF_TXR_CFG2, 7, 0⟩
def HIF_TXR_STS_DRAINED : Fld := ⟨.HIF_TXR_STS, 31, 31⟩
def HIF_TXR_STS_ERR : Fld := ⟨.HIF_TXR_STS, 30, 30⟩
def HIF_TXR_STS_REJECT : Fld := ⟨.HIF_TXR_STS, 29, 29⟩
def HIF_TXR_STS_CONS : Fld := ⟨.HIF_TXR_STS, 16, 0⟩
def HIF_TXR_PROD_PROD : Fld := ⟨.HIF_TXR_PROD, 16, 0⟩
def HIF_RXR_BASE_ADDR : Fld := ⟨.HIF_RXR_BASE, 63, 12⟩
def HIF_RXR_CFG_EN : Fld := ⟨.HIF_RXR_CFG, 31, 31⟩
def HIF_RXR_CFG_FN : Fld := ⟨.HIF_RXR_CFG, 30, 22⟩
def HIF_RXR_CFG_LOCAL : Fld := ⟨.HIF_RXR_CFG, 21, 9⟩
def HIF_RXR_CFG_SIZE_LOG2 : Fld := ⟨.HIF_RXR_CFG, 8, 4⟩
def HIF_RXR_CFG_FULL_POLICY : Fld := ⟨.HIF_RXR_CFG, 0, 0⟩
def HIF_RXR_CFG2_CQ : Fld := ⟨.HIF_RXR_CFG2, 31, 22⟩
def HIF_RXR_STS_DRAINED : Fld := ⟨.HIF_RXR_STS, 31, 31⟩
def HIF_RXR_STS_ERR : Fld := ⟨.HIF_RXR_STS, 30, 30⟩
def HIF_RXR_STS_REJECT : Fld := ⟨.HIF_RXR_STS, 29, 29⟩
def HIF_RXR_STS_CONS : Fld := ⟨.HIF_RXR_STS, 16, 0⟩
def HIF_RXR_PROD_PROD : Fld := ⟨.HIF_RXR_PROD, 16, 0⟩
def HIF_CQ_BASE_ADDR : Fld := ⟨.HIF_CQ_BASE, 63, 12⟩
def HIF_CQ_CFG_EN : Fld := ⟨.HIF_CQ_CFG, 31, 31⟩
def HIF_CQ_CFG_FN : Fld := ⟨.HIF_CQ_CFG, 30, 22⟩
def HIF_CQ_CFG_LOCAL : Fld := ⟨.HIF_CQ_CFG, 21, 9⟩
def HIF_CQ_CFG_SIZE_LOG2 : Fld := ⟨.HIF_CQ_CFG, 8, 4⟩
def HIF_CQ_CFG2_VECTOR : Fld := ⟨.HIF_CQ_CFG2, 31, 21⟩
def HIF_CQ_CFG2_MOD_CNT : Fld := ⟨.HIF_CQ_CFG2, 20, 13⟩
def HIF_CQ_STS_DRAINED : Fld := ⟨.HIF_CQ_STS, 31, 31⟩
def HIF_CQ_STS_ARMED : Fld := ⟨.HIF_CQ_STS, 30, 30⟩
def HIF_CQ_STS_STALL : Fld := ⟨.HIF_CQ_STS, 29, 29⟩
def HIF_CQ_STS_PROD : Fld := ⟨.HIF_CQ_STS, 16, 0⟩
def HIF_CQ_CONS_CONS : Fld := ⟨.HIF_CQ_CONS, 16, 0⟩
def HIF_CQ_CFG3_MOD_NS : Fld := ⟨.HIF_CQ_CFG3, 31, 0⟩
def HIF_CTR_BASE_ADDR : Fld := ⟨.HIF_CTR_BASE, 63, 12⟩
def HIF_CTR_CFG_EN : Fld := ⟨.HIF_CTR_CFG, 31, 31⟩
def HIF_CTR_CFG_FN : Fld := ⟨.HIF_CTR_CFG, 30, 22⟩
def HIF_CTR_CFG_LOCAL : Fld := ⟨.HIF_CTR_CFG, 21, 9⟩
def HIF_CTR_CFG_SIZE_LOG2 : Fld := ⟨.HIF_CTR_CFG, 8, 4⟩
def HIF_CTR_CFG2_VECTOR : Fld := ⟨.HIF_CTR_CFG2, 31, 21⟩
def HIF_CTR_CFG2_PERM : Fld := ⟨.HIF_CTR_CFG2, 7, 0⟩
def HIF_CTR_STS_DRAINED : Fld := ⟨.HIF_CTR_STS, 31, 31⟩
def HIF_CTR_STS_ERR : Fld := ⟨.HIF_CTR_STS, 30, 30⟩
def HIF_CTR_STS_REJECT : Fld := ⟨.HIF_CTR_STS, 29, 29⟩
def HIF_CTR_STS_CONS : Fld := ⟨.HIF_CTR_STS, 16, 0⟩
def HIF_CTR_PROD_PROD : Fld := ⟨.HIF_CTR_PROD, 16, 0⟩
def HIF_EVR_BASE_ADDR : Fld := ⟨.HIF_EVR_BASE, 63, 12⟩
def HIF_EVR_CFG_EN : Fld := ⟨.HIF_EVR_CFG, 31, 31⟩
def HIF_EVR_CFG_FN : Fld := ⟨.HIF_EVR_CFG, 30, 22⟩
def HIF_EVR_CFG_LOCAL : Fld := ⟨.HIF_EVR_CFG, 21, 9⟩
def HIF_EVR_CFG_SIZE_LOG2 : Fld := ⟨.HIF_EVR_CFG, 8, 4⟩
def HIF_EVR_CFG2_VECTOR : Fld := ⟨.HIF_EVR_CFG2, 31, 21⟩
def HIF_EVR_STS_DRAINED : Fld := ⟨.HIF_EVR_STS, 31, 31⟩
def HIF_EVR_STS_ARMED : Fld := ⟨.HIF_EVR_STS, 30, 30⟩
def HIF_EVR_STS_STALL : Fld := ⟨.HIF_EVR_STS, 29, 29⟩
def HIF_EVR_STS_PROD : Fld := ⟨.HIF_EVR_STS, 16, 0⟩
def HIF_EVR_CONS_CONS : Fld := ⟨.HIF_EVR_CONS, 16, 0⟩
def HIF_EVR_CLASS_CLASS : Fld := ⟨.HIF_EVR_CLASS, 31, 0⟩
def HIF_EVR_LOST_LOST : Fld := ⟨.HIF_EVR_LOST, 31, 0⟩
def LPT_QUAD_CFG_MODE : Fld := ⟨.LPT_QUAD_CFG, 2, 0⟩
def LPT_QUAD_STS_PAIR_WAIT : Fld := ⟨.LPT_QUAD_STS, 3, 3⟩
def LPT_QUAD_STS_PLL_LOCK : Fld := ⟨.LPT_QUAD_STS, 2, 2⟩
def LPT_QUAD_STS_MODE_REJECT : Fld := ⟨.LPT_QUAD_STS, 1, 1⟩
def LPT_QUAD_STS_REFCLK_OK : Fld := ⟨.LPT_QUAD_STS, 0, 0⟩
def LPT_CFG_EN : Fld := ⟨.LPT_CFG, 31, 31⟩
def LPT_CFG_PHY_EN : Fld := ⟨.LPT_CFG, 30, 30⟩
def LPT_CFG_LOOPBACK : Fld := ⟨.LPT_CFG, 29, 28⟩
def LPT_CFG_FC_MODE : Fld := ⟨.LPT_CFG, 27, 26⟩
def LPT_CFG_PFC_EN : Fld := ⟨.LPT_CFG, 25, 18⟩
def LPT_CFG_AN_MODE : Fld := ⟨.LPT_CFG, 17, 16⟩
def LPT_CFG_MAX_FRAME : Fld := ⟨.LPT_CFG, 13, 0⟩
def LPT_FC_QUANTA : Fld := ⟨.LPT_FC, 31, 16⟩
def LPT_FC_XON_EN : Fld := ⟨.LPT_FC, 15, 15⟩
def LPT_FC_REFRESH_NS : Fld := ⟨.LPT_FC_REFRESH, 31, 0⟩
def LPT_PRI_DEF_PRI : Fld := ⟨.LPT_PRI, 26, 24⟩
def LPT_PRI_PCP_MAP : Fld := ⟨.LPT_PRI, 23, 0⟩
def LPT_STS_XOFF : Fld := ⟨.LPT_STS, 15, 8⟩
def LPT_STS_DRAINED : Fld := ⟨.LPT_STS, 0, 0⟩
def LPT_LINK_DOWN_CNT : Fld := ⟨.LPT_LINK, 31, 24⟩
def LPT_LINK_CHG : Fld := ⟨.LPT_LINK, 7, 7⟩
def LPT_LINK_REMOTE_FAULT : Fld := ⟨.LPT_LINK, 6, 6⟩
def LPT_LINK_LOCAL_FAULT : Fld := ⟨.LPT_LINK, 5, 5⟩
def LPT_LINK_STATE : Fld := ⟨.LPT_LINK, 2, 0⟩
def LPT_LINK_NT_NT : Fld := ⟨.LPT_LINK_NT, 63, 0⟩
def LPT_LINK_CFG_TRAIN_MS : Fld := ⟨.LPT_LINK_CFG, 15, 0⟩
def LPT_TS_ADJ_RX_PS : Fld := ⟨.LPT_TS_ADJ, 31, 16⟩
def LPT_TS_ADJ_TX_PS : Fld := ⟨.LPT_TS_ADJ, 15, 0⟩
def LPT_MAC_LO_ADDR_LO : Fld := ⟨.LPT_MAC_LO, 31, 0⟩
def LPT_MAC_HI_ADDR_HI : Fld := ⟨.LPT_MAC_HI, 15, 0⟩
def LPT_LANE_TXEQ_INV_TX : Fld := ⟨.LPT_LANE_TXEQ, 31, 31⟩
def LPT_LANE_TXEQ_INV_RX : Fld := ⟨.LPT_LANE_TXEQ, 30, 30⟩
def LPT_LANE_TXEQ_PRE2 : Fld := ⟨.LPT_LANE_TXEQ, 29, 24⟩
def LPT_LANE_TXEQ_PRE1 : Fld := ⟨.LPT_LANE_TXEQ, 23, 18⟩
def LPT_LANE_TXEQ_MAIN : Fld := ⟨.LPT_LANE_TXEQ, 17, 12⟩
def LPT_LANE_TXEQ_POST1 : Fld := ⟨.LPT_LANE_TXEQ, 11, 6⟩
def LPT_LANE_ADAPT_FREEZE : Fld := ⟨.LPT_LANE_ADAPT, 2, 2⟩
def LPT_LANE_ADAPT_SIG_DET : Fld := ⟨.LPT_LANE_ADAPT, 1, 1⟩
def LPT_LANE_ADAPT_CDR_LOCK : Fld := ⟨.LPT_LANE_ADAPT, 0, 0⟩
def LPT_LANE_EYE_CTL_GO : Fld := ⟨.LPT_LANE_EYE_CTL, 31, 31⟩
def LPT_LANE_EYE_CTL_BUSY : Fld := ⟨.LPT_LANE_EYE_CTL, 30, 30⟩
def LPT_LANE_EYE_CTL_PHASE : Fld := ⟨.LPT_LANE_EYE_CTL, 22, 16⟩
def LPT_LANE_EYE_CTL_DWELL : Fld := ⟨.LPT_LANE_EYE_CTL, 15, 0⟩
def LPT_LANE_EYE_RES_UPPER : Fld := ⟨.LPT_LANE_EYE_RES, 23, 16⟩
def LPT_LANE_EYE_RES_MIDDLE : Fld := ⟨.LPT_LANE_EYE_RES, 15, 8⟩
def LPT_LANE_EYE_RES_LOWER : Fld := ⟨.LPT_LANE_EYE_RES, 7, 0⟩
def LPT_LANE_PRBS_CTL_GEN_EN : Fld := ⟨.LPT_LANE_PRBS_CTL, 31, 31⟩
def LPT_LANE_PRBS_CTL_CHK_EN : Fld := ⟨.LPT_LANE_PRBS_CTL, 30, 30⟩
def LPT_LANE_PRBS_CTL_REJECT : Fld := ⟨.LPT_LANE_PRBS_CTL, 29, 29⟩
def LPT_LANE_PRBS_CTL_CHK_LOCK : Fld := ⟨.LPT_LANE_PRBS_CTL, 28, 28⟩
def LPT_LANE_PRBS_CTL_PATTERN : Fld := ⟨.LPT_LANE_PRBS_CTL, 3, 0⟩
def LPT_LANE_PRBS_ERR_ERRORS : Fld := ⟨.LPT_LANE_PRBS_ERR, 31, 0⟩
def CRN_DRAM_CFG_EN : Fld := ⟨.CRN_DRAM_CFG, 31, 31⟩
def CRN_DRAM_CFG_CELLS_LOG2 : Fld := ⟨.CRN_DRAM_CFG, 4, 0⟩
def CRN_DRAM_BASE_BASE : Fld := ⟨.CRN_DRAM_BASE, 63, 30⟩
def CRN_DRAM_LINK_LINK_BASE : Fld := ⟨.CRN_DRAM_LINK, 63, 20⟩
def CRN_ERR_BAD_HANDLE : Fld := ⟨.CRN_ERR, 31, 16⟩
def CRN_ERR_DOUBLE_FREE : Fld := ⟨.CRN_ERR, 15, 0⟩
def CRN_ERR_HANDLE_HANDLE : Fld := ⟨.CRN_ERR_HANDLE, 31, 0⟩
def CRN_POOL_CFG_EN : Fld := ⟨.CRN_POOL_CFG, 31, 31⟩
def CRN_POOL_CFG_SPACE : Fld := ⟨.CRN_POOL_CFG, 30, 30⟩
def CRN_POOL_CFG_BASE : Fld := ⟨.CRN_POOL_CFG, 27, 0⟩
def CRN_POOL_SIZE_SIZE : Fld := ⟨.CRN_POOL_SIZE, 27, 0⟩
def CRN_POOL_STS_DRAINED : Fld := ⟨.CRN_POOL_STS, 31, 31⟩
def CRN_POOL_STS_REJECT : Fld := ⟨.CRN_POOL_STS, 30, 30⟩
def CRN_POOL_STS_FREE : Fld := ⟨.CRN_POOL_STS, 27, 0⟩
def CRN_REQ_POOL_POOL : Fld := ⟨.CRN_REQ_POOL, 5, 0⟩
def CRN_REQ_HARD_HARD : Fld := ⟨.CRN_REQ_HARD, 27, 0⟩
def CRN_REQ_XOFF_XOFF : Fld := ⟨.CRN_REQ_XOFF, 27, 0⟩
def CRN_REQ_XON_XON : Fld := ⟨.CRN_REQ_XON, 27, 0⟩
def CRN_REQ_STS_XOFF_ACT : Fld := ⟨.CRN_REQ_STS, 31, 31⟩
def CRN_REQ_STS_AT_HARD : Fld := ⟨.CRN_REQ_STS, 30, 30⟩
def CRN_REQ_STS_USED : Fld := ⟨.CRN_REQ_STS, 27, 0⟩
def CRN_REQ_PEAK_PEAK : Fld := ⟨.CRN_REQ_PEAK, 27, 0⟩
def CRN_CLU_CFG_REQ : Fld := ⟨.CRN_CLU_CFG, 8, 0⟩
def CRN_CLU_STS_RECLAIM_BUSY : Fld := ⟨.CRN_CLU_STS, 31, 31⟩
def CRN_CLU_STS_OWNED : Fld := ⟨.CRN_CLU_STS, 27, 0⟩
def PRS_CTL_EN : Fld := ⟨.PRS_CTL, 31, 31⟩
def PRS_CTL_CLS_REQ : Fld := ⟨.PRS_CTL, 1, 1⟩
def PRS_CTL_GRAPH_REQ : Fld := ⟨.PRS_CTL, 0, 0⟩
def PRS_STS_DRAINED : Fld := ⟨.PRS_STS, 31, 31⟩
def PRS_STS_SHADOW_BUSY : Fld := ⟨.PRS_STS, 4, 4⟩
def PRS_STS_CLS_SWITCHED : Fld := ⟨.PRS_STS, 3, 3⟩
def PRS_STS_GRAPH_SWITCHED : Fld := ⟨.PRS_STS, 2, 2⟩
def PRS_STS_CLS_ACTIVE : Fld := ⟨.PRS_STS, 1, 1⟩
def PRS_STS_GRAPH_ACTIVE : Fld := ⟨.PRS_STS, 0, 0⟩
def AGT_CTL_EN : Fld := ⟨.AGT_CTL, 31, 31⟩
def AGT_CTL_FC_FLUSH : Fld := ⟨.AGT_CTL, 0, 0⟩
def AGT_STS_DRAINED : Fld := ⟨.AGT_STS, 31, 31⟩
def AGT_STS_STASH_USED : Fld := ⟨.AGT_STS, 12, 0⟩
def AGT_ERR_PARITY : Fld := ⟨.AGT_ERR, 31, 16⟩
def AGT_ERR_FC_PARITY : Fld := ⟨.AGT_ERR, 15, 0⟩
def AGT_ERR_LOC_TABLE : Fld := ⟨.AGT_ERR_LOC, 37, 32⟩
def AGT_ERR_LOC_LOC : Fld := ⟨.AGT_ERR_LOC, 27, 0⟩
def AGT_TBL_CFG_MOVE_WINDOW : Fld := ⟨.AGT_TBL_CFG, 63, 32⟩
def AGT_TBL_CFG_EN : Fld := ⟨.AGT_TBL_CFG, 31, 31⟩
def AGT_TBL_CFG_TYPE : Fld := ⟨.AGT_TBL_CFG, 30, 29⟩
def AGT_TBL_CFG_LOC : Fld := ⟨.AGT_TBL_CFG, 28, 28⟩
def AGT_TBL_CFG_FC_EN : Fld := ⟨.AGT_TBL_CFG, 27, 27⟩
def AGT_TBL_CFG_CNT_EN : Fld := ⟨.AGT_TBL_CFG, 26, 26⟩
def AGT_TBL_CFG_PF_CNT : Fld := ⟨.AGT_TBL_CFG, 25, 25⟩
def AGT_TBL_CFG_V6 : Fld := ⟨.AGT_TBL_CFG, 24, 24⟩
def AGT_TBL_CFG_ENTRY_BYTES : Fld := ⟨.AGT_TBL_CFG, 23, 22⟩
def AGT_TBL_CFG_KEY_LEN : Fld := ⟨.AGT_TBL_CFG, 21, 16⟩
def AGT_TBL_CFG_MOVE : Fld := ⟨.AGT_TBL_CFG, 15, 14⟩
def AGT_TBL_CFG_LRN_EN : Fld := ⟨.AGT_TBL_CFG, 13, 13⟩
def AGT_TBL_CFG_AGE_EN : Fld := ⟨.AGT_TBL_CFG, 12, 12⟩
def AGT_TBL_CFG_MOVE_MAX : Fld := ⟨.AGT_TBL_CFG, 11, 4⟩
def AGT_TBL_CFG_DISP_MAX : Fld := ⟨.AGT_TBL_CFG, 3, 0⟩
def AGT_TBL_SIZE_SIZE : Fld := ⟨.AGT_TBL_SIZE, 27, 0⟩
def AGT_TBL_OBLK_NBLK : Fld := ⟨.AGT_TBL_OBLK, 24, 16⟩
def AGT_TBL_OBLK_FIRST : Fld := ⟨.AGT_TBL_OBLK, 8, 0⟩
def AGT_TBL_DBASE_DBASE : Fld := ⟨.AGT_TBL_DBASE, 63, 20⟩
def AGT_TBL_CBASE_CBASE : Fld := ⟨.AGT_TBL_CBASE, 63, 20⟩
def AGT_TBL_HB_HB_BASE : Fld := ⟨.AGT_TBL_HB, 24, 12⟩
def AGT_TBL_AGE_PERIOD_MS : Fld := ⟨.AGT_TBL_AGE, 31, 0⟩
def AGT_TBL_STASH_USED : Fld := ⟨.AGT_TBL_STASH, 28, 16⟩
def AGT_TBL_STASH_MAX : Fld := ⟨.AGT_TBL_STASH, 12, 0⟩
def AGT_TBL_GEN_GEN : Fld := ⟨.AGT_TBL_GEN, 7, 0⟩
def AGT_TBL_STS_DRAINED : Fld := ⟨.AGT_TBL_STS, 31, 31⟩
def AGT_TBL_STS_REJECT : Fld := ⟨.AGT_TBL_STS, 30, 30⟩
def AGT_TBL_STS_INIT : Fld := ⟨.AGT_TBL_STS, 29, 29⟩
def AGT_TBL_STS_CURSOR : Fld := ⟨.AGT_TBL_STS, 28, 28⟩
def AGT_TBL_STS_COUNT : Fld := ⟨.AGT_TBL_STS, 27, 0⟩
def ORY_CTL_EN : Fld := ⟨.ORY_CTL, 31, 31⟩
def ORY_STS_DRAINED : Fld := ⟨.ORY_STS, 31, 31⟩
def ORY_SLOT_XOFF_SLOTS : Fld := ⟨.ORY_SLOT_XOFF, 16, 0⟩
def ORY_TAG_XOFF_TAGS : Fld := ⟨.ORY_TAG_XOFF, 16, 0⟩
def ORY_SLOTS_FREE_FREE : Fld := ⟨.ORY_SLOTS_FREE, 16, 0⟩
def ORY_TAGS_FREE_FREE : Fld := ⟨.ORY_TAGS_FREE, 16, 0⟩
def ORY_POOL_STS_TAG_BP : Fld := ⟨.ORY_POOL_STS, 1, 1⟩
def ORY_POOL_STS_SLOT_BP : Fld := ⟨.ORY_POOL_STS, 0, 0⟩
def ORY_DOM_CFG_HOLD_LIMIT : Fld := ⟨.ORY_DOM_CFG, 31, 0⟩
def ORY_GATE_STS_USED : Fld := ⟨.ORY_GATE_STS, 17, 0⟩
def ORY_DLY_BASE_BASE : Fld := ⟨.ORY_DLY_BASE, 63, 20⟩
def ORY_DLY_CTL_EN : Fld := ⟨.ORY_DLY_CTL, 31, 31⟩
def ORY_DLY_CTL_REJECT : Fld := ⟨.ORY_DLY_CTL, 30, 30⟩
def ORY_DLY_STS_PENDING : Fld := ⟨.ORY_DLY_STS, 22, 0⟩
def ORY_GRP_MEMBERS_MEMBERS : Fld := ⟨.ORY_GRP_MEMBERS, 31, 0⟩
def ORY_CLU_STS_DRAINED : Fld := ⟨.ORY_CLU_STS, 31, 31⟩
def ORY_CLU_STS_MEMBER : Fld := ⟨.ORY_CLU_STS, 30, 30⟩
def ORY_CLU_STS_HELD : Fld := ⟨.ORY_CLU_STS, 8, 0⟩
def ORY_BPC_LINE_LINE : Fld := ⟨.ORY_BPC_LINE, 31, 0⟩
def ORY_BPC_SRC_SRC : Fld := ⟨.ORY_BPC_SRC, 31, 0⟩
def ORY_BPC_CFG_RECIRC : Fld := ⟨.ORY_BPC_CFG, 31, 31⟩
def ORY_BPC_STS_ASSERTED : Fld := ⟨.ORY_BPC_STS, 0, 0⟩
def ORY_DLY_L_CFG_EN : Fld := ⟨.ORY_DLY_L_CFG, 31, 31⟩
def ORY_DLY_L_CFG_TICK_LOG2 : Fld := ⟨.ORY_DLY_L_CFG, 4, 0⟩
def ORY_DLY_L_STS_DRAINED : Fld := ⟨.ORY_DLY_L_STS, 31, 31⟩
def ORY_DLY_L_STS_REJECT : Fld := ⟨.ORY_DLY_L_STS, 30, 30⟩
def ORY_DLY_L_STS_PENDING : Fld := ⟨.ORY_DLY_L_STS, 22, 0⟩
def ORY_Q_CFG_EN : Fld := ⟨.ORY_Q_CFG, 31, 31⟩
def ORY_Q_CFG_TYPE : Fld := ⟨.ORY_Q_CFG, 30, 29⟩
def ORY_Q_CFG_INHERIT : Fld := ⟨.ORY_Q_CFG, 28, 28⟩
def ORY_Q_CFG_POLICY : Fld := ⟨.ORY_Q_CFG, 27, 27⟩
def ORY_Q_CFG_GROUP : Fld := ⟨.ORY_Q_CFG, 26, 21⟩
def ORY_Q_CFG_PRI : Fld := ⟨.ORY_Q_CFG, 20, 18⟩
def ORY_Q_CFG_BPC : Fld := ⟨.ORY_Q_CFG, 17, 12⟩
def ORY_Q_CFG_BPC_EN : Fld := ⟨.ORY_Q_CFG, 11, 11⟩
def ORY_Q_CFG_WEIGHT : Fld := ⟨.ORY_Q_CFG, 10, 0⟩
def ORY_Q_ONCHIP_ONCHIP_MAX : Fld := ⟨.ORY_Q_ONCHIP, 16, 0⟩
def ORY_Q_XOFF_XOFF : Fld := ⟨.ORY_Q_XOFF, 23, 0⟩
def ORY_Q_XON_XON : Fld := ⟨.ORY_Q_XON, 23, 0⟩
def ORY_Q_LIMIT_LIMIT : Fld := ⟨.ORY_Q_LIMIT, 23, 0⟩
def ORY_Q_SPILL_SPILL_BASE : Fld := ⟨.ORY_Q_SPILL, 63, 12⟩
def ORY_Q_SPILL_CFG_SPILL_LOG2 : Fld := ⟨.ORY_Q_SPILL_CFG, 4, 0⟩
def ORY_Q_STS_DRAINED : Fld := ⟨.ORY_Q_STS, 31, 31⟩
def ORY_Q_STS_XOFF_ACT : Fld := ⟨.ORY_Q_STS, 30, 30⟩
def ORY_Q_STS_REJECT : Fld := ⟨.ORY_Q_STS, 29, 29⟩
def ORY_Q_STS_SPILLING : Fld := ⟨.ORY_Q_STS, 28, 28⟩
def ORY_Q_STS_PURGE_BUSY : Fld := ⟨.ORY_Q_STS, 27, 27⟩
def ORY_Q_DEPTH_DEPTH : Fld := ⟨.ORY_Q_DEPTH, 23, 0⟩
def ORY_Q_SDEPTH_SPILLED : Fld := ⟨.ORY_Q_SDEPTH, 23, 0⟩
def ORY_Q_CTL_PURGE : Fld := ⟨.ORY_Q_CTL, 0, 0⟩
def ORY_DOM_STS_WAITING : Fld := ⟨.ORY_DOM_STS, 31, 31⟩
def ORY_DOM_STS_HELD : Fld := ⟨.ORY_DOM_STS, 30, 30⟩
def ORY_DOM_STS_INFLIGHT : Fld := ⟨.ORY_DOM_STS, 16, 0⟩
def EGR_CTL_EN : Fld := ⟨.EGR_CTL, 31, 31⟩
def EGR_STS_DRAINED : Fld := ⟨.EGR_STS, 31, 31⟩
def EGR_PORT_CFG_PAUSE_RESP : Fld := ⟨.EGR_PORT_CFG, 31, 31⟩
def EGR_PORT_SHAPE_RATE : Fld := ⟨.EGR_PORT_SHAPE, 31, 12⟩
def EGR_PORT_SHAPE_BURST : Fld := ⟨.EGR_PORT_SHAPE, 11, 0⟩
def EGR_PORT_STS_CLOSED : Fld := ⟨.EGR_PORT_STS, 31, 31⟩
def EGR_PORT_STS_PAUSED : Fld := ⟨.EGR_PORT_STS, 23, 16⟩
def EGR_PORT_STS_PF_LEVEL : Fld := ⟨.EGR_PORT_STS, 15, 0⟩
def EGR_PORT_QUEUED_BYTES : Fld := ⟨.EGR_PORT_QUEUED, 31, 0⟩
def EGR_GRP_CFG_REJECT : Fld := ⟨.EGR_GRP_CFG, 31, 31⟩
def EGR_GRP_CFG_PORT : Fld := ⟨.EGR_GRP_CFG, 30, 26⟩
def EGR_GRP_CFG_PRI : Fld := ⟨.EGR_GRP_CFG, 25, 23⟩
def EGR_GRP_CFG_WEIGHT : Fld := ⟨.EGR_GRP_CFG, 9, 0⟩
def EGR_GRP_SHAPE_RATE : Fld := ⟨.EGR_GRP_SHAPE, 31, 12⟩
def EGR_GRP_SHAPE_BURST : Fld := ⟨.EGR_GRP_SHAPE, 11, 0⟩
def EGR_MCL_BASE : Fld := ⟨.EGR_MCL, 27, 16⟩
def EGR_MCL_COUNT : Fld := ⟨.EGR_MCL, 6, 0⟩
def EGR_MCM_QUEUE : Fld := ⟨.EGR_MCM, 13, 0⟩
def EGR_Q_CFG_EN : Fld := ⟨.EGR_Q_CFG, 31, 31⟩
def EGR_Q_CFG_KIND : Fld := ⟨.EGR_Q_CFG, 30, 30⟩
def EGR_Q_CFG_GROUP : Fld := ⟨.EGR_Q_CFG, 29, 20⟩
def EGR_Q_CFG_WEIGHT : Fld := ⟨.EGR_Q_CFG, 9, 0⟩
def EGR_Q_DEST_DEST : Fld := ⟨.EGR_Q_DEST, 11, 0⟩
def EGR_Q_SHAPE_RATE : Fld := ⟨.EGR_Q_SHAPE, 31, 12⟩
def EGR_Q_SHAPE_BURST : Fld := ⟨.EGR_Q_SHAPE, 11, 0⟩
def EGR_Q_LIMIT_LIMIT : Fld := ⟨.EGR_Q_LIMIT, 23, 0⟩
def EGR_Q_CLASS_CLASS : Fld := ⟨.EGR_Q_CLASS, 63, 0⟩
def EGR_Q_STS_DRAINED : Fld := ⟨.EGR_Q_STS, 31, 31⟩
def EGR_Q_STS_REJECT : Fld := ⟨.EGR_Q_STS, 30, 30⟩
def EGR_Q_STS_HELD : Fld := ⟨.EGR_Q_STS, 29, 29⟩
def EGR_Q_STS_PKTS : Fld := ⟨.EGR_Q_STS, 23, 0⟩
def EGR_Q_DEPTH_BYTES : Fld := ⟨.EGR_Q_DEPTH, 31, 0⟩
def MER_CFG_EN : Fld := ⟨.MER_CFG, 31, 31⟩
def MER_CFG_MODE : Fld := ⟨.MER_CFG, 30, 30⟩
def MER_CFG_GAP_EN : Fld := ⟨.MER_CFG, 29, 29⟩
def MER_CFG_GAP_CLASS : Fld := ⟨.MER_CFG, 21, 16⟩
def MER_CFG_GAP_GUARD : Fld := ⟨.MER_CFG, 15, 0⟩
def MER_CTL_SW_REQ : Fld := ⟨.MER_CTL, 0, 0⟩
def MER_STS_STATE : Fld := ⟨.MER_STS, 31, 30⟩
def MER_STS_SWITCHED : Fld := ⟨.MER_STS, 29, 29⟩
def MER_STS_SHADOW_BUSY : Fld := ⟨.MER_STS, 28, 28⟩
def MER_STS_RESYNC : Fld := ⟨.MER_STS, 27, 27⟩
def MER_STS_SYNC_EARLY : Fld := ⟨.MER_STS, 26, 26⟩
def MER_STS_REJECT : Fld := ⟨.MER_STS, 25, 25⟩
def MER_STS_ACTIVE : Fld := ⟨.MER_STS, 24, 24⟩
def MER_STS_SLOT : Fld := ⟨.MER_STS, 9, 0⟩
def MER_ANCHOR_NT : Fld := ⟨.MER_ANCHOR, 63, 0⟩
def MER_PERIOD_NS : Fld := ⟨.MER_PERIOD, 63, 0⟩
def MER_PREROLL_NS : Fld := ⟨.MER_PREROLL, 15, 0⟩
def MER_SYNC_DELAY : Fld := ⟨.MER_SYNC, 31, 0⟩
def MER_NSLOTS_ACTIVE : Fld := ⟨.MER_NSLOTS, 26, 16⟩
def MER_NSLOTS_SHADOW : Fld := ⟨.MER_NSLOTS, 10, 0⟩
def MER_PSEQ_PERIODS : Fld := ⟨.MER_PSEQ, 31, 0⟩
def FLT_STS_FORCE_MISS : Fld := ⟨.FLT_STS, 31, 31⟩
def FLT_STS_HREC_USED : Fld := ⟨.FLT_STS, 28, 16⟩
def FLT_STS_REG_USED : Fld := ⟨.FLT_STS, 10, 0⟩
def FLT_FORCE_SEM : Fld := ⟨.FLT_FORCE, 31, 31⟩
def FLT_FORCE_NUMBER : Fld := ⟨.FLT_FORCE, 27, 16⟩
def FLT_FORCE_OWNER : Fld := ⟨.FLT_FORCE, 15, 0⟩
def FLT_ABN_LAST_SEM : Fld := ⟨.FLT_ABN_LAST, 31, 31⟩
def FLT_ABN_LAST_NUMBER : Fld := ⟨.FLT_ABN_LAST, 27, 16⟩
def FLT_ABN_LAST_OWNER : Fld := ⟨.FLT_ABN_LAST, 15, 0⟩
def FLT_ABN_CNT_COUNT : Fld := ⟨.FLT_ABN_CNT, 15, 0⟩
def FLT_LGRP_CLU_CLU : Fld := ⟨.FLT_LGRP_CLU, 31, 0⟩
def FLT_LGRP_ACC_HOST_OK : Fld := ⟨.FLT_LGRP_ACC, 2, 2⟩
def FLT_LGRP_ACC_MGT_OK : Fld := ⟨.FLT_LGRP_ACC, 1, 1⟩
def FLT_LGRP_ACC_U_OK : Fld := ⟨.FLT_LGRP_ACC, 0, 0⟩
def FLT_SGRP_CLU_CLU : Fld := ⟨.FLT_SGRP_CLU, 31, 0⟩
def FLT_SGRP_ACC_HOST_OK : Fld := ⟨.FLT_SGRP_ACC, 2, 2⟩
def FLT_SGRP_ACC_MGT_OK : Fld := ⟨.FLT_SGRP_ACC, 1, 1⟩
def FLT_SGRP_ACC_U_OK : Fld := ⟨.FLT_SGRP_ACC, 0, 0⟩
def FLT_SEM_CFG_AVAIL : Fld := ⟨.FLT_SEM_CFG, 31, 16⟩
def FLT_SEM_CFG_MAX : Fld := ⟨.FLT_SEM_CFG, 15, 0⟩
def FLT_SEM_STS_ABANDONED : Fld := ⟨.FLT_SEM_STS, 31, 31⟩
def FLT_SEM_STS_HELD : Fld := ⟨.FLT_SEM_STS, 30, 14⟩
def FLT_SEM_STS_WAITERS : Fld := ⟨.FLT_SEM_STS, 13, 0⟩
def FLT_LOCK_HELD : Fld := ⟨.FLT_LOCK, 31, 31⟩
def FLT_LOCK_ABANDONED : Fld := ⟨.FLT_LOCK, 30, 30⟩
def FLT_LOCK_WAITERS : Fld := ⟨.FLT_LOCK, 29, 16⟩
def FLT_LOCK_OWNER : Fld := ⟨.FLT_LOCK, 15, 0⟩
def DRC_CFG_CE_WB : Fld := ⟨.DRC_CFG, 13, 13⟩
def DRC_CFG_RDIMM : Fld := ⟨.DRC_CFG, 12, 12⟩
def DRC_CFG_DENSITY : Fld := ⟨.DRC_CFG, 11, 10⟩
def DRC_CFG_RANKS : Fld := ⟨.DRC_CFG, 9, 9⟩
def DRC_CFG_DEV_W : Fld := ⟨.DRC_CFG, 8, 8⟩
def DRC_CFG_NCH : Fld := ⟨.DRC_CFG, 6, 4⟩
def DRC_CFG_SPEED : Fld := ⟨.DRC_CFG, 1, 0⟩
def DRC_CTL_EN : Fld := ⟨.DRC_CTL, 31, 31⟩
def DRC_CTL_DRAM_RESET_N : Fld := ⟨.DRC_CTL, 30, 30⟩
def DRC_CTL_INIT_GO : Fld := ⟨.DRC_CTL, 1, 1⟩
def DRC_STS_READY : Fld := ⟨.DRC_STS, 31, 31⟩
def DRC_STS_DRAINED : Fld := ⟨.DRC_STS, 30, 30⟩
def DRC_STS_PLL_LOCK : Fld := ⟨.DRC_STS, 29, 29⟩
def DRC_STS_INIT_DONE : Fld := ⟨.DRC_STS, 28, 28⟩
def DRC_STS_REJECT : Fld := ⟨.DRC_STS, 27, 27⟩
def DRC_STS_PANIC : Fld := ⟨.DRC_STS, 26, 26⟩
def DRC_STS_OOR : Fld := ⟨.DRC_STS, 25, 10⟩
def DRC_STS_CAPACITY : Fld := ⟨.DRC_STS, 8, 0⟩
def DRC_RT_CFG_CALM : Fld := ⟨.DRC_RT_CFG, 31, 16⟩
def DRC_RT_CFG_PANIC : Fld := ⟨.DRC_RT_CFG, 15, 0⟩
def DRC_AGE_AGE_MAX : Fld := ⟨.DRC_AGE, 15, 0⟩
def DRC_DMAWIN_BASE_BASE : Fld := ⟨.DRC_DMAWIN_BASE, 63, 20⟩
def DRC_DMAWIN_SIZE_SIZE : Fld := ⟨.DRC_DMAWIN_SIZE, 63, 20⟩
def DRC_SCRUB_EN : Fld := ⟨.DRC_SCRUB, 31, 31⟩
def DRC_SCRUB_PERIOD_H : Fld := ⟨.DRC_SCRUB, 7, 0⟩
def DRC_SCRUB_STS_PASSES : Fld := ⟨.DRC_SCRUB_STS, 31, 16⟩
def DRC_MRW_GO : Fld := ⟨.DRC_MRW, 31, 31⟩
def DRC_MRW_BUSY : Fld := ⟨.DRC_MRW, 30, 30⟩
def DRC_MRW_OP : Fld := ⟨.DRC_MRW, 29, 28⟩
def DRC_MRW_CH : Fld := ⟨.DRC_MRW, 27, 25⟩
def DRC_MRW_SUB : Fld := ⟨.DRC_MRW, 24, 24⟩
def DRC_MRW_RANK : Fld := ⟨.DRC_MRW, 23, 23⟩
def DRC_MRW_ADDR : Fld := ⟨.DRC_MRW, 19, 8⟩
def DRC_MRW_DATA : Fld := ⟨.DRC_MRW, 7, 0⟩
def DRC_TRN_CTL_GO : Fld := ⟨.DRC_TRN_CTL, 31, 31⟩
def DRC_TRN_CTL_BUSY : Fld := ⟨.DRC_TRN_CTL, 30, 30⟩
def DRC_TRN_CTL_CH : Fld := ⟨.DRC_TRN_CTL, 29, 27⟩
def DRC_TRN_CTL_SUB : Fld := ⟨.DRC_TRN_CTL, 26, 26⟩
def DRC_TRN_CTL_RANK : Fld := ⟨.DRC_TRN_CTL, 25, 25⟩
def DRC_TRN_CTL_STEP : Fld := ⟨.DRC_TRN_CTL, 20, 16⟩
def DRC_TRN_CTL_SWEEP_HI : Fld := ⟨.DRC_TRN_CTL, 15, 8⟩
def DRC_TRN_CTL_SWEEP_LO : Fld := ⟨.DRC_TRN_CTL, 7, 0⟩
def DRC_PORT_CFG_MAX_OUT : Fld := ⟨.DRC_PORT_CFG, 23, 16⟩
def DRC_PORT_CFG_WEIGHT : Fld := ⟨.DRC_PORT_CFG, 7, 0⟩
def DRC_PORT_STS_PENDING : Fld := ⟨.DRC_PORT_STS, 15, 0⟩
def DRC_TRN_RES_LEFT : Fld := ⟨.DRC_TRN_RES, 23, 16⟩
def DRC_TRN_RES_RIGHT : Fld := ⟨.DRC_TRN_RES, 15, 8⟩
def DRC_TRN_RES_FAIL : Fld := ⟨.DRC_TRN_RES, 7, 7⟩
def DRC_CH_STS_ACTIVE : Fld := ⟨.DRC_CH_STS, 31, 31⟩
def DRC_CH_STS_HI_TEMP : Fld := ⟨.DRC_CH_STS, 30, 30⟩
def DRC_CH_ECC_CE : Fld := ⟨.DRC_CH_ECC, 31, 16⟩
def DRC_CH_ECC_UE : Fld := ⟨.DRC_CH_ECC, 15, 0⟩
def DRC_CH_ECC_THR_CE_THR : Fld := ⟨.DRC_CH_ECC_THR, 15, 0⟩
def DRC_CH_ECC_ADDR_UE : Fld := ⟨.DRC_CH_ECC_ADDR, 63, 63⟩
def DRC_CH_ECC_ADDR_PORT : Fld := ⟨.DRC_CH_ECC_ADDR, 62, 60⟩
def DRC_CH_ECC_ADDR_DEVICE : Fld := ⟨.DRC_CH_ECC_ADDR, 59, 56⟩
def DRC_CH_ECC_ADDR_SUB : Fld := ⟨.DRC_CH_ECC_ADDR, 55, 55⟩
def DRC_CH_ECC_ADDR_ADDR : Fld := ⟨.DRC_CH_ECC_ADDR, 38, 0⟩
def DRC_CH_DLY_VREF : Fld := ⟨.DRC_CH_DLY, 23, 16⟩
def DRC_CH_DLY_WR_DLY : Fld := ⟨.DRC_CH_DLY, 15, 8⟩
def DRC_CH_DLY_RD_DLY : Fld := ⟨.DRC_CH_DLY, 7, 0⟩
def MGT_BOOT_STS_STAGE : Fld := ⟨.MGT_BOOT_STS, 31, 28⟩
def MGT_BOOT_STS_ERR : Fld := ⟨.MGT_BOOT_STS, 27, 24⟩
def MGT_BOOT_STS_COPY : Fld := ⟨.MGT_BOOT_STS, 23, 23⟩
def MGT_BOOT_STS_FELLBACK : Fld := ⟨.MGT_BOOT_STS, 22, 22⟩
def MGT_BOOT_STS_WIN_REJECT : Fld := ⟨.MGT_BOOT_STS, 21, 21⟩
def MGT_BOOT_STS_MODE : Fld := ⟨.MGT_BOOT_STS, 17, 16⟩
def MGT_BOOT_CTL_HOST_GO : Fld := ⟨.MGT_BOOT_CTL, 31, 31⟩
def MGT_FW_VERSION_VERSION : Fld := ⟨.MGT_FW_VERSION, 31, 0⟩
def MGT_CFG_HOST_MEM : Fld := ⟨.MGT_CFG, 31, 30⟩
def MGT_MEMWIN_BASE_PAGE : Fld := ⟨.MGT_MEMWIN_BASE, 3, 0⟩
def MGT_FAULT_VEC_PC : Fld := ⟨.MGT_FAULT_VEC, 31, 2⟩
def MGT_FAULT_DONE_DONE : Fld := ⟨.MGT_FAULT_DONE, 0, 0⟩
def MGT_THRCTL_PC : Fld := ⟨.MGT_THRCTL, 63, 32⟩
def MGT_THRCTL_OP : Fld := ⟨.MGT_THRCTL, 31, 28⟩
def MGT_THRCTL_SEV : Fld := ⟨.MGT_THRCTL, 15, 8⟩
def MGT_THRCTL_SLOT : Fld := ⟨.MGT_THRCTL, 2, 0⟩
def MGT_STS_THRCTL_REJECT : Fld := ⟨.MGT_STS, 31, 31⟩
def MGT_THR_STS_STATE : Fld := ⟨.MGT_THR_STS, 31, 29⟩
def MGT_THR_STS_IN_FAULT : Fld := ⟨.MGT_THR_STS, 28, 28⟩
def MGT_THR_STS_WAIT : Fld := ⟨.MGT_THR_STS, 27, 24⟩
def MGT_THR_PC_PC : Fld := ⟨.MGT_THR_PC, 31, 0⟩
def MGT_THR_FAULT_CAUSE : Fld := ⟨.MGT_THR_FAULT, 31, 24⟩
def MGT_THR_DETAIL_DETAIL : Fld := ⟨.MGT_THR_DETAIL, 31, 0⟩
def DBG_ID_ID : Fld := ⟨.DBG_ID, 31, 0⟩
def DBG_ID_ASSIGNED_ID : Fld := ⟨.DBG_ID_ASSIGNED, 63, 0⟩
def DBG_SESSION_REJECT : Fld := ⟨.DBG_SESSION, 4, 4⟩
def DBG_SESSION_RELEASE : Fld := ⟨.DBG_SESSION, 3, 3⟩
def DBG_SESSION_CLAIM : Fld := ⟨.DBG_SESSION, 2, 2⟩
def DBG_SESSION_OWNER : Fld := ⟨.DBG_SESSION, 1, 0⟩
def DBG_LOCK_UNLOCKED : Fld := ⟨.DBG_LOCK, 31, 31⟩
def DBG_LOCK_RELOCK : Fld := ⟨.DBG_LOCK, 30, 30⟩
def DBG_LOCK_CHAL_GO : Fld := ⟨.DBG_LOCK, 29, 29⟩
def DBG_LOCK_VERIFY_GO : Fld := ⟨.DBG_LOCK, 28, 28⟩
def DBG_LOCK_BUSY : Fld := ⟨.DBG_LOCK, 27, 27⟩
def DBG_LOCK_FAIL : Fld := ⟨.DBG_LOCK, 26, 26⟩
def DBG_LOCK_SCOPE : Fld := ⟨.DBG_LOCK, 18, 16⟩
def DBG_LOCK_FAILS : Fld := ⟨.DBG_LOCK, 15, 0⟩
def DBG_CTL_FREEZE_ORDER : Fld := ⟨.DBG_CTL, 31, 31⟩
def DBG_CTL_BRK_EN : Fld := ⟨.DBG_CTL, 30, 30⟩
def DBG_RST_WARM : Fld := ⟨.DBG_RST, 31, 31⟩
def DBG_RST_MGT : Fld := ⟨.DBG_RST, 30, 30⟩
def DBG_RST_CL_CLU : Fld := ⟨.DBG_RST_CL, 31, 0⟩
def DBG_CHAL_BYTES : Fld := ⟨.DBG_CHAL, 31, 0⟩
def DBG_TOKEN_WORD : Fld := ⟨.DBG_TOKEN, 31, 0⟩
def DBG_THR_CTL_OP : Fld := ⟨.DBG_THR_CTL, 31, 28⟩
def DBG_THR_CTL_SCOPE : Fld := ⟨.DBG_THR_CTL, 27, 26⟩
def DBG_THR_CTL_TID : Fld := ⟨.DBG_THR_CTL, 13, 0⟩
def DBG_THR_STS_DEBUG : Fld := ⟨.DBG_THR_STS, 31, 31⟩
def DBG_THR_STS_REASON : Fld := ⟨.DBG_THR_STS, 30, 28⟩
def DBG_THR_STS_STEPPING : Fld := ⟨.DBG_THR_STS, 27, 27⟩
def DBG_THR_STS_REJECT : Fld := ⟨.DBG_THR_STS, 26, 26⟩
def DBG_THR_PC_PC : Fld := ⟨.DBG_THR_PC, 31, 0⟩
def DBG_LMEM_SEL_CORE : Fld := ⟨.DBG_LMEM_SEL, 7, 0⟩
def DBG_TRC_WIN_CLUSTER : Fld := ⟨.DBG_TRC_WIN, 4, 0⟩
def DBG_OTRC_CFG_EN : Fld := ⟨.DBG_OTRC_CFG, 31, 31⟩
def DBG_OTRC_CFG_STOP_FULL : Fld := ⟨.DBG_OTRC_CFG, 30, 30⟩
def DBG_OTRC_CFG_FILT_KIND : Fld := ⟨.DBG_OTRC_CFG, 15, 14⟩
def DBG_OTRC_CFG_FILT : Fld := ⟨.DBG_OTRC_CFG, 13, 0⟩
def DBG_OTRC_STS_LOST : Fld := ⟨.DBG_OTRC_STS, 27, 16⟩
def DBG_OTRC_STS_WPTR : Fld := ⟨.DBG_OTRC_STS, 12, 0⟩
def DBG_MTRC_CFG_EN : Fld := ⟨.DBG_MTRC_CFG, 31, 31⟩
def DBG_MTRC_CFG_STOP_FULL : Fld := ⟨.DBG_MTRC_CFG, 30, 30⟩
def DBG_MTRC_CFG_TYPES : Fld := ⟨.DBG_MTRC_CFG, 5, 0⟩
def DBG_MTRC_STS_STOPPED : Fld := ⟨.DBG_MTRC_STS, 31, 31⟩
def DBG_MTRC_STS_LOST : Fld := ⟨.DBG_MTRC_STS, 27, 16⟩
def DBG_MTRC_STS_WPTR : Fld := ⟨.DBG_MTRC_STS, 10, 0⟩
def DBG_THR_REG_VALUE : Fld := ⟨.DBG_THR_REG, 31, 0⟩
def DBG_CORE_BP_ADDR : Fld := ⟨.DBG_CORE_BP, 31, 0⟩
def DBG_CORE_BPC_EN : Fld := ⟨.DBG_CORE_BPC, 31, 31⟩
def DBG_CORE_BPC_ACTION : Fld := ⟨.DBG_CORE_BPC, 30, 29⟩
def DBG_CORE_BPC_TID_EN : Fld := ⟨.DBG_CORE_BPC, 5, 5⟩
def DBG_CORE_BPC_TID : Fld := ⟨.DBG_CORE_BPC, 4, 0⟩
def DBG_CORE_WP_ADDR : Fld := ⟨.DBG_CORE_WP, 31, 0⟩
def DBG_CORE_WPC_EN : Fld := ⟨.DBG_CORE_WPC, 31, 31⟩
def DBG_CORE_WPC_ACTION : Fld := ⟨.DBG_CORE_WPC, 30, 29⟩
def DBG_CORE_WPC_LD : Fld := ⟨.DBG_CORE_WPC, 28, 28⟩
def DBG_CORE_WPC_ST : Fld := ⟨.DBG_CORE_WPC, 27, 27⟩
def DBG_CORE_WPC_SIZE_LOG2 : Fld := ⟨.DBG_CORE_WPC, 20, 16⟩
def DBG_CORE_WPC_TID_EN : Fld := ⟨.DBG_CORE_WPC, 5, 5⟩
def DBG_CORE_WPC_TID : Fld := ⟨.DBG_CORE_WPC, 4, 0⟩
def DBG_TRC_CFG_EN : Fld := ⟨.DBG_TRC_CFG, 31, 31⟩
def DBG_TRC_CFG_STOP_FULL : Fld := ⟨.DBG_TRC_CFG, 30, 30⟩
def DBG_TRC_CFG_CORES : Fld := ⟨.DBG_TRC_CFG, 15, 8⟩
def DBG_TRC_CFG_TYPES : Fld := ⟨.DBG_TRC_CFG, 5, 0⟩
def DBG_TRC_STS_STOPPED : Fld := ⟨.DBG_TRC_STS, 31, 31⟩
def DBG_TRC_STS_LOST : Fld := ⟨.DBG_TRC_STS, 27, 16⟩
def DBG_TRC_STS_WPTR : Fld := ⟨.DBG_TRC_STS, 12, 0⟩
def PIO_GPIO_OUT_OUT : Fld := ⟨.PIO_GPIO_OUT, 31, 0⟩
def PIO_GPIO_SET_OUT : Fld := ⟨.PIO_GPIO_SET, 31, 0⟩
def PIO_GPIO_CLR_OUT : Fld := ⟨.PIO_GPIO_CLR, 31, 0⟩
def PIO_GPIO_OE_OE : Fld := ⟨.PIO_GPIO_OE, 31, 0⟩
def PIO_GPIO_IN_IN : Fld := ⟨.PIO_GPIO_IN, 31, 0⟩
def PIO_GPIO_PULL_PULL : Fld := ⟨.PIO_GPIO_PULL, 31, 0⟩
def PIO_GPIO_FN_FN0 : Fld := ⟨.PIO_GPIO_FN, 2, 0⟩
def PIO_GPIO_FN_FN1 : Fld := ⟨.PIO_GPIO_FN, 6, 4⟩
def PIO_GPIO_FN_FN2 : Fld := ⟨.PIO_GPIO_FN, 10, 8⟩
def PIO_GPIO_FN_FN3 : Fld := ⟨.PIO_GPIO_FN, 14, 12⟩
def PIO_GPIO_FN_FN4 : Fld := ⟨.PIO_GPIO_FN, 18, 16⟩
def PIO_GPIO_FN_FN5 : Fld := ⟨.PIO_GPIO_FN, 22, 20⟩
def PIO_GPIO_FN_FN6 : Fld := ⟨.PIO_GPIO_FN, 26, 24⟩
def PIO_GPIO_FN_FN7 : Fld := ⟨.PIO_GPIO_FN, 30, 28⟩
def PIO_SPI_CTL_GO : Fld := ⟨.PIO_SPI_CTL, 31, 31⟩
def PIO_SPI_CTL_BUSY : Fld := ⟨.PIO_SPI_CTL, 30, 30⟩
def PIO_SPI_CTL_ROM_OWN : Fld := ⟨.PIO_SPI_CTL, 29, 29⟩
def PIO_SPI_CTL_LANES : Fld := ⟨.PIO_SPI_CTL, 28, 27⟩
def PIO_SPI_CTL_ADDR4 : Fld := ⟨.PIO_SPI_CTL, 26, 26⟩
def PIO_SPI_CTL_RD : Fld := ⟨.PIO_SPI_CTL, 25, 25⟩
def PIO_SPI_CTL_DUMMY : Fld := ⟨.PIO_SPI_CTL, 24, 20⟩
def PIO_SPI_CTL_DIV : Fld := ⟨.PIO_SPI_CTL, 19, 16⟩
def PIO_SPI_CTL_CMD : Fld := ⟨.PIO_SPI_CTL, 15, 8⟩
def PIO_SPI_CTL_NOADDR : Fld := ⟨.PIO_SPI_CTL, 7, 7⟩
def PIO_SPI_CTL_LEN : Fld := ⟨.PIO_SPI_CTL, 6, 0⟩
def PIO_SPI_ADDR_ADDR : Fld := ⟨.PIO_SPI_ADDR, 31, 0⟩
def PIO_SPI_DATA_DATA : Fld := ⟨.PIO_SPI_DATA, 31, 0⟩
def PIO_I2C0_CFG_EN : Fld := ⟨.PIO_I2C0_CFG, 31, 31⟩
def PIO_I2C0_CFG_ADDR : Fld := ⟨.PIO_I2C0_CFG, 6, 0⟩
def PIO_I2C1_CTL_GO : Fld := ⟨.PIO_I2C1_CTL, 31, 31⟩
def PIO_I2C1_CTL_BUSY : Fld := ⟨.PIO_I2C1_CTL, 30, 30⟩
def PIO_I2C1_CTL_NACK : Fld := ⟨.PIO_I2C1_CTL, 29, 29⟩
def PIO_I2C1_CTL_FAST : Fld := ⟨.PIO_I2C1_CTL, 28, 28⟩
def PIO_I2C1_CTL_RD : Fld := ⟨.PIO_I2C1_CTL, 27, 27⟩
def PIO_I2C1_CTL_NOSTOP : Fld := ⟨.PIO_I2C1_CTL, 26, 26⟩
def PIO_I2C1_CTL_ADDR : Fld := ⟨.PIO_I2C1_CTL, 13, 7⟩
def PIO_I2C1_CTL_LEN : Fld := ⟨.PIO_I2C1_CTL, 5, 0⟩
def PIO_I2C1_DATA_DATA : Fld := ⟨.PIO_I2C1_DATA, 31, 0⟩
def GCL_CTL_IC_INV : Fld := ⟨.GCL_CTL, 2, 2⟩
def GCL_CTL_START : Fld := ⟨.GCL_CTL, 0, 0⟩
def GCL_STS_FQ_COUNT : Fld := ⟨.GCL_STS, 22, 16⟩
def GCL_STS_THRCTL_REJECT : Fld := ⟨.GCL_STS, 2, 2⟩
def GCL_STS_FQ_OVF : Fld := ⟨.GCL_STS, 1, 1⟩
def GCL_STS_STARTED : Fld := ⟨.GCL_STS, 0, 0⟩
def GCL_SUPV_REJECT : Fld := ⟨.GCL_SUPV, 31, 31⟩
def GCL_SUPV_TID : Fld := ⟨.GCL_SUPV, 7, 0⟩
def GCL_ENTRY_PC : Fld := ⟨.GCL_ENTRY, 31, 2⟩
def GCL_SUPV_ENTRY_PC : Fld := ⟨.GCL_SUPV_ENTRY, 31, 2⟩
def GCL_IMG_LIMIT : Fld := ⟨.GCL_IMG, 7, 0⟩
def GCL_BUDGET_NS : Fld := ⟨.GCL_BUDGET, 31, 0⟩
def GCL_WG_WINDOW_CYCLES : Fld := ⟨.GCL_WG_WINDOW, 31, 0⟩
def GCL_THR_EN_EN : Fld := ⟨.GCL_THR_EN, 31, 0⟩
def GCL_THR_PRIV_PRIV : Fld := ⟨.GCL_THR_PRIV, 31, 0⟩
def GCL_FAULTQ_REC_WORD : Fld := ⟨.GCL_FAULTQ_REC, 31, 0⟩
def GCL_FAULTQ_POP_VALID : Fld := ⟨.GCL_FAULTQ_POP, 31, 31⟩
def GCL_FAULTQ_POP_REMAIN : Fld := ⟨.GCL_FAULTQ_POP, 6, 0⟩
def GCL_THRCTL_PC : Fld := ⟨.GCL_THRCTL, 63, 32⟩
def GCL_THRCTL_OP : Fld := ⟨.GCL_THRCTL, 31, 28⟩
def GCL_THRCTL_SEV : Fld := ⟨.GCL_THRCTL, 15, 8⟩
def GCL_THRCTL_TID : Fld := ⟨.GCL_THRCTL, 7, 0⟩
def GCL_WG_MEMBERS_MEMBERS : Fld := ⟨.GCL_WG_MEMBERS, 31, 0⟩
def GCL_WG_STS_DETECTED : Fld := ⟨.GCL_WG_STS, 31, 31⟩
def GCL_WG_STS_COUNTING : Fld := ⟨.GCL_WG_STS, 30, 30⟩
def GCL_WG_STS_INTERNAL : Fld := ⟨.GCL_WG_STS, 8, 0⟩
def GCL_WG_NT_NT : Fld := ⟨.GCL_WG_NT, 63, 0⟩
def GCL_CH_CFG_EN : Fld := ⟨.GCL_CH_CFG, 31, 31⟩
def GCL_CH_STS_DRAINED : Fld := ⟨.GCL_CH_STS, 31, 31⟩
def GCL_CH_STS_COUNT : Fld := ⟨.GCL_CH_STS, 4, 0⟩
def GCL_THR_STS_STATE : Fld := ⟨.GCL_THR_STS, 31, 29⟩
def GCL_THR_STS_PRIV : Fld := ⟨.GCL_THR_STS, 28, 28⟩
def GCL_THR_STS_WAIT : Fld := ⟨.GCL_THR_STS, 27, 24⟩
def GCL_THR_STS_ITEM : Fld := ⟨.GCL_THR_STS, 23, 23⟩
def GCL_THR_STS_TAG : Fld := ⟨.GCL_THR_STS, 22, 22⟩
def GCL_THR_STS_CTX : Fld := ⟨.GCL_THR_STS, 21, 21⟩
def GCL_THR_STS_TCMP_ARMED : Fld := ⟨.GCL_THR_STS, 20, 20⟩
def GCL_THR_STS_OUTSTANDING : Fld := ⟨.GCL_THR_STS, 19, 19⟩
def GCL_THR_STS_INTERNAL : Fld := ⟨.GCL_THR_STS, 18, 18⟩
def GCL_THR_STS_LATE : Fld := ⟨.GCL_THR_STS, 17, 17⟩
def GCL_THR_PC_PC : Fld := ⟨.GCL_THR_PC, 31, 0⟩
def GCL_THR_EV_WAIT_MASK : Fld := ⟨.GCL_THR_EV, 31, 16⟩
def GCL_THR_EV_PENDING : Fld := ⟨.GCL_THR_EV, 15, 0⟩
def GCL_THR_FAULT_CAUSE : Fld := ⟨.GCL_THR_FAULT, 31, 24⟩
def GCL_THR_DETAIL_DETAIL : Fld := ⟨.GCL_THR_DETAIL, 31, 0⟩
def CPX_CFG_EN : Fld := ⟨.CPX_CFG, 31, 31⟩
def CPX_CFG_S_EN : Fld := ⟨.CPX_CFG, 30, 30⟩
def CPX_CFG_U_EN : Fld := ⟨.CPX_CFG, 29, 29⟩
def CPX_CFG_CLR_ON_UNLOCK : Fld := ⟨.CPX_CFG, 28, 28⟩
def CPX_STS_DRAINED : Fld := ⟨.CPX_STS, 31, 31⟩
def CPX_STS_WAITING : Fld := ⟨.CPX_STS, 21, 16⟩
def CPX_STS_QUSED : Fld := ⟨.CPX_STS, 6, 0⟩
def CPX_SLANE_S_ONLY : Fld := ⟨.CPX_SLANE, 15, 0⟩
def CPX_LANE_STS_HELD : Fld := ⟨.CPX_LANE_STS, 31, 31⟩
def CPX_LANE_STS_ABANDONED : Fld := ⟨.CPX_LANE_STS, 30, 30⟩
def CPX_LANE_STS_ERR : Fld := ⟨.CPX_LANE_STS, 29, 29⟩
def CPX_LANE_STS_WAITERS : Fld := ⟨.CPX_LANE_STS, 23, 16⟩
def CPX_LANE_STS_HOLDER : Fld := ⟨.CPX_LANE_STS, 7, 0⟩
def CPX_LANE_CTL_OP : Fld := ⟨.CPX_LANE_CTL, 31, 28⟩
def CPX_KEY_KEY_KEY : Fld := ⟨.CPX_KEY_KEY, 31, 0⟩
def CPX_KEY_CTL_VALID : Fld := ⟨.CPX_KEY_CTL, 31, 31⟩
def CPX_KEY_CTL_K256 : Fld := ⟨.CPX_KEY_CTL, 30, 30⟩
end F

/-- The description of each register kind. -/
def regDesc : RegName → RegDesc
  | .GLB_ID => ⟨0x0, [], false, .aonPor, [⟨F.GLB_ID_FAMILY, .ro, 0x5a⟩, ⟨F.GLB_ID_DIE, .ro, 0x160⟩, ⟨F.GLB_ID_VARIANT, .ro, 0⟩, ⟨F.GLB_ID_STEP_MAJOR, .ro, 0⟩, ⟨F.GLB_ID_STEP_MINOR, .ro, 0⟩]⟩
  | .GLB_FEAT0 => ⟨0x10, [], false, .aonPor, [⟨F.GLB_FEAT0_DRC_PRESENT, .ro, 0x3f⟩, ⟨F.GLB_FEAT0_QUAD_PRESENT, .ro, 0xf⟩, ⟨F.GLB_FEAT0_P800_23, .ro, 1⟩, ⟨F.GLB_FEAT0_CPX_H, .ro, 1⟩, ⟨F.GLB_FEAT0_CPX_C, .ro, 1⟩]⟩
  | .GLB_FEAT1 => ⟨0x14, [], false, .aonPor, [⟨F.GLB_FEAT1_THREADS, .ro, 0x2000⟩, ⟨F.GLB_FEAT1_CORES, .ro, 0x100⟩, ⟨F.GLB_FEAT1_CLUSTERS, .ro, 0x20⟩]⟩
  | .GLB_FEAT2 => ⟨0x18, [], false, .aonPor, [⟨F.GLB_FEAT2_EM_MAX_LOG2, .ro, 0x19⟩, ⟨F.GLB_FEAT2_CELLS_LOG2, .ro, 0x13⟩, ⟨F.GLB_FEAT2_LINE_LANES, .ro, 0x10⟩]⟩
  | .GLB_FEAT3 => ⟨0x1C, [], false, .aonPor, [⟨F.GLB_FEAT3_PTP_1STEP, .ro, 1⟩, ⟨F.GLB_FEAT3_MER, .ro, 1⟩, ⟨F.GLB_FEAT3_ISA_VERSION, .ro, 1⟩]⟩
  | .GLB_CLUSTER_PRESENT => ⟨0x20, [], false, .aonPor, [⟨F.GLB_CLUSTER_PRESENT_PRESENT, .ro, 0xffffffff⟩]⟩
  | .GLB_ASSIGNED_ID => ⟨0x30, [], true, .aonPor, [⟨F.GLB_ASSIGNED_ID_ID, .rw, 0⟩]⟩
  | .GLB_SCRATCH => ⟨0x40, [(8, 0x4)], false, .aonPor, [⟨F.GLB_SCRATCH_DATA, .rw, 0⟩]⟩
  | .RST_CAUSE => ⟨0x100000, [], false, .aon, [⟨F.RST_CAUSE_THERMTRIP, .w1c, 0⟩, ⟨F.RST_CAUSE_LOCKUP_MGT, .w1c, 0⟩, ⟨F.RST_CAUSE_LOCKUP_CL, .w1c, 0⟩, ⟨F.RST_CAUSE_CLK_PLL, .w1c, 0⟩, ⟨F.RST_CAUSE_CLK_PCIE, .w1c, 0⟩, ⟨F.RST_CAUSE_CLK_ETH, .w1c, 0⟩, ⟨F.RST_CAUSE_CLK_SYSREF, .w1c, 0⟩, ⟨F.RST_CAUSE_DBG, .w1c, 0⟩, ⟨F.RST_CAUSE_SW, .w1c, 0⟩, ⟨F.RST_CAUSE_WDT, .w1c, 0⟩, ⟨F.RST_CAUSE_PERST1, .w1c, 0⟩, ⟨F.RST_CAUSE_PERST0, .w1c, 0⟩, ⟨F.RST_CAUSE_RESET_N, .w1c, 0⟩, ⟨F.RST_CAUSE_BOR, .w1c, 0⟩, ⟨F.RST_CAUSE_POR, .w1c, 1⟩]⟩
  | .RST_LOCKUP_CL => ⟨0x100004, [], false, .aon, [⟨F.RST_LOCKUP_CL_CLU, .w1c, 0⟩]⟩
  | .RST_DOM_STS => ⟨0x100008, [], false, .aon, [⟨F.RST_DOM_STS_LINE, .ro, 1⟩, ⟨F.RST_DOM_STS_PKT, .ro, 1⟩, ⟨F.RST_DOM_STS_MEM, .ro, 1⟩, ⟨F.RST_DOM_STS_HOST1, .ro, 1⟩, ⟨F.RST_DOM_STS_HOST0, .ro, 1⟩, ⟨F.RST_DOM_STS_MGT, .ro, 1⟩]⟩
  | .RST_DOM_STS_CL => ⟨0x10000C, [], false, .aon, [⟨F.RST_DOM_STS_CL_CLU, .ro, 0xffffffff⟩]⟩
  | .RST_SWRST => ⟨0x100010, [], false, .aon, [⟨F.RST_SWRST_WARM, .w1s, 0⟩, ⟨F.RST_SWRST_LINE, .w1s, 0⟩, ⟨F.RST_SWRST_PKT, .w1s, 0⟩, ⟨F.RST_SWRST_MEM, .w1s, 0⟩, ⟨F.RST_SWRST_HOST1, .w1s, 0⟩, ⟨F.RST_SWRST_HOST0, .w1s, 0⟩, ⟨F.RST_SWRST_MGT, .w1s, 0⟩]⟩
  | .RST_SWRST_CLR => ⟨0x100014, [], false, .aon, [⟨F.RST_SWRST_CLR_REQ, .w1c, 0⟩]⟩
  | .RST_SWRST_CL => ⟨0x100018, [], false, .aon, [⟨F.RST_SWRST_CL_CLU, .w1s, 0⟩]⟩
  | .RST_SWRST_CL_CLR => ⟨0x10001C, [], false, .aon, [⟨F.RST_SWRST_CL_CLR_CLU, .w1c, 0⟩]⟩
  | .RST_SWRST_CFG => ⟨0x100020, [], false, .aon, [⟨F.RST_SWRST_CFG_REJECT, .w1c, 0⟩, ⟨F.RST_SWRST_CFG_HOLD, .rw, 0⟩]⟩
  | .RST_BLK_RST => ⟨0x100030, [], false, .aon, [⟨F.RST_BLK_RST_DRC, .w1s, 0⟩, ⟨F.RST_BLK_RST_EGR, .w1s, 0⟩, ⟨F.RST_BLK_RST_ORY, .w1s, 0⟩, ⟨F.RST_BLK_RST_AGT, .w1s, 0⟩, ⟨F.RST_BLK_RST_PRS, .w1s, 0⟩, ⟨F.RST_BLK_RST_CRN, .w1s, 0⟩, ⟨F.RST_BLK_RST_LPT, .w1s, 0⟩, ⟨F.RST_BLK_RST_HIF, .w1s, 0⟩]⟩
  | .RST_WDT_CFG => ⟨0x100040, [], false, .aon, [⟨F.RST_WDT_CFG_EN, .rw, 0⟩, ⟨F.RST_WDT_CFG_REACH, .rw, 0⟩, ⟨F.RST_WDT_CFG_WARN_MS, .rw, 0x64⟩, ⟨F.RST_WDT_CFG_TIMEOUT_MS, .rw, 0x3e8⟩]⟩
  | .RST_WDT_KICK => ⟨0x100044, [], false, .aon, [⟨F.RST_WDT_KICK_KEY, .wo, 0⟩]⟩
  | .RST_WDT_STS => ⟨0x100048, [], false, .aon, [⟨F.RST_WDT_STS_BADKICK, .w1c, 0⟩, ⟨F.RST_WDT_STS_WARNED, .ro, 0⟩, ⟨F.RST_WDT_STS_EXPIRED, .rc, 0⟩, ⟨F.RST_WDT_STS_REMAIN_MS, .ro, 0⟩]⟩
  | .RST_CLKMON_STS => ⟨0x100050, [], false, .aon, [⟨F.RST_CLKMON_STS_PCIE_OK, .ro, 0⟩, ⟨F.RST_CLKMON_STS_ETH1_OK, .ro, 0⟩, ⟨F.RST_CLKMON_STS_ETH0_OK, .ro, 0⟩, ⟨F.RST_CLKMON_STS_SYSREF_OK, .ro, 1⟩]⟩
  | .RST_CLKMON_CNT => ⟨0x100054, [], false, .aon, [⟨F.RST_CLKMON_CNT_PCIE, .rc, 0⟩, ⟨F.RST_CLKMON_CNT_ETH1, .rc, 0⟩, ⟨F.RST_CLKMON_CNT_ETH0, .rc, 0⟩, ⟨F.RST_CLKMON_CNT_PLL, .rc, 0⟩]⟩
  | .RST_PLL_STS => ⟨0x100058, [], false, .aon, [⟨F.RST_PLL_STS_G, .ro, 0⟩, ⟨F.RST_PLL_STS_M, .ro, 0⟩, ⟨F.RST_PLL_STS_P, .ro, 0⟩]⟩
  | .RST_MGT_PWR => ⟨0x100060, [], false, .aon, [⟨F.RST_MGT_PWR_SLEEP_EN, .rw, 0⟩, ⟨F.RST_MGT_PWR_ASLEEP, .ro, 0⟩, ⟨F.RST_MGT_PWR_SLEEPS, .rc, 0⟩]⟩
  | .RST_CLU_CLK => ⟨0x100100, [(32, 0x4)], false, .aon, [⟨F.RST_CLU_CLK_PARK, .rw, 0⟩, ⟨F.RST_CLU_CLK_DEEP, .rw, 0⟩, ⟨F.RST_CLU_CLK_PARKED, .ro, 0⟩, ⟨F.RST_CLU_CLK_PLL_LOCK, .ro, 0⟩, ⟨F.RST_CLU_CLK_THROTTLED, .ro, 0⟩, ⟨F.RST_CLU_CLK_STEP_BUSY, .ro, 0⟩, ⟨F.RST_CLU_CLK_LIMIT, .ro, 2⟩, ⟨F.RST_CLU_CLK_STEP_CUR, .ro, 2⟩, ⟨F.RST_CLU_CLK_STEP, .rw, 2⟩]⟩
  | .RST_THERM_CFG => ⟨0x100200, [], false, .aon, [⟨F.RST_THERM_CFG_THR_EN, .rw, 1⟩, ⟨F.RST_THERM_CFG_ALARM_C, .rw, 0x64⟩, ⟨F.RST_THERM_CFG_THROTTLE_C, .rw, 0x69⟩, ⟨F.RST_THERM_CFG_HYST_C, .rw, 5⟩]⟩
  | .RST_THERM_STS => ⟨0x100204, [], false, .aon, [⟨F.RST_THERM_STS_TRIPPED, .ro, 0⟩, ⟨F.RST_THERM_STS_ALARM, .ro, 0⟩, ⟨F.RST_THERM_STS_MAX_SENSOR, .ro, 0⟩, ⟨F.RST_THERM_STS_THROTTLE_CNT, .rc, 0⟩]⟩
  | .RST_TS => ⟨0x100240, [(36, 0x4)], false, .aon, [⟨F.RST_TS_VALID, .ro, 0⟩, ⟨F.RST_TS_TEMP, .ro, 0⟩]⟩
  | .RST_ELOG_CFG => ⟨0x180000, [], false, .pkt, [⟨F.RST_ELOG_CFG_CE_REC, .rw, 0⟩]⟩
  | .RST_ELOG_STS => ⟨0x180004, [], false, .pkt, [⟨F.RST_ELOG_STS_NOC_STUCK, .w1c, 0⟩, ⟨F.RST_ELOG_STS_STATE_LOST, .w1c, 0⟩]⟩
  | .RST_ELOG_SEQ => ⟨0x180008, [], false, .pkt, [⟨F.RST_ELOG_SEQ_NEXT, .ro, 0⟩]⟩
  | .RST_ELOG_CNT => ⟨0x180100, [(32, 0x4)], false, .pkt, [⟨F.RST_ELOG_CNT_MADE, .rc, 0⟩, ⟨F.RST_ELOG_CNT_UNTAKEN, .rc, 0⟩]⟩
  | .RST_ERR_CNT => ⟨0x180200, [(14, 0x4)], false, .pkt, [⟨F.RST_ERR_CNT_CE, .rc, 0⟩, ⟨F.RST_ERR_CNT_UE, .rc, 0⟩]⟩
  | .RST_SCRUB_CFG => ⟨0x180300, [], false, .pkt, [⟨F.RST_SCRUB_CFG_EN, .rw, 1⟩, ⟨F.RST_SCRUB_CFG_PERIOD_MS, .rw, 0x3e8⟩]⟩
  | .RST_SCRUB_STS => ⟨0x180304, [], false, .pkt, [⟨F.RST_SCRUB_STS_PASSES, .ro, 0⟩]⟩
  | .RST_EINJ_CTL => ⟨0x180400, [], false, .pkt, [⟨F.RST_EINJ_CTL_ARM, .w1s, 0⟩, ⟨F.RST_EINJ_CTL_DONE, .w1c, 0⟩, ⟨F.RST_EINJ_CTL_MATCH, .rw, 0⟩, ⟨F.RST_EINJ_CTL_CLUSTER, .rw, 0⟩, ⟨F.RST_EINJ_CTL_BITS, .rw, 0⟩, ⟨F.RST_EINJ_CTL_TARGET, .rw, 0⟩]⟩
  | .RST_EINJ_ADDR => ⟨0x180408, [], true, .pkt, [⟨F.RST_EINJ_ADDR_ADDR, .rw, 0⟩]⟩
  | .TIM_CTL => ⟨0x200000, [], false, .pkt, [⟨F.TIM_CTL_HOLD_EXIT, .wo, 0⟩, ⟨F.TIM_CTL_HOLD_REQ, .wo, 0⟩, ⟨F.TIM_CTL_REF_SEL, .rw, 0⟩]⟩
  | .TIM_STS => ⟨0x200004, [], false, .pkt, [⟨F.TIM_STS_STEP_SEQ, .ro, 0⟩, ⟨F.TIM_STS_HOLD_CAUSE, .ro, 0⟩, ⟨F.TIM_STS_HOLDOVER, .ro, 0⟩, ⟨F.TIM_STS_SET_DONE, .ro, 0⟩, ⟨F.TIM_STS_INCR_CLAMP, .w1c, 0⟩, ⟨F.TIM_STS_ADJ_REJECT, .w1c, 0⟩, ⟨F.TIM_STS_ADJ_BUSY, .ro, 0⟩]⟩
  | .TIM_NT => ⟨0x200008, [], true, .pkt, [⟨F.TIM_NT_NS, .ro, 0⟩]⟩
  | .TIM_NT_FRAC => ⟨0x200010, [], false, .pkt, [⟨F.TIM_NT_FRAC_FRAC, .ro, 0⟩]⟩
  | .TIM_INCR => ⟨0x200014, [], false, .pkt, [⟨F.TIM_INCR_INCR, .rw, 0xaaaaaaab⟩]⟩
  | .TIM_HOLD_TIMEOUT => ⟨0x200018, [], false, .pkt, [⟨F.TIM_HOLD_TIMEOUT_US, .rw, 0⟩]⟩
  | .TIM_ADJ_CTL => ⟨0x200020, [], false, .pkt, [⟨F.TIM_ADJ_CTL_ABORT, .wo, 0⟩, ⟨F.TIM_ADJ_CTL_GO, .wo, 0⟩, ⟨F.TIM_ADJ_CTL_MODE, .rw, 0⟩]⟩
  | .TIM_ADJ_OFFSET => ⟨0x200028, [], true, .pkt, [⟨F.TIM_ADJ_OFFSET_OFFSET, .rw, 0⟩]⟩
  | .TIM_ADJ_INTERVAL => ⟨0x200030, [], false, .pkt, [⟨F.TIM_ADJ_INTERVAL_NS, .rw, 0⟩]⟩
  | .TIM_PPS_IN_TS => ⟨0x200040, [], true, .pkt, [⟨F.TIM_PPS_IN_TS_NT, .ro, 0⟩]⟩
  | .TIM_CSI_TS => ⟨0x200048, [], true, .pkt, [⟨F.TIM_CSI_TS_NT, .ro, 0⟩]⟩
  | .TIM_INPUT_CNT => ⟨0x200050, [], false, .pkt, [⟨F.TIM_INPUT_CNT_CSI, .ro, 0⟩, ⟨F.TIM_INPUT_CNT_PPS, .ro, 0⟩]⟩
  | .TIM_PPS_OUT_CFG => ⟨0x200054, [], false, .pkt, [⟨F.TIM_PPS_OUT_CFG_EN, .rw, 0⟩, ⟨F.TIM_PPS_OUT_CFG_WIDTH, .rw, 0⟩]⟩
  | .TIM_TCMP_AT => ⟨0x200100, [(4, 0x10)], true, .pkt, [⟨F.TIM_TCMP_AT_AT, .rw, 0⟩]⟩
  | .TIM_TCMP_CFG => ⟨0x200108, [(4, 0x10)], false, .pkt, [⟨F.TIM_TCMP_CFG_EN, .rw, 0⟩, ⟨F.TIM_TCMP_CFG_FIRED, .w1c, 0⟩, ⟨F.TIM_TCMP_CFG_PERIODIC, .rw, 0⟩, ⟨F.TIM_TCMP_CFG_WIDTH, .rw, 0⟩]⟩
  | .TIM_TCMP_PER => ⟨0x20010C, [(4, 0x10)], false, .pkt, [⟨F.TIM_TCMP_PER_PER, .rw, 0⟩]⟩
  | .TIM_TXTS => ⟨0x200200, [(16, 0x10)], true, .pkt, [⟨F.TIM_TXTS_NT, .ro, 0⟩]⟩
  | .TIM_TXTS_META => ⟨0x200208, [(16, 0x10)], false, .pkt, [⟨F.TIM_TXTS_META_VALID, .rc, 0⟩, ⟨F.TIM_TXTS_META_FRAC, .rc, 0⟩, ⟨F.TIM_TXTS_META_COOKIE, .rc, 0⟩]⟩
  | .TIM_TXTS_LOST => ⟨0x20020C, [(16, 0x10)], false, .pkt, [⟨F.TIM_TXTS_LOST_LOST, .rc, 0⟩]⟩
  | .TIM_EPOCH_CTL => ⟨0x200400, [], false, .pkt, [⟨F.TIM_EPOCH_CTL_ARM, .rw, 0⟩]⟩
  | .TIM_EPOCH_AT => ⟨0x200408, [], true, .pkt, [⟨F.TIM_EPOCH_AT_AT, .rw, 0⟩]⟩
  | .TIM_EPOCH_PERIOD => ⟨0x200410, [], false, .pkt, [⟨F.TIM_EPOCH_PERIOD_NS, .rw, 0⟩]⟩
  | .TIM_EPOCH_STS => ⟨0x200414, [], false, .pkt, [⟨F.TIM_EPOCH_STS_SEQ, .ro, 0⟩, ⟨F.TIM_EPOCH_STS_DEFERRED, .w1c, 0⟩, ⟨F.TIM_EPOCH_STS_SWITCHED, .w1c, 0⟩, ⟨F.TIM_EPOCH_STS_LIVE, .ro, 0⟩]⟩
  | .TIM_EPOCH_LAST => ⟨0x200418, [], true, .pkt, [⟨F.TIM_EPOCH_LAST_NT, .ro, 0⟩]⟩
  | .TIM_EPOCH_MERGE => ⟨0x200500, [(64, 0x4)], false, .pkt, [⟨F.TIM_EPOCH_MERGE_MERGED, .w1c, 0⟩, ⟨F.TIM_EPOCH_MERGE_SEQ, .ro, 0⟩]⟩
  | .ICU_PEND_SET => ⟨0x300000, [(32, 0x4)], false, .pkt, [⟨F.ICU_PEND_SET_PEND, .w1s, 0⟩]⟩
  | .ICU_PEND_CLR => ⟨0x300080, [(32, 0x4)], false, .pkt, [⟨F.ICU_PEND_CLR_PEND, .w1c, 0⟩]⟩
  | .ICU_MASK_SET => ⟨0x300100, [(32, 0x4)], false, .pkt, [⟨F.ICU_MASK_SET_MASK, .w1s, 0xffffffff⟩]⟩
  | .ICU_MASK_CLR => ⟨0x300180, [(32, 0x4)], false, .pkt, [⟨F.ICU_MASK_CLR_MASK, .w1c, 0xffffffff⟩]⟩
  | .ICU_STS => ⟨0x300200, [], false, .pkt, [⟨F.ICU_STS_STALLED, .ro, 0⟩]⟩
  | .ICU_RET_STS => ⟨0x300204, [], false, .aon, [⟨F.ICU_RET_STS_SAVED, .ro, 0⟩, ⟨F.ICU_RET_STS_WAKES, .rc, 0⟩]⟩
  | .ICU_DETAIL => ⟨0x301000, [(1023, 0x4)], false, .pkt, [⟨F.ICU_DETAIL_DETAIL, .ro, 0⟩]⟩
  | .ICU_ROUTE => ⟨0x302000, [(1023, 0x8)], true, .pkt, [⟨F.ICU_ROUTE_EN, .rw, 0⟩, ⟨F.ICU_ROUTE_T, .rw, 0⟩]⟩
  | .ICU_TGT_CFG => ⟨0x304000, [(97, 0x10)], false, .pkt, [⟨F.ICU_TGT_CFG_EN, .rw, 0⟩, ⟨F.ICU_TGT_CFG_VECTOR, .rw, 0⟩, ⟨F.ICU_TGT_CFG_FN, .rw, 0⟩]⟩
  | .ICU_TGT_STS => ⟨0x304004, [(97, 0x10)], false, .pkt, [⟨F.ICU_TGT_STS_AVAIL, .ro, 0⟩, ⟨F.ICU_TGT_STS_OUT, .ro, 0⟩]⟩
  | .ICU_TGT_SUM => ⟨0x360000, [(97, 0x80), (32, 0x4)], false, .pkt, [⟨F.ICU_TGT_SUM_OUT, .ro, 0⟩]⟩
  | .ICU_CLAIM => ⟨0x380000, [(97, 0x1000), (1024, 0x4)], false, .pkt, [⟨F.ICU_CLAIM_SOURCE, .ro, 0x3ff⟩]⟩
  | .HIF_LINK_CFG => ⟨0x400000, [], false, .aonPor, [⟨F.HIF_LINK_CFG_BIFUR, .rw, 0⟩, ⟨F.HIF_LINK_CFG_BIFUR_PEND, .ro, 0⟩, ⟨F.HIF_LINK_CFG_WAKE, .rw, 0⟩, ⟨F.HIF_LINK_CFG_PF1_HL1_ACC, .rw, 0⟩, ⟨F.HIF_LINK_CFG_MAX_SPEED, .rw, 6⟩]⟩
  | .HIF_FN_STS => ⟨0x400004, [], false, .pkt, [⟨F.HIF_FN_STS_HL1_PF0_READY, .rw, 0⟩, ⟨F.HIF_FN_STS_HL0_PF0_READY, .rw, 0⟩]⟩
  | .HIF_LINK_STS => ⟨0x400010, [(2, 0x4)], false, .pkt, [⟨F.HIF_LINK_STS_PERST, .ro, 0⟩, ⟨F.HIF_LINK_STS_DL_UP, .ro, 0⟩, ⟨F.HIF_LINK_STS_FLIT, .ro, 0⟩, ⟨F.HIF_LINK_STS_WIDTH, .ro, 0⟩, ⟨F.HIF_LINK_STS_SPEED, .ro, 0⟩]⟩
  | .HIF_FN => ⟨0x401000, [(512, 0x10)], false, .pkt, [⟨F.HIF_FN_PRESENT, .ro, 0⟩, ⟨F.HIF_FN_D3HOT, .ro, 0⟩, ⟨F.HIF_FN_FLR_BUSY, .ro, 0⟩, ⟨F.HIF_FN_BME, .ro, 0⟩]⟩
  | .HIF_TXR_BASE => ⟨0x410000, [(4096, 0x20)], true, .pkt, [⟨F.HIF_TXR_BASE_ADDR, .rw, 0⟩]⟩
  | .HIF_TXR_CFG => ⟨0x410008, [(4096, 0x20)], false, .pkt, [⟨F.HIF_TXR_CFG_EN, .rw, 0⟩, ⟨F.HIF_TXR_CFG_FN, .rw, 0⟩, ⟨F.HIF_TXR_CFG_LOCAL, .rw, 0⟩, ⟨F.HIF_TXR_CFG_SIZE_LOG2, .rw, 6⟩, ⟨F.HIF_TXR_CFG_PRI, .rw, 0⟩]⟩
  | .HIF_TXR_CFG2 => ⟨0x41000C, [(4096, 0x20)], false, .pkt, [⟨F.HIF_TXR_CFG2_CQ, .rw, 0⟩, ⟨F.HIF_TXR_CFG2_REQ, .rw, 0x80⟩, ⟨F.HIF_TXR_CFG2_QUANTUM, .rw, 0xa⟩, ⟨F.HIF_TXR_CFG2_SRC, .rw, 0⟩]⟩
  | .HIF_TXR_STS => ⟨0x410010, [(4096, 0x20)], false, .pkt, [⟨F.HIF_TXR_STS_DRAINED, .ro, 1⟩, ⟨F.HIF_TXR_STS_ERR, .w1c, 0⟩, ⟨F.HIF_TXR_STS_REJECT, .w1c, 0⟩, ⟨F.HIF_TXR_STS_CONS, .ro, 0⟩]⟩
  | .HIF_TXR_PROD => ⟨0x410014, [(4096, 0x20)], false, .pkt, [⟨F.HIF_TXR_PROD_PROD, .ro, 0⟩]⟩
  | .HIF_RXR_BASE => ⟨0x440000, [(4096, 0x20)], true, .pkt, [⟨F.HIF_RXR_BASE_ADDR, .rw, 0⟩]⟩
  | .HIF_RXR_CFG => ⟨0x440008, [(4096, 0x20)], false, .pkt, [⟨F.HIF_RXR_CFG_EN, .rw, 0⟩, ⟨F.HIF_RXR_CFG_FN, .rw, 0⟩, ⟨F.HIF_RXR_CFG_LOCAL, .rw, 0⟩, ⟨F.HIF_RXR_CFG_SIZE_LOG2, .rw, 6⟩, ⟨F.HIF_RXR_CFG_FULL_POLICY, .rw, 0⟩]⟩
  | .HIF_RXR_CFG2 => ⟨0x44000C, [(4096, 0x20)], false, .pkt, [⟨F.HIF_RXR_CFG2_CQ, .rw, 0⟩]⟩
  | .HIF_RXR_STS => ⟨0x440010, [(4096, 0x20)], false, .pkt, [⟨F.HIF_RXR_STS_DRAINED, .ro, 1⟩, ⟨F.HIF_RXR_STS_ERR, .w1c, 0⟩, ⟨F.HIF_RXR_STS_REJECT, .w1c, 0⟩, ⟨F.HIF_RXR_STS_CONS, .ro, 0⟩]⟩
  | .HIF_RXR_PROD => ⟨0x440014, [(4096, 0x20)], false, .pkt, [⟨F.HIF_RXR_PROD_PROD, .ro, 0⟩]⟩
  | .HIF_CQ_BASE => ⟨0x460000, [(1024, 0x20)], true, .pkt, [⟨F.HIF_CQ_BASE_ADDR, .rw, 0⟩]⟩
  | .HIF_CQ_CFG => ⟨0x460008, [(1024, 0x20)], false, .pkt, [⟨F.HIF_CQ_CFG_EN, .rw, 0⟩, ⟨F.HIF_CQ_CFG_FN, .rw, 0⟩, ⟨F.HIF_CQ_CFG_LOCAL, .rw, 0⟩, ⟨F.HIF_CQ_CFG_SIZE_LOG2, .rw, 6⟩]⟩
  | .HIF_CQ_CFG2 => ⟨0x46000C, [(1024, 0x20)], false, .pkt, [⟨F.HIF_CQ_CFG2_VECTOR, .rw, 0⟩, ⟨F.HIF_CQ_CFG2_MOD_CNT, .rw, 1⟩]⟩
  | .HIF_CQ_STS => ⟨0x460010, [(1024, 0x20)], false, .pkt, [⟨F.HIF_CQ_STS_DRAINED, .ro, 1⟩, ⟨F.HIF_CQ_STS_ARMED, .ro, 0⟩, ⟨F.HIF_CQ_STS_STALL, .ro, 0⟩, ⟨F.HIF_CQ_STS_PROD, .ro, 0⟩]⟩
  | .HIF_CQ_CONS => ⟨0x460014, [(1024, 0x20)], false, .pkt, [⟨F.HIF_CQ_CONS_CONS, .ro, 0⟩]⟩
  | .HIF_CQ_CFG3 => ⟨0x460018, [(1024, 0x20)], false, .pkt, [⟨F.HIF_CQ_CFG3_MOD_NS, .rw, 0⟩]⟩
  | .HIF_CTR_BASE => ⟨0x468000, [(64, 0x20)], true, .pkt, [⟨F.HIF_CTR_BASE_ADDR, .rw, 0⟩]⟩
  | .HIF_CTR_CFG => ⟨0x468008, [(64, 0x20)], false, .pkt, [⟨F.HIF_CTR_CFG_EN, .rw, 0⟩, ⟨F.HIF_CTR_CFG_FN, .rw, 0⟩, ⟨F.HIF_CTR_CFG_LOCAL, .rw, 0⟩, ⟨F.HIF_CTR_CFG_SIZE_LOG2, .rw, 6⟩]⟩
  | .HIF_CTR_CFG2 => ⟨0x46800C, [(64, 0x20)], false, .pkt, [⟨F.HIF_CTR_CFG2_VECTOR, .rw, 0⟩, ⟨F.HIF_CTR_CFG2_PERM, .rw, 1⟩]⟩
  | .HIF_CTR_STS => ⟨0x468010, [(64, 0x20)], false, .pkt, [⟨F.HIF_CTR_STS_DRAINED, .ro, 1⟩, ⟨F.HIF_CTR_STS_ERR, .w1c, 0⟩, ⟨F.HIF_CTR_STS_REJECT, .w1c, 0⟩, ⟨F.HIF_CTR_STS_CONS, .ro, 0⟩]⟩
  | .HIF_CTR_PROD => ⟨0x468014, [(64, 0x20)], false, .pkt, [⟨F.HIF_CTR_PROD_PROD, .ro, 0⟩]⟩
  | .HIF_EVR_BASE => ⟨0x469000, [(16, 0x20)], true, .pkt, [⟨F.HIF_EVR_BASE_ADDR, .rw, 0⟩]⟩
  | .HIF_EVR_CFG => ⟨0x469008, [(16, 0x20)], false, .pkt, [⟨F.HIF_EVR_CFG_EN, .rw, 0⟩, ⟨F.HIF_EVR_CFG_FN, .rw, 0⟩, ⟨F.HIF_EVR_CFG_LOCAL, .rw, 0⟩, ⟨F.HIF_EVR_CFG_SIZE_LOG2, .rw, 6⟩]⟩
  | .HIF_EVR_CFG2 => ⟨0x46900C, [(16, 0x20)], false, .pkt, [⟨F.HIF_EVR_CFG2_VECTOR, .rw, 0⟩]⟩
  | .HIF_EVR_STS => ⟨0x469010, [(16, 0x20)], false, .pkt, [⟨F.HIF_EVR_STS_DRAINED, .ro, 1⟩, ⟨F.HIF_EVR_STS_ARMED, .ro, 0⟩, ⟨F.HIF_EVR_STS_STALL, .ro, 0⟩, ⟨F.HIF_EVR_STS_PROD, .ro, 0⟩]⟩
  | .HIF_EVR_CONS => ⟨0x469014, [(16, 0x20)], false, .pkt, [⟨F.HIF_EVR_CONS_CONS, .ro, 0⟩]⟩
  | .HIF_EVR_CLASS => ⟨0x469018, [(16, 0x20)], false, .pkt, [⟨F.HIF_EVR_CLASS_CLASS, .rw, 0⟩]⟩
  | .HIF_EVR_LOST => ⟨0x46901C, [(16, 0x20)], false, .pkt, [⟨F.HIF_EVR_LOST_LOST, .rc, 0⟩]⟩
  | .LPT_QUAD_CFG => ⟨0x600000, [(4, 0x100)], false, .line, [⟨F.LPT_QUAD_CFG_MODE, .rw, 0⟩]⟩
  | .LPT_QUAD_STS => ⟨0x600004, [(4, 0x100)], false, .line, [⟨F.LPT_QUAD_STS_PAIR_WAIT, .ro, 0⟩, ⟨F.LPT_QUAD_STS_PLL_LOCK, .ro, 0⟩, ⟨F.LPT_QUAD_STS_MODE_REJECT, .w1c, 0⟩, ⟨F.LPT_QUAD_STS_REFCLK_OK, .ro, 0⟩]⟩
  | .LPT_CFG => ⟨0x610000, [(16, 0x1000)], false, .line, [⟨F.LPT_CFG_EN, .rw, 0⟩, ⟨F.LPT_CFG_PHY_EN, .rw, 0⟩, ⟨F.LPT_CFG_LOOPBACK, .rw, 0⟩, ⟨F.LPT_CFG_FC_MODE, .rw, 0⟩, ⟨F.LPT_CFG_PFC_EN, .rw, 0⟩, ⟨F.LPT_CFG_AN_MODE, .rw, 0⟩, ⟨F.LPT_CFG_MAX_FRAME, .rw, 0x5ee⟩]⟩
  | .LPT_FC => ⟨0x610004, [(16, 0x1000)], false, .line, [⟨F.LPT_FC_QUANTA, .rw, 0xffff⟩, ⟨F.LPT_FC_XON_EN, .rw, 1⟩]⟩
  | .LPT_FC_REFRESH => ⟨0x610008, [(16, 0x1000)], false, .line, [⟨F.LPT_FC_REFRESH_NS, .rw, 0x3e80⟩]⟩
  | .LPT_PRI => ⟨0x61000C, [(16, 0x1000)], false, .line, [⟨F.LPT_PRI_DEF_PRI, .rw, 0⟩, ⟨F.LPT_PRI_PCP_MAP, .rw, 0xfac688⟩]⟩
  | .LPT_STS => ⟨0x610010, [(16, 0x1000)], false, .line, [⟨F.LPT_STS_XOFF, .ro, 0⟩, ⟨F.LPT_STS_DRAINED, .ro, 1⟩]⟩
  | .LPT_LINK => ⟨0x610020, [(16, 0x1000)], false, .line, [⟨F.LPT_LINK_DOWN_CNT, .rc, 0⟩, ⟨F.LPT_LINK_CHG, .w1c, 0⟩, ⟨F.LPT_LINK_REMOTE_FAULT, .ro, 0⟩, ⟨F.LPT_LINK_LOCAL_FAULT, .ro, 0⟩, ⟨F.LPT_LINK_STATE, .ro, 0⟩]⟩
  | .LPT_LINK_NT => ⟨0x610028, [(16, 0x1000)], true, .line, [⟨F.LPT_LINK_NT_NT, .ro, 0⟩]⟩
  | .LPT_LINK_CFG => ⟨0x610030, [(16, 0x1000)], false, .line, [⟨F.LPT_LINK_CFG_TRAIN_MS, .rw, 0x1f4⟩]⟩
  | .LPT_TS_ADJ => ⟨0x610034, [(16, 0x1000)], false, .line, [⟨F.LPT_TS_ADJ_RX_PS, .rw, 0⟩, ⟨F.LPT_TS_ADJ_TX_PS, .rw, 0⟩]⟩
  | .LPT_MAC_LO => ⟨0x610038, [(16, 0x1000)], false, .line, [⟨F.LPT_MAC_LO_ADDR_LO, .rw, 0⟩]⟩
  | .LPT_MAC_HI => ⟨0x61003C, [(16, 0x1000)], false, .line, [⟨F.LPT_MAC_HI_ADDR_HI, .rw, 0⟩]⟩
  | .LPT_LANE_TXEQ => ⟨0x700000, [(16, 0x1000)], false, .line, [⟨F.LPT_LANE_TXEQ_INV_TX, .rw, 0⟩, ⟨F.LPT_LANE_TXEQ_INV_RX, .rw, 0⟩, ⟨F.LPT_LANE_TXEQ_PRE2, .rw, 0⟩, ⟨F.LPT_LANE_TXEQ_PRE1, .rw, 0x38⟩, ⟨F.LPT_LANE_TXEQ_MAIN, .rw, 0x33⟩, ⟨F.LPT_LANE_TXEQ_POST1, .rw, 0x3c⟩]⟩
  | .LPT_LANE_ADAPT => ⟨0x700004, [(16, 0x1000)], false, .line, [⟨F.LPT_LANE_ADAPT_FREEZE, .rw, 0⟩, ⟨F.LPT_LANE_ADAPT_SIG_DET, .ro, 0⟩, ⟨F.LPT_LANE_ADAPT_CDR_LOCK, .ro, 0⟩]⟩
  | .LPT_LANE_EYE_CTL => ⟨0x700008, [(16, 0x1000)], false, .line, [⟨F.LPT_LANE_EYE_CTL_GO, .wo, 0⟩, ⟨F.LPT_LANE_EYE_CTL_BUSY, .ro, 0⟩, ⟨F.LPT_LANE_EYE_CTL_PHASE, .rw, 0⟩, ⟨F.LPT_LANE_EYE_CTL_DWELL, .rw, 0x40⟩]⟩
  | .LPT_LANE_EYE_RES => ⟨0x70000C, [(16, 0x1000)], false, .line, [⟨F.LPT_LANE_EYE_RES_UPPER, .ro, 0⟩, ⟨F.LPT_LANE_EYE_RES_MIDDLE, .ro, 0⟩, ⟨F.LPT_LANE_EYE_RES_LOWER, .ro, 0⟩]⟩
  | .LPT_LANE_PRBS_CTL => ⟨0x700010, [(16, 0x1000)], false, .line, [⟨F.LPT_LANE_PRBS_CTL_GEN_EN, .rw, 0⟩, ⟨F.LPT_LANE_PRBS_CTL_CHK_EN, .rw, 0⟩, ⟨F.LPT_LANE_PRBS_CTL_REJECT, .w1c, 0⟩, ⟨F.LPT_LANE_PRBS_CTL_CHK_LOCK, .ro, 0⟩, ⟨F.LPT_LANE_PRBS_CTL_PATTERN, .rw, 0⟩]⟩
  | .LPT_LANE_PRBS_ERR => ⟨0x700014, [(16, 0x1000)], false, .line, [⟨F.LPT_LANE_PRBS_ERR_ERRORS, .rc, 0⟩]⟩
  | .CRN_DRAM_CFG => ⟨0x800000, [], false, .pkt, [⟨F.CRN_DRAM_CFG_EN, .rw, 0⟩, ⟨F.CRN_DRAM_CFG_CELLS_LOG2, .rw, 0⟩]⟩
  | .CRN_DRAM_BASE => ⟨0x800008, [], true, .pkt, [⟨F.CRN_DRAM_BASE_BASE, .rw, 0⟩]⟩
  | .CRN_DRAM_LINK => ⟨0x800010, [], true, .pkt, [⟨F.CRN_DRAM_LINK_LINK_BASE, .rw, 0⟩]⟩
  | .CRN_ERR => ⟨0x800020, [], false, .pkt, [⟨F.CRN_ERR_BAD_HANDLE, .rc, 0⟩, ⟨F.CRN_ERR_DOUBLE_FREE, .rc, 0⟩]⟩
  | .CRN_ERR_HANDLE => ⟨0x800024, [], false, .pkt, [⟨F.CRN_ERR_HANDLE_HANDLE, .ro, 0xffffffff⟩]⟩
  | .CRN_POOL_CFG => ⟨0x801000, [(64, 0x10)], false, .pkt, [⟨F.CRN_POOL_CFG_EN, .rw, 0⟩, ⟨F.CRN_POOL_CFG_SPACE, .rw, 0⟩, ⟨F.CRN_POOL_CFG_BASE, .rw, 0⟩]⟩
  | .CRN_POOL_SIZE => ⟨0x801004, [(64, 0x10)], false, .pkt, [⟨F.CRN_POOL_SIZE_SIZE, .rw, 0⟩]⟩
  | .CRN_POOL_STS => ⟨0x801008, [(64, 0x10)], false, .pkt, [⟨F.CRN_POOL_STS_DRAINED, .ro, 1⟩, ⟨F.CRN_POOL_STS_REJECT, .w1c, 0⟩, ⟨F.CRN_POOL_STS_FREE, .ro, 0⟩]⟩
  | .CRN_REQ_POOL => ⟨0x820000, [(512, 0x20)], false, .pkt, [⟨F.CRN_REQ_POOL_POOL, .rw, 0⟩]⟩
  | .CRN_REQ_HARD => ⟨0x820004, [(512, 0x20)], false, .pkt, [⟨F.CRN_REQ_HARD_HARD, .rw, 0⟩]⟩
  | .CRN_REQ_XOFF => ⟨0x820008, [(512, 0x20)], false, .pkt, [⟨F.CRN_REQ_XOFF_XOFF, .rw, 0xfffffff⟩]⟩
  | .CRN_REQ_XON => ⟨0x82000C, [(512, 0x20)], false, .pkt, [⟨F.CRN_REQ_XON_XON, .rw, 0xfffffff⟩]⟩
  | .CRN_REQ_STS => ⟨0x820010, [(512, 0x20)], false, .pkt, [⟨F.CRN_REQ_STS_XOFF_ACT, .ro, 0⟩, ⟨F.CRN_REQ_STS_AT_HARD, .ro, 0⟩, ⟨F.CRN_REQ_STS_USED, .ro, 0⟩]⟩
  | .CRN_REQ_PEAK => ⟨0x820014, [(512, 0x20)], false, .pkt, [⟨F.CRN_REQ_PEAK_PEAK, .rc, 0⟩]⟩
  | .CRN_CLU_CFG => ⟨0x830000, [(32, 0x10)], false, .pkt, [⟨F.CRN_CLU_CFG_REQ, .rw, 0x80⟩]⟩
  | .CRN_CLU_STS => ⟨0x830004, [(32, 0x10)], false, .pkt, [⟨F.CRN_CLU_STS_RECLAIM_BUSY, .ro, 0⟩, ⟨F.CRN_CLU_STS_OWNED, .ro, 0⟩]⟩
  | .PRS_CTL => ⟨0x900000, [], false, .pkt, [⟨F.PRS_CTL_EN, .rw, 0⟩, ⟨F.PRS_CTL_CLS_REQ, .w1s, 0⟩, ⟨F.PRS_CTL_GRAPH_REQ, .w1s, 0⟩]⟩
  | .PRS_STS => ⟨0x900004, [], false, .pkt, [⟨F.PRS_STS_DRAINED, .ro, 1⟩, ⟨F.PRS_STS_SHADOW_BUSY, .w1c, 0⟩, ⟨F.PRS_STS_CLS_SWITCHED, .w1c, 0⟩, ⟨F.PRS_STS_GRAPH_SWITCHED, .w1c, 0⟩, ⟨F.PRS_STS_CLS_ACTIVE, .ro, 0⟩, ⟨F.PRS_STS_GRAPH_ACTIVE, .ro, 0⟩]⟩
  | .AGT_CTL => ⟨0xA00000, [], false, .pkt, [⟨F.AGT_CTL_EN, .rw, 0⟩, ⟨F.AGT_CTL_FC_FLUSH, .w1s, 0⟩]⟩
  | .AGT_STS => ⟨0xA00004, [], false, .pkt, [⟨F.AGT_STS_DRAINED, .ro, 1⟩, ⟨F.AGT_STS_STASH_USED, .ro, 0⟩]⟩
  | .AGT_ERR => ⟨0xA00008, [], false, .pkt, [⟨F.AGT_ERR_PARITY, .rc, 0⟩, ⟨F.AGT_ERR_FC_PARITY, .rc, 0⟩]⟩
  | .AGT_ERR_LOC => ⟨0xA00010, [], true, .pkt, [⟨F.AGT_ERR_LOC_TABLE, .ro, 0⟩, ⟨F.AGT_ERR_LOC_LOC, .ro, 0⟩]⟩
  | .AGT_TBL_CFG => ⟨0xA10000, [(64, 0x40)], true, .pkt, [⟨F.AGT_TBL_CFG_MOVE_WINDOW, .rw, 0x3b9aca00⟩, ⟨F.AGT_TBL_CFG_EN, .rw, 0⟩, ⟨F.AGT_TBL_CFG_TYPE, .rw, 0⟩, ⟨F.AGT_TBL_CFG_LOC, .rw, 0⟩, ⟨F.AGT_TBL_CFG_FC_EN, .rw, 0⟩, ⟨F.AGT_TBL_CFG_CNT_EN, .rw, 0⟩, ⟨F.AGT_TBL_CFG_PF_CNT, .rw, 0⟩, ⟨F.AGT_TBL_CFG_V6, .rw, 0⟩, ⟨F.AGT_TBL_CFG_ENTRY_BYTES, .rw, 0⟩, ⟨F.AGT_TBL_CFG_KEY_LEN, .rw, 0⟩, ⟨F.AGT_TBL_CFG_MOVE, .rw, 0⟩, ⟨F.AGT_TBL_CFG_LRN_EN, .rw, 0⟩, ⟨F.AGT_TBL_CFG_AGE_EN, .rw, 0⟩, ⟨F.AGT_TBL_CFG_MOVE_MAX, .rw, 4⟩, ⟨F.AGT_TBL_CFG_DISP_MAX, .rw, 8⟩]⟩
  | .AGT_TBL_SIZE => ⟨0xA10008, [(64, 0x40)], false, .pkt, [⟨F.AGT_TBL_SIZE_SIZE, .rw, 0⟩]⟩
  | .AGT_TBL_OBLK => ⟨0xA1000C, [(64, 0x40)], false, .pkt, [⟨F.AGT_TBL_OBLK_NBLK, .rw, 0⟩, ⟨F.AGT_TBL_OBLK_FIRST, .rw, 0⟩]⟩
  | .AGT_TBL_DBASE => ⟨0xA10010, [(64, 0x40)], true, .pkt, [⟨F.AGT_TBL_DBASE_DBASE, .rw, 0⟩]⟩
  | .AGT_TBL_CBASE => ⟨0xA10018, [(64, 0x40)], true, .pkt, [⟨F.AGT_TBL_CBASE_CBASE, .rw, 0⟩]⟩
  | .AGT_TBL_HB => ⟨0xA10020, [(64, 0x40)], false, .pkt, [⟨F.AGT_TBL_HB_HB_BASE, .rw, 0⟩]⟩
  | .AGT_TBL_AGE => ⟨0xA10024, [(64, 0x40)], false, .pkt, [⟨F.AGT_TBL_AGE_PERIOD_MS, .rw, 0xea60⟩]⟩
  | .AGT_TBL_STASH => ⟨0xA10028, [(64, 0x40)], false, .pkt, [⟨F.AGT_TBL_STASH_USED, .ro, 0⟩, ⟨F.AGT_TBL_STASH_MAX, .rw, 0x100⟩]⟩
  | .AGT_TBL_GEN => ⟨0xA1002C, [(64, 0x40)], false, .pkt, [⟨F.AGT_TBL_GEN_GEN, .ro, 0⟩]⟩
  | .AGT_TBL_STS => ⟨0xA10030, [(64, 0x40)], false, .pkt, [⟨F.AGT_TBL_STS_DRAINED, .ro, 1⟩, ⟨F.AGT_TBL_STS_REJECT, .w1c, 0⟩, ⟨F.AGT_TBL_STS_INIT, .ro, 0⟩, ⟨F.AGT_TBL_STS_CURSOR, .ro, 0⟩, ⟨F.AGT_TBL_STS_COUNT, .ro, 0⟩]⟩
  | .ORY_CTL => ⟨0xC00000, [], false, .pkt, [⟨F.ORY_CTL_EN, .rw, 0⟩]⟩
  | .ORY_STS => ⟨0xC00004, [], false, .pkt, [⟨F.ORY_STS_DRAINED, .ro, 1⟩]⟩
  | .ORY_SLOT_XOFF => ⟨0xC00008, [], false, .pkt, [⟨F.ORY_SLOT_XOFF_SLOTS, .rw, 0x1000⟩]⟩
  | .ORY_TAG_XOFF => ⟨0xC0000C, [], false, .pkt, [⟨F.ORY_TAG_XOFF_TAGS, .rw, 0x1000⟩]⟩
  | .ORY_SLOTS_FREE => ⟨0xC00010, [], false, .pkt, [⟨F.ORY_SLOTS_FREE_FREE, .ro, 0x10000⟩]⟩
  | .ORY_TAGS_FREE => ⟨0xC00014, [], false, .pkt, [⟨F.ORY_TAGS_FREE_FREE, .ro, 0x10000⟩]⟩
  | .ORY_POOL_STS => ⟨0xC00018, [], false, .pkt, [⟨F.ORY_POOL_STS_TAG_BP, .ro, 0⟩, ⟨F.ORY_POOL_STS_SLOT_BP, .ro, 0⟩]⟩
  | .ORY_DOM_CFG => ⟨0xC00020, [], false, .pkt, [⟨F.ORY_DOM_CFG_HOLD_LIMIT, .rw, 0x186a0⟩]⟩
  | .ORY_GATE_STS => ⟨0xC00024, [], false, .pkt, [⟨F.ORY_GATE_STS_USED, .ro, 0⟩]⟩
  | .ORY_DLY_BASE => ⟨0xC00030, [], true, .pkt, [⟨F.ORY_DLY_BASE_BASE, .rw, 0⟩]⟩
  | .ORY_DLY_CTL => ⟨0xC00038, [], false, .pkt, [⟨F.ORY_DLY_CTL_EN, .rw, 0⟩, ⟨F.ORY_DLY_CTL_REJECT, .w1c, 0⟩]⟩
  | .ORY_DLY_STS => ⟨0xC0003C, [], false, .pkt, [⟨F.ORY_DLY_STS_PENDING, .ro, 0⟩]⟩
  | .ORY_GRP_MEMBERS => ⟨0xC01000, [(64, 0x4)], false, .pkt, [⟨F.ORY_GRP_MEMBERS_MEMBERS, .rw, 0⟩]⟩
  | .ORY_CLU_STS => ⟨0xC01200, [(32, 0x4)], false, .pkt, [⟨F.ORY_CLU_STS_DRAINED, .ro, 1⟩, ⟨F.ORY_CLU_STS_MEMBER, .ro, 0⟩, ⟨F.ORY_CLU_STS_HELD, .ro, 0⟩]⟩
  | .ORY_BPC_LINE => ⟨0xC02000, [(64, 0x40), (4, 0x4)], false, .pkt, [⟨F.ORY_BPC_LINE_LINE, .rw, 0⟩]⟩
  | .ORY_BPC_SRC => ⟨0xC02010, [(64, 0x40), (8, 0x4)], false, .pkt, [⟨F.ORY_BPC_SRC_SRC, .rw, 0⟩]⟩
  | .ORY_BPC_CFG => ⟨0xC02030, [(64, 0x40)], false, .pkt, [⟨F.ORY_BPC_CFG_RECIRC, .rw, 0⟩]⟩
  | .ORY_BPC_STS => ⟨0xC02034, [(64, 0x40)], false, .pkt, [⟨F.ORY_BPC_STS_ASSERTED, .ro, 0⟩]⟩
  | .ORY_DLY_L_CFG => ⟨0xC03000, [(16, 0x10)], false, .pkt, [⟨F.ORY_DLY_L_CFG_EN, .rw, 0⟩, ⟨F.ORY_DLY_L_CFG_TICK_LOG2, .rw, 6⟩]⟩
  | .ORY_DLY_L_STS => ⟨0xC03004, [(16, 0x10)], false, .pkt, [⟨F.ORY_DLY_L_STS_DRAINED, .ro, 1⟩, ⟨F.ORY_DLY_L_STS_REJECT, .w1c, 0⟩, ⟨F.ORY_DLY_L_STS_PENDING, .ro, 0⟩]⟩
  | .ORY_Q_CFG => ⟨0xC10000, [(4096, 0x40)], false, .pkt, [⟨F.ORY_Q_CFG_EN, .rw, 0⟩, ⟨F.ORY_Q_CFG_TYPE, .rw, 0⟩, ⟨F.ORY_Q_CFG_INHERIT, .rw, 0⟩, ⟨F.ORY_Q_CFG_POLICY, .rw, 0⟩, ⟨F.ORY_Q_CFG_GROUP, .rw, 0⟩, ⟨F.ORY_Q_CFG_PRI, .rw, 0⟩, ⟨F.ORY_Q_CFG_BPC, .rw, 0⟩, ⟨F.ORY_Q_CFG_BPC_EN, .rw, 0⟩, ⟨F.ORY_Q_CFG_WEIGHT, .rw, 1⟩]⟩
  | .ORY_Q_ONCHIP => ⟨0xC10004, [(4096, 0x40)], false, .pkt, [⟨F.ORY_Q_ONCHIP_ONCHIP_MAX, .rw, 0x400⟩]⟩
  | .ORY_Q_XOFF => ⟨0xC10008, [(4096, 0x40)], false, .pkt, [⟨F.ORY_Q_XOFF_XOFF, .rw, 0xffffff⟩]⟩
  | .ORY_Q_XON => ⟨0xC1000C, [(4096, 0x40)], false, .pkt, [⟨F.ORY_Q_XON_XON, .rw, 0xffffff⟩]⟩
  | .ORY_Q_LIMIT => ⟨0xC10010, [(4096, 0x40)], false, .pkt, [⟨F.ORY_Q_LIMIT_LIMIT, .rw, 0xffffff⟩]⟩
  | .ORY_Q_SPILL => ⟨0xC10018, [(4096, 0x40)], true, .pkt, [⟨F.ORY_Q_SPILL_SPILL_BASE, .rw, 0⟩]⟩
  | .ORY_Q_SPILL_CFG => ⟨0xC10020, [(4096, 0x40)], false, .pkt, [⟨F.ORY_Q_SPILL_CFG_SPILL_LOG2, .rw, 0⟩]⟩
  | .ORY_Q_STS => ⟨0xC10024, [(4096, 0x40)], false, .pkt, [⟨F.ORY_Q_STS_DRAINED, .ro, 1⟩, ⟨F.ORY_Q_STS_XOFF_ACT, .ro, 0⟩, ⟨F.ORY_Q_STS_REJECT, .w1c, 0⟩, ⟨F.ORY_Q_STS_SPILLING, .ro, 0⟩, ⟨F.ORY_Q_STS_PURGE_BUSY, .ro, 0⟩]⟩
  | .ORY_Q_DEPTH => ⟨0xC10028, [(4096, 0x40)], false, .pkt, [⟨F.ORY_Q_DEPTH_DEPTH, .ro, 0⟩]⟩
  | .ORY_Q_SDEPTH => ⟨0xC1002C, [(4096, 0x40)], false, .pkt, [⟨F.ORY_Q_SDEPTH_SPILLED, .ro, 0⟩]⟩
  | .ORY_Q_CTL => ⟨0xC10030, [(4096, 0x40)], false, .pkt, [⟨F.ORY_Q_CTL_PURGE, .w1s, 0⟩]⟩
  | .ORY_DOM_STS => ⟨0xC80000, [(16384, 0x4)], false, .pkt, [⟨F.ORY_DOM_STS_WAITING, .ro, 0⟩, ⟨F.ORY_DOM_STS_HELD, .ro, 0⟩, ⟨F.ORY_DOM_STS_INFLIGHT, .ro, 0⟩]⟩
  | .EGR_CTL => ⟨0xE00000, [], false, .pkt, [⟨F.EGR_CTL_EN, .rw, 0⟩]⟩
  | .EGR_STS => ⟨0xE00004, [], false, .pkt, [⟨F.EGR_STS_DRAINED, .ro, 1⟩]⟩
  | .EGR_PORT_CFG => ⟨0xE00100, [(18, 0x10)], false, .pkt, [⟨F.EGR_PORT_CFG_PAUSE_RESP, .rw, 1⟩]⟩
  | .EGR_PORT_SHAPE => ⟨0xE00104, [(18, 0x10)], false, .pkt, [⟨F.EGR_PORT_SHAPE_RATE, .rw, 0⟩, ⟨F.EGR_PORT_SHAPE_BURST, .rw, 0x10⟩]⟩
  | .EGR_PORT_STS => ⟨0xE00108, [(18, 0x10)], false, .pkt, [⟨F.EGR_PORT_STS_CLOSED, .ro, 0⟩, ⟨F.EGR_PORT_STS_PAUSED, .ro, 0⟩, ⟨F.EGR_PORT_STS_PF_LEVEL, .ro, 0xffff⟩]⟩
  | .EGR_PORT_QUEUED => ⟨0xE0010C, [(18, 0x10)], false, .pkt, [⟨F.EGR_PORT_QUEUED_BYTES, .ro, 0⟩]⟩
  | .EGR_GRP_CFG => ⟨0xE10000, [(1024, 0x8)], false, .pkt, [⟨F.EGR_GRP_CFG_REJECT, .w1c, 0⟩, ⟨F.EGR_GRP_CFG_PORT, .rw, 0⟩, ⟨F.EGR_GRP_CFG_PRI, .rw, 0⟩, ⟨F.EGR_GRP_CFG_WEIGHT, .rw, 1⟩]⟩
  | .EGR_GRP_SHAPE => ⟨0xE10004, [(1024, 0x8)], false, .pkt, [⟨F.EGR_GRP_SHAPE_RATE, .rw, 0⟩, ⟨F.EGR_GRP_SHAPE_BURST, .rw, 0x10⟩]⟩
  | .EGR_MCL => ⟨0xE20000, [(512, 0x4)], false, .pkt, [⟨F.EGR_MCL_BASE, .rw, 0⟩, ⟨F.EGR_MCL_COUNT, .rw, 0⟩]⟩
  | .EGR_MCM => ⟨0xE21000, [(4096, 0x4)], false, .pkt, [⟨F.EGR_MCM_QUEUE, .rw, 0⟩]⟩
  | .EGR_Q_CFG => ⟨0xE40000, [(16384, 0x20)], false, .pkt, [⟨F.EGR_Q_CFG_EN, .rw, 0⟩, ⟨F.EGR_Q_CFG_KIND, .rw, 0⟩, ⟨F.EGR_Q_CFG_GROUP, .rw, 0⟩, ⟨F.EGR_Q_CFG_WEIGHT, .rw, 1⟩]⟩
  | .EGR_Q_DEST => ⟨0xE40004, [(16384, 0x20)], false, .pkt, [⟨F.EGR_Q_DEST_DEST, .rw, 0⟩]⟩
  | .EGR_Q_SHAPE => ⟨0xE40008, [(16384, 0x20)], false, .pkt, [⟨F.EGR_Q_SHAPE_RATE, .rw, 0⟩, ⟨F.EGR_Q_SHAPE_BURST, .rw, 0x10⟩]⟩
  | .EGR_Q_LIMIT => ⟨0xE4000C, [(16384, 0x20)], false, .pkt, [⟨F.EGR_Q_LIMIT_LIMIT, .rw, 0xffffff⟩]⟩
  | .EGR_Q_CLASS => ⟨0xE40010, [(16384, 0x20)], true, .pkt, [⟨F.EGR_Q_CLASS_CLASS, .rw, 0xffffffffffffffff⟩]⟩
  | .EGR_Q_STS => ⟨0xE40018, [(16384, 0x20)], false, .pkt, [⟨F.EGR_Q_STS_DRAINED, .ro, 1⟩, ⟨F.EGR_Q_STS_REJECT, .w1c, 0⟩, ⟨F.EGR_Q_STS_HELD, .ro, 0⟩, ⟨F.EGR_Q_STS_PKTS, .ro, 0⟩]⟩
  | .EGR_Q_DEPTH => ⟨0xE4001C, [(16384, 0x20)], false, .pkt, [⟨F.EGR_Q_DEPTH_BYTES, .ro, 0⟩]⟩
  | .MER_CFG => ⟨0xF00000, [(16, 0x10000)], false, .pkt, [⟨F.MER_CFG_EN, .rw, 0⟩, ⟨F.MER_CFG_MODE, .rw, 0⟩, ⟨F.MER_CFG_GAP_EN, .rw, 0⟩, ⟨F.MER_CFG_GAP_CLASS, .rw, 0⟩, ⟨F.MER_CFG_GAP_GUARD, .rw, 0⟩]⟩
  | .MER_CTL => ⟨0xF00004, [(16, 0x10000)], false, .pkt, [⟨F.MER_CTL_SW_REQ, .w1s, 0⟩]⟩
  | .MER_STS => ⟨0xF00008, [(16, 0x10000)], false, .pkt, [⟨F.MER_STS_STATE, .ro, 0⟩, ⟨F.MER_STS_SWITCHED, .w1c, 0⟩, ⟨F.MER_STS_SHADOW_BUSY, .w1c, 0⟩, ⟨F.MER_STS_RESYNC, .w1c, 0⟩, ⟨F.MER_STS_SYNC_EARLY, .w1c, 0⟩, ⟨F.MER_STS_REJECT, .w1c, 0⟩, ⟨F.MER_STS_ACTIVE, .ro, 0⟩, ⟨F.MER_STS_SLOT, .ro, 0⟩]⟩
  | .MER_ANCHOR => ⟨0xF00010, [(16, 0x10000)], true, .pkt, [⟨F.MER_ANCHOR_NT, .rw, 0⟩]⟩
  | .MER_PERIOD => ⟨0xF00018, [(16, 0x10000)], true, .pkt, [⟨F.MER_PERIOD_NS, .ro, 0x3e8⟩]⟩
  | .MER_PREROLL => ⟨0xF00020, [(16, 0x10000)], false, .pkt, [⟨F.MER_PREROLL_NS, .rw, 0x7d0⟩]⟩
  | .MER_SYNC => ⟨0xF00024, [(16, 0x10000)], false, .pkt, [⟨F.MER_SYNC_DELAY, .rw, 0x186a0⟩]⟩
  | .MER_NSLOTS => ⟨0xF00028, [(16, 0x10000)], false, .pkt, [⟨F.MER_NSLOTS_ACTIVE, .ro, 1⟩, ⟨F.MER_NSLOTS_SHADOW, .rw, 1⟩]⟩
  | .MER_PSEQ => ⟨0xF0002C, [(16, 0x10000)], false, .pkt, [⟨F.MER_PSEQ_PERIODS, .ro, 0⟩]⟩
  | .FLT_STS => ⟨0x1000004, [], false, .pkt, [⟨F.FLT_STS_FORCE_MISS, .w1c, 0⟩, ⟨F.FLT_STS_HREC_USED, .ro, 0⟩, ⟨F.FLT_STS_REG_USED, .ro, 0⟩]⟩
  | .FLT_FORCE => ⟨0x1000010, [], false, .pkt, [⟨F.FLT_FORCE_SEM, .wo, 0⟩, ⟨F.FLT_FORCE_NUMBER, .wo, 0⟩, ⟨F.FLT_FORCE_OWNER, .wo, 0⟩]⟩
  | .FLT_ABN_LAST => ⟨0x1000020, [], false, .pkt, [⟨F.FLT_ABN_LAST_SEM, .ro, 0⟩, ⟨F.FLT_ABN_LAST_NUMBER, .ro, 0⟩, ⟨F.FLT_ABN_LAST_OWNER, .ro, 0xffff⟩]⟩
  | .FLT_ABN_CNT => ⟨0x1000024, [], false, .pkt, [⟨F.FLT_ABN_CNT_COUNT, .rc, 0⟩]⟩
  | .FLT_LGRP_CLU => ⟨0x1001000, [(64, 0x8)], false, .pkt, [⟨F.FLT_LGRP_CLU_CLU, .rw, 0⟩]⟩
  | .FLT_LGRP_ACC => ⟨0x1001004, [(64, 0x8)], false, .pkt, [⟨F.FLT_LGRP_ACC_HOST_OK, .rw, 0⟩, ⟨F.FLT_LGRP_ACC_MGT_OK, .rw, 0⟩, ⟨F.FLT_LGRP_ACC_U_OK, .rw, 0⟩]⟩
  | .FLT_SGRP_CLU => ⟨0x1001400, [(8, 0x8)], false, .pkt, [⟨F.FLT_SGRP_CLU_CLU, .rw, 0⟩]⟩
  | .FLT_SGRP_ACC => ⟨0x1001404, [(8, 0x8)], false, .pkt, [⟨F.FLT_SGRP_ACC_HOST_OK, .rw, 0⟩, ⟨F.FLT_SGRP_ACC_MGT_OK, .rw, 0⟩, ⟨F.FLT_SGRP_ACC_U_OK, .rw, 0⟩]⟩
  | .FLT_SEM_CFG => ⟨0x1002000, [(512, 0x8)], false, .pkt, [⟨F.FLT_SEM_CFG_AVAIL, .ro, 0⟩, ⟨F.FLT_SEM_CFG_MAX, .rw, 0⟩]⟩
  | .FLT_SEM_STS => ⟨0x1002004, [(512, 0x8)], false, .pkt, [⟨F.FLT_SEM_STS_ABANDONED, .ro, 0⟩, ⟨F.FLT_SEM_STS_HELD, .ro, 0⟩, ⟨F.FLT_SEM_STS_WAITERS, .ro, 0⟩]⟩
  | .FLT_LOCK => ⟨0x1010000, [(4096, 0x4)], false, .pkt, [⟨F.FLT_LOCK_HELD, .ro, 0⟩, ⟨F.FLT_LOCK_ABANDONED, .ro, 0⟩, ⟨F.FLT_LOCK_WAITERS, .ro, 0⟩, ⟨F.FLT_LOCK_OWNER, .ro, 0xffff⟩]⟩
  | .DRC_CFG => ⟨0x1100000, [], false, .mem, [⟨F.DRC_CFG_CE_WB, .rw, 1⟩, ⟨F.DRC_CFG_RDIMM, .rw, 1⟩, ⟨F.DRC_CFG_DENSITY, .rw, 0⟩, ⟨F.DRC_CFG_RANKS, .rw, 0⟩, ⟨F.DRC_CFG_DEV_W, .rw, 0⟩, ⟨F.DRC_CFG_NCH, .rw, 3⟩, ⟨F.DRC_CFG_SPEED, .rw, 2⟩]⟩
  | .DRC_CTL => ⟨0x1100004, [], false, .mem, [⟨F.DRC_CTL_EN, .rw, 0⟩, ⟨F.DRC_CTL_DRAM_RESET_N, .rw, 0⟩, ⟨F.DRC_CTL_INIT_GO, .w1s, 0⟩]⟩
  | .DRC_STS => ⟨0x1100008, [], false, .mem, [⟨F.DRC_STS_READY, .ro, 0⟩, ⟨F.DRC_STS_DRAINED, .ro, 1⟩, ⟨F.DRC_STS_PLL_LOCK, .ro, 0⟩, ⟨F.DRC_STS_INIT_DONE, .ro, 0⟩, ⟨F.DRC_STS_REJECT, .w1c, 0⟩, ⟨F.DRC_STS_PANIC, .ro, 0⟩, ⟨F.DRC_STS_OOR, .rc, 0⟩, ⟨F.DRC_STS_CAPACITY, .ro, 0⟩]⟩
  | .DRC_RT_CFG => ⟨0x1100010, [], false, .mem, [⟨F.DRC_RT_CFG_CALM, .rw, 0x200⟩, ⟨F.DRC_RT_CFG_PANIC, .rw, 0x100⟩]⟩
  | .DRC_AGE => ⟨0x1100014, [], false, .mem, [⟨F.DRC_AGE_AGE_MAX, .rw, 0x7d0⟩]⟩
  | .DRC_DMAWIN_BASE => ⟨0x1100020, [], true, .mem, [⟨F.DRC_DMAWIN_BASE_BASE, .rw, 0⟩]⟩
  | .DRC_DMAWIN_SIZE => ⟨0x1100028, [], true, .mem, [⟨F.DRC_DMAWIN_SIZE_SIZE, .rw, 0⟩]⟩
  | .DRC_SCRUB => ⟨0x1100030, [], false, .mem, [⟨F.DRC_SCRUB_EN, .rw, 1⟩, ⟨F.DRC_SCRUB_PERIOD_H, .rw, 0x18⟩]⟩
  | .DRC_SCRUB_STS => ⟨0x1100034, [], false, .mem, [⟨F.DRC_SCRUB_STS_PASSES, .ro, 0⟩]⟩
  | .DRC_MRW => ⟨0x1100040, [], false, .mem, [⟨F.DRC_MRW_GO, .w1s, 0⟩, ⟨F.DRC_MRW_BUSY, .ro, 0⟩, ⟨F.DRC_MRW_OP, .rw, 0⟩, ⟨F.DRC_MRW_CH, .rw, 0⟩, ⟨F.DRC_MRW_SUB, .rw, 0⟩, ⟨F.DRC_MRW_RANK, .rw, 0⟩, ⟨F.DRC_MRW_ADDR, .rw, 0⟩, ⟨F.DRC_MRW_DATA, .rw, 0⟩]⟩
  | .DRC_TRN_CTL => ⟨0x1100050, [], false, .mem, [⟨F.DRC_TRN_CTL_GO, .w1s, 0⟩, ⟨F.DRC_TRN_CTL_BUSY, .ro, 0⟩, ⟨F.DRC_TRN_CTL_CH, .rw, 0⟩, ⟨F.DRC_TRN_CTL_SUB, .rw, 0⟩, ⟨F.DRC_TRN_CTL_RANK, .rw, 0⟩, ⟨F.DRC_TRN_CTL_STEP, .rw, 0⟩, ⟨F.DRC_TRN_CTL_SWEEP_HI, .rw, 0xff⟩, ⟨F.DRC_TRN_CTL_SWEEP_LO, .rw, 0⟩]⟩
  | .DRC_PORT_CFG => ⟨0x1100100, [(8, 0x8)], false, .mem, [⟨F.DRC_PORT_CFG_MAX_OUT, .rw, 0x20⟩, ⟨F.DRC_PORT_CFG_WEIGHT, .rw, 1⟩]⟩
  | .DRC_PORT_STS => ⟨0x1100104, [(8, 0x8)], false, .mem, [⟨F.DRC_PORT_STS_PENDING, .ro, 0⟩]⟩
  | .DRC_TRN_RES => ⟨0x1100080, [(40, 0x4)], false, .mem, [⟨F.DRC_TRN_RES_LEFT, .ro, 0⟩, ⟨F.DRC_TRN_RES_RIGHT, .ro, 0⟩, ⟨F.DRC_TRN_RES_FAIL, .ro, 0⟩]⟩
  | .DRC_CH_STS => ⟨0x1101000, [(6, 0x1000)], false, .mem, [⟨F.DRC_CH_STS_ACTIVE, .ro, 0⟩, ⟨F.DRC_CH_STS_HI_TEMP, .ro, 0⟩]⟩
  | .DRC_CH_ECC => ⟨0x1101004, [(6, 0x1000)], false, .mem, [⟨F.DRC_CH_ECC_CE, .rc, 0⟩, ⟨F.DRC_CH_ECC_UE, .rc, 0⟩]⟩
  | .DRC_CH_ECC_THR => ⟨0x1101008, [(6, 0x1000)], false, .mem, [⟨F.DRC_CH_ECC_THR_CE_THR, .rw, 0⟩]⟩
  | .DRC_CH_ECC_ADDR => ⟨0x1101010, [(6, 0x1000)], true, .mem, [⟨F.DRC_CH_ECC_ADDR_UE, .rc, 0⟩, ⟨F.DRC_CH_ECC_ADDR_PORT, .rc, 0⟩, ⟨F.DRC_CH_ECC_ADDR_DEVICE, .rc, 0⟩, ⟨F.DRC_CH_ECC_ADDR_SUB, .rc, 0⟩, ⟨F.DRC_CH_ECC_ADDR_ADDR, .rc, 0⟩]⟩
  | .DRC_CH_DLY => ⟨0x1101400, [(6, 0x1000), (2, 0x200), (2, 0x100), (40, 0x4)], false, .mem, [⟨F.DRC_CH_DLY_VREF, .rw, 0x40⟩, ⟨F.DRC_CH_DLY_WR_DLY, .rw, 0x40⟩, ⟨F.DRC_CH_DLY_RD_DLY, .rw, 0x40⟩]⟩
  | .MGT_BOOT_STS => ⟨0x1200000, [], false, .mgt, [⟨F.MGT_BOOT_STS_STAGE, .ro, 0⟩, ⟨F.MGT_BOOT_STS_ERR, .ro, 0⟩, ⟨F.MGT_BOOT_STS_COPY, .ro, 0⟩, ⟨F.MGT_BOOT_STS_FELLBACK, .ro, 0⟩, ⟨F.MGT_BOOT_STS_WIN_REJECT, .w1c, 0⟩, ⟨F.MGT_BOOT_STS_MODE, .ro, 0⟩]⟩
  | .MGT_BOOT_CTL => ⟨0x1200004, [], false, .mgt, [⟨F.MGT_BOOT_CTL_HOST_GO, .w1s, 0⟩]⟩
  | .MGT_FW_VERSION => ⟨0x1200008, [], false, .mgt, [⟨F.MGT_FW_VERSION_VERSION, .ro, 0⟩]⟩
  | .MGT_CFG => ⟨0x120000C, [], false, .mgt, [⟨F.MGT_CFG_HOST_MEM, .rw, 0⟩]⟩
  | .MGT_MEMWIN_BASE => ⟨0x1200010, [], false, .mgt, [⟨F.MGT_MEMWIN_BASE_PAGE, .rw, 0⟩]⟩
  | .MGT_FAULT_VEC => ⟨0x1200014, [], false, .mgt, [⟨F.MGT_FAULT_VEC_PC, .rw, 0⟩]⟩
  | .MGT_FAULT_DONE => ⟨0x1200018, [], false, .mgt, [⟨F.MGT_FAULT_DONE_DONE, .wo, 0⟩]⟩
  | .MGT_THRCTL => ⟨0x1200020, [], true, .mgt, [⟨F.MGT_THRCTL_PC, .wo, 0⟩, ⟨F.MGT_THRCTL_OP, .wo, 0⟩, ⟨F.MGT_THRCTL_SEV, .wo, 0⟩, ⟨F.MGT_THRCTL_SLOT, .wo, 0⟩]⟩
  | .MGT_STS => ⟨0x1200028, [], false, .mgt, [⟨F.MGT_STS_THRCTL_REJECT, .w1c, 0⟩]⟩
  | .MGT_THR_STS => ⟨0x1200100, [(8, 0x10)], false, .mgt, [⟨F.MGT_THR_STS_STATE, .ro, 0⟩, ⟨F.MGT_THR_STS_IN_FAULT, .ro, 0⟩, ⟨F.MGT_THR_STS_WAIT, .ro, 0⟩]⟩
  | .MGT_THR_PC => ⟨0x1200104, [(8, 0x10)], false, .mgt, [⟨F.MGT_THR_PC_PC, .ro, 0⟩]⟩
  | .MGT_THR_FAULT => ⟨0x1200108, [(8, 0x10)], false, .mgt, [⟨F.MGT_THR_FAULT_CAUSE, .ro, 0⟩]⟩
  | .MGT_THR_DETAIL => ⟨0x120010C, [(8, 0x10)], false, .mgt, [⟨F.MGT_THR_DETAIL_DETAIL, .ro, 0⟩]⟩
  | .DBG_ID => ⟨0x1300000, [], false, .aon, [⟨F.DBG_ID_ID, .ro, 0x5a160000⟩]⟩
  | .DBG_ID_ASSIGNED => ⟨0x1300008, [], true, .aon, [⟨F.DBG_ID_ASSIGNED_ID, .ro, 0⟩]⟩
  | .DBG_SESSION => ⟨0x1300010, [], false, .aon, [⟨F.DBG_SESSION_REJECT, .w1c, 0⟩, ⟨F.DBG_SESSION_RELEASE, .w1s, 0⟩, ⟨F.DBG_SESSION_CLAIM, .w1s, 0⟩, ⟨F.DBG_SESSION_OWNER, .ro, 0⟩]⟩
  | .DBG_LOCK => ⟨0x1300014, [], false, .aon, [⟨F.DBG_LOCK_UNLOCKED, .ro, 0⟩, ⟨F.DBG_LOCK_RELOCK, .wo, 0⟩, ⟨F.DBG_LOCK_CHAL_GO, .w1s, 0⟩, ⟨F.DBG_LOCK_VERIFY_GO, .w1s, 0⟩, ⟨F.DBG_LOCK_BUSY, .ro, 0⟩, ⟨F.DBG_LOCK_FAIL, .w1c, 0⟩, ⟨F.DBG_LOCK_SCOPE, .ro, 0⟩, ⟨F.DBG_LOCK_FAILS, .rc, 0⟩]⟩
  | .DBG_CTL => ⟨0x1300018, [], false, .aon, [⟨F.DBG_CTL_FREEZE_ORDER, .rw, 0⟩, ⟨F.DBG_CTL_BRK_EN, .rw, 0⟩]⟩
  | .DBG_RST => ⟨0x130001C, [], false, .aon, [⟨F.DBG_RST_WARM, .rw, 0⟩, ⟨F.DBG_RST_MGT, .rw, 0⟩]⟩
  | .DBG_RST_CL => ⟨0x1300020, [], false, .aon, [⟨F.DBG_RST_CL_CLU, .rw, 0⟩]⟩
  | .DBG_CHAL => ⟨0x1300040, [(8, 0x4)], false, .aon, [⟨F.DBG_CHAL_BYTES, .ro, 0⟩]⟩
  | .DBG_TOKEN => ⟨0x1300100, [(64, 0x4)], false, .aon, [⟨F.DBG_TOKEN_WORD, .wo, 0⟩]⟩
  | .DBG_THR_CTL => ⟨0x1300060, [], false, .aon, [⟨F.DBG_THR_CTL_OP, .wo, 0⟩, ⟨F.DBG_THR_CTL_SCOPE, .wo, 0⟩, ⟨F.DBG_THR_CTL_TID, .wo, 0⟩]⟩
  | .DBG_THR_STS => ⟨0x1300064, [], false, .aon, [⟨F.DBG_THR_STS_DEBUG, .ro, 0⟩, ⟨F.DBG_THR_STS_REASON, .ro, 0⟩, ⟨F.DBG_THR_STS_STEPPING, .ro, 0⟩, ⟨F.DBG_THR_STS_REJECT, .w1c, 0⟩]⟩
  | .DBG_THR_PC => ⟨0x1300068, [], false, .aon, [⟨F.DBG_THR_PC_PC, .ro, 0⟩]⟩
  | .DBG_LMEM_SEL => ⟨0x130006C, [], false, .aon, [⟨F.DBG_LMEM_SEL_CORE, .rw, 0⟩]⟩
  | .DBG_TRC_WIN => ⟨0x1300070, [], false, .aon, [⟨F.DBG_TRC_WIN_CLUSTER, .rw, 0⟩]⟩
  | .DBG_OTRC_CFG => ⟨0x1300074, [], false, .aon, [⟨F.DBG_OTRC_CFG_EN, .rw, 0⟩, ⟨F.DBG_OTRC_CFG_STOP_FULL, .rw, 0⟩, ⟨F.DBG_OTRC_CFG_FILT_KIND, .rw, 0⟩, ⟨F.DBG_OTRC_CFG_FILT, .rw, 0⟩]⟩
  | .DBG_OTRC_STS => ⟨0x1300078, [], false, .aon, [⟨F.DBG_OTRC_STS_LOST, .rc, 0⟩, ⟨F.DBG_OTRC_STS_WPTR, .ro, 0⟩]⟩
  | .DBG_MTRC_CFG => ⟨0x130007C, [], false, .aon, [⟨F.DBG_MTRC_CFG_EN, .rw, 0⟩, ⟨F.DBG_MTRC_CFG_STOP_FULL, .rw, 0⟩, ⟨F.DBG_MTRC_CFG_TYPES, .rw, 0⟩]⟩
  | .DBG_MTRC_STS => ⟨0x1300080, [], false, .aon, [⟨F.DBG_MTRC_STS_STOPPED, .ro, 0⟩, ⟨F.DBG_MTRC_STS_LOST, .rc, 0⟩, ⟨F.DBG_MTRC_STS_WPTR, .ro, 0⟩]⟩
  | .DBG_THR_REG => ⟨0x1300200, [(77, 0x4)], false, .aon, [⟨F.DBG_THR_REG_VALUE, .rw, 0⟩]⟩
  | .DBG_CORE_BP => ⟨0x1310000, [(257, 0x40), (4, 0x4)], false, .aon, [⟨F.DBG_CORE_BP_ADDR, .rw, 0⟩]⟩
  | .DBG_CORE_BPC => ⟨0x1310010, [(257, 0x40), (4, 0x4)], false, .aon, [⟨F.DBG_CORE_BPC_EN, .rw, 0⟩, ⟨F.DBG_CORE_BPC_ACTION, .rw, 0⟩, ⟨F.DBG_CORE_BPC_TID_EN, .rw, 0⟩, ⟨F.DBG_CORE_BPC_TID, .rw, 0⟩]⟩
  | .DBG_CORE_WP => ⟨0x1310020, [(257, 0x40), (2, 0x8)], false, .aon, [⟨F.DBG_CORE_WP_ADDR, .rw, 0⟩]⟩
  | .DBG_CORE_WPC => ⟨0x1310024, [(257, 0x40), (2, 0x8)], false, .aon, [⟨F.DBG_CORE_WPC_EN, .rw, 0⟩, ⟨F.DBG_CORE_WPC_ACTION, .rw, 0⟩, ⟨F.DBG_CORE_WPC_LD, .rw, 0⟩, ⟨F.DBG_CORE_WPC_ST, .rw, 0⟩, ⟨F.DBG_CORE_WPC_SIZE_LOG2, .rw, 0⟩, ⟨F.DBG_CORE_WPC_TID_EN, .rw, 0⟩, ⟨F.DBG_CORE_WPC_TID, .rw, 0⟩]⟩
  | .DBG_TRC_CFG => ⟨0x1320000, [(32, 0x8)], false, .aon, [⟨F.DBG_TRC_CFG_EN, .rw, 0⟩, ⟨F.DBG_TRC_CFG_STOP_FULL, .rw, 0⟩, ⟨F.DBG_TRC_CFG_CORES, .rw, 0⟩, ⟨F.DBG_TRC_CFG_TYPES, .rw, 0⟩]⟩
  | .DBG_TRC_STS => ⟨0x1320004, [(32, 0x8)], false, .aon, [⟨F.DBG_TRC_STS_STOPPED, .ro, 0⟩, ⟨F.DBG_TRC_STS_LOST, .rc, 0⟩, ⟨F.DBG_TRC_STS_WPTR, .ro, 0⟩]⟩
  | .PIO_GPIO_OUT => ⟨0x1400000, [], false, .aon, [⟨F.PIO_GPIO_OUT_OUT, .rw, 0⟩]⟩
  | .PIO_GPIO_SET => ⟨0x1400004, [], false, .aon, [⟨F.PIO_GPIO_SET_OUT, .w1s, 0⟩]⟩
  | .PIO_GPIO_CLR => ⟨0x1400008, [], false, .aon, [⟨F.PIO_GPIO_CLR_OUT, .w1c, 0⟩]⟩
  | .PIO_GPIO_OE => ⟨0x140000C, [], false, .aon, [⟨F.PIO_GPIO_OE_OE, .rw, 0⟩]⟩
  | .PIO_GPIO_IN => ⟨0x1400010, [], false, .aon, [⟨F.PIO_GPIO_IN_IN, .ro, 0⟩]⟩
  | .PIO_GPIO_PULL => ⟨0x1400020, [(2, 0x4)], false, .aon, [⟨F.PIO_GPIO_PULL_PULL, .rw, 0⟩]⟩
  | .PIO_GPIO_FN => ⟨0x1400030, [(4, 0x4)], false, .aon, [⟨F.PIO_GPIO_FN_FN0, .rw, 0⟩, ⟨F.PIO_GPIO_FN_FN1, .rw, 0⟩, ⟨F.PIO_GPIO_FN_FN2, .rw, 0⟩, ⟨F.PIO_GPIO_FN_FN3, .rw, 0⟩, ⟨F.PIO_GPIO_FN_FN4, .rw, 0⟩, ⟨F.PIO_GPIO_FN_FN5, .rw, 0⟩, ⟨F.PIO_GPIO_FN_FN6, .rw, 0⟩, ⟨F.PIO_GPIO_FN_FN7, .rw, 0⟩]⟩
  | .PIO_SPI_CTL => ⟨0x1400100, [], false, .aon, [⟨F.PIO_SPI_CTL_GO, .w1s, 0⟩, ⟨F.PIO_SPI_CTL_BUSY, .ro, 0⟩, ⟨F.PIO_SPI_CTL_ROM_OWN, .ro, 1⟩, ⟨F.PIO_SPI_CTL_LANES, .rw, 0⟩, ⟨F.PIO_SPI_CTL_ADDR4, .rw, 0⟩, ⟨F.PIO_SPI_CTL_RD, .rw, 0⟩, ⟨F.PIO_SPI_CTL_DUMMY, .rw, 0⟩, ⟨F.PIO_SPI_CTL_DIV, .rw, 0⟩, ⟨F.PIO_SPI_CTL_CMD, .rw, 0⟩, ⟨F.PIO_SPI_CTL_NOADDR, .rw, 0⟩, ⟨F.PIO_SPI_CTL_LEN, .rw, 0⟩]⟩
  | .PIO_SPI_ADDR => ⟨0x1400104, [], false, .aon, [⟨F.PIO_SPI_ADDR_ADDR, .rw, 0⟩]⟩
  | .PIO_SPI_DATA => ⟨0x1400140, [(16, 0x4)], false, .aon, [⟨F.PIO_SPI_DATA_DATA, .rw, 0⟩]⟩
  | .PIO_I2C0_CFG => ⟨0x1400200, [], false, .aon, [⟨F.PIO_I2C0_CFG_EN, .rw, 1⟩, ⟨F.PIO_I2C0_CFG_ADDR, .rw, 0x4c⟩]⟩
  | .PIO_I2C1_CTL => ⟨0x1400300, [], false, .aon, [⟨F.PIO_I2C1_CTL_GO, .w1s, 0⟩, ⟨F.PIO_I2C1_CTL_BUSY, .ro, 0⟩, ⟨F.PIO_I2C1_CTL_NACK, .w1c, 0⟩, ⟨F.PIO_I2C1_CTL_FAST, .rw, 0⟩, ⟨F.PIO_I2C1_CTL_RD, .rw, 0⟩, ⟨F.PIO_I2C1_CTL_NOSTOP, .rw, 0⟩, ⟨F.PIO_I2C1_CTL_ADDR, .rw, 0⟩, ⟨F.PIO_I2C1_CTL_LEN, .rw, 0⟩]⟩
  | .PIO_I2C1_DATA => ⟨0x1400340, [(8, 0x4)], false, .aon, [⟨F.PIO_I2C1_DATA_DATA, .rw, 0⟩]⟩
  | .GCL_CTL => ⟨0x4000000, [(32, 0x400000)], false, .cl, [⟨F.GCL_CTL_IC_INV, .w1s, 0⟩, ⟨F.GCL_CTL_START, .w1s, 0⟩]⟩
  | .GCL_STS => ⟨0x4000004, [(32, 0x400000)], false, .cl, [⟨F.GCL_STS_FQ_COUNT, .ro, 0⟩, ⟨F.GCL_STS_THRCTL_REJECT, .w1c, 0⟩, ⟨F.GCL_STS_FQ_OVF, .w1c, 0⟩, ⟨F.GCL_STS_STARTED, .ro, 0⟩]⟩
  | .GCL_SUPV => ⟨0x4000008, [(32, 0x400000)], false, .cl, [⟨F.GCL_SUPV_REJECT, .w1c, 0⟩, ⟨F.GCL_SUPV_TID, .rw, 0⟩]⟩
  | .GCL_ENTRY => ⟨0x4000010, [(32, 0x400000)], false, .cl, [⟨F.GCL_ENTRY_PC, .rw, 0x40000⟩]⟩
  | .GCL_SUPV_ENTRY => ⟨0x4000014, [(32, 0x400000)], false, .cl, [⟨F.GCL_SUPV_ENTRY_PC, .rw, 0x40000⟩]⟩
  | .GCL_IMG => ⟨0x4000018, [(32, 0x400000)], false, .cl, [⟨F.GCL_IMG_LIMIT, .rw, 0⟩]⟩
  | .GCL_BUDGET => ⟨0x4000020, [(32, 0x400000)], false, .cl, [⟨F.GCL_BUDGET_NS, .rw, 0⟩]⟩
  | .GCL_WG_WINDOW => ⟨0x4000024, [(32, 0x400000)], false, .cl, [⟨F.GCL_WG_WINDOW_CYCLES, .rw, 0x10000⟩]⟩
  | .GCL_THR_EN => ⟨0x4000040, [(32, 0x400000), (8, 0x4)], false, .cl, [⟨F.GCL_THR_EN_EN, .rw, 0⟩]⟩
  | .GCL_THR_PRIV => ⟨0x4000060, [(32, 0x400000), (8, 0x4)], false, .cl, [⟨F.GCL_THR_PRIV_PRIV, .rw, 0⟩]⟩
  | .GCL_FAULTQ_REC => ⟨0x4000080, [(32, 0x400000), (4, 0x4)], false, .cl, [⟨F.GCL_FAULTQ_REC_WORD, .ro, 0⟩]⟩
  | .GCL_FAULTQ_POP => ⟨0x4000090, [(32, 0x400000)], false, .cl, [⟨F.GCL_FAULTQ_POP_VALID, .rc, 0⟩, ⟨F.GCL_FAULTQ_POP_REMAIN, .rc, 0⟩]⟩
  | .GCL_THRCTL => ⟨0x40000A0, [(32, 0x400000)], true, .cl, [⟨F.GCL_THRCTL_PC, .wo, 0⟩, ⟨F.GCL_THRCTL_OP, .wo, 0⟩, ⟨F.GCL_THRCTL_SEV, .wo, 0⟩, ⟨F.GCL_THRCTL_TID, .wo, 0⟩]⟩
  | .GCL_WG_MEMBERS => ⟨0x4000100, [(32, 0x400000), (8, 0x40), (8, 0x4)], false, .cl, [⟨F.GCL_WG_MEMBERS_MEMBERS, .rw, 0⟩]⟩
  | .GCL_WG_STS => ⟨0x4000120, [(32, 0x400000), (8, 0x40)], false, .cl, [⟨F.GCL_WG_STS_DETECTED, .w1c, 0⟩, ⟨F.GCL_WG_STS_COUNTING, .ro, 0⟩, ⟨F.GCL_WG_STS_INTERNAL, .ro, 0⟩]⟩
  | .GCL_WG_NT => ⟨0x4000128, [(32, 0x400000), (8, 0x40)], true, .cl, [⟨F.GCL_WG_NT_NT, .ro, 0⟩]⟩
  | .GCL_CH_CFG => ⟨0x4001000, [(32, 0x400000), (64, 0x8)], false, .cl, [⟨F.GCL_CH_CFG_EN, .rw, 0⟩]⟩
  | .GCL_CH_STS => ⟨0x4001004, [(32, 0x400000), (64, 0x8)], false, .cl, [⟨F.GCL_CH_STS_DRAINED, .ro, 1⟩, ⟨F.GCL_CH_STS_COUNT, .ro, 0⟩]⟩
  | .GCL_THR_STS => ⟨0x4002000, [(32, 0x400000), (256, 0x20)], false, .cl, [⟨F.GCL_THR_STS_STATE, .ro, 0⟩, ⟨F.GCL_THR_STS_PRIV, .ro, 0⟩, ⟨F.GCL_THR_STS_WAIT, .ro, 0⟩, ⟨F.GCL_THR_STS_ITEM, .ro, 0⟩, ⟨F.GCL_THR_STS_TAG, .ro, 0⟩, ⟨F.GCL_THR_STS_CTX, .ro, 0⟩, ⟨F.GCL_THR_STS_TCMP_ARMED, .ro, 0⟩, ⟨F.GCL_THR_STS_OUTSTANDING, .ro, 0⟩, ⟨F.GCL_THR_STS_INTERNAL, .ro, 0⟩, ⟨F.GCL_THR_STS_LATE, .ro, 0⟩]⟩
  | .GCL_THR_PC => ⟨0x4002004, [(32, 0x400000), (256, 0x20)], false, .cl, [⟨F.GCL_THR_PC_PC, .ro, 0⟩]⟩
  | .GCL_THR_EV => ⟨0x4002008, [(32, 0x400000), (256, 0x20)], false, .cl, [⟨F.GCL_THR_EV_WAIT_MASK, .ro, 0⟩, ⟨F.GCL_THR_EV_PENDING, .ro, 0⟩]⟩
  | .GCL_THR_FAULT => ⟨0x400200C, [(32, 0x400000), (256, 0x20)], false, .cl, [⟨F.GCL_THR_FAULT_CAUSE, .ro, 0⟩]⟩
  | .GCL_THR_DETAIL => ⟨0x4002010, [(32, 0x400000), (256, 0x20)], false, .cl, [⟨F.GCL_THR_DETAIL_DETAIL, .ro, 0⟩]⟩
  | .CPX_CFG => ⟨0x4100000, [(32, 0x400000), (2, 0x10000)], false, .cl, [⟨F.CPX_CFG_EN, .rw, 0⟩, ⟨F.CPX_CFG_S_EN, .rw, 1⟩, ⟨F.CPX_CFG_U_EN, .rw, 0⟩, ⟨F.CPX_CFG_CLR_ON_UNLOCK, .rw, 1⟩]⟩
  | .CPX_STS => ⟨0x4100004, [(32, 0x400000), (2, 0x10000)], false, .cl, [⟨F.CPX_STS_DRAINED, .ro, 1⟩, ⟨F.CPX_STS_WAITING, .ro, 0⟩, ⟨F.CPX_STS_QUSED, .ro, 0⟩]⟩
  | .CPX_SLANE => ⟨0x4100008, [(32, 0x400000), (2, 0x10000)], false, .cl, [⟨F.CPX_SLANE_S_ONLY, .rw, 0⟩]⟩
  | .CPX_LANE_STS => ⟨0x4100100, [(32, 0x400000), (2, 0x10000), (16, 0x10)], false, .cl, [⟨F.CPX_LANE_STS_HELD, .ro, 0⟩, ⟨F.CPX_LANE_STS_ABANDONED, .ro, 1⟩, ⟨F.CPX_LANE_STS_ERR, .ro, 0⟩, ⟨F.CPX_LANE_STS_WAITERS, .ro, 0⟩, ⟨F.CPX_LANE_STS_HOLDER, .ro, 0⟩]⟩
  | .CPX_LANE_CTL => ⟨0x4100104, [(32, 0x400000), (2, 0x10000), (16, 0x10)], false, .cl, [⟨F.CPX_LANE_CTL_OP, .wo, 0⟩]⟩
  | .CPX_KEY_KEY => ⟨0x4108000, [(32, 0x400000), (512, 0x40), (8, 0x4)], false, .cl, [⟨F.CPX_KEY_KEY_KEY, .wo, 0⟩]⟩
  | .CPX_KEY_CTL => ⟨0x4108020, [(32, 0x400000), (512, 0x40)], false, .cl, [⟨F.CPX_KEY_CTL_VALID, .rw, 0⟩, ⟨F.CPX_KEY_CTL_K256, .rw, 0⟩]⟩

/-- The register kinds, part 0. -/
def regNames0 : List RegName :=
  [.GLB_ID, .GLB_FEAT0, .GLB_FEAT1, .GLB_FEAT2, .GLB_FEAT3, .GLB_CLUSTER_PRESENT, .GLB_ASSIGNED_ID, .GLB_SCRATCH, .RST_CAUSE, .RST_LOCKUP_CL, .RST_DOM_STS, .RST_DOM_STS_CL, .RST_SWRST, .RST_SWRST_CLR, .RST_SWRST_CL, .RST_SWRST_CL_CLR, .RST_SWRST_CFG, .RST_BLK_RST, .RST_WDT_CFG, .RST_WDT_KICK, .RST_WDT_STS, .RST_CLKMON_STS, .RST_CLKMON_CNT, .RST_PLL_STS]
/-- The register kinds, part 1. -/
def regNames1 : List RegName :=
  [.RST_MGT_PWR, .RST_CLU_CLK, .RST_THERM_CFG, .RST_THERM_STS, .RST_TS, .RST_ELOG_CFG, .RST_ELOG_STS, .RST_ELOG_SEQ, .RST_ELOG_CNT, .RST_ERR_CNT, .RST_SCRUB_CFG, .RST_SCRUB_STS, .RST_EINJ_CTL, .RST_EINJ_ADDR, .TIM_CTL, .TIM_STS, .TIM_NT, .TIM_NT_FRAC, .TIM_INCR, .TIM_HOLD_TIMEOUT, .TIM_ADJ_CTL, .TIM_ADJ_OFFSET, .TIM_ADJ_INTERVAL, .TIM_PPS_IN_TS]
/-- The register kinds, part 2. -/
def regNames2 : List RegName :=
  [.TIM_CSI_TS, .TIM_INPUT_CNT, .TIM_PPS_OUT_CFG, .TIM_TCMP_AT, .TIM_TCMP_CFG, .TIM_TCMP_PER, .TIM_TXTS, .TIM_TXTS_META, .TIM_TXTS_LOST, .TIM_EPOCH_CTL, .TIM_EPOCH_AT, .TIM_EPOCH_PERIOD, .TIM_EPOCH_STS, .TIM_EPOCH_LAST, .TIM_EPOCH_MERGE, .ICU_PEND_SET, .ICU_PEND_CLR, .ICU_MASK_SET, .ICU_MASK_CLR, .ICU_STS, .ICU_RET_STS, .ICU_DETAIL, .ICU_ROUTE, .ICU_TGT_CFG]
/-- The register kinds, part 3. -/
def regNames3 : List RegName :=
  [.ICU_TGT_STS, .ICU_TGT_SUM, .ICU_CLAIM, .HIF_LINK_CFG, .HIF_FN_STS, .HIF_LINK_STS, .HIF_FN, .HIF_TXR_BASE, .HIF_TXR_CFG, .HIF_TXR_CFG2, .HIF_TXR_STS, .HIF_TXR_PROD, .HIF_RXR_BASE, .HIF_RXR_CFG, .HIF_RXR_CFG2, .HIF_RXR_STS, .HIF_RXR_PROD, .HIF_CQ_BASE, .HIF_CQ_CFG, .HIF_CQ_CFG2, .HIF_CQ_STS, .HIF_CQ_CONS, .HIF_CQ_CFG3, .HIF_CTR_BASE]
/-- The register kinds, part 4. -/
def regNames4 : List RegName :=
  [.HIF_CTR_CFG, .HIF_CTR_CFG2, .HIF_CTR_STS, .HIF_CTR_PROD, .HIF_EVR_BASE, .HIF_EVR_CFG, .HIF_EVR_CFG2, .HIF_EVR_STS, .HIF_EVR_CONS, .HIF_EVR_CLASS, .HIF_EVR_LOST, .LPT_QUAD_CFG, .LPT_QUAD_STS, .LPT_CFG, .LPT_FC, .LPT_FC_REFRESH, .LPT_PRI, .LPT_STS, .LPT_LINK, .LPT_LINK_NT, .LPT_LINK_CFG, .LPT_TS_ADJ, .LPT_MAC_LO, .LPT_MAC_HI]
/-- The register kinds, part 5. -/
def regNames5 : List RegName :=
  [.LPT_LANE_TXEQ, .LPT_LANE_ADAPT, .LPT_LANE_EYE_CTL, .LPT_LANE_EYE_RES, .LPT_LANE_PRBS_CTL, .LPT_LANE_PRBS_ERR, .CRN_DRAM_CFG, .CRN_DRAM_BASE, .CRN_DRAM_LINK, .CRN_ERR, .CRN_ERR_HANDLE, .CRN_POOL_CFG, .CRN_POOL_SIZE, .CRN_POOL_STS, .CRN_REQ_POOL, .CRN_REQ_HARD, .CRN_REQ_XOFF, .CRN_REQ_XON, .CRN_REQ_STS, .CRN_REQ_PEAK, .CRN_CLU_CFG, .CRN_CLU_STS, .PRS_CTL, .PRS_STS]
/-- The register kinds, part 6. -/
def regNames6 : List RegName :=
  [.AGT_CTL, .AGT_STS, .AGT_ERR, .AGT_ERR_LOC, .AGT_TBL_CFG, .AGT_TBL_SIZE, .AGT_TBL_OBLK, .AGT_TBL_DBASE, .AGT_TBL_CBASE, .AGT_TBL_HB, .AGT_TBL_AGE, .AGT_TBL_STASH, .AGT_TBL_GEN, .AGT_TBL_STS, .ORY_CTL, .ORY_STS, .ORY_SLOT_XOFF, .ORY_TAG_XOFF, .ORY_SLOTS_FREE, .ORY_TAGS_FREE, .ORY_POOL_STS, .ORY_DOM_CFG, .ORY_GATE_STS, .ORY_DLY_BASE]
/-- The register kinds, part 7. -/
def regNames7 : List RegName :=
  [.ORY_DLY_CTL, .ORY_DLY_STS, .ORY_GRP_MEMBERS, .ORY_CLU_STS, .ORY_BPC_LINE, .ORY_BPC_SRC, .ORY_BPC_CFG, .ORY_BPC_STS, .ORY_DLY_L_CFG, .ORY_DLY_L_STS, .ORY_Q_CFG, .ORY_Q_ONCHIP, .ORY_Q_XOFF, .ORY_Q_XON, .ORY_Q_LIMIT, .ORY_Q_SPILL, .ORY_Q_SPILL_CFG, .ORY_Q_STS, .ORY_Q_DEPTH, .ORY_Q_SDEPTH, .ORY_Q_CTL, .ORY_DOM_STS, .EGR_CTL, .EGR_STS]
/-- The register kinds, part 8. -/
def regNames8 : List RegName :=
  [.EGR_PORT_CFG, .EGR_PORT_SHAPE, .EGR_PORT_STS, .EGR_PORT_QUEUED, .EGR_GRP_CFG, .EGR_GRP_SHAPE, .EGR_MCL, .EGR_MCM, .EGR_Q_CFG, .EGR_Q_DEST, .EGR_Q_SHAPE, .EGR_Q_LIMIT, .EGR_Q_CLASS, .EGR_Q_STS, .EGR_Q_DEPTH, .MER_CFG, .MER_CTL, .MER_STS, .MER_ANCHOR, .MER_PERIOD, .MER_PREROLL, .MER_SYNC, .MER_NSLOTS, .MER_PSEQ]
/-- The register kinds, part 9. -/
def regNames9 : List RegName :=
  [.FLT_STS, .FLT_FORCE, .FLT_ABN_LAST, .FLT_ABN_CNT, .FLT_LGRP_CLU, .FLT_LGRP_ACC, .FLT_SGRP_CLU, .FLT_SGRP_ACC, .FLT_SEM_CFG, .FLT_SEM_STS, .FLT_LOCK, .DRC_CFG, .DRC_CTL, .DRC_STS, .DRC_RT_CFG, .DRC_AGE, .DRC_DMAWIN_BASE, .DRC_DMAWIN_SIZE, .DRC_SCRUB, .DRC_SCRUB_STS, .DRC_MRW, .DRC_TRN_CTL, .DRC_PORT_CFG, .DRC_PORT_STS]
/-- The register kinds, part 10. -/
def regNames10 : List RegName :=
  [.DRC_TRN_RES, .DRC_CH_STS, .DRC_CH_ECC, .DRC_CH_ECC_THR, .DRC_CH_ECC_ADDR, .DRC_CH_DLY, .MGT_BOOT_STS, .MGT_BOOT_CTL, .MGT_FW_VERSION, .MGT_CFG, .MGT_MEMWIN_BASE, .MGT_FAULT_VEC, .MGT_FAULT_DONE, .MGT_THRCTL, .MGT_STS, .MGT_THR_STS, .MGT_THR_PC, .MGT_THR_FAULT, .MGT_THR_DETAIL, .DBG_ID, .DBG_ID_ASSIGNED, .DBG_SESSION, .DBG_LOCK, .DBG_CTL]
/-- The register kinds, part 11. -/
def regNames11 : List RegName :=
  [.DBG_RST, .DBG_RST_CL, .DBG_CHAL, .DBG_TOKEN, .DBG_THR_CTL, .DBG_THR_STS, .DBG_THR_PC, .DBG_LMEM_SEL, .DBG_TRC_WIN, .DBG_OTRC_CFG, .DBG_OTRC_STS, .DBG_MTRC_CFG, .DBG_MTRC_STS, .DBG_THR_REG, .DBG_CORE_BP, .DBG_CORE_BPC, .DBG_CORE_WP, .DBG_CORE_WPC, .DBG_TRC_CFG, .DBG_TRC_STS, .PIO_GPIO_OUT, .PIO_GPIO_SET, .PIO_GPIO_CLR, .PIO_GPIO_OE]
/-- The register kinds, part 12. -/
def regNames12 : List RegName :=
  [.PIO_GPIO_IN, .PIO_GPIO_PULL, .PIO_GPIO_FN, .PIO_SPI_CTL, .PIO_SPI_ADDR, .PIO_SPI_DATA, .PIO_I2C0_CFG, .PIO_I2C1_CTL, .PIO_I2C1_DATA, .GCL_CTL, .GCL_STS, .GCL_SUPV, .GCL_ENTRY, .GCL_SUPV_ENTRY, .GCL_IMG, .GCL_BUDGET, .GCL_WG_WINDOW, .GCL_THR_EN, .GCL_THR_PRIV, .GCL_FAULTQ_REC, .GCL_FAULTQ_POP, .GCL_THRCTL, .GCL_WG_MEMBERS, .GCL_WG_STS]
/-- The register kinds, part 13. -/
def regNames13 : List RegName :=
  [.GCL_WG_NT, .GCL_CH_CFG, .GCL_CH_STS, .GCL_THR_STS, .GCL_THR_PC, .GCL_THR_EV, .GCL_THR_FAULT, .GCL_THR_DETAIL, .CPX_CFG, .CPX_STS, .CPX_SLANE, .CPX_LANE_STS, .CPX_LANE_CTL, .CPX_KEY_KEY, .CPX_KEY_CTL]
/-- Every register kind, in the order of their codes. -/
def regNames : List RegName :=
  regNames0 ++ regNames1 ++ regNames2 ++ regNames3 ++ regNames4 ++ regNames5 ++ regNames6 ++ regNames7 ++ regNames8 ++ regNames9 ++ regNames10 ++ regNames11 ++ regNames12 ++ regNames13

end Sys2Proof.Machine
end

