-- ==== Sys2Proof/Config.lean ====
section
/-!
DEFINITION. The free values: what the spec leaves to the implementation, as opaque constants with no body, so that no proof can
see a value of them. `State.fresh` counts the draws, so each draw is a value of its own.
-/

namespace Sys2Proof.Config

/-- The outcome of a choice the spec leaves open (which free cell, tag, record or slot is taken; which candidate is displaced),
as a function of the draw number; the model reduces it modulo the number of candidates. (Log entry 2) -/
opaque pick : Nat → Nat

/-- A value the spec leaves open or does not state (undefined data after a failed transfer, bytes a check does not cover), as a
function of the draw number. (Log entry 2) -/
opaque value : Nat → BitVec 64

/-- The on-die random source of the debug challenge (R511), as a function of the draw number. (Log entry 2) -/
opaque random : Nat → BitVec 256

/-- The bucket hash of Agate (R170): the spec fixes its use and not its function. Arguments: table, choice (0 or 1), key. (Log entry 2) -/
opaque bucketHash : Nat → Nat → List (BitVec 8) → Nat

/-- How many refreshes JESD79-5 lets the controller postpone (R418): the spec names the limit and gives no number. (Log entry 58) -/
opaque refreshLimit : Nat

/-- The hash that Izzel fuses into the device (R30, R497): a constant of the device. (Log entry 2) -/
opaque fuseHash : BitVec 384

end Sys2Proof.Config
end

