-- ==== Sys2Proof/Machine/State.lean ====
section
/-!
DEFINITION. The state of the SZ-1600 as plain data.
-/

namespace Sys2Proof.Machine

/-- A sparse map in canonical form: keys strictly rising, no entry equal to what an unlisted key reads as. -/
abbrev SMap (α : Type) := List (Nat × α)

/-- The 64-byte work item (R155, R156): word i is bits [32i+31:32i]. -/
abbrev Item := BitVec 512

/-- The variants of R1. -/
inductive Variant where
  | a1600 | n1600 | l1200
deriving DecidableEq, Repr

/-! ## Sidereal and the epoch counters (02) -/

/-- A SET or STEP in its 64-cycle wait (R39), a slew that runs (R40), or an aborted slew whose ADJ_BUSY clears at the next
edge (R41). -/
inductive Adj where
  /-- SET or STEP: the captured offset and the PCLK edges left. -/
  | jump (step : Bool) (offset : W64) (left : Nat)
  /-- SLEW: PCLK edges left of the interval's edges, and the offset that they add in all (R40, R41). -/
  | slew (left total : Nat) (offset : Int)
  | ending
deriving DecidableEq, Repr

/-- A time-compare unit's pulse and the value of AT it has pulsed for (R43, R51). -/
structure TcmpSt where
  high : Bool
  endAt : Nat
  pulsed : Bool
deriving DecidableEq, Repr

/-- An entry of a two-step timestamp FIFO (R49). -/
structure TxTs where
  nt : W64
  frac : Byte
  cookie : W16
deriving DecidableEq, Repr

/-- One bank of a counter set (R52, R57, R452). -/
structure Bank where
  pkts : W64
  bytes : W64
  mark : Bool
deriving DecidableEq, Repr

/-- A counter set: two banks, and whether it is invalid (R452). -/
structure CntSet where
  a : Bank
  b : Bank
  bad : Bool
deriving DecidableEq, Repr

/-- Sidereal's state beside its registers. -/
structure Tim where
  /-- The 96-bit network time (R34). -/
  nt : BitVec 96
  /-- Sum of the increments since PKT release, in 2^-32 ns (R42). -/
  elapsed : Nat
  /-- NT64 up to which the present time line's instants had been reached before the present PCLK edge (R247). -/
  seen : Nat
  /-- The high word latched by a 4-byte read of the low word of TIM_NT (R550). -/
  ntHi : Option W32
  adj : Option Adj
  /-- Starts of the two holdover periods (R45), as elapsed time. -/
  holdIncr : Nat
  holdPps : Nat
  ppsHigh : Bool
  /-- Elapsed time at which the PPS_OUT pulse ends, and the next instant at which PPS_OUT pulses (R43, R51). -/
  ppsEnd : Nat
  ppsNext : Nat
  tcmp : SMap TcmpSt
  txts : SMap (List TxTs)
  /-- On-chip counter sets, by set number (R52), and per-entry sets of Agate tables, by 2^32 × table + entry (R179). -/
  cnt : SMap CntSet
  entryCnt : SMap CntSet
  /-- The elapsed time of the last flip (R56), whether one has happened, and the instant of the flip before it (R60). -/
  flipAt : Option Nat
  prevFlip : W64
  /-- The pending flip is later than TIM_EPOCH_AT (R55). -/
  flipLate : Bool
deriving DecidableEq, Repr

/-! ## Line ports (03) -/

/-- A pause or PFC frame (R70): whether it is PFC, the priorities it enables, those of them with quanta 0, the quanta of the rest,
the source and the destination address. -/
structure PauseFrame where
  pfc : Bool
  en : Byte
  zero : Byte
  quanta : W16
  src : BitVec 48
  dst : BitVec 48
deriving DecidableEq, Repr

/-- A line port beside its registers. -/
structure Port where
  /-- Priorities for which the port now pauses its peer (R69, R70), whether by PFC frames, and the elapsed time of the last pause frame. -/
  paused : Byte
  pfc : Bool
  pauseAt : Nat
  /-- AN_MODE and LOOPBACK applied at the last rise of PHY_EN (R79, R82). -/
  anMode : Nat
  loop : Nat
  /-- When TRAIN was entered, in elapsed time (R74). -/
  trainAt : Nat
  /-- Pause and PFC frames sent, newest first: the port's output. -/
  sent : List PauseFrame
deriving DecidableEq, Repr

/-! ## Host interface (04) -/

/-- A PCI Express function beside its registers (R88, R90, R554). -/
structure Fn where
  bme : Bool
  d3 : Bool
  flr : Bool
  /-- MSI-X Enable and function mask. -/
  msixEn : Bool
  fmask : Bool
  /-- Vector table entries as four words each, and the pending-bit array (R551). -/
  vtab : SMap W32
  pba : SMap Bool
  /-- Device Control and the AER uncorrectable error status of its configuration space (R85, R87; log entry 50). -/
  devctl : W16
  aer : W32
deriving DecidableEq, Repr

/-- A memory write of a function on its link: its address and length, and whether it carries Relaxed Ordering (R103). -/
structure Posted where
  fn : Nat
  addr : Nat
  len : Nat
  relaxed : Bool
deriving DecidableEq, Repr

/-- A TX packet whose data has been read or refused and whose completion is due (R97, R100). -/
structure TxDone where
  ring : Nat
  ndesc : Nat
  cqe : Bool
  status : Nat
  bytes : Nat
deriving DecidableEq, Repr

/-- What a control command does when it completes later (R107): the work that is in progress, or the end of work whose function cannot
write to its host now: the data, the status and the completion body (R115, R554). -/
inductive CtlWork where
  | cntDump (space table first count : Nat) (addr : W64)
  | tblFlush (table : Nat)
  | ended (data : List (Nat × List Byte)) (status : Nat) (body : List Nat)
deriving DecidableEq, Repr

/-- A started control command that has not completed. -/
structure CtlCmd where
  ring : Nat
  index : Nat
  word0 : W32
  token : W32
  fn : Nat
  work : CtlWork
  /-- Its function has been reset since: it completes its effects alone (R113). -/
  dead : Bool
deriving DecidableEq, Repr

/-- HIF beside its registers. -/
structure Hif where
  fns : SMap Fn
  vfEn : SMap Bool
  numVfs : SMap Nat
  /-- The layout in force: two x8 links (R86). -/
  bifur : Bool
  /-- Fetched TX packets not yet completed, oldest first. -/
  txDone : List TxDone
  /-- Started commands in progress, and completed slots at or beyond CONS by ring × 2^17 + index (R107). -/
  ctl : List CtlCmd
  ctlDone : SMap Bool
  /-- Next index of each control ring to start. -/
  ctlNext : SMap Nat
  /-- Completion rings and event rings (1,024 + e): elapsed time of arming, and write times of unread entries, oldest first. -/
  armAt : SMap Nat
  unread : SMap (List Nat)
  /-- DWRR of TX rings: by priority the ring whose turn it is, and each ring's deficit in bytes (R97). -/
  txTurn : SMap Nat
  txDef : SMap Nat
  /-- TX rings stopped by a failed or missing completion ring are judged from registers; the packet HIF holds for each RX
  ring is at the head of its egress queue (R102). -/
  mem : SMap Byte
  /-- MSI-X messages sent, as (FN, vector), and memory writes of the functions, newest first: HIF's output. -/
  sent : List (Nat × Nat)
  posted : List Posted
deriving DecidableEq, Repr

/-! ## Cairn (05) -/

/-- A chain's attributes (R119, R120, R132, R392, R455), under the cell number of its head. -/
structure Chain where
  cells : List Nat
  refs : Nat
  ofs : Nat
  len : Nat
  carry : Bool
  /-- The cluster that owns it; 32 + n since a reset of cluster n, whose sweep is to come (R132, R133). -/
  owner : Option Nat
  /-- Cells of a new head that this chain owns: the rest belong to the chain whose reference it holds (R392). -/
  own : Nat
  behind : Option Nat
  /-- Broken link (R449): cells from this position onward cannot be reached. -/
  broken : Option Nat
deriving DecidableEq, Repr

/-- Cairn beside its registers. Cell numbers are 2^27 × space + index (R122). -/
structure Crn where
  /-- On-chip cell bytes, by 128 × cell + offset; DRAM cells lie in DRAM. -/
  bytes : SMap Byte
  chains : SMap (Option Chain)
  /-- The requester each allocated cell is charged to. -/
  cellReq : SMap (Option Nat)
  /-- Sweep in progress, by cluster (R133). -/
  sweep : SMap Bool
deriving DecidableEq, Repr

/-! ## Parser (06) -/

/-- A packet ready at the parser input (R140, R155, R158). -/
structure PIn where
  /-- 0 line, 1 host, 2 recirculation. -/
  kind : Nat
  /-- Start-table entry: 0–15, 16, 17. -/
  start : Nat
  head : Nat
  src : Byte
  pri : Nat
  /-- The low word of the receive timestamp, META or the recirculated META: word 3. -/
  word3 : W32
  tsCap : Bool
  cookie : W16
  offload : W16
deriving DecidableEq, Repr

/-- The parser beside its registers: windows by 2^20 × copy + offset, and the packets ready at its input, in order of arrival. -/
structure Prs where
  win : SMap W32
  waiting : List PIn
  /-- Graph and classifier switches requested in one write are pending (R159). -/
  joint : Bool
deriving DecidableEq, Repr

/-! ## Orrery (09) -/

/-- A queued item (R218, R226, R232). -/
structure QItem where
  item : Item
  domain : Nat
  flow : W32
  tag : Option Nat
  ctx : Option Nat
  /-- The identity by which prefetched lookups find the item (R153). -/
  uid : Nat
deriving DecidableEq, Repr

/-- A packet on its way from a thread through the gate to egress (R227, R392). -/
structure Emit where
  queue : Nat
  /-- Head cell, or none for the null handle. -/
  head : Option Nat
  item : Item
  tsop : Nat
  udpck : Bool
  ptpOfs : Nat
  /-- The item's Orrery queue and domain and the thread that emits it, for the trace (R522). -/
  oq : Nat
  dom : Nat
  thr : Nat
deriving DecidableEq, Repr

/-- A tag in flight (R226, R227, R240). -/
structure Tag where
  domain : Nat
  done : Bool
  /-- Recorded emits, oldest first. -/
  emits : List Emit
  /-- The thread that holds the item. -/
  holder : Option Nat
  /-- Elapsed time at which the hold count started. -/
  heldFrom : Option Nat
deriving DecidableEq, Repr

/-- A pending delayed item (R247). -/
structure DlyItem where
  list : Nat
  tick : Nat
  queue : Nat
  it : QItem
  /-- Its 80 bytes' place in the delay area (R246). -/
  place : Nat
deriving DecidableEq, Repr

/-- Orrery beside its registers. -/
structure Ory where
  onchip : SMap (List QItem)
  spill : SMap (List QItem)
  tags : SMap (Option Tag)
  /-- Tags in flight of each domain, head first. -/
  doms : SMap (List Nat)
  /-- The thread that holds each context. -/
  ctx : SMap (Option Nat)
  /-- DWRR by 8 × group + priority: the queue whose turn it is and the dispatches it has left. -/
  turn : SMap (Nat × Nat)
  /-- The cluster of each group's last dispatch, plus one. -/
  lastClu : SMap Nat
  /-- PCLK edge of each cluster's last dispatch, plus one (R225). -/
  dispAt : SMap Nat
  /-- Threads waiting in get, longest first, with their group. -/
  gets : List (Nat × Nat)
  /-- The queue last refilled (R239). -/
  refilled : Nat
  /-- Pending delayed items in insertion order. -/
  delayed : List DlyItem
  /-- The next index of each queue's spill ring (R239). -/
  spillTail : SMap Nat
  /-- Identities given to items so far. -/
  uids : Nat
deriving DecidableEq, Repr

/-! ## Egress and Meridian (14) -/

/-- A packet in an egress queue or in transmission. -/
structure EPkt where
  queue : Nat
  head : Nat
  len : Nat
  item : Item
  tsop : Nat
  udpck : Bool
  ptpOfs : Nat
deriving DecidableEq, Repr

/-- A token bucket: its level in units of 1 / (800 × 2^32) byte, and the elapsed time of its last filling (R389). -/
structure Bucket where
  level : Int
  since : Nat
deriving DecidableEq, Repr

/-- A calendar beside its registers and its tables (R397–R404). -/
structure Mer where
  /-- Network time of the running period's start and of the running slot's start and end. -/
  periodAt : Nat
  slotAt : Nat
  slotEnd : Nat
  /-- What is left of ALLOC in bytes; none means no limit. -/
  alloc : Option Nat
  /-- The next period's start (NT) or the first pending anchor (EXT), and the anchors after it. -/
  next : Option Nat
  more : List Nat
  /-- EN has been cleared and the period runs out (R403). -/
  stopping : Bool
  /-- Queues passed over for the rest of the slot (R400). -/
  skipped : List Nat
  /-- The slot whose pre-roll has begun. -/
  preroll : Option Nat
deriving DecidableEq, Repr

/-- A frame in transmission (R72): its bytes through the FCS, whether a carried FCS was wrong (R456), and a timestamp to capture (R49). -/
structure TxFrame where
  bytes : List Byte
  carryBad : Bool
  ts : Option TxTs
deriving DecidableEq, Repr

/-- Egress beside its registers. Ports are 0–17. -/
structure Egr where
  queues : SMap (List EPkt)
  /-- The head of a host queue waits for RX buffers (R102), by queue. -/
  held : SMap Bool
  /-- Those queues in the order in which egress released their packets (R103). -/
  heldQ : List Nat
  /-- Buckets: queues by e, groups by 2^16 + g, ports by 2^17 + P. -/
  bucket : SMap (Option Bucket)
  /-- Deficits in bytes, by the same keys; and turns: by 8 × P + priority the group, by 2^16 + g the queue. -/
  deficit : SMap Nat
  turn : SMap Nat
  /-- Pause ends in PCLK edges, by 8 × P + priority (R390). -/
  pauseEnd : SMap Nat
  /-- The packet a port has started: in the MAC for a line port, in HIF for the host port; and whether its first bit has entered the PCS. -/
  tx : SMap (Option EPkt)
  txOn : SMap (Option TxFrame)
  /-- What each line port has prefetched (R402), as bursts with their poisoned 128-bit units, and the bursts left to fetch, in order. -/
  pf : SMap (List (Nat × Nat))
  pfLeft : SMap (List Nat)
  /-- Frames on the wire, newest first: the port, the bytes, and whether an error codeword ends the frame (R72, R447). -/
  wire : List (Nat × List Byte × Bool)
  /-- Slot tables: 2^20 × port + 2^16 × copy + 2 × entry + word. -/
  slots : SMap W32
  mer : SMap Mer
deriving DecidableEq, Repr

/-! ## Interrupt controller (16) and integrity (17) -/

/-- A delivery that has been chosen and has not completed (R435, R439). -/
structure Flight where
  src : Nat
  tgt : Nat
deriving DecidableEq, Repr

/-- ICU beside its registers: what is outstanding where, and the deliveries in flight. -/
structure Icu where
  out : SMap (Option Nat)
  flight : List Flight
  /-- Entry to search first, by source (R434). -/
  next : SMap Nat
  /-- The retention copy of target 32 (R440): EN, the outstanding set, and whether a delivery has come to it. -/
  retEn : Bool
  retOut : List Nat
  retNew : Bool
deriving DecidableEq, Repr

/-- Integrity beside its registers: check units that hold an error, by 2^64 × memory + unit (1 correctable, 2 uncorrectable), the failures
in a row of the beat at each on-chip-network hop and the hops that have stopped, and the scrubber's position. -/
structure Integ where
  bad : SMap Nat
  nocFail : SMap Nat
  nocStuck : SMap Bool
  scrubMem : Nat
  scrubPos : Nat
deriving DecidableEq, Repr

/-! ## Agate (07, 08) -/

/-- Whom a lookup answers: a thread, or a queued item by its identity (R153). -/
inductive LkOwner where
  | thread (t : Nat)
  | item (uid : Nat)
deriving DecidableEq, Repr

/-- An accepted lookup that has not been answered (R180, R183). With no owner its response is discarded. -/
structure Lkp where
  table : Nat
  key : List Byte
  slot : Nat
  cnt : Bool
  cbytes : Nat
  learn : Bool
  srcport : W16
  /-- The table was absent, disabled or Agate disabled when it arrived (R169). -/
  absent : Bool
  owner : Option LkOwner
  /-- A stopped hop of the on-chip network holds it for good (R453). -/
  stuck : Bool
deriving DecidableEq, Repr

/-- A learn request in the queue (R194). -/
structure LearnReq where
  table : Nat
  key : List Byte
  action : W128
  srcport : W16
deriving DecidableEq, Repr

/-- An LPM prefix: its bits left-aligned in 128, with the bits beyond `plen` zero (R177), and its place in the table's memory. -/
structure Prefix where
  addr : W128
  plen : Nat
  result : W64
  place : Nat
deriving DecidableEq, Repr

/-- A record of the move-window tracker: the entry by table and key, and the elapsed time at which its window opened (R198). -/
structure Track where
  table : Nat
  key : List Byte
  openedAt : Nat
deriving DecidableEq, Repr

/-- An open cursor (R209): the next location or record number, the last LPM prefix read, and the elapsed time of the last TBL_NEXT. -/
structure Cursor where
  pos : Nat
  after : Option (W128 × Nat)
  at_ : Nat
deriving DecidableEq, Repr

/-- An ageing pass in progress (R199): the next location, the stash slots visited, the elapsed time from which its visits are spread, its
period and its positions. -/
structure AgePass where
  pos : Nat
  slots : Nat
  start : Nat
  period : Nat
  count : Nat
deriving DecidableEq, Repr

/-- A flush pass in progress (R212). -/
structure FlushPass where
  mode : Nat
  gen : Nat
  port : Nat
  incl : Bool
  pos : Nat
  after : Option (W128 × Nat)
  deleted : Nat
deriving DecidableEq, Repr

/-- A copy in the flow cache (R173): the entry it copies, its set, and whether it has been referenced. -/
structure FcWay where
  table : Nat
  loc : Nat
  set : Nat
  used : Bool
deriving DecidableEq, Repr

/-- Agate beside its registers. Locations are keyed by 2^32 × table + location. -/
structure Agt where
  /-- EM entries on-chip and in the stash; entries of DRAM tables lie in DRAM (R166, R171). -/
  em : SMap Item
  /-- DIR entries of on-chip tables, by byte. -/
  dir : SMap Byte
  /-- Prefixes of LPM tables, ascending by prefix and then length. -/
  lpm : SMap (List Prefix)
  /-- The hit-bit array (R167). -/
  hit : SMap Bool
  /-- The table that holds each stash slot (R172). -/
  stash : SMap (Option Nat)
  fc : List FcWay
  /-- Tables whose flow-cache copies are being invalidated (R174). -/
  fcInv : SMap Bool
  /-- The parity list (R202), as (table, location). -/
  listed : List (Nat × Nat)
  learnq : List LearnReq
  track : List Track
  /-- Lookups accepted and not answered, in order of issue, and responses that wait for their item's dispatch (R153). -/
  lookups : List Lkp
  landed : List (Nat × Nat × List Byte)
  /-- Ageing: the elapsed time at which a table's next pass is due, and the pass in progress (R199). -/
  ageDue : SMap Nat
  agePos : SMap (Option AgePass)
  cursors : SMap (Option Cursor)
  flushes : SMap (Option FlushPass)
deriving DecidableEq, Repr

/-! ## Garnet threads and clusters (10, 11), MGT (19), and their halts (20) -/

/-- Thread states (R270). -/
inductive ThrSt where
  | dormant | ready | run | stall | fault | debug
deriving DecidableEq, Repr

/-- A command in a coprocessor queue (R346). -/
structure CpxCmd where
  tag : Nat
  lane : Nat
  thr : Nat
  /-- The COP value; 0x7F for a move. -/
  cop : Nat
  cd : Nat
  ca : Nat
  cb : Nat
  /-- A move: none for an operation, else 0 mtc, 1 mfc, 2 lcq, 3 scq with its word, register or address and data. -/
  move : Option (Nat × Nat × W32 × W128)
  poisoned : Bool
  confirmed : Bool
deriving DecidableEq, Repr

/-- What a thread waits for (R264, R270; the WAIT codes of GCL_THR). -/
inductive Wait where
  | none
  /-- `lkp` or `lkpw` whose slot is pending: the instruction issues when it is not (R183). -/
  | slot (i : Nat)
  /-- `lkpw` after issue, and `lkw`: the listed slots. -/
  | slots (mask : Nat)
  /-- A cell operation, and a DMA transfer: the request is the thread's `acc`. -/
  | cell
  | dma
  /-- A coprocessor instruction whose command finds no entry in the queue of unit `u` (R331, R343). -/
  | cpq (u : Nat) (c : CpxCmd)
  /-- `mfc` and `scq`: the command stands in the queue of unit `u` with this tag. -/
  | cpr (u tag : Nat)
  /-- `cpwait`. -/
  | cpw (u lane : Nat)
  | recv (rd : Nat) (dst : W32) (ch : Nat)
  | send (rd : Nat) (ch : Nat) (words : List W32)
  | flint (rd : Nat) (sem : Bool) (num count : Nat)
  /-- A Flint acquire that has been granted while the cluster is parked, and whether with ACQ_ABANDONED (R378, R379). -/
  | granted (rd : Nat) (mark : Bool)
  | get (group : Nat)
  /-- `wait` and `waitt` with the mask in force. -/
  | ev (timer : Bool) (rd : Nat) (mask : W16)
  /-- Blocking `enq`, or `enqd` (true), of the item as it stood at issue. -/
  | enq (rd : Nat) (qd flow : W32) (src : Bool × Item)
  /-- `emit` (true) and `emitk` that wait for a gate record (R227), with the header bytes and the item as they stood at issue (R393). -/
  | gate (rd : Nat) (dest wb : W32) (src : Bool × List Byte × Item)
  | fetch
  /-- An MGT load through the register port (R491): the register, the address and the OP of the load. -/
  | rport (op rd : Nat) (addr : W32)
deriving DecidableEq, Repr

/-- What an accepted cell operation or transfer leaves to do when it completes (R131, R318, R330): bytes that land at a local
address with the poison of each, or nothing. -/
structure CellReq where
  dst : W32
  data : List Byte
  poison : List Bool
  /-- The transfer as the descriptor gives it, for a DMA: remote address, direction, host function or none for DRAM, length. -/
  xfer : Option (Nat × Bool × Option Nat × Nat)
  rd : Nat
  /-- What is written to gD, and the value of Z. -/
  val : W32
  ok : Bool
  /-- The thread still waits for it (R336). -/
  live : Bool
  /-- It has completed while the thread was halted. -/
  done : Bool
  /-- A stopped hop of the on-chip network holds it for good (R453). -/
  stuck : Bool
deriving DecidableEq, Repr

/-- The budget timer (R275): off, running to an elapsed time, or paused with time left, in 2^-32 ns. -/
inductive Bud where
  | off
  | run (until_ : Nat)
  | paused (left : Nat)
deriving DecidableEq, Repr

/-- The work item a thread holds (R267, R320); its 64 bytes stand in the thread block. -/
structure Held where
  tag : Option Nat
  domain : Nat
  queue : Nat
  ctx : Option Nat
  late : Bool
  /-- Emits made, not counting a final one (R228). -/
  emits : Nat
  uid : Nat
deriving DecidableEq, Repr

/-- An Edsen halt (R513–R515): its reason and the state to which RESUME returns. -/
structure Halt where
  reason : Nat
  prev : ThrSt
deriving DecidableEq, Repr

/-- A thread: a packet thread 0–8,191 or an MGT slot 0x2000 + i. -/
structure Thread where
  st : ThrSt
  priv : Bool
  g : SMap W32
  a0 : W64
  a1 : W64
  pc : W32
  /-- b#0–b#1023. -/
  flags : BitVec 1024
  /-- PCLK edge at which it became ready (R262). -/
  readyAt : Nat
  wait : Wait
  acc : List CellReq
  /-- Edge events pending (R271). -/
  ev : W16
  watch : W64
  stage : BitVec 256
  tcmp : Option W64
  budget : Bud
  item : Option Held
  /-- Pending lookup slots (R183). -/
  pend : BitVec 4
  cause : Nat
  detail : W32
  inFault : Bool
  halt : Option Halt
  stepping : Bool
  /-- The breakpoint at this pc has halted the thread: the next issue passes it (log entry 40). -/
  bpPass : Bool
  /-- Woken from a wait for an entry of a coprocessor queue: the instruction that issues next has been counted (R364). -/
  requeued : Bool
  /-- Instruction-cache fills in flight for which the thread no longer waits, by the pc of each, oldest first (R336). -/
  fills : List W32
deriving DecidableEq, Repr

/-- A channel message: its sender and its words (R283, R285). -/
structure Msg where
  from_ : Nat
  words : List W32
deriving DecidableEq, Repr

/-- A wait group's count (R289): since which clock edge it counts at the present step, the thirds of a CCLK cycle counted before that edge,
and whether it has raised DEADLOCK. -/
structure WgSt where
  since : Option Nat
  base : Nat
  raised : Bool
deriving DecidableEq, Repr

/-- The clusters beside their registers. Cores are 8 × cluster + core, and MGT's memory has its own field. -/
structure Gar where
  thr : SMap Thread
  /-- X and Y banks by 2^17 × core + address, and shared memory by 2^20 × cluster + offset. -/
  lmem : SMap Byte
  smem : SMap Byte
  /-- Cluster-shared bits by 4,096 × cluster + (b − 4,096). -/
  sbits : SMap Bool
  /-- Messages in a channel, oldest first, by global channel number, and messages in transit to one (R283). -/
  chan : SMap (List Msg)
  transit : List (Nat × Msg)
  /-- Threads that have blocked at a channel, in the order in which they reached it (R285, R286). -/
  chq : List Nat
  /-- Fault queues, oldest first, by cluster. -/
  faultq : SMap (List (List W32))
  wg : SMap WgSt
  /-- The words that a core's instruction cache holds, by 2^20 × core + word of the image (R264, R269). -/
  icache : SMap (Option W32)
deriving DecidableEq, Repr

/-! ## Coprocessors (12) -/

/-- A coprocessor lane (R338, R339). -/
structure Lane where
  c : SMap W128
  mode : Nat
  err : Bool
  holder : Option Nat
  abandoned : Bool
  key : List Byte
  j0 : W128
  ctr : W128
  ghash : W128
  aad : Nat
  bytes : Nat
  /-- The AAD or the data has ended with a partial block; data has begun, encrypting or decrypting. -/
  aadEnd : Bool
  dataEnd : Bool
  dir : Option Bool
  /-- CMAC chaining value, and SHA or CRC running state. -/
  mac : W128
  hash : List Nat
  buf : List Byte
deriving DecidableEq, Repr

/-- A key slot (R353). -/
structure KeySlot where
  key : List Byte
  valid : Bool
  k256 : Bool
deriving DecidableEq, Repr

/-- What a parked cluster's coprocessors do at its unparking (R361): FREE of a lane, and the reset of a thread by local index. -/
inductive CpxDue where
  | free (u l : Nat)
  | thread (i : Nat)
deriving DecidableEq, Repr

/-- Coprocessors: lanes by 32 × cluster + 16 × unit + lane, queues by 2 × cluster + unit, slots by 512 × cluster + slot, and key
words written and not committed by 8 × slot + word. -/
structure Cpx where
  lane : SMap Lane
  queue : SMap (List CpxCmd)
  slot : SMap KeySlot
  kbuf : SMap W32
  /-- What waits for a parked cluster's clock, by cluster, oldest first. -/
  due : SMap (List CpxDue)
deriving DecidableEq, Repr

/-! ## Flint (13) -/

/-- A lock: its owner, its mark, whether the owner received ACQ_ABANDONED, and the threads queued (R368, R375). -/
structure Lock where
  owner : Option Nat
  mark : Bool
  told : Bool
  queue : List Nat
deriving DecidableEq, Repr

/-- A holding record (R365, R375). -/
structure Hold where
  owner : Nat
  units : Nat
  told : Bool
deriving DecidableEq, Repr

/-- A semaphore: its mark, its holding records, and the acquires queued with their counts (R369, R370). -/
structure Sem where
  mark : Bool
  holds : List Hold
  queue : List (Nat × Nat)
deriving DecidableEq, Repr

/-- Flint beside its registers; registrations are (lock, owner) (R372). -/
structure Flt where
  lock : SMap Lock
  sem : SMap Sem
  regs : List (Nat × Nat)
deriving DecidableEq, Repr

/-! ## DDR5 controller (15) -/

/-- A request of a client port for one 64-byte burst (R412, R413): a read, or a write of its bytes from an offset. -/
structure DReq where
  port : Nat
  burst : Nat
  data : Option (Nat × List Byte)
  /-- The line port for which a real-time read prefetches. -/
  line : Nat
  /-- Elapsed time of its entry into a channel queue, and its place in the order of entry. -/
  at_ : Nat
  seq : Nat
  /-- The access of the client whose step runs (log entry 23). -/
  own : Bool
deriving DecidableEq, Repr

/-- Where a burst lies in its channel (R410). -/
structure DramPlace where
  sub : Nat
  rank : Nat
  group : Nat
  bank : Nat
  row : Nat
deriving DecidableEq, Repr

/-- The controller beside its registers: requests at the ports, in order of arrival; the channels' read and write queues, in order of
entry; whether a channel drains writes, 1, or drains them from a full queue in panic, 2 (R416, R427); the weighted round robin; what
the running step's own access got; bursts returned to clients, newest first, as (port, burst, bytes, poisoned); the device registers
written by the command engine; and what the engines run. -/
structure Drc where
  waiting : List DReq
  rq : SMap (List DReq)
  wq : SMap (List DReq)
  draining : SMap Nat
  /-- By channel: the port whose turn it is and the grants it has left. -/
  turn : SMap (Nat × Nat)
  seqs : Nat
  /-- Its bytes, and the 128-bit units of the burst that are poisoned, as four bits. -/
  got : Option (List Byte × Nat)
  returned : List (Nat × Nat × List Byte × Bool)
  /-- One more than the open row, by bank (R416). -/
  rows : SMap Nat
  /-- By 2 × channel + rank: refreshes made, the interval that MR4 indicates in ns (0 before the first reading), whether it indicates
  more than 85 °C, and the elapsed time at which the next refresh is due (R418). -/
  refreshes : SMap Nat
  refInt : SMap Nat
  hot : SMap Bool
  refDue : SMap Nat
  /-- The corrected-threshold source has been raised since _ECC was read, by channel (R423). -/
  thrDone : SMap Bool
  /-- Mode registers and RCD registers, by 2^20 × OP + 2^16 × channel + 2^15 × subchannel + 2^14 × rank + address. -/
  devRegs : SMap Byte
  /-- OP, channel, subchannel, rank, address and data of the running command (R425). -/
  mrw : Option (Nat × Nat × Nat × Nat × Nat × Nat)
  /-- The running training step. -/
  trn : Option Nat
  scrubPos : Nat
deriving DecidableEq, Repr

/-! ## Reset sequencer, watchdog and thermal logic (18), boot straps and fuses (19) -/

/-- A reset source (R466). Clocks: 0 SYSREF_CLK, 1–2 ETH_REFCLK[0–1], 3 PCIE_REFCLK, 4 PLL_P, 5 PLL_M, 6 PLL_G, 16 + n PLL_C[n]. -/
inductive RstSrc where
  | resetN
  | perst (h : Nat)
  | wdt
  | sw
  | dbg
  | clk (k : Nat)
  | lockup
deriving DecidableEq, Repr

/-- An asserted source: the domains requested (bits 1–6 as RST_DOM_STS, bit 8 WARM, bit 32 + n CL[n]), and for a pulse the PCLK edge
at which it ends. -/
structure RstHold where
  src : RstSrc
  req : Nat
  till : Option Nat
deriving DecidableEq, Repr

/-- A release event (R469, R470): the SYSREF_CLK edge that freed its domains, the domains still to be released (1–6, and 32 + n for
CL[n]), and the PCLK edge of its last release. -/
structure RelEvent where
  edge : Nat
  doms : List Nat
  last : Option Nat
deriving DecidableEq, Repr

/-- The watchdog's count (R476): off, running from a PCLK edge, or waiting for the domains its expiry reached. -/
inductive Wdt where
  | off
  | run (start : Nat)
  | waiting
deriving DecidableEq, Repr

/-- The always-on logic beside its registers. -/
structure Rst where
  /-- The AON domain is out of reset. -/
  aon : Bool
  holds : List RstHold
  events : List RelEvent
  wdt : Wdt
  /-- Since which PCLK edge a cluster's sensors have been at THROTTLE_C, or below THROTTLE_C − HYST_C, or its last step (R485). -/
  hotAt : SMap (Option Nat)
  coolAt : SMap (Option Nat)
  /-- The sensor that crossed ALARM_C first (R484). -/
  alarm : Option Nat
  /-- CLK_FAIL's clock and the LOCKUPs to raise at a release (R472). -/
  clkFail : Option Nat
  lockups : W32
  /-- The PCLK edge of each domain's last release plus one, by its bit of RST_DOM_STS: at that edge a field reads its Reset value (R10). -/
  upAt : SMap Nat
  /-- The CCLK step to which each cluster is stepping, plus one; 0 while no step is in progress (R481, R487). -/
  stepTo : SMap Nat
  /-- BOOT_MODE[1:0], and the fused key hash (R489, R497). -/
  strap : BitVec 2
  fuse : BitVec 384
deriving DecidableEq, Repr

/-! ## Edsen (20) and PIO (21) -/

/-- Edsen and the TAP beside their registers. -/
structure Dbg where
  /-- Trace records by 4,096 × buffer + index; buffers 0–31 the clusters, 32 MGT, 33 Orrery (R521–R523). -/
  trace : SMap W128
  /-- The challenge of the latest CHAL_GO while it has not been used, and the PCLK edge of its issue (R511). -/
  chal : Option (BitVec 256 × Nat)
  /-- Until which PCLK edge CHAL_GO is ignored. -/
  lockout : Option Nat
  /-- A verification that runs: the token's words, and the challenge if it still was good. -/
  verify : Option (List W32 × Option (BitVec 256))
  /-- The thread last named by DBG_THR_CTL.TID. -/
  named : Nat
  /-- The TAP's instruction register, the DBGACC data register as the next Capture-DR loads it, the boundary cells as last updated, and the
  levels that the last capture shifted out (R507, R508, R535). -/
  ir : BitVec 6
  acc : BitVec 96
  cells : BitVec 169
  scan : BitVec 169
deriving DecidableEq, Repr

/-- A transfer of the SPI controller or of I2C1: its control and address words and the bytes it sends. -/
structure Xfer where
  ctl : W32
  addr : W32
  out : List Byte
deriving DecidableEq, Repr

/-- PIO beside its registers: running transfers, transfers sent, newest first, the bytes of the last I2C0 transaction, and the levels
at the GPIO pins that the part does not drive. -/
structure Pio where
  spi : Option Xfer
  spiSent : List Xfer
  i2c1 : Option Xfer
  i2c1Sent : List Xfer
  i2c0 : List Byte
  gpioIn : W32
  /-- Levels of the time-compare outputs at the last PKT reset, which the pins hold until release (R536). -/
  tcmpHeld : BitVec 4
deriving DecidableEq, Repr

/-- Why the block stops: an error that the spec says the device does not check and whose result it calls unpredictable (R12). Each is safe:
the hardware goes on in a way that the spec does not state, and no statement says how. -/
inductive Fault where
  /-- A ring used outside R116 (doorbell index, register write under EN, LOCAL twice, VECTOR, descriptor field). Doorbells, ring
  registers, TX_PACKET_FETCH and RX_PACKET_DELIVER. -/
  | ringMisuse
  /-- Pools that overlap, or CRN_DRAM_CFG changed under an undrained DRAM pool (R137). POOL_ENABLE and the register's write. -/
  | cairnAreas
  /-- Block or hit-bit ranges of two enabled tables overlap (R188). TABLE_ENABLE. -/
  | tableAreas
  /-- A set bit in ORY_GRP_MEMBERS for an absent cluster (R255). GROUP_MEMBERSHIP_WRITE. -/
  | absentMember
  /-- A cluster reset by software while it is not drained (R295). SOFTWARE_RESET_REQUEST. -/
  | clusterNotDrained
  /-- A block reset while the block is not drained (R26). BLOCK_RESET. -/
  | blockNotDrained
  /-- A SPACE 0 write of `dma` into an area of Agate, Cairn or Orrery (R330). DMA. -/
  | dmaIntoClientArea
deriving DecidableEq, Repr

/-- Why a command has no meaning. No command of this model is refused. -/
inductive Refusal where
  /-- An arm of Dispatch that has no meaning yet; none is left. Safe. -/
  | notModelled (mnemonic : String)
deriving DecidableEq, Repr

/-- Everything the spec gives the SZ-1600, and the commands that wait. -/
structure State where
  /-- The commands that wait, first in, first out (the block's queue). -/
  pending : List Instr
  /-- The product variant, its stepping and the cluster mask that an SZ-1200L has fused (R1, R6, R30). -/
  variant : Variant
  stepping : Byte
  present : W32
  /-- Registers with a stored value, by `regKey`; an unlisted one holds its reset value (R10). -/
  regs : SMap W64
  /-- PCLK edges since AON came out of reset (log entry 6), draws of free values (log entry 2), and the data of the last read by a host. -/
  clk : Nat
  fresh : Nat
  rdata : W64
  /-- Sidereal and the epoch counters (02), the line ports (03), HIF (04), Cairn (05), the parser (06), Orrery (09), egress (14), the
  ICU (16), the checks of memories and hops (17), Agate (07, 08), the clusters and MGT (10, 11), the coprocessors (12) and Flint (13). -/
  tim : Tim
  lpt : SMap Port
  hif : Hif
  crn : Crn
  prs : Prs
  ory : Ory
  egr : Egr
  icu : Icu
  integ : Integ
  agt : Agt
  gar : Gar
  cpx : Cpx
  flt : Flt
  /-- MGT memory (R491). -/
  mgtMem : SMap Byte
  /-- DDR5 by address (R410), DRC (15), the always-on logic (18), Edsen (20) and PIO (21). -/
  dram : SMap Byte
  drc : Drc
  rst : Rst
  dbg : Dbg
  pio : Pio
deriving DecidableEq, Repr

/-! ## Reset (R465, R470) -/

def Tim.zero : Tim :=
  { nt := 0, elapsed := 0, seen := 0, ntHi := none, adj := none, holdIncr := 0, holdPps := 0, ppsHigh := false, ppsEnd := 0, ppsNext := 1000000000,
    tcmp := [], txts := [], cnt := [], entryCnt := [], flipAt := none, prevFlip := 0, flipLate := false }

def Hif.zero : Hif :=
  { fns := [], vfEn := [], numVfs := [], bifur := false, txDone := [], ctl := [], ctlDone := [], ctlNext := [], armAt := [], unread := [],
    txTurn := [], txDef := [], mem := [], sent := [], posted := [] }

def Crn.zero : Crn := { bytes := [], chains := [], cellReq := [], sweep := [] }

def Ory.zero : Ory :=
  { onchip := [], spill := [], tags := [], doms := [], ctx := [], turn := [], lastClu := [], dispAt := [], gets := [], refilled := 0,
    delayed := [], spillTail := [], uids := 0 }

def Egr.zero : Egr :=
  { queues := [], held := [], heldQ := [], bucket := [], deficit := [], turn := [], pauseEnd := [], tx := [], txOn := [], pf := [], pfLeft := [],
    wire := [], slots := [], mer := [] }

def Icu.zero : Icu := { out := [], flight := [], next := [], retEn := false, retOut := [], retNew := false }

def Integ.zero : Integ := { bad := [], nocFail := [], nocStuck := [], scrubMem := 0, scrubPos := 0 }

def Agt.zero : Agt :=
  { em := [], dir := [], lpm := [], hit := [], stash := [], fc := [], fcInv := [], listed := [], learnq := [], track := [], lookups := [],
    landed := [], ageDue := [], agePos := [], cursors := [], flushes := [] }

def Gar.zero : Gar :=
  { thr := [], lmem := [], smem := [], sbits := [], chan := [], transit := [], chq := [], faultq := [], wg := [], icache := [] }

def Drc.zero : Drc :=
  { waiting := [], rq := [], wq := [], draining := [], turn := [], seqs := 0, got := none, returned := [], rows := [], refreshes := [], refInt := [],
    hot := [], refDue := [], thrDone := [], devRegs := [], mrw := none, trn := none, scrubPos := 0 }

def Rst.zero : Rst :=
  { aon := true, holds := [], events := [⟨0, [1, 2, 4, 5, 6] ++ (List.range 32).map (32 + ·), none⟩], wdt := .off, hotAt := [], coolAt := [],
    alarm := none, clkFail := none, lockups := 0, upAt := [], stepTo := [], strap := 0, fuse := Config.fuseHash }

def Dbg.zero : Dbg :=
  { trace := [], chal := none, lockout := none, verify := none, named := 0, ir := 0x3F, acc := 0, cells := 0, scan := 0 }

def Pio.zero : Pio := { spi := none, spiSent := [], i2c1 := none, i2c1Sent := [], i2c0 := [], gpioIn := 0, tcmpHeld := 0 }

/-- The machine at the release of the AON domain after power-on (R470): an SZ-1600A of stepping A0 with every cluster present, every other
domain in reset and free, every register at its reset value, and nothing in any memory (log entries 1, 3, 4). -/
def State.reset : State :=
  { pending := [], variant := .a1600, stepping := 0, present := 0xFFFFFFFF, regs := [], clk := 0, fresh := 0, rdata := 0, tim := Tim.zero,
    lpt := [], hif := Hif.zero, crn := Crn.zero, prs := { win := [], waiting := [], joint := false }, ory := Ory.zero, egr := Egr.zero,
    icu := Icu.zero, integ := Integ.zero, agt := Agt.zero, gar := Gar.zero, cpx := { lane := [], queue := [], slot := [], kbuf := [], due := [] },
    flt := { lock := [], sem := [], regs := [] }, mgtMem := [], dram := [], drc := Drc.zero, rst := Rst.zero, dbg := Dbg.zero,
    pio := Pio.zero }

end Sys2Proof.Machine
end

