-- ==== Sys2Proof/Machine/Ops.lean ====
section
/-!
DEFINITION. The named operations every family shares: sparse maps, registers and their fields, network time as consumers read
it, counting, and bytes.
-/

namespace Sys2Proof.Machine

/-! ## Sparse maps -/

/-- What key `k` holds; `d` says what an unlisted key reads as. -/
def mget {α : Type} (d : Nat → α) : SMap α → Nat → α
  | [], k => d k
  | (k', v) :: r, k => if k = k' then v else mget d r k

/-- Key `k` set to `v`, in canonical form: the value an unlisted key reads as removes the entry. -/
def mset {α : Type} [DecidableEq α] (d : Nat → α) : SMap α → Nat → α → SMap α
  | [], k, v => if v = d k then [] else [(k, v)]
  | (k', v') :: r, k, v =>
    if k < k' then (if v = d k then (k', v') :: r else (k, v) :: (k', v') :: r)
    else if k = k' then (if v = d k then r else (k, v) :: r)
    else (k', v') :: mset d r k v

/-- The canonical form: keys rise strictly above `b` and no entry holds what an unlisted key reads as. -/
def mwfFrom {α : Type} [DecidableEq α] (d : Nat → α) : Nat → SMap α → Bool
  | _, [] => true
  | b, (k, v) :: r => decide (b ≤ k) && !decide (v = d k) && mwfFrom d (k + 1) r

/-- The canonical form of a map. -/
def mwf {α : Type} [DecidableEq α] (d : Nat → α) (m : SMap α) : Bool := mwfFrom d 0 m

/-- The entries whose key passes `p`: the map with every other key back at what it reads as unlisted. -/
def mkeep {α : Type} (p : Nat → Bool) (m : SMap α) : SMap α := m.filter (fun e => p e.1)

/-- Unlisted bytes read 0 (log entry 3). -/
def zeroByte : Nat → Byte := fun _ => 0

/-! ## Bits and bytes -/

/-- Bits [hi:lo] of a word as a number. -/
def bits (w : Nat) (hi lo : Nat) : Nat := (w >>> lo) % 2 ^ (hi + 1 - lo)

/-- The number `w` with bits [hi:lo] replaced by `v`. -/
def setBits (w : Nat) (hi lo v : Nat) : Nat :=
  w - (bits w hi lo) * 2 ^ lo + (v % 2 ^ (hi + 1 - lo)) * 2 ^ lo

/-- Bit `i` of a number. -/
def bitOf (w i : Nat) : Bool := (w >>> i) % 2 = 1

/-- The number with bit `i` set or cleared. -/
def putBit (w i : Nat) (b : Bool) : Nat := setBits w i i (if b then 1 else 0)

/-- A truth value as a bit. -/
def b2n (b : Bool) : Nat := if b then 1 else 0

/-- The `n` bytes of a number, least significant first. -/
def leBytes (n v : Nat) : List Byte := (List.range n).map (fun i => BitVec.ofNat 8 (v >>> (8 * i)))

/-- The `n` bytes of a number, most significant first. -/
def beBytes (n v : Nat) : List Byte := (leBytes n v).reverse

/-- The number whose bytes, least significant first, are given. -/
def leNat : List Byte → Nat
  | [] => 0
  | b :: r => b.toNat + 256 * leNat r

/-- The number whose bytes, most significant first, are given. -/
def beNat (l : List Byte) : Nat := leNat l.reverse

/-- Bytes `a` to `a + n − 1` of a byte memory. -/
def rdBytes (m : SMap Byte) (a n : Nat) : List Byte := (List.range n).map (fun i => mget zeroByte m (a + i))

/-- Bytes written from `a` upward. -/
def wrBytes (m : SMap Byte) : Nat → List Byte → SMap Byte
  | _, [] => m
  | a, b :: r => wrBytes (mset zeroByte m a b) (a + 1) r

/-- Word `i` of a work item (R155). -/
def itemWord (it : Item) (i : Nat) : Nat := bits it.toNat (32 * i + 31) (32 * i)

/-- The item with word `i` replaced. -/
def setItemWord (it : Item) (i v : Nat) : Item := BitVec.ofNat 512 (setBits it.toNat (32 * i + 31) (32 * i) v)

/-- The 64 bytes of an item, and an item of 64 bytes. -/
def itemBytes (it : Item) : List Byte := leBytes 64 it.toNat
def itemOfBytes (l : List Byte) : Item := BitVec.ofNat 512 (leNat (l.take 64))

/-- `x` kept within [lo, hi]. -/
def clamp (lo hi x : Nat) : Nat := if x < lo then lo else if hi < x then hi else x

/-- Addition that saturates at `top`. -/
def satAdd (top x y : Nat) : Nat := if x + y ≤ top then x + y else top

/-- `f` applied for each element, in order. -/
def foldS {α : Type} (l : List α) (f : State → α → State) (s : State) : State := l.foldl f s

/-- `x` put into a list sorted by `le`, after the elements that are no greater. -/
def insertBy {α : Type} (le : α → α → Bool) (x : α) : List α → List α
  | [] => [x]
  | y :: r => if le y x then y :: insertBy le x r else x :: y :: r

/-- A stable sort by `le`. -/
def sortBy {α : Type} (le : α → α → Bool) (l : List α) : List α := l.foldl (fun r x => insertBy le x r) []

/-! ## Registers -/

/-- The code of a register kind with an index. -/
def regKey (r : RegName) (i : Nat) : Nat := r.ctorIdx * 2 ^ 24 + i

/-- The register kind of a code. -/
def regOfKey (k : Nat) : Option RegName := regNames[k / 2 ^ 24]?

/-- The reset value that a field table gives (R10). -/
def rowsReset : List FldRow → Nat
  | [] => 0
  | r :: t => r.rst * 2 ^ r.fld.lo + rowsReset t

/-- What an unlisted register holds: its reset value. -/
def regReset (k : Nat) : W64 :=
  match regOfKey k with
  | some r => BitVec.ofNat 64 (rowsReset (regDesc r).rows)
  | none => 0

/-- The stored contents of register `r`, instance `i`. -/
def State.reg (s : State) (r : RegName) (i : Nat) : Nat := (mget regReset s.regs (regKey r i)).toNat

/-- Register `r`, instance `i`, set to `v`. -/
def State.setReg (s : State) (r : RegName) (i v : Nat) : State :=
  { s with regs := mset regReset s.regs (regKey r i) (BitVec.ofNat 64 v) }

/-- Field `f` of instance `i`. -/
def State.fld (s : State) (f : Fld) (i : Nat) : Nat := bits (s.reg f.reg i) f.hi f.lo

/-- Field `f` of instance `i` set to `v`. -/
def State.setFld (s : State) (f : Fld) (i v : Nat) : State := s.setReg f.reg i (setBits (s.reg f.reg i) f.hi f.lo v)

/-- A one-bit field. -/
def State.flag (s : State) (f : Fld) (i : Nat) : Bool := s.fld f i ≠ 0

/-- A one-bit field set or cleared. -/
def State.setFlag (s : State) (f : Fld) (i : Nat) (b : Bool) : State := s.setFld f i (b2n b)

/-- A counting field that saturates at its largest value. -/
def State.bump (s : State) (f : Fld) (i n : Nat) : State :=
  s.setFld f i (satAdd (2 ^ (f.hi + 1 - f.lo) - 1) (s.fld f i) n)

/-- A counting field that wraps. -/
def State.wrapAdd (s : State) (f : Fld) (i n : Nat) : State := s.setFld f i (s.fld f i + n)

/-! ## Presence and reset domains -/

/-- The set bits of a 32-bit mask, counted. -/
def maskCount (m : W32) : Nat := ((List.range 32).filter (fun n => m.getLsbD n)).length

/-- GLB_CLUSTER_PRESENT (R6): every cluster, and on the SZ-1200L the fused mask, which has exactly 24 set bits (log entry 1). -/
def presentMask (s : State) : W32 :=
  if s.variant = .l1200 then (if maskCount s.present = 24 then s.present else 0x00FFFFFF) else 0xFFFFFFFF

/-- Cluster `n` is present (R6). -/
def clusterPresent (s : State) (n : Nat) : Bool := n < 32 && (presentMask s).getLsbD n

/-- Lane quads, line lanes and DDR5 channels present (R1, R3). -/
def quadPresent (s : State) (q : Nat) : Bool := q < 4 && !(s.variant == .l1200 && q == 3)
def lanePresent (s : State) (p : Nat) : Bool := quadPresent s (p / 4)
def channelPresent (s : State) (c : Nat) : Bool := c < (if s.variant = .l1200 then 4 else 6)

/-- Coprocessor unit `u` of a cluster: 0 is CPX-C, which only the SZ-1600A has; 1 is CPX-H (R1, R362). -/
def unitPresent (s : State) (u : Nat) : Bool := if u = 0 then s.variant == .a1600 else u == 1

/-- A reset domain is out of reset (R465): RST_DOM_STS holds a 1 for each domain in reset. -/
def pktUp (s : State) : Bool := !s.flag F.RST_DOM_STS_PKT 0
def lineUp (s : State) : Bool := !s.flag F.RST_DOM_STS_LINE 0
def memUp (s : State) : Bool := !s.flag F.RST_DOM_STS_MEM 0
def mgtUp (s : State) : Bool := !s.flag F.RST_DOM_STS_MGT 0
def hostUp (s : State) (h : Nat) : Bool := if h = 0 then !s.flag F.RST_DOM_STS_HOST0 0 else !s.flag F.RST_DOM_STS_HOST1 0
def clUp (s : State) (n : Nat) : Bool := clusterPresent s n && !bitOf (s.reg .RST_DOM_STS_CL 0) n

/-! ## Network time and elapsed time -/

/-- NT64 as every local view shows it (R34, R37; log entry 5). -/
def nt64 (s : State) : Nat := s.tim.nt.toNat / 2 ^ 32

/-- A 32-bit receive timestamp turned back into NT64: the largest value not past the local view with these low bits (R157). Below 2^32 ns there
may be none: the field itself is taken then (DESIGN CHOICE, log entry 55). -/
def rebuildNt (s : State) (low : Nat) : Nat :=
  let n := nt64 s
  let c := n / 2 ^ 32 * 2 ^ 32 + low
  if c ≤ n then c else if 2 ^ 32 ≤ c then c - 2 ^ 32 else c

/-! ## Free choices -/

/-- One of `n` candidates, by a free value (Config.pick). -/
def draw (s : State) (n : Nat) : Nat × State := (Config.pick s.fresh % n, { s with fresh := s.fresh + 1 })

/-- A free 64-bit value (Config.value). -/
def drawValue (s : State) : W64 × State := (Config.value s.fresh, { s with fresh := s.fresh + 1 })

/-- The `i`-th number from `base` upward that is not in the rising list `used`. -/
def nthFree : List Nat → Nat → Nat
  | [], c => c
  | u :: r, c => if u ≤ c then nthFree r (c + 1) else nthFree r c

def noNat : Nat → Nat := fun _ => 0

/-! ## Check units of the memories (R445, R447, R448, R463) -/

/-- The code of a check unit of memory `m`. -/
def badKey (m unit : Nat) : Nat := m * 2 ^ 64 + unit

/-- 0 good, 1 correctable, 2 uncorrectable (poisoned). -/
def unitErr (s : State) (m unit : Nat) : Nat := mget noNat s.integ.bad (badKey m unit)
def setUnitErr (s : State) (m unit v : Nat) : State :=
  { s with integ := { s.integ with bad := mset noNat s.integ.bad (badKey m unit) v } }

/-- Memories protected by parity, where BITS is ignored (R463). -/
def isParityMem (m : Nat) : Bool := m = 4 || (5 ≤ m && m ≤ 9) || m = 12

/-- The size of a check unit in the addressing of RST_EINJ_ADDR (R463): bytes for memories addressed by byte, 1 for those
addressed by entry. -/
def unitGrain (m : Nat) : Nat :=
  if m = 0 then 16 else if m = 1 then 128 else if m = 2 || m = 3 then 4 else if m = 13 then 64 else 1

/-- The armed injection acts on a write to this check unit (R463): the memory, the cluster where the memory has one, and the
unit's address divided by its size. It waits for the unparking of a parked cluster (R464). -/
def injects (s : State) (m cluster unit : Nat) : Bool :=
  s.flag F.RST_EINJ_CTL_ARM 0 && s.fld F.RST_EINJ_CTL_TARGET 0 == m &&
  (!(m = 2 || m = 3 || m = 4 || m = 5 || m = 9) || (s.fld F.RST_EINJ_CTL_CLUSTER 0 == cluster && !s.flag F.RST_CLU_CLK_PARKED cluster)) &&
  (!s.flag F.RST_EINJ_CTL_MATCH 0 || s.reg .RST_EINJ_ADDR 0 / unitGrain m == unit)

/-- What a write to check unit `unit` does to its check bits: `whole` says that the write replaces the unit. `addr` is the unit
as RST_EINJ_ADDR names it (R447, R448, R463). -/
def noteWrite (s : State) (m cluster unit addr : Nat) (whole : Bool) : State :=
  let u := if whole then setUnitErr s m unit 0 else s
  if injects u m cluster addr then
    let v := if isParityMem m then 2 else if u.fld F.RST_EINJ_CTL_BITS 0 = 0 then 1 else 2
    ((setUnitErr u m unit (max v (unitErr u m unit))).setFlag F.RST_EINJ_CTL_ARM 0 false).setFlag F.RST_EINJ_CTL_DONE 0 true
  else u

/-- Check units of memory 11: an item's slot by the item, and beyond 2^48 the entries of the other arrays (R445). The spec numbers the arrays
nowhere: 1 tags, 2 gate store by tag, 3 egress queues, 4 ring state by 8,192 × kind + ring, 5 locks, 6 semaphores, 7 interrupt sources
(DESIGN CHOICE, log entry 61). -/
def arrUnit (a i : Nat) : Nat := a * 2 ^ 48 + i

/-- An entry of a state array is changed: what is wrong with it stays until it is read. -/
def arrWrite (s : State) (a i : Nat) : State := noteWrite s 11 0 (arrUnit a i) i false

/-! ## Counting (R52, R53) -/

def noBank : Bank := ⟨0, 0, false⟩
def noSet : Nat → CntSet := fun _ => ⟨noBank, noBank, false⟩

/-- A bank with events and bytes added, modulo 2^64. -/
def bankAdd (b : Bank) (pk by_ : Nat) : Bank :=
  { b with pkts := b.pkts + BitVec.ofNat 64 pk, bytes := b.bytes + BitVec.ofNat 64 by_ }

/-- A set with an increment in its live bank; increments of an invalid set are lost (R452). -/
def setAdd (liveB : Bool) (c : CntSet) (pk by_ : Nat) : CntSet :=
  if c.bad then c else if liveB then { c with b := bankAdd c.b pk by_ } else { c with a := bankAdd c.a pk by_ }

end Sys2Proof.Machine
end

