-- ==== Sys2Proof/Machine/Signal.lean ====
section
/-!
DEFINITION. How the device tells software: functions and MSI-X (R88, R90, R554), interrupt sources and their delivery
(R429–R444), completion and event-log rings (R104–R106, R111) and the records that go to them (R457–R461).
-/

namespace Sys2Proof.Machine

/-! ## Functions and MSI-X messages -/

/-- A function as PCI Express resets it: Device Control with Relaxed Ordering and No Snoop enabled, payloads of 128 and reads of 512 bytes
(log entry 50). -/
def noFn : Nat → Fn := fun _ => ⟨false, false, false, false, false, [], [], 0x2810, 0⟩
def noBool : Nat → Bool := fun _ => false

/-- A vector table word unlisted: the vector-control word resets with its mask bit set, as PCI Express gives (R90; log entry 12). -/
def vtabReset (k : Nat) : W32 := if k % 4 = 3 then 1 else 0

def fnOf (s : State) (f : Nat) : Fn := mget noFn s.hif.fns f
def setFn (s : State) (f : Nat) (x : Fn) : State := { s with hif := { s.hif with fns := mset noFn s.hif.fns f x } }

/-- The link of a function number (R88). -/
def fnLink (f : Nat) : Nat := f / 256

/-- The VF number of an FN, 0 for PF0 and PF1. -/
def vfNum (f : Nat) : Nat := f % 256 - 1

/-- The layout in force defines a function number (R86, R88). -/
def fnInLayout (s : State) (f : Nat) : Bool :=
  if fnLink f = 0 then (if s.hif.bifur then f % 256 ≤ 127 else true) else fnLink f = 1 && s.hif.bifur && f % 256 ≤ 127

/-- A function exists (R554): the layout in force defines its FN, and a VF needs VF Enable and NumVFs. -/
def fnExists (s : State) (f : Nat) : Bool :=
  fnInLayout s f && (f % 256 ≤ 1 || (mget noBool s.hif.vfEn (fnLink f) && vfNum f ≤ mget noNat s.hif.numVfs (fnLink f)))

/-- The configuration space and the BARs of a function answer. -/
def fnUp (s : State) (f : Nat) : Bool := s.rst.aon && fnExists s f && s.flag F.HIF_LINK_STS_DL_UP (fnLink f)

/-- Enable Relaxed Ordering of a function; PF0's holds for its VFs (R103; log entry 50). -/
def fnRelaxed (s : State) (f : Nat) : Bool := (fnOf s (if f % 256 ≤ 1 then f else 256 * fnLink f)).devctl.getLsbD 4

/-- The data link layer of link `h` is up (R554). -/
def linkUp (s : State) (h : Nat) : Bool := s.flag F.HIF_LINK_STS_DL_UP h

/-- The function can issue DMA now (R115, R554). -/
def fnCanDma (s : State) (f : Nat) : Bool :=
  fnExists s f && linkUp s (fnLink f) && (fnOf s f).bme && !(fnOf s f).d3 && !(fnOf s f).flr

/-- The function can send a message on a vector now (R90). -/
def fnCanMsg (s : State) (f v : Nat) : Bool :=
  fnCanDma s f && (fnOf s f).msixEn && !(fnOf s f).fmask && !(mget vtabReset (fnOf s f).vtab (4 * v + 3)).getLsbD 0

/-- One MSI-X message: sent, or held as pending (R90). -/
def sendMsg (s : State) (f v : Nat) : State :=
  if fnCanMsg s f v then { s with hif := { s.hif with sent := (f, v) :: s.hif.sent } }
  else if fnExists s f && !(fnOf s f).flr then
    let x := fnOf s f
    setFn s f { x with pba := mset noBool x.pba v true }
  else s

/-- Host memory as function `f` sees it. -/
def hostKey (f a : Nat) : Nat := f * 2 ^ 64 + a % 2 ^ 64

/-- A memory write of function `f`, which may carry Relaxed Ordering: it lands only while the function can issue DMA. -/
def hostPost (s : State) (f a : Nat) (bs : List Byte) (relaxed : Bool) : State :=
  if fnCanDma s f then
    { s with hif := { s.hif with mem := wrBytes s.hif.mem (hostKey f a) bs, posted := ⟨f, a % 2 ^ 64, bs.length, relaxed⟩ :: s.hif.posted } }
  else s

/-- A DMA write that never carries Relaxed Ordering: completion entries and records (R103). -/
def hostWrite (s : State) (f a : Nat) (bs : List Byte) : State := hostPost s f a bs false

/-- A write of packet data, which carries it as the function's configuration says (R103). -/
def hostData (s : State) (f a : Nat) (bs : List Byte) : State := hostPost s f a bs (fnRelaxed s f)

/-! ## Interrupt sources -/

/-- A LEVEL source (R430). -/
def isLevel (i : Nat) : Bool := (16 ≤ i && i ≤ 31) || (96 ≤ i && i ≤ 127) || i == 171

/-- A source that the table of R430 lists. -/
def isListed (i : Nat) : Bool := i ≤ 38 || (64 ≤ i && i ≤ 172) || i == 176 || (512 ≤ i && i ≤ 1022)

/-- The bits of word `j` of a set of sources that name listed sources: the others read 0 in every register (R430). -/
def listedMask (j : Nat) : Nat := (List.range 32).foldl (fun m b => if isListed (32 * j + b) then m + 2 ^ b else m) 0

/-- A source whose port or cluster is present; sources of absent ones never become pending (R430). -/
def srcPresent (s : State) (i : Nat) : Bool :=
  isListed i &&
  (if i < 16 then lanePresent s i else if i < 32 then lanePresent s (i - 16)
   else if 64 ≤ i && i ≤ 159 then clusterPresent s (i % 32) else true)

def srcPending (s : State) (i : Nat) : Bool := bitOf (s.reg .ICU_PEND_SET (i / 32)) (i % 32)
def srcMasked (s : State) (i : Nat) : Bool := bitOf (s.reg .ICU_MASK_SET (i / 32)) (i % 32)
def setPending (s : State) (i : Nat) (b : Bool) : State :=
  arrWrite (s.setReg .ICU_PEND_SET (i / 32) (putBit (s.reg .ICU_PEND_SET (i / 32)) (i % 32) b)) 7 i
def setMasked (s : State) (i : Nat) (b : Bool) : State :=
  s.setReg .ICU_MASK_SET (i / 32) (putBit (s.reg .ICU_MASK_SET (i / 32)) (i % 32) b)

def noTgt : Nat → Option Nat := fun _ => none

/-- The retention copy holds target 32 (R440). -/
def icuSaved (s : State) : Bool := s.flag F.ICU_RET_STS_SAVED 0

/-- The target at which a source is outstanding; target 32 is in the retention copy while MGT sleeps (R435, R440). -/
def outAt (s : State) (i : Nat) : Option Nat :=
  match mget noTgt s.icu.out i with
  | some t => some t
  | none => if icuSaved s && s.icu.retOut.contains i then some 32 else none

/-- Sources outstanding at `t`. -/
def outSet (s : State) (t : Nat) : List Nat :=
  if t = 32 && icuSaved s then s.icu.retOut else (s.icu.out.filter (fun e => e.2 == some t)).map (·.1)

/-- The source made outstanding at `t`. -/
def addOut (s : State) (i t : Nat) : State :=
  if t = 32 && icuSaved s then { s with icu := { s.icu with retOut := s.icu.retOut ++ [i], retNew := true } }
  else { s with icu := { s.icu with out := mset noTgt s.icu.out i (some t) } }

/-- The source removed from whichever outstanding set holds it (R437, R438). -/
def dropOut (s : State) (i : Nat) : State :=
  { s with icu := { s.icu with out := mset noTgt s.icu.out i none, retOut := s.icu.retOut.filter (· ≠ i) } }

/-- A target is available (R433). -/
def tgtAvail (s : State) (t : Nat) : Bool :=
  let en := if t = 32 && icuSaved s then s.icu.retEn else s.flag F.ICU_TGT_CFG_EN t
  let f := s.fld F.ICU_TGT_CFG_FN t
  en && (if t < 32 then clUp s t
         else if t = 32 then mgtUp s
         else t ≤ 96 && fnExists s f && linkUp s (fnLink f) && !(fnOf s f).flr && (fnOf s f).msixEn && (fnOf s f).bme)

/-- Route entry `e` of a source: whether it is enabled, and its target (R434). -/
def routeEn (s : State) (i e : Nat) : Bool := bitOf (s.reg .ICU_ROUTE i) (56 + e)
def routeTgt (s : State) (i e : Nat) : Nat := bits (s.reg .ICU_ROUTE i) (7 * e + 6) (7 * e)

/-- The source is deliverable (R434). -/
def deliverable (s : State) (i : Nat) : Bool :=
  i < 1023 && srcPending s i && !srcMasked s i && (outAt s i).isNone && !(s.icu.flight.any (·.src == i))

/-- The entry chosen for a source: the first available one from the entry after the last choice, with wrap (R434). -/
def routeChoice (s : State) (i : Nat) : Option Nat :=
  let from_ := mget noNat s.icu.next i
  ((List.range 8).map (fun k => (from_ + k) % 8)).find? (fun e => routeEn s i e && tgtAvail s (routeTgt s i e))

/-- A raise (R431): the pending bit sets and the detail word is latched. -/
def raiseSrc (s : State) (i detail : Nat) : State :=
  if pktUp s && srcPresent s i then (setPending s i true).setReg .ICU_DETAIL i detail else s

/-- A LEVEL source follows its condition (R431); a fall withdraws it (R438). -/
def levelSrc (s : State) (i : Nat) (cond : Bool) (detail : Nat) : State :=
  if !(pktUp s && srcPresent s i) then s
  else if cond then (if srcPending s i then s else (setPending s i true).setReg .ICU_DETAIL i detail)
  else dropOut (setPending s i false) i

/-- The route entry that a source's last choice took (R434). -/
def routeLast (s : State) (i : Nat) : Nat := (mget noNat s.icu.next i + 7) % 8

/-- The choice of `t` for a source stands: the target is available, and the entry that gave it is enabled (R438). What has been written to
the entry's target since then counts from the next choice (R434). -/
def routeHolds (s : State) (i t : Nat) : Bool := tgtAvail s t && routeEn s i (routeLast s i)

/-- Outstanding sources whose target is no longer available or whose route entry is disabled are withdrawn (R438). -/
def icuSync (s : State) : State :=
  foldS (s.icu.out.map (·.1) ++ s.icu.retOut) (fun u i =>
    match outAt u i with
    | none => u
    | some t =>
      if routeHolds u i t then u else dropOut u i) s

/-- A claim of source `i` at target `t` (R437): the number read, and the state after it. -/
def claimSrc (s : State) (t i : Nat) : Nat × State :=
  if i < 1023 && outAt s i == some t && srcPending s i then
    (i, let u := dropOut s i; if isLevel i then u else setPending u i false)
  else (1023, s)

/-- A delivery of a chosen source completes (R435, R436, R439). A source whose pending bit has fallen, or whose target or route
entry has gone, is withdrawn instead (R438; log entry 13). -/
def completeFlight (s : State) (x : Flight) : State :=
  let u := { s with icu := { s.icu with flight := s.icu.flight.filter (·.src ≠ x.src) } }
  if srcPending u x.src && routeHolds u x.src x.tgt then
    let was := outSet u x.tgt
    let v := addOut u x.src x.tgt
    if 33 ≤ x.tgt && was.isEmpty then
      sendMsg v (v.fld F.ICU_TGT_CFG_FN x.tgt) (v.fld F.ICU_TGT_CFG_VECTOR x.tgt)
    else v
  else u

/-! ## Rings that the device writes -/

/-- Ring entries: SIZE_LOG2 from 6 to 16, other values act as 6 (R91). -/
def ringSize (lg : Nat) : Nat := 2 ^ (if 6 ≤ lg && lg ≤ 16 then lg else 6)

/-- Entries between consumer and producer, modulo 2 × size (R91). -/
def ringUsed (size prod cons : Nat) : Nat := (prod + 2 * size - cons) % (2 * size)

/-- PHASE of an entry written at producer index `prod` (R104). -/
def ringPhase (size prod : Nat) : Nat := if prod / size = 0 then 1 else 0

def noList : Nat → List Nat := fun _ => []

/-- Eight words as the bytes of one 32-byte entry, with PHASE in word 7 [31] (R104). -/
def entryBytes (ws : List Nat) (phase : Nat) : List Byte :=
  leBytes 32 (ws.foldr (fun w a => w % 2 ^ 32 + 2 ^ 32 * a) 0 + phase * 2 ^ 255)

/-- Unread entries of completion ring `c`. -/
def cqSize (s : State) (c : Nat) : Nat := ringSize (s.fld F.HIF_CQ_CFG_SIZE_LOG2 c)
def cqUnread (s : State) (c : Nat) : Nat := ringUsed (cqSize s c) (s.fld F.HIF_CQ_STS_PROD c) (s.fld F.HIF_CQ_CONS_CONS c)

/-- Completion ring `c` can take an entry: enabled, not full, its function able to write (R106, R115, R117). -/
def cqReady (s : State) (c : Nat) : Bool :=
  s.flag F.HIF_CQ_CFG_EN c && cqUnread s c < cqSize s c && fnCanDma s (s.fld F.HIF_CQ_CFG_FN c)

/-- The message condition of an armed completion ring (R105). -/
def cqDue (s : State) (c : Nat) : Bool :=
  let cnt := s.fld F.HIF_CQ_CFG2_MOD_CNT c
  let ns := s.fld F.HIF_CQ_CFG3_MOD_NS c
  let since := match mget noList s.hif.unread c with
    | [] => s.tim.elapsed
    | t :: _ => max t (mget noNat s.hif.armAt c)
  0 < cqUnread s c &&
    ((if cnt = 0 then 1 else cnt) ≤ cqUnread s c || (ns ≠ 0 && ns * 2 ^ 32 ≤ s.tim.elapsed - since))

/-- An armed completion ring that is due sends its message and disarms (R105). -/
def cqModerate (s : State) (c : Nat) : State :=
  if s.flag F.HIF_CQ_STS_ARMED c && cqDue s c then
    sendMsg (s.setFlag F.HIF_CQ_STS_ARMED c false) (s.fld F.HIF_CQ_CFG_FN c) (s.fld F.HIF_CQ_CFG2_VECTOR c)
  else s

/-- STALL of a completion ring: it is full (R106). -/
def cqStall (s : State) (c : Nat) : State := s.setFlag F.HIF_CQ_STS_STALL c (decide (cqUnread s c = cqSize s c))

/-- One completion entry written to ring `c` (R104, R105); a full ring takes nothing (R106). -/
def cqPush (s : State) (c : Nat) (ws : List Nat) : State :=
  if cqReady s c then
    let size := cqSize s c
    let p := s.fld F.HIF_CQ_STS_PROD c
    let a := s.fld F.HIF_CQ_BASE_ADDR c * 4096 + 32 * (p % size)
    let u := hostWrite s (s.fld F.HIF_CQ_CFG_FN c) a (entryBytes ws (ringPhase size p))
    let v := cqStall (u.setFld F.HIF_CQ_STS_PROD c ((p + 1) % (2 * size))) c
    cqModerate { v with hif := { v.hif with unread := mset noList v.hif.unread c (mget noList v.hif.unread c ++ [v.tim.elapsed]) } } c
  else cqStall s c

def evSize (s : State) (e : Nat) : Nat := ringSize (s.fld F.HIF_EVR_CFG_SIZE_LOG2 e)
def evUnread (s : State) (e : Nat) : Nat := ringUsed (evSize s e) (s.fld F.HIF_EVR_STS_PROD e) (s.fld F.HIF_EVR_CONS_CONS e)

/-- An armed event-log ring with an unread record sends its message and disarms (R105). -/
def evModerate (s : State) (e : Nat) : State :=
  if s.flag F.HIF_EVR_STS_ARMED e && 0 < evUnread s e then
    sendMsg (s.setFlag F.HIF_EVR_STS_ARMED e false) (s.fld F.HIF_EVR_CFG_FN e) (s.fld F.HIF_EVR_CFG2_VECTOR e)
  else s

/-- A record offered to event-log ring `e`: the state after it and whether the ring took it (R111). -/
def evPush (s : State) (e cls : Nat) (ws : List Nat) : State × Bool :=
  if !(s.flag F.HIF_EVR_CFG_EN e && bitOf (s.reg .HIF_EVR_CLASS e) cls) then (s, false)
  else if evUnread s e < evSize s e && fnCanDma s (s.fld F.HIF_EVR_CFG_FN e) then
    let size := evSize s e
    let p := s.fld F.HIF_EVR_STS_PROD e
    let a := s.fld F.HIF_EVR_BASE_ADDR e * 4096 + 32 * (p % size)
    let u := hostWrite s (s.fld F.HIF_EVR_CFG_FN e) a (entryBytes ws (ringPhase size p))
    (evModerate (u.setFld F.HIF_EVR_STS_PROD e ((p + 1) % (2 * size))) e, true)
  else (s.bump F.HIF_EVR_LOST_LOST e 1, false)

/-! ## Error and event records (R457–R461) -/

/-- One record made and offered to every event-log ring: `err` marks an error record, which carries GLB_ASSIGNED_ID. -/
def logRecord (s : State) (cls code sev : Nat) (err : Bool) (d0 d1 d23 : Nat) : State :=
  if !pktUp s then s else
  let seq := s.fld F.RST_ELOG_SEQ_NEXT 0
  let w23 := if err then s.reg .GLB_ASSIGNED_ID 0 else d23
  let w7 := b2n err * 2 ^ 30 + sev * 2 ^ 28 + cls * 2 ^ 23 + code * 2 ^ 15
  let ws := [d0, d1, w23 % 2 ^ 32, w23 / 2 ^ 32, nt64 s % 2 ^ 32, nt64 s / 2 ^ 32, seq, w7]
  let u := (s.setFld F.RST_ELOG_SEQ_NEXT 0 (seq + 1)).bump F.RST_ELOG_CNT_MADE cls 1
  let r := (List.range 16).foldl (fun (x : State × Bool) e => let y := evPush x.1 e cls ws; (y.1, x.2 || y.2)) (u, false)
  if r.2 then r.1 else r.1.bump F.RST_ELOG_CNT_UNTAKEN cls 1

/-- An error record (R459). -/
def errRecord (s : State) (cls code sev d0 d1 : Nat) : State := logRecord s cls code sev true d0 d1 0

/-- An event record (R460). -/
def eventRecord (s : State) (cls code d0 d1 d23 : Nat) : State := logRecord s cls code 0 false d0 d1 d23

/-- A correctable error of memory `m` is counted and, while CE_REC is set, recorded (R446). -/
def noteCe (s : State) (m cls code d0 d1 : Nat) : State :=
  let u := s.bump F.RST_ERR_CNT_CE m 1
  if u.flag F.RST_ELOG_CFG_CE_REC 0 then errRecord u cls code 1 d0 d1 else u

/-- An uncorrectable or parity error of memory `m` is counted and recorded. -/
def noteUe (s : State) (m cls code sev d0 d1 : Nat) : State :=
  errRecord (s.bump F.RST_ERR_CNT_UE m 1) cls code sev d0 d1

/-- A loss of an entry of a state array: STATE_UE and STATE_LOST (R452). The spec gives the record's array and entry no numbers: they are
free. -/
def noteStateLost (s : State) : State :=
  let (v, u) := drawValue s
  (noteUe u 11 12 2 3 (v.toNat % 2 ^ 8) (v.toNat / 2 ^ 32)).setFlag F.RST_ELOG_STS_STATE_LOST 0 true

/-- Entry `i` of state array `a` is read: a correctable error is corrected and counted, and an uncorrectable one loses the entry, as `lose`
says (R446, R452). -/
def arrProbe (s : State) (a i : Nat) (lose : State → State) : State :=
  let e := unitErr s 11 (arrUnit a i)
  if e = 0 then s
  else if e = 1 then (setUnitErr s 11 (arrUnit a i) 0).bump F.RST_ERR_CNT_CE 11 1
  else lose (noteStateLost (setUnitErr s 11 (arrUnit a i) 0))

/-! ## Counting (R52, R53, R446, R452) -/

/-- What a read of on-chip set `k` finds in its check bits: a correctable error is corrected and counted, and an uncorrectable one makes the set
invalid. -/
def countProbe (s : State) (k : Nat) : State :=
  let e := unitErr s 10 k
  if e = 0 then s
  else if e = 1 then (setUnitErr s 10 k 0).bump F.RST_ERR_CNT_CE 10 1
  else
    let u := noteUe (setUnitErr s 10 k 0) 10 12 1 2 k 0
    { u with tim := { u.tim with cnt := mset noSet u.tim.cnt k { mget noSet u.tim.cnt k with bad := true } } }

/-- Counting on-chip set `k` (R53): `pk` events and `by_` bytes, as a read, an addition and a write. -/
def count (s : State) (k pk by_ : Nat) : State :=
  let u := countProbe s k
  let c := mget noSet u.tim.cnt k
  if c.bad then u
  else noteWrite { u with tim := { u.tim with cnt := mset noSet u.tim.cnt k (setAdd (u.flag F.TIM_EPOCH_STS_LIVE 0) c pk by_) } } 10 0 k k true

end Sys2Proof.Machine
end

