-- ==== Sys2Proof/Machine/DramMem.lean ====
section
/-!
DEFINITION. The DDR5 address space as its clients use it: capacity and address mapping (R409–R411), bursts with their check bits
(R422) and the reporting of errors (R423).
-/

namespace Sys2Proof.Machine

/-- Enabled channels (R409); 0 with a reserved code. -/
def drcChannels (s : State) : Nat :=
  let n := s.fld F.DRC_CFG_NCH 0
  if s.fld F.DRC_CFG_SPEED 0 = 3 then 0 else if n = 0 then 1 else if n = 1 then 2 else if n = 2 then 4 else if n = 3 then (if s.variant = .l1200 then 0 else 6) else 0

/-- Capacity of one channel in GiB by density, ranks and device width; 0 for a population R409 does not allow. -/
def drcPerChannel (s : State) : Nat :=
  let d := s.fld F.DRC_CFG_DENSITY 0
  let two := s.flag F.DRC_CFG_RANKS 0
  let x8 := s.flag F.DRC_CFG_DEV_W 0
  if !x8 && !two then (if d = 0 then 32 else if d = 1 then 48 else if d = 2 then 64 else 0)
  else if !x8 then (if d = 0 then 64 else 0)
  else if !two then (if d = 0 then 16 else if d = 1 then 24 else if d = 2 then 32 else 0)
  else (if d = 0 then 32 else if d = 1 then 48 else if d = 2 then 64 else 0)

/-- DRC_STS.CAPACITY in GiB (R410). -/
def drcCapacity (s : State) : Nat := drcChannels s * drcPerChannel s

/-- Channel and subchannel of a DDR5 address (R410). -/
def dramChannel (s : State) (a : Nat) : Nat := (a / 256) % (max (drcChannels s) 1)
def dramSub (s : State) (a : Nat) : Nat :=
  ((a / 256 / (max (drcChannels s) 1)) * 256 + a % 256) / 64 % 2

/-- Place of a DDR5 address in its channel (R410): above bit 6 the column, bank group, bank, rank and row bits, the bank-group and bank bits
each XORed with the row's lowest bits. JESD79-5 gives 8 bank groups of 4 banks, and rows of 128 bursts with x4 devices and of 64 with x8
(log entry 58). -/
def dramPlace (s : State) (a : Nat) : DramPlace :=
  let ca := a / 256 / (max (drcChannels s) 1) * 256 + a % 256
  let g := ca / 2 ^ (if s.flag F.DRC_CFG_DEV_W 0 then 13 else 14)
  let two := s.flag F.DRC_CFG_RANKS 0
  let row := if two then g / 64 else g / 32
  ⟨dramSub s a, if two then g / 32 % 2 else 0, (g % 8) ^^^ (row % 8), (g / 8 % 4) ^^^ (row % 4), row⟩

/-- The key of an address's bank among all banks. -/
def dramBank (s : State) (a : Nat) : Nat :=
  let p := dramPlace s a
  dramChannel s a * 2 ^ 7 + p.rank * 2 ^ 6 + p.bank * 2 ^ 4 + p.sub * 2 ^ 3 + p.group

/-- The controller reports itself ready (R419). -/
def drcReady (s : State) : Bool := memUp s && s.flag F.DRC_CTL_EN 0

/-! ## Queues of the channels -/

def noReqs : Nat → List DReq := fun _ => []
def rqOf (s : State) (c : Nat) : List DReq := mget noReqs s.drc.rq c
def wqOf (s : State) (c : Nat) : List DReq := mget noReqs s.drc.wq c
def setRq (s : State) (c : Nat) (l : List DReq) : State := { s with drc := { s.drc with rq := mset noReqs s.drc.rq c l } }
def setWq (s : State) (c : Nat) (l : List DReq) : State := { s with drc := { s.drc with wq := mset noReqs s.drc.wq c l } }

/-- A channel of the NCH set (R409). -/
def chanInSet (s : State) (c : Nat) : Bool := decide (c < drcChannels s)
def dramOn (s : State) : Bool := memUp s && s.flag F.DRC_CTL_DRAM_RESET_N 0
def panicOn (s : State) : Bool := s.flag F.DRC_STS_PANIC 0

def isWrite (x : DReq) : Bool := x.data.isSome
def drcChan (s : State) (x : DReq) : Nat := dramChannel s (64 * x.burst)

/-! ## The line ports that the real-time port serves (R402, R415) -/

def quadMode (s : State) (q : Nat) : Nat := if quadPresent s q then s.fld F.LPT_QUAD_CFG_MODE q else 0

/-- The lanes of the port that lane `p` starts in its quad's current mode, 0 for none: also its rate in 100 Gb/s. -/
def portLanes (s : State) (p : Nat) : Nat :=
  let m := quadMode s (p / 4)
  if 16 ≤ p then 0
  else if m = 1 then 1
  else if m = 2 && p % 2 = 0 then 2
  else if m = 3 && p % 4 = 0 then 4
  else if m = 4 && p % 8 = 0 && quadMode s (p / 4 + 1) = 4 then 8
  else 0

def portFormed (s : State) (p : Nat) : Bool := lineUp s && decide (0 < portLanes s p)

def noNats : Nat → List Nat := fun _ => []
def noPairs : Nat → List (Nat × Nat) := fun _ => []

/-- What a line port has prefetched (R402). -/
def pfHave (s : State) (p : Nat) : List (Nat × Nat) := mget noPairs s.egr.pf p

/-- The bursts that a line port's prefetch has still to read, in order (R402). -/
def pfList (s : State) (p : Nat) : List Nat := mget noNats s.egr.pfLeft p

/-- A line port's PF_LEVEL (R402): 0xFFFF while nothing remains to fetch. -/
def pfLevel (s : State) (p : Nat) : Nat := if (pfList s p).isEmpty then 0xFFFF else (pfHave s p).length

/-- The real-time port's panic follows the levels of the formed and enabled line ports (R415, R427). -/
def panicSync (s : State) : State :=
  let lo := s.fld F.DRC_RT_CFG_PANIC 0
  let hi := max lo (s.fld F.DRC_RT_CFG_CALM 0)
  let ports := (List.range 16).filter (fun p => portFormed s p && s.flag F.LPT_CFG_EN p)
  let was := s.flag F.DRC_STS_PANIC 0
  let now := memUp s && lo != 0 && (ports.any (fun p => decide (pfLevel s p < lo)) || (was && ports.any (fun p => decide (pfLevel s p < hi))))
  if now = was then s else s.setFlag F.DRC_STS_PANIC 0 now

/-! ## Bursts and their check bits (R422, R423) -/

/-- One corrected or uncorrectable burst reported (R423). `dev` is the failing x4 position. -/
def drcReport (s : State) (burst port dev : Nat) (ue : Bool) : State :=
  let a := burst * 64
  let c := dramChannel s a
  let sub := dramSub s a
  let d0 := c * 2 ^ 29 + port * 2 ^ 26 + sub * 2 ^ 25 + dev * 2 ^ 21 + a / 2 ^ 32
  let w := b2n ue * 2 ^ 63 + port * 2 ^ 60 + dev * 2 ^ 56 + sub * 2 ^ 55 + a
  let s1 := if ue then s.bump F.DRC_CH_ECC_UE c 1 else s.bump F.DRC_CH_ECC_CE c 1
  let s2 := if ue || !s1.flag F.DRC_CH_ECC_ADDR_UE c then s1.setReg .DRC_CH_ECC_ADDR c w else s1
  let s3 := if ue then s2.bump F.RST_ERR_CNT_UE 13 1 else s2.bump F.RST_ERR_CNT_CE 13 1
  let s4 := errRecord s3 9 (if ue then 2 else 1) (if ue then 2 else 1) d0 (a % 2 ^ 32)
  if ue then raiseSrc s4 165 c
  else
    let thr := s4.fld F.DRC_CH_ECC_THR_CE_THR c
    if thr ≠ 0 && decide (thr ≤ s4.fld F.DRC_CH_ECC_CE c) && !mget noBool s4.drc.thrDone c then
      raiseSrc { s4 with drc := { s4.drc with thrDone := mset noBool s4.drc.thrDone c true } } 166 c
    else s4

/-- The 128-bit units of a burst that are poisoned, as four bits: check value 2 is all of them, 2 + k those of k. -/
def burstMask (s : State) (burst : Nat) : Nat :=
  let e := unitErr s 13 burst
  if e < 2 then 0 else if e = 2 then 15 else (e - 2) % 16

/-- The class of an error confined to the given failing x4 positions (R422): 0 none, 1 corrected, 2 detected; where the code's strength
says nothing, a free choice of the three. -/
def eccClass (s : State) (pos : List Nat) : Nat × State :=
  match pos.eraseDups with
  | [] => (0, s)
  | [_] => (1, s)
  | [a, b] => if !s.flag F.DRC_CFG_DEV_W 0 || a / 2 == b / 2 then (2, s) else draw s 3
  | _ => draw s 3

/-- The devices corrupt a burst at the given positions. -/
def deviceError (s : State) (burst : Nat) (pos : List Nat) : State :=
  let (v, u) := eccClass s pos
  if v = 0 then u else setUnitErr u 13 burst (max v (unitErr u 13 burst))

/-- One burst read for a client (R422, R423): the poisoned units, and the state. A corrected burst is written back where `wb` holds, unless a
client write to it is queued. The failing position is the device's, `pos`, or for an injected error a free choice. -/
def readBurst (s : State) (burst port : Nat) (wb : Bool) (pos : List Nat) : Nat × State :=
  let e := unitErr s 13 burst
  if e = 0 then (0, s)
  else
    let (d, u) := match pos with
      | p :: _ => (p, s)
      | [] => draw s 10
    if e = 1 then
      let keep := !wb || (wqOf u (dramChannel u (64 * burst))).any (fun y => y.burst == burst)
      (0, drcReport (if keep then u else setUnitErr u 13 burst 0) burst port d false)
    else (burstMask s burst, drcReport u burst port d true)

/-- Bytes stored in a burst from offset `o`. Units replaced whole lose their poison (R447). -/
def putBurst (s : State) (burst o : Nat) (bs : List Byte) : State :=
  let n := bs.length
  let left := ((List.range 4).map (fun i => if decide (o ≤ 16 * i) && decide (16 * i + 16 ≤ o + n) then 0 else burstMask s burst &&& 2 ^ i)).sum
  let u := if burstMask s burst = 0 then s else setUnitErr s 13 burst (if left = 0 then 0 else if left = 15 then 2 else 2 + left)
  noteWrite { u with dram := wrBytes u.dram (64 * burst + o) bs } 13 0 burst burst (decide (o = 0) && decide (64 ≤ n))

/-! ## Entry into the queues (R412, R413) -/

/-- Requests of a port in one channel's queues, and in all (DRC_PORT[k]_STS). -/
def portOut (s : State) (c k : Nat) : Nat := ((rqOf s c ++ wqOf s c).filter (·.port == k)).length
def portPending (s : State) (k : Nat) : Nat := ((List.range 6).map (fun c => portOut s c k)).sum

def maxOut (s : State) (k : Nat) : Nat := clamp 1 64 (s.fld F.DRC_PORT_CFG_MAX_OUT k)
def portWeight (s : State) (k : Nat) : Nat := max 1 (s.fld F.DRC_PORT_CFG_WEIGHT k)

/-- The request of port `k` that may enter channel `c` now: the port's first for it, with room for it. Ports 0–6 of a controller that is
not enabled accept none (R420). -/
def entryOf (s : State) (c k : Nat) : Option DReq :=
  if k ≠ 7 && !s.flag F.DRC_CTL_EN 0 then none else
  match s.drc.waiting.find? (fun x => x.port == k && drcChan s x == c) with
  | none => none
  | some x =>
    if portOut s c k < maxOut s k && decide ((if isWrite x then wqOf s c else rqOf s c).length < 64) then some x else none

/-- The port that enters next: the real-time port first, the others by weighted round robin. -/
def entryTurn (s : State) (c : Nat) : Option (DReq × Nat × Nat) :=
  let (p, left) := mget (fun _ => (1, 0)) s.drc.turn c
  match entryOf s c 0 with
  | some x => some (x, p, left)
  | none =>
    match (if 0 < left then entryOf s c p else none) with
    | some x => some (x, p, left - 1)
    | none => ((List.range 7).map (fun i => (p + i) % 7 + 1)).findSome? (fun k => (entryOf s c k).map (fun x => (x, k, portWeight s k - 1)))

/-- A burst goes back to its client; the real-time port's raises the level of its line port (R402). -/
def giveBack (s : State) (x : DReq) (bs : List Byte) (bad : Nat) : State :=
  if x.own then { s with drc := { s.drc with got := some (bs, bad) } }
  else if isWrite x then s
  else
    let u := { s with drc := { s.drc with returned := (x.port, x.burst, bs, decide (bad ≠ 0)) :: s.drc.returned } }
    if x.port = 0 && (pfList u x.line).contains x.burst then
      panicSync { u with egr := { u.egr with
        pf := mset noPairs u.egr.pf x.line (pfHave u x.line ++ [(x.burst, bad)]), pfLeft := mset noNats u.egr.pfLeft x.line ((pfList u x.line).erase x.burst) } }
    else u

/-- A queued request is served: its bank's row is open, a write reaches DRAM, and a read goes back to its client. -/
def serveReq (s : State) (c : Nat) (x : DReq) (pos : List Nat) : State :=
  let key := dramBank s (64 * x.burst)
  let u0 := setWq (setRq s c ((rqOf s c).filter (fun y => y.seq != x.seq))) c ((wqOf s c).filter (fun y => y.seq != x.seq))
  let u := { u0 with drc := { u0.drc with rows := mset noNat u0.drc.rows key ((dramPlace s (64 * x.burst)).row + 1) } }
  match x.data with
  | some (o, bs) => giveBack (putBurst u x.burst o bs) x [] 0
  | none =>
    let r := readBurst (deviceError u x.burst pos) x.burst x.port (u.flag F.DRC_CFG_CE_WB 0 || x.port == 7) pos
    giveBack r.2 x (rdBytes r.2.dram (64 * x.burst) 64) r.1

/-- A read that matches earlier queued writes of its burst: they drain at once, each after the reads of the burst that came before it
(R417). -/
def flushBurst (s : State) (c : Nat) (x : DReq) : State :=
  match ((wqOf s c).filter (fun y => y.burst == x.burst && decide (y.seq < x.seq))).getLast? with
  | none => s
  | some w =>
    let l := (rqOf s c ++ wqOf s c).filter (fun y => y.burst == x.burst && decide (y.seq ≤ w.seq))
    foldS (l.foldl (fun r y => insertBy (fun a b => decide (a.seq ≤ b.seq)) y r) []) (fun u y => serveReq u c y []) s

/-- How the channel drains writes (R416, R427): 2 from a queue that was full in panic, 1 otherwise, 0 not. -/
def drainMode (s : State) (c : Nat) : Nat :=
  let w := (wqOf s c).length
  let was := mget noNat s.drc.draining c
  if panicOn s && w = 64 then 2
  else if was ≠ 0 && decide (16 < w) then was
  else if panicOn s then 0
  else if 48 ≤ w || ((rqOf s c).isEmpty && w ≠ 0) then 1 else 0
def drainSync (s : State) (c : Nat) : State := { s with drc := { s.drc with draining := mset noNat s.drc.draining c (drainMode s c) } }

/-- Requests enter channel `c` while one can; the fuel is the number that wait. -/
def enterFrom : Nat → State → Nat → State
  | 0, s, _ => s
  | f + 1, s, c =>
    match entryTurn s c with
    | none => s
    | some (x, p, left) =>
      let y := { x with at_ := s.tim.elapsed, seq := s.drc.seqs }
      let u := { s with drc := { s.drc with
        waiting := s.drc.waiting.erase x, seqs := s.drc.seqs + 1, turn := mset (fun _ => (1, 0)) s.drc.turn c (p, left) } }
      let v := if isWrite x then setWq u c (wqOf u c ++ [y]) else flushBurst (setRq u c (rqOf u c ++ [y])) c y
      enterFrom f (drainSync v c) c

def enterAll (s : State) : State := foldS (List.range 6) (fun u c => enterFrom u.drc.waiting.length u c) s

/-! ## Service (R416, R417) -/

def agedReq (s : State) (x : DReq) : Bool :=
  s.fld F.DRC_AGE_AGE_MAX 0 != 0 && decide (s.fld F.DRC_AGE_AGE_MAX 0 * 2 ^ 32 ≤ s.tim.elapsed - x.at_)

/-- The request's row is open in its bank. -/
def rowHit (s : State) (x : DReq) : Bool :=
  mget noNat s.drc.rows (dramBank s (64 * x.burst)) == (dramPlace s (64 * x.burst)).row + 1

/-- The request that entered first. -/
def oldest (l : List DReq) : Option DReq :=
  l.foldl (fun b x => match b with | some y => if x.seq < y.seq then some x else b | none => some x) none

/-- Writes that no earlier request of their burst holds back. -/
def freeWrites (s : State) (c : Nat) : List DReq :=
  (wqOf s c).filter (fun x => !((rqOf s c ++ wqOf s c).any (fun y => y.burst == x.burst && decide (y.seq < x.seq))))

/-- The request that the channel serves next (R416, R427). -/
def chooseNext (s : State) (c : Nat) : Option DReq :=
  let reads := rqOf s c
  let mode := drainMode s c
  let writes := if mode = 0 then [] else freeWrites s c
  let all := reads ++ writes
  if panicOn s && mode = 2 && !writes.isEmpty then oldest writes
  else
    match (if panicOn s then oldest (reads.filter (·.port == 0)) else none) with
    | some x => some x
    | none =>
      match oldest (all.filter (agedReq s)) with
      | some x => some x
      | none =>
        match (if panicOn s then none else oldest (all.filter (rowHit s))) with
        | some x => some x
        | none => oldest all

/-- The queues of a stopped controller are empty: DRAINED (R420). -/
def drcDrain (s : State) : State :=
  if !s.flag F.DRC_CTL_EN 0 && s.drc.rq.isEmpty && s.drc.wq.isEmpty then s.setFlag F.DRC_STS_DRAINED 0 true else s

/-- The chosen request is served, and others enter in its place. -/
def serveNext (s : State) (c : Nat) (x : DReq) (pos : List Nat) : State := drcDrain (enterAll (drainSync (serveReq s c x pos) c))

/-! ## Refresh (R418) -/

/-- The refresh interval in force on rank `r` of channel `c`, in 2^−32 ns. -/
def refInterval (s : State) (c r : Nat) : Nat :=
  let n := mget noNat s.drc.refInt (2 * c + r) * 2 ^ 32
  if s.flag F.DRC_CH_STS_HI_TEMP c then n / 2 else n

/-- The rank's refresh has been postponed as far as JESD79-5 allows. -/
def refAtLimit (s : State) (c r : Nat) : Bool :=
  refInterval s c r != 0 && decide (mget noNat s.drc.refDue (2 * c + r) + Config.refreshLimit * refInterval s c r ≤ s.tim.elapsed)

/-- One same-bank refresh of a rank: the banks take turns, and the rows of the refreshed bank close in every bank group. -/
def refresh (s : State) (c r : Nat) : State :=
  let k := 2 * c + r
  let bank := mget noNat s.drc.refreshes k % 4
  let base := c * 2 ^ 7 + r * 2 ^ 6 + bank * 2 ^ 4
  { s with drc := { s.drc with
    refreshes := mset noNat s.drc.refreshes k (mget noNat s.drc.refreshes k + 1),
    refDue := mset noNat s.drc.refDue k (mget noNat s.drc.refDue k + refInterval s c r),
    rows := mkeep (fun b => !(decide (base ≤ b) && decide (b < base + 16))) s.drc.rows } }

/-! ## A client's own accesses -/

/-- The channel serves until the running step's own request has been served; the fuel is the number of requests. -/
def passFrom : Nat → State → Nat → State
  | 0, s, _ => s
  | f + 1, s, c =>
    if s.drc.got.isSome then s
    else match chooseNext s c with
      | some x => passFrom f (serveNext s c x []) c
      | none => s

/-- One request of the client whose step runs: it waits at its port, enters its channel's queue and is served, all within the step
(log entry 23). The bytes, the poisoned units, and the state. Beyond the capacity a read gives 0 and a write is lost (R411); a port of a
controller that is not ready takes nothing (R420). -/
def dramPass (s : State) (port burst : Nat) (data : Option (Nat × List Byte)) : List Byte × Nat × State :=
  if !drcReady s then (List.replicate 64 0, 0, s)
  else if drcCapacity s * 2 ^ 24 ≤ burst then (List.replicate 64 0, 0, s.bump F.DRC_STS_OOR 0 1)
  else
    let c := dramChannel s (64 * burst)
    let n := s.drc.waiting.length + (rqOf s c).length + (wqOf s c).length + 1
    let v := passFrom n (enterAll { s with drc := { s.drc with waiting := s.drc.waiting ++ [⟨port, burst, data, 16, 0, 0, true⟩] } }) c
    match v.drc.got with
    | some (bs, bad) => (bs, bad, { v with drc := { v.drc with got := none } })
    | none => (List.replicate 64 0, 0, v)

/-- What a client's read of one burst finds: the state after it and whether the data is poisoned. -/
def dramProbe (s : State) (burst port : Nat) : State × Bool :=
  let r := dramPass s port burst none
  (r.2.2, decide (r.2.1 ≠ 0))

/-- The bursts that bytes [a, a + n) touch. -/
def burstsOf (a n : Nat) : List Nat := if n = 0 then [] else (List.range ((a + n - 1) / 64 - a / 64 + 1)).map (· + a / 64)

/-- A client read of `n` bytes: the bytes, a poison mark for each byte, and the state after it. -/
def dramRead (s : State) (a n port : Nat) : List Byte × List Bool × State :=
  let r := (burstsOf a n).foldl (fun (x : List Byte × List Bool × State) b =>
    let y := dramPass x.2.2 port b none
    (x.1 ++ y.1, x.2.1 ++ (List.range 64).map (fun i => bitOf y.2.1 (i / 16)), y.2.2)) ([], [], s)
  ((r.1.drop (a % 64)).take n, (r.2.1.drop (a % 64)).take n, r.2.2)

/-- A client write. -/
def dramWrite (s : State) (a : Nat) (bs : List Byte) (port : Nat) : State :=
  foldS (burstsOf a bs.length) (fun u b =>
    let lo := max a (64 * b)
    let hi := min (a + bs.length) (64 * b + 64)
    (dramPass u port b (some (lo - 64 * b, (bs.drop (lo - a)).take (hi - lo)))).2.2) s

end Sys2Proof.Machine
end

