-- ==== Sys2Proof/Machine/Time.lean ====
section
/-!
DEFINITION. Sidereal (R34–R51): the advance of network time, its adjustments and holdover, and the time pins.
-/

namespace Sys2Proof.Machine

/-- What a meaning answers. -/
abbrev Out := Host.Outcome State Fault Refusal

def noTcmp : Nat → TcmpSt := fun _ => ⟨false, 0, false⟩
def noTxTs : Nat → List TxTs := fun _ => []
def noMer : Nat → Mer := fun _ => ⟨0, 0, 0, none, none, [], false, [], none⟩

def tcmpOf (s : State) (k : Nat) : TcmpSt := mget noTcmp s.tim.tcmp k
def setTcmp (s : State) (k : Nat) (x : TcmpSt) : State := { s with tim := { s.tim with tcmp := mset noTcmp s.tim.tcmp k x } }
def merOf (s : State) (p : Nat) : Mer := mget noMer s.egr.mer p
def setMer (s : State) (p : Nat) (x : Mer) : State := { s with egr := { s.egr with mer := mset noMer s.egr.mer p x } }

/-- TIM_INCR in 2^-32 ns. -/
def incrOf (s : State) : Nat := s.reg .TIM_INCR 0

/-- What a slew of `off` ns over `total` edges has added after `k` of them, in 2^-32 ns: at a uniform rate (R40). -/
def slewAt (off : Int) (total k : Nat) : Int := off * 2 ^ 32 * k / total

/-- `n` PCLK edges, which add `extra` beside TIM_INCR for each (R35). -/
def addEdges (s : State) (n : Nat) (extra : Int) : State :=
  let d : Int := (n : Int) * (incrOf s : Int) + extra
  { s with tim := { s.tim with nt := BitVec.ofInt 96 ((s.tim.nt.toNat : Int) + d), elapsed := (s.tim.elapsed + d).toNat } }

/-! ## What a SET or STEP does to the instant consumers (R43) -/

/-- The first instant of a series of period `per` that passes through `at_` and lies after `now`. -/
def seriesAfter (at_ per now : Nat) : Nat :=
  if now < at_ then at_ - (at_ - now - 1) / per * per else at_ + ((now - at_) / per + 1) * per

/-- The period of a time-compare unit (R51). -/
def tcmpPer (s : State) (k : Nat) : Nat := max (s.reg .TIM_TCMP_PER k) (max 1 (s.fld F.TIM_TCMP_CFG_WIDTH k) + 1)

/-- A time-compare unit after a step from `old` to the present time (R43). -/
def tcmpStep (s : State) (old k : Nat) : State :=
  if s.flag F.TIM_TCMP_CFG_PERIODIC k && nt64 s < old then
    (setTcmp s k { tcmpOf s k with pulsed := false }).setReg .TIM_TCMP_AT k (seriesAfter (s.reg .TIM_TCMP_AT k) (tcmpPer s k) (nt64 s))
  else s

/-- The first instant ANCHOR + k × period at or after `t` (R398, R404). -/
def merNextNt (s : State) (p t : Nat) : Nat :=
  let a := s.reg .MER_ANCHOR p
  let per := max 1 (s.reg .MER_PERIOD p)
  if t ≤ a then a - (a - t) / per * per else a + (t - a + per - 1) / per * per

/-- A running calendar after a step: RESYNC (R404). -/
def merStep (s : State) (p : Nat) : State :=
  if s.fld F.MER_STS_STATE p = 0 then s
  else if (merOf s p).stopping then setMer (s.setFld F.MER_STS_STATE p 0) p (noMer 0)
  else
    let s1 := count ((s.setFld F.MER_STS_STATE p 3).setFlag F.MER_STS_RESYNC p true) (14336 + 16 * p + 7) 1 0
    let s2 := raiseSrc s1 38 p
    let nxt := if s2.flag F.MER_CFG_MODE p then none else some (merNextNt s2 p (nt64 s2 + s2.fld F.MER_PREROLL_NS p))
    setMer s2 p { merOf s2 p with alloc := none, next := nxt, more := [], skipped := [], preroll := none }

/-- A SET or STEP takes effect (R36, R39, R43, R404). -/
def applyJump (s : State) (step : Bool) (off : W64) : State :=
  let old := nt64 s
  let v : BitVec 96 := if step then s.tim.nt + (off.setWidth 96 <<< 32) else off.setWidth 96 <<< 32
  let s1 := { s with tim := { s.tim with nt := v, adj := none } }
  let s2 := ((s1.wrapAdd F.TIM_STS_STEP_SEQ 0 1).setFlag F.TIM_STS_SET_DONE 0 true).setFlag F.TIM_STS_ADJ_BUSY 0 false
  let now := nt64 s2
  let pn := if now < old then (now / 1000000000 + 1) * 1000000000 else s2.tim.ppsNext
  let late := s2.tim.flipLate || (s2.flag F.TIM_EPOCH_CTL_ARM 0 && decide (s2.reg .TIM_EPOCH_AT 0 ≤ now) && decide (old < s2.reg .TIM_EPOCH_AT 0))
  let late' := late && decide (s2.reg .TIM_EPOCH_AT 0 ≤ now)
  let s3 := { s2 with tim := { s2.tim with ppsNext := pn, flipLate := late' } }
  let s4 := foldS (List.range 4) (fun u k => tcmpStep u old k) s3
  foldS (List.range 16) merStep s4

/-- `n` PCLK edges of Sidereal (R35, R39–R41): a pending SET or STEP and the end of a slew fall at their own edges. -/
def siderealEdges (s : State) (n : Nat) : State :=
  match s.tim.adj with
  | none => addEdges s n 0
  | some (.jump step off left) =>
    if n < left then
      let u := addEdges s n 0
      { u with tim := { u.tim with adj := some (.jump step off (left - n)) } }
    else addEdges (applyJump (addEdges s left 0) step off) (n - left) 0
  | some (.slew left total off) =>
    let past := slewAt off total (total - left)
    if n < left then
      let u := addEdges s n (slewAt off total (total - left + n) - past)
      { u with tim := { u.tim with adj := some (.slew (left - n) total off) } }
    else
      let u := addEdges s left (slewAt off total total - past)
      let v := { u with tim := { u.tim with adj := none } }
      addEdges (v.setFlag F.TIM_STS_ADJ_BUSY 0 false) (n - left) 0
  | some .ending =>
    if n = 0 then s
    else
      let v := { s with tim := { s.tim with adj := none } }
      addEdges (v.setFlag F.TIM_STS_ADJ_BUSY 0 false) n 0

/-- The first of the numbers from `lo` to `lo + len` that passes a test which, once passed, stays passed; the fuel is the binary digits of
`len`. -/
def firstEdge (p : Nat → Bool) : Nat → Nat → Nat → Nat
  | 0, lo, _ => lo
  | f + 1, lo, len => if p (lo + len / 2) then firstEdge p f lo (len / 2) else firstEdge p f (lo + len / 2 + 1) (len - len / 2 - 1)

/-- Time passes by `n` PCLK edges: the model's clock, and Sidereal while the PKT domain is out of reset (log entry 6). What the last of
them found reached is the view of the edge before it, or after a step back the new view. -/
def advance (s : State) (n : Nat) : State :=
  let u := { s with clk := s.clk + n }
  if !pktUp u then u
  else
    let v := siderealEdges u n
    { v with tim := { v.tim with seen := if n = 0 then v.tim.seen else min (nt64 (siderealEdges u (n - 1))) (nt64 v) } }

/-! ## Register commands -/

/-- TIM_INCR written (R35, R45, R46). -/
def execTimIncrWrite (v : W32) (s : State) : Out :=
  if !pktUp s || s.flag F.TIM_STS_HOLDOVER 0 then .next s
  else
    let c := clamp 0xAA800000 0xAAD55556 v.toNat
    let u := (s.setReg .TIM_INCR 0 c)
    let w := if c = v.toNat then u else u.setFlag F.TIM_STS_INCR_CLAMP 0 true
    .next { w with tim := { w.tim with holdIncr := w.tim.elapsed } }

/-- A 4-byte read of the low word of TIM_NT (R550): the high word and the fraction are latched. -/
def readNtLow (s : State) : Nat × State :=
  let n := nt64 s
  (n % 2 ^ 32, { s with tim := { s.tim with ntHi := some (BitVec.ofNat 32 (n / 2 ^ 32)) } }.setReg .TIM_NT_FRAC 0 (s.tim.nt.toNat % 2 ^ 32))

def execTimNtLowRead (s : State) : Out :=
  if !pktUp s then .next { s with rdata := 0 }
  else
    let r := readNtLow s
    .next { r.2 with rdata := BitVec.ofNat 64 r.1 }

/-- GO is refused while an adjustment runs or in holdover (R41). -/
def adjRefused (s : State) : Bool := s.flag F.TIM_STS_ADJ_BUSY 0 || s.flag F.TIM_STS_HOLDOVER 0

/-- GO with MODE SET or STEP (R39, R41). A refused GO starts no adjustment; MODE, which the same write gives, is stored either way (DESIGN
CHOICE, log entry 55). -/
def adjJump (s : State) (step : Bool) : State :=
  let u := s.setFld F.TIM_ADJ_CTL_MODE 0 (b2n step)
  if adjRefused u then u.setFlag F.TIM_STS_ADJ_REJECT 0 true
  else
    let off := BitVec.ofNat 64 (u.reg .TIM_ADJ_OFFSET 0)
    { u with tim := { u.tim with adj := some (.jump step off 64) } }.setFlag F.TIM_STS_ADJ_BUSY 0 true

/-- GO with MODE SLEW (R40, R41): the edges of the interval at the trim in force (log entry 15). -/
def adjSlew (s : State) : State :=
  let u := s.setFld F.TIM_ADJ_CTL_MODE 0 2
  let off := (BitVec.ofNat 64 (u.reg .TIM_ADJ_OFFSET 0)).toInt
  let iv := u.reg .TIM_ADJ_INTERVAL 0
  if adjRefused u || iv < off.natAbs * 1024 then u.setFlag F.TIM_STS_ADJ_REJECT 0 true
  else
    let n : Nat := max 1 ((iv * 2 ^ 32 + incrOf u - 1) / incrOf u)
    { u with tim := { u.tim with adj := some (.slew n n off) } }.setFlag F.TIM_STS_ADJ_BUSY 0 true

/-- ABORT (R41): a slew stops; anything else is not affected. -/
def adjAbort (s : State) : State :=
  match s.tim.adj with
  | some (.slew _ _ _) => { s with tim := { s.tim with adj := some .ending } }
  | _ => s

def execAdjSet (s : State) : Out := .next (if pktUp s then adjJump s false else s)
def execAdjStep (s : State) : Out := .next (if pktUp s then adjJump s true else s)
def execAdjSlew (s : State) : Out := .next (if pktUp s then adjSlew s else s)
def execAdjAbort (s : State) : Out := .next (if pktUp s then adjAbort s else s)

/-- The 64-cycle wait of a SET or STEP runs out: the edges that are left pass (R39). -/
def execSetStepApply (s : State) : Out :=
  match s.tim.adj with
  | some (.jump _ _ left) => .next (if pktUp s then advance s left else s)
  | _ => .next s

/-- A slew runs to its end: the edges that are left pass (R40). -/
def execSlewComplete (s : State) : Out :=
  match s.tim.adj with
  | some (.slew left _ _) => .next (if pktUp s then advance s left else s)
  | _ => .next s

/-! ## Holdover -/

/-- Entry into holdover (R45, R46); in holdover already, nothing changes. -/
def enterHold (s : State) (cause : Nat) : State :=
  if s.flag F.TIM_STS_HOLDOVER 0 then s
  else raiseSrc ((s.setFlag F.TIM_STS_HOLDOVER 0 true).setFld F.TIM_STS_HOLD_CAUSE 0 cause) 32 cause

def execHoldReq (s : State) : Out := .next (if pktUp s then enterHold s 0 else s)

/-- HOLD_EXIT ends holdover and restarts both periods (R45, R46). -/
def exitHold (s : State) : State :=
  if s.flag F.TIM_STS_HOLDOVER 0 then
    let u := s.setFlag F.TIM_STS_HOLDOVER 0 false
    { u with tim := { u.tim with holdIncr := u.tim.elapsed, holdPps := u.tim.elapsed } }
  else s

def execHoldExit (s : State) : Out := .next (if pktUp s then exitHold s else s)

/-- A holdover period that started at `start` has run out (R45). -/
def holdDue (s : State) (start : Nat) : Bool :=
  s.reg .TIM_HOLD_TIMEOUT 0 ≠ 0 && decide (s.reg .TIM_HOLD_TIMEOUT 0 * 1000 * 2 ^ 32 ≤ s.tim.elapsed - start)

/-- Time passes, and the period since the last TIM_INCR write runs out (R45). -/
def execHoldTimeoutIncr (edges : Nat) (s : State) : Out :=
  let u := advance s edges
  .next (if pktUp u && holdDue u u.tim.holdIncr then enterHold u 1 else u)

/-- Time passes, and the period since the last valid PPS_IN edge runs out with REF_SEL = 1 (R45). -/
def execHoldTimeoutPps (edges : Nat) (s : State) : Out :=
  let u := advance s edges
  .next (if pktUp u && u.flag F.TIM_CTL_REF_SEL 0 && holdDue u u.tim.holdPps then enterHold u 2 else u)

/-! ## Input edges and output pulses -/

/-- A rising edge on PPS_IN that then stays high for `highNs` (R45, R50): valid from 100 ns. -/
def execPpsInEdge (highNs : Nat) (s : State) : Out :=
  if pktUp s && decide (100 ≤ highNs) then
    let u := (s.setReg .TIM_PPS_IN_TS 0 (nt64 s)).wrapAdd F.TIM_INPUT_CNT_PPS 0 1
    .next { u with tim := { u.tim with holdPps := u.tim.elapsed } }
  else .next s

/-- An anchor made for an EXT-mode calendar (R399): it waits for its instant, after the anchors of earlier edges. -/
def merAnchor (s : State) (p : Nat) : State :=
  if s.fld F.MER_STS_STATE p = 0 || !s.flag F.MER_CFG_MODE p then s
  else
    let a := nt64 s + s.reg .MER_SYNC p
    match (merOf s p).next with
    | some _ => setMer s p { merOf s p with more := (merOf s p).more ++ [a] }
    | none => setMer s p { merOf s p with next := some a }

/-- A rising edge on CAL_SYNC_IN (R50, R399). -/
def execCalSyncInEdge (highNs : Nat) (s : State) : Out :=
  if pktUp s && decide (100 ≤ highNs) then
    let u := (s.setReg .TIM_CSI_TS 0 (nt64 s)).wrapAdd F.TIM_INPUT_CNT_CSI 0 1
    .next (foldS (List.range 16) merAnchor u)
  else .next s

/-- PPS_OUT width in µs (R51). -/
def ppsWidth (s : State) : Nat := clamp 1 999999 (s.fld F.TIM_PPS_OUT_CFG_WIDTH 0)

/-- PPS_OUT rises when network time reaches its next multiple of 10^9 ns (R43, R51). -/
def firePps (s : State) : State :=
  if s.flag F.TIM_PPS_OUT_CFG_EN 0 && decide (s.tim.ppsNext ≤ nt64 s) then
    { s with tim := { s.tim with ppsHigh := true, ppsEnd := s.tim.elapsed + ppsWidth s * 1000 * 2 ^ 32,
                                 ppsNext := (nt64 s / 1000000000 + 1) * 1000000000 } }
  else s

def execPpsOutPulse (edges : Nat) (s : State) : Out :=
  let u := advance s edges
  .next (if pktUp u then firePps u else u)

def execPpsOutPulseEnd (edges : Nat) (s : State) : Out :=
  let u := advance s edges
  .next (if pktUp u && u.tim.ppsHigh && decide (u.tim.ppsEnd ≤ u.tim.elapsed) then
    { u with tim := { u.tim with ppsHigh := false } } else u)

/-- A time-compare pulse starts (R43, R51). A one-shot unit that has pulsed for this AT pulses no more for it, even if PERIODIC is set
afterwards: a write of AT or a step back starts it again (DESIGN CHOICE, log entry 55). -/
def fireTcmp (s : State) (k : Nat) : State :=
  let x := tcmpOf s k
  if s.flag F.TIM_TCMP_CFG_EN k && decide (s.reg .TIM_TCMP_AT k ≤ nt64 s) && !x.pulsed then
    let periodic := s.flag F.TIM_TCMP_CFG_PERIODIC k
    let u := setTcmp s k ⟨true, s.tim.elapsed + max 1 (s.fld F.TIM_TCMP_CFG_WIDTH k) * 2 ^ 32, !periodic⟩
    let v := if periodic then u.setReg .TIM_TCMP_AT k (seriesAfter (s.reg .TIM_TCMP_AT k) (tcmpPer s k) (nt64 s)) else u
    raiseSrc (v.setFlag F.TIM_TCMP_CFG_FIRED k true) (34 + k) 0
  else s

def execTimeCompareFire (k : Fin 4) (edges : Nat) (s : State) : Out :=
  let u := advance s edges
  .next (if pktUp u then fireTcmp u k else u)

/-- A time-compare pulse ends at its width; EN cleared meanwhile does not end it (DESIGN CHOICE, log entry 55). -/
def execTimeComparePulseEnd (k : Fin 4) (edges : Nat) (s : State) : Out :=
  let u := advance s edges
  let x := tcmpOf u k
  .next (if pktUp u && x.high && decide (x.endAt ≤ u.tim.elapsed) then setTcmp u k { x with high := false } else u)

/-! ## Two-step timestamps (R49) -/

def txtsOf (s : State) (p : Nat) : List TxTs := mget noTxTs s.tim.txts p
def setTxts (s : State) (p : Nat) (l : List TxTs) : State := { s with tim := { s.tim with txts := mset noTxTs s.tim.txts p l } }

/-- A transmit timestamp pushed to a port's FIFO, or lost when it holds 64. -/
def pushTxts (s : State) (p : Nat) (x : TxTs) : State :=
  if (txtsOf s p).length < 64 then levelSrc (setTxts s p (txtsOf s p ++ [x])) (16 + p) true 0
  else s.bump F.TIM_TXTS_LOST_LOST p 1

/-- A read of TIM_TXTS_META[p] (R49, R552): the value read, and the state after the pop. -/
def popTxts (s : State) (p : Nat) : Nat × State :=
  match txtsOf s p with
  | [] => (0, s)
  | x :: r =>
    let u := (setTxts s p r).setReg .TIM_TXTS p x.nt.toNat
    (2 ^ 31 + x.frac.toNat * 2 ^ 16 + x.cookie.toNat, levelSrc u (16 + p) (!r.isEmpty) 0)

def execTxtsMetaRead (p : Fin 16) (s : State) : Out :=
  if pktUp s && lanePresent s p then
    let r := popTxts s p
    .next { r.2 with rdata := BitVec.ofNat 64 r.1 }
  else .next { s with rdata := 0 }

end Sys2Proof.Machine
end

