-- ==== Sys2Proof/Machine/AgateOps.lean ====
section
/-!
DEFINITION. Agate's shared operations: where tables and entries live (R164–R172), the flow cache (R173, R174), parity (R202),
inserts with displacement and the stash (R192, R193), deletes, and lookups (R181, R182).
-/

namespace Sys2Proof.Machine

def noItem : Nat → Item := fun _ => 0
def noPfx : Nat → List Prefix := fun _ => []
def noPos : Nat → Option AgePass := fun _ => none
def noCursor : Nat → Option Cursor := fun _ => none
def noFlush : Nat → Option FlushPass := fun _ => none

/-- The key of a location. -/
def locKey (t loc : Nat) : Nat := t * 2 ^ 32 + loc

/-! ## Tables -/

def tblType (s : State) (t : Nat) : Nat := s.fld F.AGT_TBL_CFG_TYPE t
def tblDram (s : State) (t : Nat) : Bool := s.flag F.AGT_TBL_CFG_LOC t
def tblSize (s : State) (t : Nat) : Nat := s.fld F.AGT_TBL_SIZE_SIZE t
def tblKeyLen (s : State) (t : Nat) : Nat := s.fld F.AGT_TBL_CFG_KEY_LEN t
def tblBase (s : State) (t : Nat) : Nat := s.fld F.AGT_TBL_DBASE_DBASE t * 2 ^ 20
def tblGen (s : State) (t : Nat) : Nat := s.fld F.AGT_TBL_GEN_GEN t

/-- DIR entry size in bytes (AGT_TBL[t]_CFG.ENTRY_BYTES; 3 acts as 2). -/
def tblEntryBytes (s : State) (t : Nat) : Nat :=
  let v := s.fld F.AGT_TBL_CFG_ENTRY_BYTES t
  if v = 0 then 4 else if v = 1 then 8 else 16

/-- Locations that carry counter sets (R179). -/
def tblCounted (s : State) (t : Nat) : Nat := if tblType s t = 0 then tblSize s t + 4096 else tblSize s t

/-- The prefixes an LPM table can hold (R165). -/
def lpmCap (s : State) (t : Nat) : Nat :=
  s.fld F.AGT_TBL_OBLK_NBLK t * (if s.flag F.AGT_TBL_CFG_V6 t then 2048 else 4096)

/-- A table that lookups and commands find (R169, R182, R187). -/
def tblLive (s : State) (t : Nat) : Bool := s.flag F.AGT_CTL_EN 0 && s.flag F.AGT_TBL_CFG_EN t

def cursorOpen (s : State) (t : Nat) : Bool := (mget noCursor s.agt.cursors t).isSome
def setCursor (s : State) (t : Nat) (c : Option Cursor) : State :=
  { s with agt := { s.agt with cursors := mset noCursor s.agt.cursors t c } }.setFlag F.AGT_TBL_STS_CURSOR t c.isSome

/-! ## EM entries (R176) -/

/-- The entry stands in DRAM: a DRAM table's location below SIZE (R171, R172). -/
def locInDram (s : State) (t loc : Nat) : Bool := tblDram s t && decide (loc < tblSize s t)

/-- The DDR5 address of a DRAM entry line: after its bucket's tag line (R171). -/
def entryAddr (s : State) (t loc : Nat) : Nat := tblBase s t + 320 * (loc / 4) + 64 + 64 * (loc % 4)

/-- The entry at a location as stored. -/
def emRaw (s : State) (t loc : Nat) : Item :=
  if locInDram s t loc then itemOfBytes (rdBytes s.dram (entryAddr s t loc) 64) else mget noItem s.agt.em (locKey t loc)

def entValid (e : Item) : Bool := e.getLsbD 31
def entStatic (e : Item) : Bool := e.getLsbD 30
def entFrozen (e : Item) : Bool := e.getLsbD 29
def entSrc (e : Item) : Nat := bits e.toNat 15 0
def entGen (e : Item) : Nat := bits e.toNat 63 56
def entMoves (e : Item) : Nat := bits e.toNat 55 52
def entKey (e : Item) (n : Nat) : List Byte := ((itemBytes e).drop 8).take n
def entAction (e : Item) : W128 := BitVec.ofNat 128 (e.toNat >>> 384)

/-- An entry with the given fields and no hit bit. -/
def mkEntry (st fr : Bool) (n src gen moves : Nat) (key : List Byte) (act : W128) : Item :=
  BitVec.ofNat 512 (2 ^ 31 + b2n st * 2 ^ 30 + b2n fr * 2 ^ 29 + n % 64 * 2 ^ 16 + src % 2 ^ 16
    + gen % 256 * 2 ^ 56 + moves % 16 * 2 ^ 52 + leNat (key.take n) * 2 ^ 64 + act.toNat * 2 ^ 384)

/-- The hit bit of an entry: in the array for a DRAM entry, else HIT (R167, R191). -/
def hitIdx (s : State) (t loc : Nat) : Nat := s.fld F.AGT_TBL_HB_HB_BASE t * 4096 + loc
def emHit (s : State) (t loc : Nat) : Bool :=
  if locInDram s t loc then mget noBool s.agt.hit (hitIdx s t loc) else (emRaw s t loc).getLsbD 28

/-- A hit bit written. -/
def setHit (s : State) (t loc : Nat) (b : Bool) : State :=
  if locInDram s t loc then { s with agt := { s.agt with hit := mset noBool s.agt.hit (hitIdx s t loc) b } }
  else
    let e := emRaw s t loc
    { s with agt := { s.agt with em := mset noItem s.agt.em (locKey t loc) (BitVec.ofNat 512 (putBit e.toNat 28 b)) } }

/-- The entry image that commands return (R191, R207). -/
def emImage (s : State) (t loc : Nat) : Item := BitVec.ofNat 512 (putBit (emRaw s t loc).toNat 28 (emHit s t loc))

/-- Candidate bucket 0 (primary) or 1 (secondary) of a key (R170); the hash is Config's. -/
def bucketOf (s : State) (t i : Nat) (key : List Byte) : Nat := Config.bucketHash t i key % (max 1 (tblSize s t / 4))

/-- `n` free 64-bit values: contents of no software-visible format. -/
def drawBytes (s : State) (n : Nat) : List Byte × State :=
  (List.range n).foldl (fun (x : List Byte × State) _ => let d := drawValue x.2; (x.1 ++ leBytes 8 d.1.toNat, d.2)) ([], s)

/-- The DDR5 address of a bucket's tag line (R171). -/
def tagAddr (s : State) (t b : Nat) : Nat := tblBase s t + 320 * b

/-- The tag line of a DRAM bucket is rewritten, through client port 2 (R171, R412). -/
def tagPut (s : State) (t b : Nat) : State :=
  let r := drawBytes s 8
  dramWrite r.2 (tagAddr s t b) r.1 2

/-- The tag lines that name an entry at `loc` (R171): its bucket's, and that of its primary bucket where it lives in its secondary. -/
def tagsOf (s : State) (t loc : Nat) (e : Item) : List Nat :=
  let p := bucketOf s t 0 (entKey e (tblKeyLen s t))
  if entValid e && p != loc / 4 then [loc / 4, p] else [loc / 4]

/-- The tag lines that a change of a DRAM location from `old` to `e` touches are rewritten. -/
def touchTags (s : State) (t loc : Nat) (old e : Item) : State :=
  foldS (tagsOf s t loc old ++ tagsOf s t loc e).eraseDups (fun u b => tagPut u t b) s

/-- Copies of an entry leave the flow cache (R174). -/
def fcDrop (s : State) (t loc : Nat) : State :=
  { s with agt := { s.agt with fc := s.agt.fc.filter (fun w => !(w.table == t && w.loc == loc)) } }

/-- An entry written at a location: its cached copy goes, and its check unit is written (R174, R463). A DRAM entry holds HIT 0. -/
def emPut (s : State) (t loc : Nat) (e : Item) : State :=
  let s1 := fcDrop s t loc
  if locInDram s1 t loc then
    let s2 := dramWrite (touchTags s1 t loc (emRaw s1 t loc) e) (entryAddr s1 t loc) (itemBytes (BitVec.ofNat 512 (putBit e.toNat 28 false))) 2
    noteWrite s2 6 0 (locKey t loc) loc true
  else
    noteWrite { s1 with agt := { s1.agt with em := mset noItem s1.agt.em (locKey t loc) e } } 6 0 (locKey t loc) loc true

/-- A location on the parity list holds no entry (R202). -/
def locListed (s : State) (t loc : Nat) : Bool := s.agt.listed.contains (t, loc)

/-- A valid entry that lookups and maintenance see. -/
def locLive (s : State) (t loc : Nat) : Bool := entValid (emRaw s t loc) && !locListed s t loc

/-- A free way (R192). -/
def locFree (s : State) (t loc : Nat) : Bool := !entValid (emRaw s t loc) && !locListed s t loc

def waysOf (b : Nat) : List Nat := [4 * b, 4 * b + 1, 4 * b + 2, 4 * b + 3]

/-- The candidate ways of a key, primary first. -/
def candWays (s : State) (t : Nat) (key : List Byte) : List Nat :=
  let p := bucketOf s t 0 key
  let q := bucketOf s t 1 key
  if p = q then waysOf p else waysOf p ++ waysOf q

/-- The stash locations of a table, in slot order (R170, R172). -/
def stashLocs (s : State) (t : Nat) : List Nat :=
  (s.agt.stash.filter (fun e => e.2 == some t)).map (fun e => tblSize s t + e.1)

/-! ## Parity (R202, R203) -/

/-- What a read of an entry through client port `port` finds: its check bits, and for a DRAM entry the burst as the controller returns it
(R450). -/
def emProbe (s : State) (port t loc : Nat) : State × Bool :=
  let bad := decide (unitErr s 6 (locKey t loc) ≠ 0)
  if locInDram s t loc then
    let r := dramProbe s (entryAddr s t loc / 64) port
    (r.1, bad || r.2)
  else (s, bad)

/-- What a read of a DRAM bucket's tag line finds. -/
def tagProbe (s : State) (port t b : Nat) : State × Bool := dramProbe s (tagAddr s t b / 64) port

def addCount (s : State) (t : Nat) : State := s.setFld F.AGT_TBL_STS_COUNT t (s.fld F.AGT_TBL_STS_COUNT t + 1)
def subCount (s : State) (t : Nat) : State := s.setFld F.AGT_TBL_STS_COUNT t (s.fld F.AGT_TBL_STS_COUNT t - 1)

/-- A table parity error reported and its location listed (R202, R203, R213). -/
def noteParity (s : State) (t loc : Nat) : State :=
  let full := decide (1024 ≤ s.agt.listed.length)
  let s1 := count (s.bump F.AGT_ERR_PARITY 0 1) (12288 + 8 * t + 5) 1 0
  let s2 := s1.setReg .AGT_ERR_LOC 0 (t * 2 ^ 32 + loc % 2 ^ 28)
  let s3 := eventRecord (s2.bump F.RST_ERR_CNT_UE 6 1) 4 4 t loc (b2n full)
  if full || locListed s3 t loc then s3
  else
    let s4 := if (tblType s3 t = 0 && entValid (emRaw s3 t loc)) || tblType s3 t = 1 then subCount s3 t else s3
    raiseSrc { s4 with agt := { s4.agt with listed := s4.agt.listed ++ [(t, loc)] } } 163 t

/-- Learning is suppressed for a key (R202, R203): a candidate bucket or the table's stash has a listed location, or the list is full. -/
def learnBlocked (s : State) (t : Nat) (key : List Byte) : Bool :=
  decide (1024 ≤ s.agt.listed.length) || (candWays s t key).any (locListed s t) ||
  s.agt.listed.any (fun x => x.1 == t && decide (tblSize s t ≤ x.2))

/-! ## Counter sets of entries (R179, R452) -/

/-- The check unit of an on-chip entry's counter set, beside the entry's own. -/
def setUnit (t loc : Nat) : Nat := 2 ^ 40 + locKey t loc

/-- The DDR5 address of a DRAM location's counter set. -/
def setAddr (s : State) (t loc : Nat) : Nat := s.fld F.AGT_TBL_CBASE_CBASE t * 2 ^ 20 + 32 * loc

def entSet (s : State) (t loc : Nat) : CntSet := mget noSet s.tim.entryCnt (locKey t loc)
def putEntSet (s : State) (t loc : Nat) (c : CntSet) : State :=
  { s with tim := { s.tim with entryCnt := mset noSet s.tim.entryCnt (locKey t loc) c } }

/-- A read of a location's counter set through client port `port`: an error in its check bits makes the set invalid (R452). -/
def setProbe (s : State) (port t loc : Nat) : State :=
  let (bad, u) :=
    if locInDram s t loc || (tblDram s t && tblType s t = 2) then
      let r := dramPass s port (setAddr s t loc / 64) none
      (decide (r.2.1 &&& (if loc % 2 = 0 then 3 else 12) ≠ 0), r.2.2)
    else (decide (unitErr s 6 (setUnit t loc) ≠ 0), s)
  if bad && !(entSet u t loc).bad then putEntSet (noteUe u 6 4 5 2 t loc) t loc { entSet u t loc with bad := true } else u

/-- A location's counter set written with good check bits. -/
def setStore (s : State) (port t loc : Nat) (c : CntSet) : State :=
  let u := putEntSet s t loc c
  if locInDram s t loc || (tblDram s t && tblType s t = 2) then
    let r := drawBytes u 4
    dramWrite r.2 (setAddr s t loc) r.1 port
  else noteWrite u 6 0 (setUnit t loc) loc true

/-- A hit counted in its location's set; what reaches an invalid set is lost. -/
def countEntry (s : State) (t loc pk by_ : Nat) : State :=
  let u := setProbe s 1 t loc
  let c := entSet u t loc
  if c.bad then u else setStore u 1 t loc (setAdd (u.flag F.TIM_EPOCH_STS_LIVE 0) c pk by_)

/-- A moving entry's banks are added onto those of its destination and the source clears. -/
def moveCounts (s : State) (t from_ to_ : Nat) : State :=
  if !s.flag F.AGT_TBL_CFG_CNT_EN t then s
  else
    let u := setProbe (setProbe s 2 t from_) 2 t to_
    let a := entSet u t from_
    let b := entSet u t to_
    let join := fun (x y : Bank) => ({ pkts := x.pkts + y.pkts, bytes := x.bytes + y.bytes, mark := x.mark || y.mark } : Bank)
    setStore (setStore u 2 t to_ ⟨join a.a b.a, join a.b b.b, a.bad || b.bad⟩) 2 t from_ (noSet 0)

/-! ## Tables lose and gain entries -/


/-- A stash slot taken by, or given back by, a table (R172). -/
def stashTake (s : State) (t slot : Nat) : State :=
  let u := { s with agt := { s.agt with stash := mset noTgt s.agt.stash slot (some t) } }
  (u.setFld F.AGT_TBL_STASH_USED t (u.fld F.AGT_TBL_STASH_USED t + 1)).setFld F.AGT_STS_STASH_USED 0 (u.fld F.AGT_STS_STASH_USED 0 + 1)
def stashGive (s : State) (t slot : Nat) : State :=
  let u := { s with agt := { s.agt with stash := mset noTgt s.agt.stash slot none } }
  (u.setFld F.AGT_TBL_STASH_USED t (u.fld F.AGT_TBL_STASH_USED t - 1)).setFld F.AGT_STS_STASH_USED 0 (u.fld F.AGT_STS_STASH_USED 0 - 1)

/-- An entry moved from one location to another, with its hit bit and counts (R179, R192). -/
def emMove (s : State) (t from_ to_ : Nat) : State :=
  let e := emRaw s t from_
  let h := emHit s t from_
  let s1 := setHit (emPut s t to_ e) t to_ h
  let s2 := emPut (setHit s1 t from_ false) t from_ 0
  moveCounts s2 t from_ to_

/-- A window record of an entry is dropped. -/
def trackDrop (s : State) (t : Nat) (key : List Byte) : State :=
  { s with agt := { s.agt with track := s.agt.track.filter (fun x => !(x.table == t && x.key == key)) } }

/-- A freed way may take a stash entry whose candidate it is (R193): whether, and which, is a free choice. -/
def stashMigrate (s : State) (t way : Nat) : State :=
  if cursorOpen s t then s
  else
    let n := tblKeyLen s t
    let cands := (stashLocs s t).filter (fun l => locLive s t l && (candWays s t (entKey (emRaw s t l) n)).contains way)
    if cands.isEmpty then s
    else
      let (i, u) := draw s (cands.length + 1)
      match cands[i]? with
      | none => u
      | some l => if unitErr u 6 (locKey t l) ≠ 0 then noteParity u t l else stashGive (emMove u t l way) t (l - tblSize u t)

/-- An entry deleted: its location becomes free (R193). -/
def emDelete (s : State) (t loc : Nat) : State :=
  let key := entKey (emRaw s t loc) (tblKeyLen s t)
  let s1 := subCount (emPut (setHit (trackDrop s t key) t loc false) t loc 0) t
  if loc < tblSize s t then stashMigrate s1 t loc else stashGive s1 t (loc - tblSize s t)

/-! ## Inserts (R192) -/

/-- Displacement paths of exactly `d` moves that free a way of bucket `b`, as the moves in order from that bucket; no location
appears twice. -/
def dispPaths (s : State) (t : Nat) : Nat → Nat → List Nat → List (List (Nat × Nat))
  | 0, _, _ => []
  | d + 1, b, seen =>
    (waysOf b).flatMap (fun w =>
      if !locLive s t w || seen.contains w then []
      else
        let k := entKey (emRaw s t w) (tblKeyLen s t)
        let p := bucketOf s t 0 k
        let o := if p = b then bucketOf s t 1 k else p
        if o = b then []
        else if d = 0 then
          match (waysOf o).find? (fun x => locFree s t x && !seen.contains x) with
          | some x => [[(w, x)]]
          | none => []
        else
          (dispPaths s t d o (w :: seen)).filterMap (fun path =>
            match path with
            | (x, y) :: r => some ((w, x) :: (x, y) :: r)
            | [] => none))

/-- The shortest paths of at most `DISP_MAX` moves from either candidate bucket. -/
def shortPaths (s : State) (t : Nat) (key : List Byte) (maxd : Nat) : List (List (Nat × Nat)) :=
  let p := bucketOf s t 0 key
  let q := bucketOf s t 1 key
  let at_ := fun d => dispPaths s t d p [] ++ (if p = q then [] else dispPaths s t d q [])
  match ((List.range maxd).map (· + 1)).find? (fun d => !(at_ d).isEmpty) with
  | some d => at_ d
  | none => []

/-- What an insert did: the location, the moves and whether it went to the stash; or none, and whether a cursor blocked moves. -/
structure Placed where
  loc : Option Nat
  moves : Nat
  stashed : Bool
  blocked : Bool
deriving DecidableEq, Repr

/-- The entries that a path moves, read before they move (R202): the first location found with a parity error. -/
def probePath (s : State) (t : Nat) : List (Nat × Nat) → State × Option Nat
  | [] => (s, none)
  | x :: r =>
    let p := emProbe s 2 t x.1
    if p.2 then (p.1, some x.1) else probePath p.1 t r

/-- The shortest displacement path whose entries read good, which of several being a free choice. An entry with a parity error is listed,
and the search begins again; the fuel is the room left in the parity list. -/
def choosePath (t : Nat) (key : List Byte) : Nat → State → List (Nat × Nat) × State
  | 0, s => ([], s)
  | f + 1, s =>
    let paths := shortPaths s t key (s.fld F.AGT_TBL_CFG_DISP_MAX t)
    if paths.isEmpty then ([], s)
    else
      let (i, u) := draw s paths.length
      let path := paths[i]?.getD []
      match probePath u t path with
      | (v, none) => (path, v)
      | (v, some l) => choosePath t key f (noteParity v t l)

/-- A new entry placed at the first of R192's places that succeeds, with its hit bit set (R191). Which free stash slot is taken is a free
choice. -/
def emInsert (s : State) (t : Nat) (e : Item) : Placed × State :=
  let key := entKey e (tblKeyLen s t)
  let put := fun (u : State) l => addCount (setHit (emPut u t l e) t l true) t
  match (candWays s t key).find? (locFree s t) with
  | some l => (⟨some l, 0, false, false⟩, put s l)
  | none =>
    let open_ := cursorOpen s t
    let (path, u) := if open_ then ([], s) else choosePath t key (1025 - s.agt.listed.length) s
    match path with
    | m :: ms =>
      let v := foldS (m :: ms).reverse (fun w x => emMove w t x.1 x.2) u
      (⟨some m.1, ms.length + 1, false, false⟩, put v m.1)
    | [] =>
      if u.fld F.AGT_TBL_STASH_USED t < min 4096 (u.fld F.AGT_TBL_STASH_MAX t) && u.fld F.AGT_STS_STASH_USED 0 < 4096 then
        let (i, v) := draw u (4096 - u.fld F.AGT_STS_STASH_USED 0)
        let slot := nthFree (u.agt.stash.map (·.1)) i
        (⟨some (tblSize u t + slot), 0, true, false⟩, put (stashTake v t slot) (tblSize u t + slot))
      else (⟨none, 0, false, open_⟩, u)

/-! ## The flow cache (R173) -/

def fcProbe (s : State) (t loc : Nat) : Bool := s.agt.fc.any (fun w => w.table == t && w.loc == loc)

/-- A copy is marked referenced. -/
def fcTouch (s : State) (t loc : Nat) : State :=
  { s with agt := { s.agt with fc := s.agt.fc.map (fun w => if w.table == t && w.loc == loc then { w with used := true } else w) } }

/-- A fill into the key's set, in place of a way not referenced since the set's bits last cleared (R173). The set of a key, and
which such way goes, are free values. -/
def fcFill (s : State) (t loc : Nat) (key : List Byte) : State :=
  let set := Config.bucketHash t 2 key % 32768
  let there := s.agt.fc.filter (fun w => w.set == set)
  let new : FcWay := ⟨t, loc, set, true⟩
  if there.length < 16 then { s with agt := { s.agt with fc := s.agt.fc ++ [new] } }
  else
    let all := there.all (·.used)
    let fc1 := if all then s.agt.fc.map (fun w => if w.set == set then { w with used := false } else w) else s.agt.fc
    let cands := fc1.filter (fun w => w.set == set && !w.used)
    let (i, u) := draw s cands.length
    match cands[i]? with
    | some v => { u with agt := { u.agt with fc := fc1.filter (fun w => w != v) ++ [new] } }
    | none => u

/-! ## LPM prefixes (R177) -/

/-- A 128-bit value with the bits beyond `n` cleared. -/
def keepBits (a : W128) (n : Nat) : W128 := if n = 0 then 0 else BitVec.ofNat 128 (a.toNat / 2 ^ (128 - n) * 2 ^ (128 - n))

/-- The check unit of an LPM prefix by its place in the table. -/
def pfxUnit (t place : Nat) : Nat := 2 ^ 41 + locKey t place

/-- The prefixes that a table stores, and those that lookups and commands see: a listed place holds none (R202). -/
def pfxAll (s : State) (t : Nat) : List Prefix := mget noPfx s.agt.lpm t
def pfxOf (s : State) (t : Nat) : List Prefix := (pfxAll s t).filter (fun p => !locListed s t p.place)

def setPfx (s : State) (t : Nat) (l : List Prefix) : State :=
  let u := { s with agt := { s.agt with lpm := mset noPfx s.agt.lpm t l } }
  u.setFld F.AGT_TBL_STS_COUNT t (pfxOf u t).length

/-- A prefix written into the table at its place, in the order of R209. -/
def putPfx (s : State) (t : Nat) (p : Prefix) (l : List Prefix) : State := noteWrite (setPfx s t l) 6 0 (pfxUnit t p.place) p.place true

/-- Ascending order of PREFIX and then PLEN (R209). -/
def pfxBefore (a : W128) (n : Nat) (b : W128) (m : Nat) : Bool := decide (a.toNat < b.toNat) || (a == b && decide (n < m))

def pfxInsert (p : Prefix) : List Prefix → List Prefix
  | [] => [p]
  | q :: r => if pfxBefore p.addr p.plen q.addr q.plen then p :: q :: r else q :: pfxInsert p r

/-- The longest prefix that matches (R177). -/
def lpmMatch (l : List Prefix) (k : W128) : Option Prefix :=
  l.foldl (fun b p => if keepBits k p.plen == p.addr then
    (match b with | some q => if q.plen < p.plen then some p else b | none => some p) else b) none

/-- Key bytes as a left-aligned 128-bit value. -/
def lpmKey (v6 : Bool) (key : List Byte) : W128 :=
  let n := if v6 then 16 else 4
  BitVec.ofNat 128 (beNat ((key ++ List.replicate 16 0).take n) * 2 ^ (128 - 8 * n))

/-! ## DIR entries (R178) -/

/-- Bytes of DIR entry `i` as stored. -/
def dirRaw (s : State) (t i : Nat) : List Byte :=
  let n := tblEntryBytes s t
  if tblDram s t then rdBytes s.dram (tblBase s t + i * n) n else (List.range n).map (fun j => mget zeroByte s.agt.dir (locKey t (i * n + j)))

/-- DIR entry `i` written. -/
def dirPut (s : State) (t i : Nat) (bs : List Byte) : State :=
  let n := tblEntryBytes s t
  let b := (bs ++ List.replicate 16 0).take n
  let u := if tblDram s t then dramWrite s (tblBase s t + i * n) b 2
    else { s with agt := { s.agt with dir := wrBytes s.agt.dir (locKey t (i * n)) b } }
  noteWrite u 6 0 (locKey t i) i true

/-- What a read of a DIR entry finds. -/
def dirProbe (s : State) (port t i : Nat) : State × Bool :=
  let bad := decide (unitErr s 6 (locKey t i) ≠ 0)
  if tblDram s t then
    let r := dramProbe s ((tblBase s t + i * tblEntryBytes s t) / 64) port
    (r.1, bad || r.2)
  else (s, bad)

/-! ## Lookups (R181, R182) -/

/-- A response's first word, location, source port and data (R182). -/
structure Resp where
  status : Nat
  where_ : Nat
  frozen : Bool
  static_ : Bool
  gen : Nat
  plen : Nat
  loc : Nat
  src : Nat
  data : List Byte
deriving DecidableEq, Repr

def noResp (status : Nat) : Resp := ⟨status, 0, false, false, 0, 0, 0xFFFFFFFF, 0, []⟩

/-- The 32 bytes of a response (R182). -/
def respBytes (t : Nat) (r : Resp) : List Byte :=
  let w0 := r.status * 2 ^ 28 + r.where_ * 2 ^ 26 + b2n r.frozen * 2 ^ 25 + b2n r.static_ * 2 ^ 24 + r.gen * 2 ^ 16 + r.plen * 2 ^ 8 + t
  leBytes 4 w0 ++ leBytes 4 r.loc ++ leBytes 4 r.src ++ leBytes 4 0 ++ (r.data ++ List.replicate 16 0).take 16

/-- A request is counted where it hits (R179, R180). -/
def countHit (s : State) (k : Lkp) (loc : Nat) : State :=
  if k.cnt && s.flag F.AGT_TBL_CFG_CNT_EN k.table then countEntry s k.table loc 1 k.cbytes else s

/-- An EM hit at `loc` (R191): the response and the state after it. -/
def emHitResp (s : State) (k : Lkp) (loc where_ : Nat) : Resp × State :=
  let e := emRaw s k.table loc
  (⟨0, where_, entFrozen e, entStatic e, entGen e, 0, loc, entSrc e, ((itemBytes e).drop 48)⟩,
   countHit (setHit s k.table loc true) k loc)

/-- Of the given on-chip locations, the first whose entry compares equal and reads good, and the first that reads with an error. -/
def emCompare (s : State) (t : Nat) (key : List Byte) (l : List Nat) : Option Nat × Option Nat :=
  (l.find? (fun x => entKey (emRaw s t x) (tblKeyLen s t) == key && unitErr s 6 (locKey t x) == 0), l.find? (fun x => unitErr s 6 (locKey t x) != 0))

def emStash (s : State) (t : Nat) : List Nat := (stashLocs s t).filter (locLive s t)
def emWays (s : State) (t : Nat) (key : List Byte) : List Nat := (candWays s t key).filter (locLive s t)

/-- A search of a DRAM table's buckets (R171): the primary bucket's tag line, then the entry line that it names. The state, the entry found,
and a location with a parity error; an error of a tag line is one of its bucket's first way (log entry 20). -/
def dramSeek (s : State) (port t : Nat) (key : List Byte) : State × Option Nat × Option Nat :=
  let p := bucketOf s t 0 key
  let (u, bad) := tagProbe s port t p
  if bad then (u, none, some (4 * p))
  else match (emWays u t key).find? (fun x => entKey (emRaw u t x) (tblKeyLen u t) == key) with
    | none => (u, none, none)
    | some l =>
      let (v, bad) := emProbe u port t l
      if bad then (v, none, some l) else (v, some l, none)

/-- The entry of a key as maintenance finds it (R196, R202, R208): a location with a parity error is listed, unless a good entry matches. -/
def emSeek (s : State) (t : Nat) (key : List Byte) : State × Option Nat :=
  match emCompare s t key (emStash s t) with
  | (some l, _) => (s, some l)
  | (none, b) =>
    let (u, hit, bad) := if tblDram s t then dramSeek s 2 t key else (let r := emCompare s t key (emWays s t key); (s, r.1, r.2))
    match hit, bad, b with
    | some l, _, _ => (u, some l)
    | none, some l, _ => (noteParity u t l, none)
    | none, none, some l => (noteParity u t l, none)
    | none, none, none => (u, none)

/-- An EM lookup that no entry answers: PARITY where it met a location in error, else MISS. -/
def emMiss (s : State) (t : Nat) (bad : Option Nat) : Resp × State :=
  match bad with
  | some l => (noResp 2, noteParity s t l)
  | none => (noResp 1, count s (12288 + 8 * t + 2) 1 0)

/-- A lookup of a DRAM table past the stash: the flow cache, then DRAM (R171, R173, R175). `b` is a stash slot in error. -/
def lookupDram (s : State) (k : Lkp) (key : List Byte) (b : Option Nat) : Resp × State :=
  let t := k.table
  let set := 12288 + 8 * t
  let fc := s.flag F.AGT_TBL_CFG_FC_EN t
  let copy := if fc then (emWays s t key).find? (fun x => entKey (emRaw s t x) (tblKeyLen s t) == key && fcProbe s t x) else none
  let good := match copy with | some l => unitErr s 7 (locKey t l) == 0 | none => false
  match copy, good with
  | some l, true => emHitResp (fcTouch (count (count s (set + 3) 1 0) (set + 1) 1 0) t l) k l 1
  | _, _ =>
    let s1 := match copy with
      | some l => setUnitErr (((fcDrop s t l).bump F.AGT_ERR_FC_PARITY 0 1).bump F.RST_ERR_CNT_UE 7 1) 7 (locKey t l) 0
      | none => s
    match dramSeek (count s1 (set + 4) 1 0) 1 t key with
    | (u, some l, _) =>
      let r := emHitResp (count u (set + 1) 1 0) k l 2
      if fc then (r.1, noteWrite (fcFill r.2 t l key) 7 0 (locKey t l) l true) else r
    | (u, none, some l) => emMiss u t (some l)
    | (u, none, none) => emMiss u t b

/-- An EM lookup (R170–R175, R182, R191, R202): the stash first, then the candidate buckets. An error in a location that must be compared
answers PARITY unless a good entry matches (log entry 20). -/
def lookupEm (s : State) (k : Lkp) : Resp × State :=
  let t := k.table
  let key := (k.key ++ List.replicate 40 0).take (tblKeyLen s t)
  let set := 12288 + 8 * t
  match emCompare s t key (emStash s t) with
  | (some l, _) => emHitResp (count (count s (set + 6) 1 0) (set + 1) 1 0) k l 3
  | (none, b) =>
    if tblDram s t then lookupDram s k key b
    else match emCompare s t key (emWays s t key) with
      | (some l, _) => emHitResp (count s (set + 1) 1 0) k l 0
      | (none, w) => emMiss s t (match w with | some l => some l | none => b)

/-- The index that a DIR lookup takes from its key (R181). -/
def dirIndex (key : List Byte) : Nat := beNat (key.take 4)

/-- A lookup's response and the state after it, for the table as it now is. A table that initialises answers MISS (R168). -/
def lookupResp (s : State) (k : Lkp) : Resp × State :=
  let t := k.table
  let set := 12288 + 8 * t
  let s0 := count s set 1 0
  if s0.flag F.AGT_TBL_STS_INIT t then (noResp 1, count s0 (set + 2) 1 0)
  else if tblType s0 t = 0 then lookupEm s0 k
  else if tblType s0 t = 1 then
    match lpmMatch (pfxOf s0 t) (lpmKey (s0.flag F.AGT_TBL_CFG_V6 t) k.key) with
    | some p =>
      if unitErr s0 6 (pfxUnit t p.place) ≠ 0 then (noResp 2, noteParity s0 t p.place)
      else ({ noResp 0 with plen := p.plen, data := leBytes 8 p.result.toNat }, count s0 (set + 1) 1 0)
    | none => (noResp 1, count s0 (set + 2) 1 0)
  else
    let i := dirIndex k.key
    if tblSize s0 t ≤ i then (noResp 3, count s0 (set + 7) 1 0)
    else
      let s1 := if tblDram s0 t then count s0 (set + 4) 1 0 else s0
      if locListed s1 t i then (noResp 2, count s1 (set + 5) 1 0)
      else
        let (s2, bad) := dirProbe s1 1 t i
        if bad then (noResp 2, noteParity s2 t i)
        else
          ({ noResp 0 with where_ := if tblDram s2 t then 2 else 0, loc := i, data := dirRaw s2 t i },
           countHit (count s2 (set + 1) 1 0) k i)

/-- A lookup of a table that is absent or disabled, or while Agate is disabled, is answered ABSENT (R169, R182, R187). -/
def lookupAbsent (s : State) (k : Lkp) : Resp × State :=
  (noResp 4, count (count s (12288 + 8 * k.table) 1 0) (12288 + 8 * k.table + 7) 1 0)

/-- The learn request that a lookup makes (R194, R195). -/
def learnAfter (s : State) (k : Lkp) (r : Resp) : State :=
  let t := k.table
  if k.learn && tblType s t == 0 && s.flag F.AGT_TBL_CFG_LRN_EN t &&
      (r.status == 1 || (r.status == 0 && r.src != k.srcport.toNat)) then
    let n := tblKeyLen s t
    let pad := k.key ++ List.replicate 64 0
    let act := ((k.key.drop n) ++ List.replicate 16 0).take 16
    let s1 := count s (12800 + 8 * t) 1 0
    if s1.agt.learnq.length < 4096 then
      { s1 with agt := { s1.agt with learnq := s1.agt.learnq ++ [⟨t, pad.take n, BitVec.ofNat 128 (leNat act), k.srcport⟩] } }
    else count s1 (12800 + 8 * t + 2) 1 0
  else s

end Sys2Proof.Machine
end

