-- ==== Sys2Proof/Machine/Ctl.lean ====
section
/-!
DEFINITION. Control rings (R107–R109): how a command starts, how it completes, and the status codes.
-/

namespace Sys2Proof.Machine

/-! ## Status codes (R109) -/

def stOk : Nat := 0
def stBadOp : Nat := 1
def stDenied : Nat := 2
def stRange : Nat := 3
def stAbsent : Nat := 4
def stBadHandle : Nat := 5
def stQoff : Nat := 6
def stFull : Nat := 7
def stFullDeferred : Nat := 8
def stNotFound : Nat := 9
def stExists : Nat := 10
def stBusy : Nat := 11
def stAcqAbandoned : Nat := 12
def stNoBuf : Nat := 13
def stBadLen : Nat := 14
def stFlushed : Nat := 15
def stDmaErr : Nat := 16
def stReset : Nat := 17

/-! ## Starting and completing -/

def ctrSize (s : State) (k : Nat) : Nat := ringSize (s.fld F.HIF_CTR_CFG_SIZE_LOG2 k)
def ctrNext (s : State) (k : Nat) : Nat := mget noNat s.hif.ctlNext k

/-- A command of ring `k` can start now (R107): it waits in the ring, fewer than 64 are in progress, a fence finds none, and
its function can read host memory. -/
def ctrCanStart (s : State) (k : Nat) (fence : Bool) : Bool :=
  let running := (s.hif.ctl.filter (fun c => c.ring == k && !c.dead)).length
  pktUp s && s.flag F.HIF_CTR_CFG_EN k && ctrNext s k != s.fld F.HIF_CTR_PROD_PROD k &&
  fnCanDma s (s.fld F.HIF_CTR_CFG_FN k) && decide (running < 64) && !(fence && decide (0 < running))

/-- CONS advanced over the run of completed slots (R107); the fuel is the number of completed slots. -/
def ctrAdvance : Nat → State → Nat → State
  | 0, s, _ => s
  | f + 1, s, k =>
    let c := s.fld F.HIF_CTR_STS_CONS k
    if mget noBool s.hif.ctlDone (k * 2 ^ 17 + c) then
      let u := { s with hif := { s.hif with ctlDone := mset noBool s.hif.ctlDone (k * 2 ^ 17 + c) false } }
      ctrAdvance f (u.setFld F.HIF_CTR_STS_CONS k ((c + 1) % (2 * ctrSize u k))) k
    else s

/-- The completion of the command at `index` of ring `k` (R107, R109): 64 bytes over the command, CONS, and the message that IRQ asks
for. -/
def ctlComplete (s : State) (k index : Nat) (word0 token : W32) (fn status : Nat) (body : List Nat) : State :=
  let nt := nt64 s
  let ws := [word0.toNat % 2 ^ 16 + status * 2 ^ 16, token.toNat, nt % 2 ^ 32, nt / 2 ^ 32] ++ body
  let bs := leBytes 64 (ws.foldr (fun w a => w % 2 ^ 32 + 2 ^ 32 * a) 0)
  let a := s.fld F.HIF_CTR_BASE_ADDR k * 4096 + 64 * (index % ctrSize s k)
  let s1 := hostWrite s fn a bs
  let s2 := { s1 with hif := { s1.hif with ctlDone := mset noBool s1.hif.ctlDone (k * 2 ^ 17 + index) true } }
  let s3 := ctrAdvance (s2.hif.ctlDone.length + 1) s2 k
  if word0.getLsbD 25 then sendMsg s3 fn (s3.fld F.HIF_CTR_CFG2_VECTOR k) else s3

/-- What a command answers: its status and completion body, or work that completes later. -/
inductive CtlRes where
  | done (status : Nat) (body : List Nat)
  | later (work : CtlWork)
deriving DecidableEq, Repr

/-- The command envelope's word 0 as software writes it (R107). -/
def ctlWord0 (irq fence : Bool) (op : Nat) : W32 := BitVec.ofNat 32 (2 ^ 31 + b2n irq * 2 ^ 25 + b2n fence * 2 ^ 24 + op % 2 ^ 16)

/-- A control command with opcode `op` (R107, R108): refused by its class or run by `f`, which is given the ring's function. With
no such command able to start, nothing happens. -/
def ctlExec (s : State) (c : Ctl) (op : Nat) (f : State → Nat → CtlRes × State) : State :=
  let k := c.ring.val
  if !ctrCanStart s k c.fence then s
  else
    let fn := s.fld F.HIF_CTR_CFG_FN k
    let i := ctrNext s k
    let w0 := ctlWord0 c.irq c.fence op
    let s1 := { s with hif := { s.hif with ctlNext := mset noNat s.hif.ctlNext k ((i + 1) % (2 * ctrSize s k)) } }
    if 6 ≤ op / 256 then ctlComplete s1 k i w0 c.token fn stBadOp []
    else if !bitOf (s.fld F.HIF_CTR_CFG2_PERM k) (op / 256) then ctlComplete s1 k i w0 c.token fn stDenied []
    else
      match f s1 fn with
      | (.done st body, u) => ctlComplete u k i w0 c.token fn st body
      | (.later w, u) => { u with hif := { u.hif with ctl := u.hif.ctl ++ [⟨k, i, w0, c.token, fn, w, false⟩] } }

/-- Data written to the host memory of function `f`. -/
def hostWrites (s : State) (f : Nat) (ws : List (Nat × List Byte)) : State := foldS ws (fun u w => hostWrite u f w.1 w.2) s

/-- A command in progress completes: its data and its completion are written. One whose function has been reset ends without them (R113),
and one whose function cannot issue DMA keeps them until it can, its ring as it stands (R115, R554). -/
def ctlFinish (s : State) (c : CtlCmd) (data : List (Nat × List Byte)) (status : Nat) (body : List Nat) : State :=
  let rest := { s with hif := { s.hif with ctl := s.hif.ctl.erase c } }
  if c.dead then rest
  else if fnCanDma s c.fn then ctlComplete (hostWrites rest c.fn data) c.ring c.index c.word0 c.token c.fn status body
  else { s with hif := { s.hif with ctl := s.hif.ctl.map (fun x => if x = c then { c with work := .ended data status body } else x) } }

/-- Ended commands whose function can issue DMA again complete. -/
def ctlResume (s : State) : State :=
  foldS s.hif.ctl (fun u c =>
    match c.work with
    | .ended data status body => if fnCanDma u c.fn then ctlFinish u c data status body else u
    | _ => u) s

/-- Commands in progress that `p` picks are cut short by a block reset of the unit that owns them (R109, R117). -/
def ctlReset (s : State) (p : CtlWork → Bool) : State :=
  foldS s.hif.ctl (fun u c => if p c.work then ctlFinish u c [] stReset [] else u) s

/-- Body word `i` of a command. -/
def bodyWord (c : Ctl) (i : Nat) : Nat := (c.body.getD i 0).toNat

/-- Words i and i + 1 of a command's body as one 64-bit value. -/
def bodyDword (c : Ctl) (i : Nat) : Nat := bodyWord c i + 2 ^ 32 * bodyWord c (i + 1)

/-- NOP, and every opcode that its class does not define (R108). -/
def execNop (c : Ctl) (op : W16) (s : State) : Out :=
  .next (ctlExec s c op.toNat (fun u _ => (.done (if op.toNat = 1 then stOk else stBadOp) [], u)))

end Sys2Proof.Machine
end

