-- ==== Sys2Proof/Machine/CairnOps.lean ====
section
/-!
DEFINITION. Cairn's shared operations: handles (R122, R123), grants and frees under quotas (R128–R130, R138), chains and their
reference counts (R119–R121), and packet bytes with their poison (R447, R449).
-/

namespace Sys2Proof.Machine

def noChain : Nat → Option Chain := fun _ => none

/-- A cell's space and index; a cell number is 2^27 × space + index, its handle 8 × the number (R122). -/
def cellSpace (c : Nat) : Nat := c / 2 ^ 27
def cellIdx (c : Nat) : Nat := c % 2 ^ 27
def handleOf (c : Nat) : Nat := 8 * c
def nullHandle : Nat := 0xFFFFFFFF

def chainAt (s : State) (h : Nat) : Option Chain := mget noChain s.crn.chains h
def setChain (s : State) (h : Nat) (c : Option Chain) : State :=
  { s with crn := { s.crn with chains := mset noChain s.crn.chains h c } }

/-- Pool `k` covers cell `c` and is enabled, or disabled and not yet drained (R123). -/
def poolCovers (s : State) (k c : Nat) : Bool :=
  (s.flag F.CRN_POOL_CFG_EN k || !s.flag F.CRN_POOL_STS_DRAINED k) &&
  s.fld F.CRN_POOL_CFG_SPACE k == cellSpace c && s.fld F.CRN_POOL_CFG_BASE k ≤ cellIdx c &&
  decide (cellIdx c < s.fld F.CRN_POOL_CFG_BASE k + s.fld F.CRN_POOL_SIZE_SIZE k)

/-- The pool a cell belongs to. -/
def poolOf (s : State) (c : Nat) : Option Nat := (List.range 64).find? (fun k => poolCovers s k c)

/-- A handle in good form, of a cell in a live pool (R123). -/
def handleForm (s : State) (h : Nat) : Bool :=
  decide (h < 2 ^ 31) && h % 8 == 0 && (poolOf s (h / 8)).isSome

/-- A handle that passes the checks of an operation on a chain (R123). -/
def handleGood (s : State) (h : Nat) : Bool := handleForm s h && (chainAt s (h / 8)).isSome

/-- A failed handle check, counted and reported (R123, R430). -/
def noteBadHandle (s : State) (h : Nat) : State :=
  raiseSrc ((s.bump F.CRN_ERR_BAD_HANDLE 0 1).setReg .CRN_ERR_HANDLE 0 h) 164 h

/-- XOFF is left below this threshold (R129). -/
def xonOf (s : State) (r : Nat) : Nat := min (s.fld F.CRN_REQ_XON_XON r) (s.fld F.CRN_REQ_XOFF_XOFF r)

/-- A requester outside XOFF enters it when its usage has reached the threshold (R129, R138). -/
def reqEnter (s : State) (r : Nat) : State :=
  if !s.flag F.CRN_REQ_STS_XOFF_ACT r && decide (s.fld F.CRN_REQ_XOFF_XOFF r ≤ s.fld F.CRN_REQ_STS_USED r) then
    count (s.setFlag F.CRN_REQ_STS_XOFF_ACT r true) (8192 + 4 * r + 3) 1 0
  else s

/-- The requester re-evaluated after a grant or a free (R129, R136). -/
def reqEval (s : State) (r : Nat) : State :=
  if s.flag F.CRN_REQ_STS_XOFF_ACT r then
    (if s.fld F.CRN_REQ_STS_USED r < xonOf s r then s.setFlag F.CRN_REQ_STS_XOFF_ACT r false else s)
  else reqEnter s r

def noReq : Nat → Option Nat := fun _ => none

/-- Allocated cells of pool `k`, rising, as cell numbers. -/
def poolUsed (s : State) (k : Nat) : List Nat :=
  (s.crn.cellReq.map (·.1)).filter (fun c => s.fld F.CRN_POOL_CFG_SPACE k == cellSpace c &&
    s.fld F.CRN_POOL_CFG_BASE k ≤ cellIdx c && decide (cellIdx c < s.fld F.CRN_POOL_CFG_BASE k + s.fld F.CRN_POOL_SIZE_SIZE k))

/-- One past the last cell index of a space (R124). -/
def spaceEnd (s : State) (space : Nat) : Nat := if space = 0 then 524288 else min (2 ^ 27) (2 ^ s.fld F.CRN_DRAM_CFG_CELLS_LOG2 0)

/-- Free cells of pool `k` that its space has: a pool may be enabled over more, which no grant can take (log entry 57). -/
def poolFree (s : State) (k : Nat) : Nat :=
  s.fld F.CRN_POOL_STS_FREE k -
    (s.fld F.CRN_POOL_CFG_BASE k + s.fld F.CRN_POOL_SIZE_SIZE k - max (s.fld F.CRN_POOL_CFG_BASE k) (spaceEnd s (s.fld F.CRN_POOL_CFG_SPACE k)))

/-- One cell granted to requester `r`, or refused (R128): which free cell is taken is a free choice. -/
def grantCell (s : State) (r : Nat) : Option (Nat × State) :=
  let k := s.fld F.CRN_REQ_POOL_POOL r
  let free := s.fld F.CRN_POOL_STS_FREE k
  let used := s.fld F.CRN_REQ_STS_USED r
  if used < s.fld F.CRN_REQ_HARD_HARD r && s.flag F.CRN_POOL_CFG_EN k && 0 < poolFree s k then
    let (i, s0) := draw s (poolFree s k)
    let c := nthFree (poolUsed s k) (s.fld F.CRN_POOL_CFG_SPACE k * 2 ^ 27 + s.fld F.CRN_POOL_CFG_BASE k + i)
    let s1 := { s0 with crn := { s0.crn with cellReq := mset noReq s0.crn.cellReq c (some r) } }
    let s2 := (s1.setFld F.CRN_POOL_STS_FREE k (free - 1)).setFld F.CRN_REQ_STS_USED r (used + 1)
    let s3 := s2.setFld F.CRN_REQ_PEAK_PEAK r (max (s2.fld F.CRN_REQ_PEAK_PEAK r) (used + 1))
    some (c, reqEval s3 r)
  else none

/-- Up to `n` cells granted one at a time, in order. -/
def grantCells (s : State) (r : Nat) : Nat → List Nat × State
  | 0 => ([], s)
  | n + 1 =>
    let (l, u) := grantCells s r n
    if l.length = n then
      match grantCell u r with
      | some (c, v) => (l ++ [c], v)
      | none => (l, u)
    else (l, u)

/-- One cell returned to its pool and taken off its requester's usage (R120, R129). -/
def freeCell (s : State) (c : Nat) : State :=
  match mget noReq s.crn.cellReq c with
  | none => s
  | some r =>
    let s1 := { s with crn := { s.crn with cellReq := mset noReq s.crn.cellReq c none } }
    let s2 := match poolOf s c with
      | some k => s1.setFld F.CRN_POOL_STS_FREE k (s1.fld F.CRN_POOL_STS_FREE k + 1)
      | none => s1
    reqEval (s2.setFld F.CRN_REQ_STS_USED r (s2.fld F.CRN_REQ_STS_USED r - 1)) r

/-- Cells returned together: one FREED event for each requester charged, with its cells (R138). -/
def freeCells (s : State) (l : List Nat) : State :=
  let rs := l.filterMap (fun c => mget noReq s.crn.cellReq c)
  let s1 := foldS l freeCell s
  foldS rs.eraseDups (fun u r => count u (8192 + 4 * r + 2) 1 (rs.filter (· == r)).length) s1

/-- A request for `n` cells, all or none, with its counts (R130, R138). A request for none asks Cairn nothing. -/
def requestCells (s : State) (r n : Nat) : Option (List Nat) × State :=
  if n = 0 then (some [], s) else
  let (l, u) := grantCells s r n
  let g := l.length
  if g = n then (some l, count u (8192 + 4 * r) 1 n)
  else if g = 0 then (none, count u (8192 + 4 * r + 1) 1 n)
  else (none, freeCells (count (count u (8192 + 4 * r) 1 g) (8192 + 4 * r + 1) 1 (n - g)) l)

/-- Cells that hold `n` bytes (R119). -/
def cellsFor (n : Nat) : Nat := (n + 127) / 128

/-! ## Cell bytes and their check units -/

/-- The DDR5 address of a DRAM cell (R126). -/
def cellDram (s : State) (c : Nat) : Nat := s.fld F.CRN_DRAM_BASE_BASE 0 * 2 ^ 30 + 128 * cellIdx c

/-- Bytes written into one cell from offset `off`, through client port `port` for a DRAM cell (R412). -/
def writeCell (s : State) (port c off : Nat) (bs : List Byte) : State :=
  if cellSpace c = 0 then
    let a := 128 * cellIdx c + off
    let n := bs.length
    let s1 := { s with crn := { s.crn with bytes := wrBytes s.crn.bytes a bs } }
    if n = 0 then s1 else
    foldS ((List.range ((a + n - 1) / 16 - a / 16 + 1)).map (· + a / 16))
      (fun u k => noteWrite u 0 0 k k (decide (a ≤ 16 * k) && decide (16 * k + 16 ≤ a + n))) s1
  else dramWrite s (cellDram s c + off) bs port

/-- Bytes written along a chain's cells from absolute position `pos`, at most one cell's worth per step. -/
def writeCellsFrom (s : State) (port : Nat) (cells : List Nat) : Nat → Nat → List Byte → State
  | 0, _, _ => s
  | f + 1, pos, bs =>
    if bs.isEmpty then s else
    let n := 128 - pos % 128
    match cells[pos / 128]? with
    | none => s
    | some c => writeCellsFrom (writeCell s port c (pos % 128) (bs.take n)) port cells f (pos + n) (bs.drop n)

/-- Bytes written along a chain's cells. -/
def writeCells (s : State) (port : Nat) (cells : List Nat) (pos : Nat) (bs : List Byte) : State :=
  writeCellsFrom s port cells (bs.length / 128 + 2) pos bs

/-- One byte of a cell, as stored. -/
def cellByte (s : State) (c off : Nat) : Byte :=
  if cellSpace c = 0 then mget zeroByte s.crn.bytes (128 * cellIdx c + off) else mget zeroByte s.dram (cellDram s c + off)

/-- Byte at absolute position `pos` of a chain (before R119's first-byte offset is taken off). -/
def chainByteAt (s : State) (ch : Chain) (pos : Nat) : Byte :=
  match ch.cells[pos / 128]? with
  | some c => cellByte s c (pos % 128)
  | none => 0

/-- Packet bytes [p, p + n) of a chain, as stored. -/
def chainBytes (s : State) (ch : Chain) (p n : Nat) : List Byte :=
  (List.range n).map (fun i => chainByteAt s ch (ch.ofs + p + i))

/-! ## Link entries (R126, R445, R449) -/

/-- The DDR5 address of a DRAM cell's link entry. -/
def linkDram (s : State) (c : Nat) : Nat := s.fld F.CRN_DRAM_LINK_LINK_BASE 0 * 2 ^ 20 + 8 * cellIdx c

/-- A cell's link entry written. The 8 bytes of a DRAM cell's entry have no software-visible format and are free values. -/
def linkWrite (s : State) (c : Nat) : State :=
  if cellSpace c = 0 then noteWrite s 1 0 (cellIdx c) (cellIdx c) true
  else
    let (v, u) := drawValue s
    dramWrite u (linkDram u c) (leBytes 8 v.toNat) 3

/-- The client port through which a reader reads DRAM cells and their links (R412): egress reads for a line port through the real-time
port, and a thread's instructions through port 5. -/
def readerPort (reader : Nat) : Nat := if reader = 3 then 0 else if reader = 2 then 5 else 3

/-- What a read of a cell's link entry finds: the state after it and whether the link is lost. -/
def linkProbe (s : State) (reader c : Nat) : State × Bool :=
  if cellSpace c = 0 then
    let e := unitErr s 1 (cellIdx c)
    if e = 0 then (s, false)
    else if e = 1 then (noteCe (setUnitErr s 1 (cellIdx c) 0) 1 2 1 (handleOf c) reader, false)
    else (s, true)
  else dramProbe s (linkDram s c / 64) (readerPort reader)

/-- The first `m` links of a chain read: the state, and the chain as it stands, broken at the first link that is lost. -/
def chainLinks (s : State) (ch : Chain) (reader m : Nat) : State × Chain :=
  ((ch.cells.take m).zipIdx).foldl (fun (x : State × Chain) c =>
    match x.2.broken with
    | some b => if b ≤ c.2 then x else
      let r := linkProbe x.1 reader c.1
      if r.2 then linkBreak r.1 x.2 c.1 c.2 else (r.1, x.2)
    | none =>
      let r := linkProbe x.1 reader c.1
      if r.2 then linkBreak r.1 x.2 c.1 c.2 else (r.1, x.2)) (s, ch)
where
  /-- The chain breaks at cell `c`, its `i`-th. -/
  linkBreak (s : State) (ch : Chain) (c i : Nat) : State × Chain :=
    let x := { ch with broken := some (i + 1) }
    let h := ch.cells.headD 0
    let u := noteUe s 1 2 3 2 (handleOf c) 0
    (if (chainAt u h).isSome then setChain u h (some x) else u, x)

/-- What a reader finds in 16-byte unit `k` of a chain (R446, R447, R449, R450): the state after it and whether it is poisoned. `last` is
the DRAM burst that the reader has just read and its poisoned units: one read finds a burst's error once (R423). `buf` holds what the reader
has prefetched. `reader` is the reader code of CELL_CE and CELL_UE. -/
def probeUnit (s : State) (ch : Chain) (reader k : Nat) (buf : List (Nat × Nat)) (last : Option (Nat × Nat)) : State × Bool × Option (Nat × Nat) :=
  match ch.cells[k / 8]? with
  | none => (s, false, none)
  | some c =>
    let lost := match ch.broken with
      | some b => decide (b ≤ k / 8)
      | none => false
    if lost then (noteUe s 0 2 2 2 (handleOf c) reader, true, none)
    else if cellSpace c = 0 then
      let u := 8 * cellIdx c + k % 8
      let e := unitErr s 0 u
      if e = 0 then (s, false, none)
      else if e = 1 then (noteCe (setUnitErr s 0 u 0) 0 2 1 (handleOf c) reader, false, none)
      else (noteUe s 0 2 2 2 (handleOf c) reader, true, none)
    else
      let b := (cellDram s c + 16 * (k % 8)) / 64
      let r := match (last.toList ++ buf).find? (fun x => x.1 == b) with
        | some x => (x.2, s)
        | none => let y := dramPass s (readerPort reader) b none; (y.2.1, y.2.2)
      if bitOf r.1 (k % 4) then (noteUe r.2 0 2 2 2 (handleOf c) reader, true, some (b, r.1)) else (r.2, false, some (b, r.1))

/-- The units that packet bytes [p, p + n) of a chain touch. -/
def unitsOf (ch : Chain) (p n : Nat) : List Nat :=
  if n = 0 then [] else (List.range ((ch.ofs + p + n - 1) / 16 - (ch.ofs + p) / 16 + 1)).map (· + (ch.ofs + p) / 16)

/-- A read of packet bytes [p, p + n) by a reader that has prefetched `buf`: the state after it and the poisoned units. -/
def probeChainFrom (s : State) (ch : Chain) (reader p n : Nat) (buf : List (Nat × Nat)) : State × List Nat :=
  if n = 0 then (s, []) else
  let r := chainLinks s ch reader ((ch.ofs + p + n - 1) / 128)
  let u := (unitsOf ch p n).foldl (fun (x : State × List Nat × Option (Nat × Nat)) k =>
    let y := probeUnit x.1 r.2 reader k buf x.2.2; (y.1, if y.2.1 then k :: x.2.1 else x.2.1, y.2.2)) (r.1, [], none)
  (u.1, u.2.1)

/-- A read of packet bytes [p, p + n) by a reader: the state after it and the poisoned units. -/
def probeChain (s : State) (ch : Chain) (reader p n : Nat) : State × List Nat := probeChainFrom s ch reader p n []

/-! ## Chains -/

/-- A new chain under the name of its head, with reference count 1. -/
def newChain (s : State) (cells : List Nat) (len : Nat) (carry : Bool) (owner : Option Nat) : Nat × State :=
  let h := cells.headD 0
  (h, setChain (foldS cells linkWrite s) h (some ⟨cells, 1, 0, len, carry, owner, cells.length, none, none⟩))

/-- The cells a chain owns and whose links reach them (R392, R449). -/
def reachable (ch : Chain) : List Nat :=
  (ch.cells.take ch.own).take (match ch.broken with | some b => b | none => ch.own)

/-- One reference removed from chain `h` (R120): at 0 its cells return, and a new head drops its reference on the chain behind
it (R392). The fuel bounds the nesting of new heads. -/
def unrefFrom : Nat → State → Nat → State
  | 0, s, _ => s
  | f + 1, s, h =>
    match chainAt s h with
    | none => s
    | some ch =>
      if 1 < ch.refs then setChain s h (some { ch with refs := ch.refs - 1 })
      else
        let r := chainLinks s ch 5 (ch.own - 1)
        let u := freeCells (setChain r.1 h none) (reachable r.2)
        match ch.behind with
        | some b => unrefFrom f u b
        | none => u

/-- One reference removed from a chain (R120). -/
def unref (s : State) (h : Nat) : State := unrefFrom (s.crn.chains.length + 1) s h

/-- The reference that an item's HANDLE holds removed; the null handle holds none. -/
def unrefHandle (s : State) (h : Nat) : State := if h = nullHandle then s else unref s (h / 8)

/-- One reference added, or refused past 255 (R121). -/
def addRef (s : State) (h : Nat) : Option State :=
  match chainAt s h with
  | none => none
  | some ch => if ch.refs < 255 then some (setChain s h (some { ch with refs := ch.refs + 1 })) else none

/-- The chain passes out of its cluster's ownership (R132). -/
def disown (s : State) (h : Nat) : State :=
  match chainAt s h with
  | none => s
  | some ch => setChain s h (some { ch with owner := none })

/-- A packet of bytes stored under a requester, all or nothing (R98, R128, R130): its head, or none when Cairn refuses. `len` is
the packet length without the FCS bytes that follow when the chain carries them (R141, R455). -/
def storePacket (s : State) (r : Nat) (bs : List Byte) (len : Nat) (carry : Bool) : Option Nat × State :=
  match requestCells s r (cellsFor bs.length) with
  | (none, u) => (none, u)
  | (some cells, u) =>
    let (h, v) := newChain (writeCells u 3 cells 0 bs) cells len carry none
    (some h, v)

/-- The requester of a cluster's allocations and copies (R553). -/
def clusterReq (s : State) (n : Nat) : Nat := max 128 (s.fld F.CRN_CLU_CFG_REQ n)

/-- A free of a head that is free already: the handle names a cell that no chain holds (R123). -/
def doubleFree (s : State) (h : Nat) : Bool := handleForm s h && (chainAt s (h / 8)).isNone && (mget noReq s.crn.cellReq (h / 8)).isNone

/-- Chains owned by a cluster, by head (R132); 32 + n for what cluster n owned before its last reset. -/
def ownedBy (s : State) (n : Nat) : List Nat :=
  (s.crn.chains.filter (fun e => match e.2 with | some ch => ch.owner == some n | none => false)).map (·.1)

end Sys2Proof.Machine
end

