-- ==== Sys2Proof/Machine/Trace.lean ====
section
/-!
DEFINITION. Edsen's trace buffers (R521–R523). The limits of one record every 2 or 4 cycles are timing and are left out.
-/

namespace Sys2Proof.Machine

def noRec : Nat → W128 := fun _ => 0

/-- A record of four words. -/
def traceRec (w0 w1 w2 w3 : Nat) : W128 :=
  BitVec.ofNat 128 (w0 % 2 ^ 32 + 2 ^ 32 * (w1 % 2 ^ 32) + 2 ^ 64 * (w2 % 2 ^ 32) + 2 ^ 96 * (w3 % 2 ^ 32))

/-- A record stored at the write pointer of buffer `b`, and the pointer after it: its top bit is set once the buffer has filled. -/
def tracePut (s : State) (b lg : Nat) (ptr : Fld) (i : Nat) (w : W128) : State :=
  let p := s.fld ptr i
  let n := p % 2 ^ lg + 1
  let s1 := { s with dbg := { s.dbg with trace := mset noRec s.dbg.trace (4096 * b + p % 2 ^ lg) w } }
  s1.setFld ptr i (n % 2 ^ lg + (if p / 2 ^ lg = 1 || n = 2 ^ lg then 2 ^ lg else 0))

/-- The buffer is full: its pointer has come round to its start. -/
def traceFull (s : State) (lg : Nat) (ptr : Fld) (i : Nat) : Bool := s.fld ptr i == 2 ^ lg

/-- A cluster or MGT trace record of thread `t` (R521, R523). -/
def traceThr (s : State) (t type pc data : Nat) : State :=
  let w := traceRec (type * 2 ^ 28 + t) pc data (nt64 s)
  if 0x2000 ≤ t then
    if s.flag F.DBG_MTRC_CFG_EN 0 && bitOf (s.fld F.DBG_MTRC_CFG_TYPES 0) type && !s.flag F.DBG_MTRC_STS_STOPPED 0 then
      let u := tracePut s 32 10 F.DBG_MTRC_STS_WPTR 0 w
      if u.flag F.DBG_MTRC_CFG_STOP_FULL 0 && traceFull u 10 F.DBG_MTRC_STS_WPTR 0 then u.setFlag F.DBG_MTRC_STS_STOPPED 0 true else u
    else s
  else
    let n := t / 256
    if s.flag F.DBG_TRC_CFG_EN n && bitOf (s.fld F.DBG_TRC_CFG_TYPES n) type && bitOf (s.fld F.DBG_TRC_CFG_CORES n) (t / 32 % 8)
        && !s.flag F.DBG_TRC_STS_STOPPED n then
      let u := tracePut s n 12 F.DBG_TRC_STS_WPTR n w
      if u.flag F.DBG_TRC_CFG_STOP_FULL n && traceFull u 12 F.DBG_TRC_STS_WPTR n then u.setFlag F.DBG_TRC_STS_STOPPED n true else u
    else s

/-- An Orrery trace record (R522): TYPE 0 enqueue, 1 dispatch, 2 release, 3 skip, 4 drop, 5 RESET_DROP. -/
def traceOry (s : State) (type dom queue : Nat) (tag : Option Nat) (thr : Nat) : State :=
  let k := s.fld F.DBG_OTRC_CFG_FILT_KIND 0
  let f := s.fld F.DBG_OTRC_CFG_FILT 0
  if s.flag F.DBG_OTRC_CFG_EN 0 && (if k = 1 then dom == f else if k = 2 then queue == f else true)
      && !(s.flag F.DBG_OTRC_CFG_STOP_FULL 0 && decide (2 ^ 12 ≤ s.fld F.DBG_OTRC_STS_WPTR 0)) then
    tracePut s 33 12 F.DBG_OTRC_STS_WPTR 0
      (traceRec (type * 2 ^ 28 + dom % 2 ^ 14) (queue % 2 ^ 12 * 2 ^ 16 + tag.getD 0) thr (nt64 s))
  else s

end Sys2Proof.Machine
end

