-- ==== Sys2Proof/Machine/ThreadOps.lean ====
section
/-!
DEFINITION. Threads: their registers, the thread address map and local memory (R265–R269, R448), events and waits (R270–R274),
the budget timer (R275) and what wakes a thread.
-/

namespace Sys2Proof.Machine

def noThread : Nat → Thread := fun _ =>
  { st := .dormant, priv := false, g := [], a0 := 0, a1 := 0, pc := 0, flags := 0, readyAt := 0, wait := .none, acc := [], ev := 0,
    watch := 0, stage := 0, tcmp := none, budget := .off, item := none, pend := 0, cause := 0, detail := 0, inFault := false,
    halt := none, stepping := false, bpPass := false, requeued := false, fills := [] }
def noMsgs : Nat → List Msg := fun _ => []
def noRecs : Nat → List (List W32) := fun _ => []
def noWg : Nat → WgSt := fun _ => ⟨none, 0, false⟩
def noW32 : Nat → W32 := fun _ => 0

def thrOf (s : State) (t : Nat) : Thread := mget noThread s.gar.thr t
def setThr (s : State) (t : Nat) (x : Thread) : State := { s with gar := { s.gar with thr := mset noThread s.gar.thr t x } }

/-! ## Numbers (R259, R260) -/

/-- MGT slots are named 0x2000 + i (R492, R513). -/
def isMgt (t : Nat) : Bool := decide (0x2000 ≤ t)
def cluOf (t : Nat) : Nat := t / 256
def coreOf (t : Nat) : Nat := t / 32

/-- The thread is one of the device's. -/
def thrExists (s : State) (t : Nat) : Bool := if isMgt t then decide (t < 0x2008) else clusterPresent s (cluOf t)

/-- The thread's domain is out of reset. -/
def thrUp (s : State) (t : Nat) : Bool := if isMgt t then decide (t < 0x2008) && mgtUp s else clUp s (cluOf t)

def parked (s : State) (n : Nat) : Bool := s.flag F.RST_CLU_CLK_PARKED n

/-- The supervisor of its cluster (R277). -/
def isSupv (s : State) (t : Nat) : Bool := !isMgt t && s.fld F.GCL_SUPV_TID (cluOf t) == t % 256

/-- S level (R302). -/
def isS (s : State) (t : Nat) : Bool := isMgt t || isSupv s t || (thrOf s t).priv

/-! ## Registers (R297) -/

def gGet (x : Thread) (r : Nat) : W32 := if r = 0 then 0 else mget noW32 x.g r
def gSet (x : Thread) (r : Nat) (v : W32) : Thread := if r = 0 then x else { x with g := mset noW32 x.g r v }

/-- The pair gN (R298). -/
def gPair (x : Thread) (r : Nat) : W64 := BitVec.ofNat 64 ((gGet x r).toNat + 2 ^ 32 * (gGet x (r + 1)).toNat)
def gSetPair (x : Thread) (r : Nat) (v : W64) : Thread := gSet (gSet x r (BitVec.ofNat 32 v.toNat)) (r + 1) (BitVec.ofNat 32 (v.toNat / 2 ^ 32))

def accGet (x : Thread) (n : Nat) : W64 := if n = 0 then x.a0 else x.a1
def accSet (x : Thread) (n : Nat) (v : W64) : Thread := if n = 0 then { x with a0 := v } else { x with a1 := v }

/-- Flags C, V, Z and N are b#0–b#3 (R300). -/
def flagC (x : Thread) : Bool := x.flags.getLsbD 0
def setFlagBit (x : Thread) (i : Nat) (b : Bool) : Thread := { x with flags := BitVec.ofNat 1024 (putBit x.flags.toNat i b) }
def setZ (x : Thread) (b : Bool) : Thread := setFlagBit x 2 b

/-- A status word in gD, with Z set when STATUS is OK (R313). -/
def setStatus (x : Thread) (rd status val : Nat) : Thread :=
  setZ (gSet x rd (BitVec.ofNat 32 (status + 256 * val))) (status = 0)

/-! ## Thread status codes (R313) -/

def tsFull : Nat := 1
def tsEmpty : Nat := 2
def tsChoff : Nat := 3
def tsNobuf : Nat := 4
def tsRefSat : Nat := 5
def tsReplOver : Nat := 6
def tsQoff : Nat := 7
def tsXoff : Nat := 8
def tsLate : Nat := 9
def tsBusy : Nat := 10
def tsAbandoned : Nat := 11
def tsDenied : Nat := 12
def tsDmaErr : Nat := 13
def tsNotHeld : Nat := 14

/-! ## The thread address map (R265, R491) -/

/-- What an address range holds. -/
inductive Place where
  /-- X or Y bank, by bank address 0–0x1FFFF. -/
  | bank (a : Nat)
  | shared (ofs : Nat)
  /-- Cluster control space, by offset from GCL[n]. -/
  | ctl (ofs : Nat)
  | mgt (a : Nat)
  | rom (a : Nat)
  /-- MGT's register port, by PF1 BAR0 offset. -/
  | port (ofs : Nat)
deriving DecidableEq, Repr

/-- The row of the address map that holds all of [ea, ea + n); none when no row does. -/
def placeOf (t ea n : Nat) : Option Place :=
  let within := fun lo hi => decide (lo ≤ ea) && decide (ea + n ≤ hi + 1)
  if isMgt t then
    if within 0 0xFFDFF || within 0xFFE00 0xFFFFF then some (.mgt ea)
    else if within 0x1000000 0x100FFFF then some (.rom (ea - 0x1000000))
    else if within 0x40000000 0x4FFFFFFF then some (.port (ea - 0x40000000))
    else none
  else
    let j := t % 32
    if within 0 0xDFFF || within 0xE000 0xFFFF || within 0x10000 0x1DFFF || within 0x1E000 0x1FFFF then some (.bank ea)
    else if within 0x30000 0x300FF then some (.bank (0xE000 + 256 * j + (ea - 0x30000)))
    else if within 0x30100 0x301FF then some (.bank (0x1E000 + 256 * j + (ea - 0x30100)))
    else if within 0x100000 0x1FFFFF then some (.shared (ea - 0x100000))
    else if within 0x200000 0x20FFFF then some (.ctl (ea - 0x200000))
    else if within 0x300000 0x31FFFF then some (.ctl (ea - 0x200000))
    else none

/-- A local address of a unit instruction, wholly within one bank or one of its aliases (R314); on MGT, wholly within its memory. -/
def localOf (t ea n : Nat) : Option Place :=
  if isMgt t then (if ea + n ≤ 0x100000 then some (.mgt ea) else none)
  else
    let j := t % 32
    if ea + n ≤ 0x10000 || (0x10000 ≤ ea && ea + n ≤ 0x20000) then some (.bank ea)
    else if 0x30000 ≤ ea && ea + n ≤ 0x30100 then some (.bank (0xE000 + 256 * j + (ea - 0x30000)))
    else if 0x30100 ≤ ea && ea + n ≤ 0x30200 then some (.bank (0x1E000 + 256 * j + (ea - 0x30100)))
    else none

/-- The bank address of a thread's header buffer and thread block (R266, R267). -/
def hdrBuf (t : Nat) : Nat := 0xE000 + 256 * (t % 32)
def thrBlk (t : Nat) : Nat := 0x1E000 + 256 * (t % 32)

def bankKey (core a : Nat) : Nat := core * 2 ^ 17 + a
def sharedKey (n ofs : Nat) : Nat := n * 2 ^ 20 + ofs

/-! ## Local and shared memory with their check words (R445, R448) -/

/-- The aligned words that [a, a + n) touches. -/
def wordsOf (a n : Nat) : List Nat := if n = 0 then [] else (List.range ((a + n - 1) / 4 - a / 4 + 1)).map (· + a / 4)

/-- Bytes written to a core's banks. A word stays poisoned unless the write replaces it whole. -/
def bankWrite (s : State) (core a : Nat) (bs : List Byte) : State :=
  foldS (wordsOf a bs.length)
    (fun u w => noteWrite u 2 (core / 8) (core * 2 ^ 15 + w) w (decide (a ≤ 4 * w) && decide (4 * w + 4 ≤ a + bs.length)))
    { s with gar := { s.gar with lmem := wrBytes s.gar.lmem (bankKey core a) bs } }

/-- Bytes written to a cluster's shared memory. -/
def sharedWrite (s : State) (n ofs : Nat) (bs : List Byte) : State :=
  foldS (wordsOf ofs bs.length)
    (fun u w => noteWrite u 3 n (n * 2 ^ 18 + w) (0x40000 + w) (decide (ofs ≤ 4 * w) && decide (4 * w + 4 ≤ ofs + bs.length)))
    { s with gar := { s.gar with smem := wrBytes s.gar.smem (sharedKey n ofs) bs } }

/-- The words of a bank write that carry poison (R447, R448): a word with a poisoned byte is stored poisoned. -/
def bankPoison (s : State) (core a : Nat) (ps : List Bool) : State :=
  foldS (wordsOf a ps.length)
    (fun u w => if (List.range ps.length).any (fun i => ps.getD i false && (a + i) / 4 == w) then setUnitErr u 2 (core * 2 ^ 15 + w) 2 else u) s

/-- What reads of check words find: the state after them and the first poisoned word's address (R446, R448). `addr` turns a word
number into the address recorded. -/
def probeWords (s : State) (m tid : Nat) (ws : List (Nat × Nat)) : State × Option Nat :=
  ws.foldl (fun (x : State × Option Nat) w =>
    let e := unitErr x.1 m w.1
    if e = 0 then x
    else if e = 1 then (noteCe (setUnitErr x.1 m w.1 0) m 6 1 tid w.2, x.2)
    else match x.2 with
      | some _ => x
      | none => (noteUe x.1 m 6 2 2 tid w.2, some w.2)) (s, none)

/-- A read of `n` bytes at a place of plain memory: bytes, the address of a poisoned word if there is one, and the state after it. -/
def placeRead (s : State) (t : Nat) (p : Place) (n : Nat) : List Byte × Option Nat × State :=
  match p with
  | .bank a =>
    let core := coreOf t
    let r := probeWords s 2 t ((wordsOf a n).map (fun w => (core * 2 ^ 15 + w, 4 * w)))
    (rdBytes s.gar.lmem (bankKey core a) n, r.2, r.1)
  | .shared o =>
    let c := cluOf t
    let r := probeWords s 3 t ((wordsOf o n).map (fun w => (c * 2 ^ 18 + w, 0x100000 + 4 * w)))
    (rdBytes s.gar.smem (sharedKey c o) n, r.2, r.1)
  | .mgt a => (rdBytes s.mgtMem a n, none, s)
  | _ => (List.replicate n 0, none, s)

/-- A write of bytes at a place of plain memory. -/
def placeWrite (s : State) (t : Nat) (p : Place) (bs : List Byte) : State :=
  match p with
  | .bank a => bankWrite s (coreOf t) a bs
  | .shared o => sharedWrite s (cluOf t) o bs
  | .mgt a => { s with mgtMem := wrBytes s.mgtMem a bs }
  | _ => s

/-- Bytes of a thread's block as they stand. -/
def blkBytes (s : State) (t ofs n : Nat) : List Byte := rdBytes s.gar.lmem (bankKey (coreOf t) (thrBlk t + ofs)) n

/-- The current work item (R320). -/
def curItem (s : State) (t : Nat) : Item := itemOfBytes (blkBytes s t 0 64)

/-! ## Events (R271) -/

/-- Messages in, and room in, a channel of the thread's cluster. -/
def chanOf (s : State) (c : Nat) : List Msg := mget noMsgs s.gar.chan c
def setChan (s : State) (c : Nat) (l : List Msg) : State := { s with gar := { s.gar with chan := mset noMsgs s.gar.chan c l } }
def chanEn (s : State) (c : Nat) : Bool := s.flag F.GCL_CH_CFG_EN c

/-- Messages on their way to a channel have their places there (log entry 22). -/
def chanRoom (s : State) (c : Nat) : Bool := decide ((chanOf s c).length + (s.gar.transit.filter (·.1 == c)).length < 16)

/-- A watched channel that satisfies `p`. -/
def watched (s : State) (t : Nat) (p : Nat → Bool) : Bool :=
  (List.range 64).any (fun c => (thrOf s t).watch.getLsbD c && p (64 * cluOf t + c))

def faultqOf (s : State) (n : Nat) : List (List W32) := mget noRecs s.gar.faultq n

/-- The event bits of a thread at this moment (R271, R435, R492). -/
def evBits (s : State) (t : Nat) : W16 :=
  let e := (thrOf s t).ev.toNat
  let irqT := if isMgt t then 32 else cluOf t
  let irq := (isMgt t || isSupv s t) && !(outSet s irqT).isEmpty
  let rx := !isMgt t && watched s t (fun c => !(chanOf s c).isEmpty)
  let tx := !isMgt t && watched s t (chanRoom s)
  let fq := isSupv s t && !(faultqOf s (cluOf t)).isEmpty
  let e1 := putBit (putBit e 1 rx) 2 tx
  BitVec.ofNat 16 (putBit (putBit e1 4 irq) 5 fq)

/-- Edge events set for a thread that is not DORMANT (R271, R294). -/
def setEv (s : State) (t : Nat) (m : W16) : State :=
  let x := thrOf s t
  if x.st = .dormant then s else setThr s t { x with ev := x.ev ||| m }

/-! ## Waiting and waking (R264, R270, R514, R515) -/

/-- An entry into DEBUG other than by a HALT request raises DBG_EVENT (R520). -/
def dbgEvent (s : State) (reason t : Nat) : State := raiseSrc s 176 (reason * 2 ^ 16 + t)

/-- A thread in RUN, READY or STALL halts (R513). -/
def haltThr (s : State) (t reason : Nat) (prev : ThrSt) : State :=
  let x := thrOf s t
  let b := match x.budget with
    | .run e => .paused (e - s.tim.elapsed)
    | y => y
  traceThr (setThr s t { x with st := .debug, halt := some ⟨reason, prev⟩, stepping := false, budget := b }) t 4 x.pc.toNat reason

/-- The thread is in FAULT, or Edsen halted it there. -/
def faulted (x : Thread) : Bool := x.st == .fault || (match x.halt with | some h => h.prev == .fault | none => false)

/-- A thread's wait ends with the results in `x`: it becomes READY, or halts again if it was stepping (R515). A thread that Edsen holds
stays halted with its wait over; a thread in FAULT keeps its state. -/
def endWait (s : State) (t : Nat) (x : Thread) : State :=
  let y := { x with wait := .none }
  match x.st with
  | .stall =>
    if x.stepping then dbgEvent (haltThr (setThr s t { y with st := .ready }) t 1 .ready) 1 t
    else setThr s t { y with st := .ready, readyAt := s.clk }
  | _ => setThr s t y

/-- A write of register `r` replaces its check bits (R445, R463). -/
def rfWrite (s : State) (t r : Nat) : State := if r = 0 then s else noteWrite s 4 (cluOf t) (32 * t + r) (32 * (t % 256) + r) true

/-- The registers that the end of a wait writes. -/
def waitRegs (x : Thread) : List Nat :=
  match x.wait with
  | .recv rd _ _ => [rd]
  | .send rd _ _ => [rd]
  | .flint rd _ _ _ => [rd]
  | .granted rd _ => [rd]
  | .ev _ rd _ => [rd]
  | .enq rd _ _ _ => [rd]
  | .gate rd _ _ _ => [rd]
  | .cell => (x.acc.filter (·.live)).map (·.rd)
  | .dma => (x.acc.filter (·.live)).map (·.rd)
  | _ => []

/-- The wait ends and the thread goes on at the next instruction. -/
def endWaitNext (s : State) (t : Nat) (x : Thread) : State :=
  endWait (foldS (waitRegs (thrOf s t)) (fun u r => rfWrite u t r) s) t { x with pc := x.pc + 4 }

/-- A wait at a channel, where order of arrival counts (R285, R286). -/
def atChannel : Wait → Bool
  | .send _ _ _ => true
  | .recv _ _ _ => true
  | _ => false

/-- A thread enters a long stall (R264); one at a channel comes behind those that have reached it. -/
def stall (s : State) (t : Nat) (w : Wait) : State :=
  let u := setThr s t { thrOf s t with st := .stall, wait := w, requeued := false }
  if atChannel w then { u with gar := { u.gar with chq := u.gar.chq.filter (· != t) ++ [t] } } else u

/-- A thread in a `wait` whose event has set returns (R272). -/
def evWake (s : State) (t : Nat) : State :=
  let x := thrOf s t
  match x.wait with
  | .ev _ rd mask =>
    if x.st = .stall then
      let got := evBits s t &&& mask
      if got = 0 then s
      else endWaitNext s t (gSet { x with ev := x.ev &&& ~~~got } rd (got.setWidth 32))
    else s
  | _ => s

/-- Every thread whose wait an event has ended goes on; a halted thread's `wait` stays as it is until it runs (R514), and in a parked
cluster events act from the first turn after unparking (R293). -/
def wakeAll (s : State) : State :=
  foldS (s.gar.thr.map (·.1)) (fun u t => if !isMgt t && parked u (cluOf t) then u else evWake u t) s

/-! ## Internal waits and wait groups (R274, R289) -/

/-- The thread is in an internal wait (R274). -/
def internal (s : State) (t : Nat) : Bool :=
  let x := thrOf s t
  x.st == .stall &&
  (match x.wait with
   | .ev false _ m => m != 0 && (m &&& ~~~(0xFF0A : W16)) == 0
   | .recv _ _ _ => true
   | .flint _ _ _ _ => true
   | _ => false)

/-- A hardware response is outstanding for the thread (R289, R342): a pending lookup slot, a cell operation, a DMA transfer or a
coprocessor command. -/
def outstanding (s : State) (t : Nat) : Bool :=
  let x := thrOf s t
  x.pend != 0 || x.acc.any (fun a => !a.done) ||
  [0, 1].any (fun u => (mget (fun _ => ([] : List CpxCmd)) s.cpx.queue (2 * cluOf t + u)).any (fun c => c.thr == t % 256 && !isMgt t))

/-- Members of wait group `w` of cluster `n`, as thread numbers. -/
def wgMembers (s : State) (n w : Nat) : List Nat :=
  (List.range 8).flatMap (fun j =>
    let m := s.reg .GCL_WG_MEMBERS ((8 * n + w) * 8 + j)
    if m = 0 then [] else ((List.range 32).filter (bitOf m)).map (· + (256 * n + 32 * j)))

/-- The condition of a wait group (R289). -/
def wgCond (s : State) (n w : Nat) : Bool :=
  let ms := wgMembers s n w
  !ms.isEmpty && ms.all (fun t => internal s t && (thrOf s t).tcmp.isNone && !outstanding s t)

/-- The counts of a cluster's groups follow their conditions (R289). -/
def wgSync (s : State) (n : Nat) : State :=
  foldS (List.range 8) (fun u w =>
    let g := mget noWg u.gar.wg (8 * n + w)
    let c := wgCond u n w
    let g' : WgSt := if c then { g with since := (match g.since with | some x => some x | none => some u.clk) } else ⟨none, 0, false⟩
    { u with gar := { u.gar with wg := mset noWg u.gar.wg (8 * n + w) g' } }) s

/-- What follows a change of events, channels or waits: waits whose event has set end, and the wait groups are judged. -/
def settle (s : State) : State :=
  let u := wakeAll s
  foldS (List.range 32) (fun v n => if clUp v n && !parked v n then wgSync v n else v) u

/-! ## Budget (R275, R276) -/

/-- The budget timer armed at a dispatch. -/
def armBudget (s : State) (t : Nat) : State :=
  let ns := s.fld F.GCL_BUDGET_NS (cluOf t)
  let x := thrOf s t
  if isSupv s t then s
  else setThr s t { x with budget := if ns = 0 then .off else .run (s.tim.elapsed + ns * 2 ^ 32) }

def disarmBudget (s : State) (t : Nat) : State := setThr s t { thrOf s t with budget := .off }

/-- The timer pauses in FAULT and DEBUG. -/
def pauseBudget (s : State) (x : Thread) : Thread :=
  match x.budget with
  | .run e => { x with budget := .paused (e - s.tim.elapsed) }
  | _ => x
def goBudget (s : State) (x : Thread) : Thread :=
  match x.budget with
  | .paused l => { x with budget := .run (if l = 0 then 0 else s.tim.elapsed + l) }
  | _ => x

/-- The budget has run out. -/
def budgetOut (s : State) (t : Nat) : Bool :=
  match (thrOf s t).budget with
  | .run e => decide (e ≤ s.tim.elapsed)
  | _ => false

/-- The budget had run out before the present PCLK edge, or went on with nothing left: the thread takes BUDGET instead of its next
instruction. An instruction on the edge of expiry itself still issues (R276, R294). -/
def budgetLate (s : State) (t : Nat) : Bool :=
  match (thrOf s t).budget with
  | .run e => e == 0 || decide (e + s.reg .TIM_INCR 0 ≤ s.tim.elapsed)
  | _ => false

end Sys2Proof.Machine
end

