-- ==== Sys2Proof/Machine/Agate.lean ====
section
/-!
DEFINITION. Agate's own steps: lookups (R182, R183), table enables (R168, R169), the flow cache (R174), learning and damping
(R194–R198), ageing (R199, R200) and the class 1 commands (R204–R212).
-/

namespace Sys2Proof.Machine

/-! ## Lookups (R182, R183) -/

/-- Response slot `i` of thread `t` has been written: it no longer pends, and a thread that waits for it goes on. A thread in FAULT
keeps its wait until it is resumed (R336). -/
def slotLanded (s : State) (t i : Nat) : State :=
  let x := thrOf s t
  let p := BitVec.ofNat 4 (putBit x.pend.toNat i false)
  let y := { x with pend := p }
  if faulted x then setThr s t y
  else match x.wait with
    | .slot j => if j = i then endWait s t y else setThr s t y
    | .slots m => if p.toNat &&& m = 0 then endWaitNext s t y else setThr s t y
    | _ => setThr s t y

/-- The response goes to the slot of its thread, or waits for its item's dispatch. -/
def deliver (s : State) (k : Lkp) (bs : List Byte) : State :=
  match k.owner with
  | some (.thread t) => slotLanded (bankWrite s (coreOf t) (thrBlk t + 0x40 + 0x20 * k.slot) bs) t k.slot
  | some (.item u) => { s with agt := { s.agt with landed := s.agt.landed ++ [(u, k.slot, bs)] } }
  | none => s

/-- The `j`-th outstanding lookup, in order of acceptance, is answered. -/
def execLookupComplete (j : Nat) (s : State) : Out :=
  match s.agt.lookups[j]? with
  | none => .next s
  | some k =>
    .next (if !pktUp s || k.stuck then s else
      let s1 := { s with agt := { s.agt with lookups := s.agt.lookups.eraseIdx j } }
      let (r, s2) := if k.absent then lookupAbsent s1 k else lookupResp s1 k
      settle (deliver (learnAfter s2 k r) k (respBytes k.table r)))

/-! ## Table enables (R165–R169) -/

def tblBlocks (s : State) (t : Nat) : Nat × Nat := (s.fld F.AGT_TBL_OBLK_FIRST t, s.fld F.AGT_TBL_OBLK_NBLK t)

/-- Blocks of 64 KiB that a LOC 0 table needs (R165). -/
def tblNeeds (s : State) (t : Nat) : Nat :=
  let cnt := s.flag F.AGT_TBL_CFG_CNT_EN t
  let n := if tblType s t = 0 then tblSize s t * (if cnt then 96 else 64)
    else if tblType s t = 2 then tblSize s t * (tblEntryBytes s t + (if cnt then 32 else 0)) else 0
  (n + 65535) / 65536

def isPow2 (n : Nat) : Bool := (List.range 28).any (fun k => n == 2 ^ k)

/-- A table that is enabled or has not drained: its layout is fixed (R169). -/
def tblOn (s : State) (t : Nat) : Bool := s.flag F.AGT_TBL_CFG_EN t || !s.flag F.AGT_TBL_STS_DRAINED t

/-- Blocks of the enabled LPM tables other than `t`. -/
def lpmBlocks (s : State) (t : Nat) : Nat :=
  ((List.range 64).map (fun u => if u ≠ t && s.flag F.AGT_TBL_CFG_EN u && tblType s u == 1 then s.fld F.AGT_TBL_OBLK_NBLK u else 0)).sum

/-- The cases in which an enable is refused (R168). -/
def tblRefused (s : State) (t : Nat) : Bool :=
  let ty := tblType s t
  let dram := tblDram s t
  let n := tblSize s t
  let lrn := s.flag F.AGT_TBL_CFG_LRN_EN t || s.flag F.AGT_TBL_CFG_AGE_EN t
  let kl := tblKeyLen s t
  let (first, blk) := tblBlocks s t
  ty == 3 ||
  (ty == 1 && (dram || s.flag F.AGT_TBL_CFG_CNT_EN t || lrn)) ||
  (ty == 2 && (lrn || n == 0 || (dram && decide (134217728 < n)))) ||
  (ty == 0 && (!isPow2 n || decide (n < (if dram then 4096 else 1024)) || decide ((if dram then 33554432 else 262144) < n) || kl == 0 || decide (40 < kl))) ||
  (!dram && (decide (384 < first + blk) || decide (blk < tblNeeds s t) || (ty == 1 && decide (256 < lpmBlocks s t + blk)))) ||
  (dram && ty == 0 && decide (33554432 < s.fld F.AGT_TBL_HB_HB_BASE t * 4096 + n)) ||
  (dram && !drcReady s)

/-- Bytes of a DRAM table's area and of its counter area (R166). -/
def tblArea (s : State) (t : Nat) : Nat := if tblType s t = 0 then tblSize s t * 80 else (tblSize s t * tblEntryBytes s t + 63) / 64 * 64
def tblAreas (s : State) (t : Nat) : List (Nat × Nat) :=
  if !tblDram s t then [] else
    (tblBase s t, tblArea s t) ::
    (if s.flag F.AGT_TBL_CFG_CNT_EN t then [(s.fld F.AGT_TBL_CBASE_CBASE t * 2 ^ 20, tblSize s t * 32)] else [])

def overlap (a b : Nat × Nat) : Bool := decide (a.1 < b.1 + b.2) && decide (b.1 < a.1 + a.2)

/-- The table's layout breaks what Agate does not check (R188). -/
def tblClash (s : State) (t : Nat) : Bool :=
  (tblAreas s t).any (fun a => decide (drcCapacity s * 2 ^ 30 < a.1 + a.2)) ||
  (match tblAreas s t with | [a, b] => overlap a b | _ => false) ||
  (List.range 64).any (fun u => u ≠ t && s.flag F.AGT_TBL_CFG_EN u &&
    ((!tblDram s t && !tblDram s u && overlap (tblBlocks s t) (tblBlocks s u)) ||
     (tblAreas s t).any (fun a => (tblAreas s u).any (overlap a)) ||
     (tblDram s t && tblDram s u && tblType s t == 0 && tblType s u == 0 &&
       overlap (hitIdx s t 0, tblSize s t) (hitIdx s u 0, tblSize s u))))

/-- A table holds nothing: every location, prefix, entry and counter of it; its DRAM areas are zeros with good check bits (R168, R169). -/
def tblClear (s : State) (t : Nat) : State :=
  let other := fun (k : Nat) => k / 2 ^ 32 != t
  let area := fun (k : Nat) => !((tblAreas s t).any (fun a => decide (a.1 ≤ k) && decide (k < a.1 + a.2)))
  let hits := fun (k : Nat) => !(tblDram s t && tblType s t == 0 && decide (hitIdx s t 0 ≤ k) && decide (k < hitIdx s t (tblSize s t)))
  let bad := fun (k : Nat) => !((k / 2 ^ 64 == 6 || k / 2 ^ 64 == 7) && k % 2 ^ 40 / 2 ^ 32 == t) && !(k / 2 ^ 64 == 13 && !area (k % 2 ^ 64 * 64))
  { s with
    agt := { s.agt with em := mkeep other s.agt.em, dir := mkeep other s.agt.dir, lpm := mset noPfx s.agt.lpm t [], hit := mkeep hits s.agt.hit,
                        fc := s.agt.fc.filter (fun w => w.table != t), listed := s.agt.listed.filter (fun x => x.1 != t),
                        track := s.agt.track.filter (fun x => x.table != t) },
    tim := { s.tim with entryCnt := mkeep other s.tim.entryCnt },
    dram := mkeep area s.dram, integ := { s.integ with bad := mkeep bad s.integ.bad } }

/-- Elapsed time of one ageing period, from now. -/
def agePeriod (s : State) (t : Nat) : Nat := s.fld F.AGT_TBL_AGE_PERIOD_MS t * 1000000 * 2 ^ 32

def ageRestart (s : State) (t : Nat) : State :=
  { s with agt := { s.agt with ageDue := mset noNat s.agt.ageDue t (s.tim.elapsed + agePeriod s t), agePos := mset noPos s.agt.agePos t none } }

/-- EN set (R25, R168). A table that has not drained goes on with the contents it has. -/
def tblEnable (s : State) (t : Nat) : Out :=
  if s.flag F.AGT_TBL_CFG_EN t then .next s
  else if tblRefused s t then .next (s.setFlag F.AGT_TBL_STS_REJECT t true)
  else if tblClash s t then .fault .tableAreas
  else if !s.flag F.AGT_TBL_STS_DRAINED t then .next (s.setFlag F.AGT_TBL_CFG_EN t true)
  else
    let u := ((((tblClear s t).setFlag F.AGT_TBL_CFG_EN t true).setFlag F.AGT_TBL_STS_DRAINED t false).setFlag F.AGT_TBL_STS_INIT t true)
    .next (ageRestart ((u.setFld F.AGT_TBL_STS_COUNT t (if tblType s t = 2 then tblSize s t else 0)).setFld F.AGT_TBL_GEN_GEN t 0) t)

def execTableEnable (t : Fin 64) (s : State) : Out := if pktUp s then tblEnable s t.val else .next s
def execTableInitComplete (t : Fin 64) (s : State) : Out := .next (if pktUp s then s.setFlag F.AGT_TBL_STS_INIT t.val false else s)

/-- Commands of a table that run. -/
def flushCmd (s : State) (t : Nat) : Option CtlCmd :=
  s.hif.ctl.find? (fun c => match c.work with | .tblFlush u => u == t | _ => false)

/-- A control command works on the table: a flush, or a dump of its counters (R59). -/
def tblWork (s : State) (t : Nat) : Bool :=
  s.hif.ctl.any (fun c => match c.work with | .tblFlush u => u == t | .cntDump 1 u _ _ _ => u == t | _ => false)

/-- A stopped table with nothing in flight is drained: its contents go and its stash slots are freed (R169). -/
def tblDrain (s : State) (t : Nat) : State :=
  if s.flag F.AGT_TBL_CFG_EN t || s.agt.lookups.any (fun k => k.table == t && !k.absent) || tblWork s t || s.flag F.AGT_TBL_STS_DRAINED t then s
  else
    let mine := stashLocs s t
    let u := foldS mine (fun u l => stashGive u t (l - tblSize s t)) s
    let keep := u.agt.listed
    let v := tblClear u t
    (({ v with agt := { v.agt with listed := keep } }.setFlag F.AGT_TBL_STS_DRAINED t true).setFlag F.AGT_TBL_STS_INIT t false).setFld F.AGT_TBL_STS_COUNT t 0

/-- The completion body of class 1 (R206). -/
def body1 (s : State) (t loc done cursor moves : Nat) (stashed end_ : Bool) : List Nat :=
  [loc, done, cursor, tblGen s t, moves * 8 + b2n stashed * 4 + b2n end_]

/-- A flush pass ends, and its command completes OK (R212). -/
def flushEnd (s : State) (t : Nat) : State :=
  match flushCmd s t, mget noFlush s.agt.flushes t with
  | some c, some p =>
    ctlFinish { s with agt := { s.agt with flushes := mset noFlush s.agt.flushes t none } } c [] stOk (body1 s t 0xFFFFFFFF p.deleted 0 0 false false)
  | _, _ => s

/-- EN cleared (R169, R209, R214): the cursor closes, a flush completes with its deletes so far, queued learn requests are discarded
and the ageing pass stops. -/
def tblDisable (s : State) (t : Nat) : State :=
  if !s.flag F.AGT_TBL_CFG_EN t then s
  else
    let n := (s.agt.learnq.filter (·.table == t)).length
    let s1 := flushEnd (setCursor (s.setFlag F.AGT_TBL_CFG_EN t false) t none) t
    let s2 := { s1 with agt := { s1.agt with learnq := s1.agt.learnq.filter (fun r => r.table != t), agePos := mset noPos s1.agt.agePos t none } }
    tblDrain (if n = 0 then s2 else count s2 (12800 + 8 * t + 2) n 0) t

def execTableDisable (t : Fin 64) (s : State) : Out := .next (if pktUp s then tblDisable s t.val else s)

/-- Agate as a whole is drained (R187). -/
def agtDrain (s : State) : State :=
  if !s.flag F.AGT_CTL_EN 0 && s.agt.lookups.isEmpty && s.agt.learnq.isEmpty && (List.range 64).all (fun t => !tblWork s t) then s.setFlag F.AGT_STS_DRAINED 0 true else s
def agtDisable (s : State) : State := if s.flag F.AGT_CTL_EN 0 then agtDrain (s.setFlag F.AGT_CTL_EN 0 false) else s

/-! ## The flow cache (R174) -/

def execFcFlush (s : State) : Out := .next (if pktUp s then s.setFlag F.AGT_CTL_FC_FLUSH 0 true else s)

def execFcFlushDone (s : State) : Out :=
  .next (if pktUp s && s.flag F.AGT_CTL_FC_FLUSH 0 then { s with agt := { s.agt with fc := [] } }.setFlag F.AGT_CTL_FC_FLUSH 0 false else s)

/-- FC_EN cleared: copies of the table are to go. -/
def fcEnClear (s : State) (t : Nat) : State := { s with agt := { s.agt with fcInv := mset noBool s.agt.fcInv t true } }

def execFcInvalidateTableDone (t : Fin 64) (s : State) : Out :=
  .next (if pktUp s && mget noBool s.agt.fcInv t.val then
    { s with agt := { s.agt with fcInv := mset noBool s.agt.fcInv t.val false, fc := s.agt.fc.filter (fun w => w.table != t.val) } } else s)

/-! ## Learning and damping (R196–R198) -/

/-- An Agate event about an entry (R213). -/
def agtEvent (s : State) (code t loc old new : Nat) (key : List Byte) : State :=
  eventRecord s 4 code t loc (old * 2 ^ 16 + new + crc32c key * 2 ^ 32)

def moveWindow (s : State) (t : Nat) : Nat := s.fld F.AGT_TBL_CFG_MOVE_WINDOW t * 2 ^ 32

/-- The entry's move window is open. -/
def windowOpen (s : State) (t : Nat) (key : List Byte) : Bool :=
  s.agt.track.any (fun x => x.table == t && x.key == key && decide (s.tim.elapsed < x.openedAt + moveWindow s t))

/-- A window opens; a full tracker loses the record whose window opened earliest. -/
def openWindow (s : State) (t : Nat) (key : List Byte) : State :=
  let l := (trackDrop s t key).agt.track
  let l1 := if l.length < 4096 then l else l.drop 1
  { s with agt := { s.agt with track := l1 ++ [⟨t, key, s.tim.elapsed⟩] } }

/-- The entry at `loc` rewritten; its hit bit as given. -/
def emRewrite (s : State) (t loc : Nat) (st fr : Bool) (src gen moves : Nat) (act : W128) (hit : Bool) : State :=
  let n := tblKeyLen s t
  setHit (emPut s t loc (mkEntry st fr n src gen moves (entKey (emRaw s t loc) n) act)) t loc hit

/-- A key present with another source, under policy MOVE (R197, R198). -/
def learnMove (s : State) (r : LearnReq) (loc : Nat) : State :=
  let t := r.table
  let e := emRaw s t loc
  let damp := moveWindow s t ≠ 0
  let isOpen := windowOpen s t r.key
  let moves := if !damp then 0 else if isOpen then entMoves e + 1 else 1
  let src := r.srcport.toNat
  if damp && decide (min 15 (s.fld F.AGT_TBL_CFG_MOVE_MAX t) < moves) then
    let u := emRewrite s t loc (entStatic e) true (entSrc e) (entGen e) (entMoves e) (entAction e) (emHit s t loc)
    agtEvent (count u (12800 + 8 * t + 5) 1 0) 3 t loc (entSrc e) src r.key
  else
    let u := emRewrite s t loc false false src (tblGen s t) moves r.action true
    let v := if damp && !isOpen then openWindow u t r.key else u
    agtEvent (count v (12800 + 8 * t + 3) 1 0) 1 t loc (entSrc e) src r.key

/-- A learn request at its bucket (R196). -/
def learnAct (s : State) (r : LearnReq) : State :=
  let t := r.table
  let set := 12800 + 8 * t
  let src := r.srcport.toNat
  if !s.flag F.AGT_TBL_CFG_EN t || s.flag F.AGT_TBL_STS_INIT t then count s (set + 2) 1 0
  else
    match emSeek s t r.key with
    | (s, none) =>
      if learnBlocked s t r.key then count s (set + 2) 1 0
      else
        match emInsert s t (mkEntry false false (tblKeyLen s t) src (tblGen s t) 0 r.key r.action) with
        | (⟨some _, _, _, _⟩, u) => count u (set + 1) 1 0
        | (⟨none, _, _, _⟩, u) => count u (set + 2) 1 0
    | (s, some loc) =>
      let e := emRaw s t loc
      let pol := s.fld F.AGT_TBL_CFG_MOVE t
      if entSrc e = src then setHit s t loc true
      else if entStatic e || entFrozen e then count s (set + 4) 1 0
      else if pol = 1 then count s (set + 4) 1 0
      else if pol = 2 then agtEvent (count s (set + 4) 1 0) 2 t loc (entSrc e) src r.key
      else learnMove s r loc

def execLearnRequest (s : State) : Out :=
  match s.agt.learnq with
  | [] => .next s
  | r :: rest => .next (if pktUp s then learnAct { s with agt := { s.agt with learnq := rest } } r else s)

/-- The window of table `t`'s entry with this key closes; MOVES keeps its value. -/
def execMoveWindowClose (t : Fin 64) (key : List Byte) (edges : Nat) (s : State) : Out :=
  let u := advance s edges
  .next (if pktUp u && !windowOpen u t.val key then trackDrop u t.val key else u)

/-! ## Locations in order -/

/-- Locations of an EM table that may hold an entry, rising. -/
def liveLocs (s : State) (t : Nat) : List Nat :=
  let on := (s.agt.em.filter (fun e => e.1 / 2 ^ 32 == t)).map (fun e => e.1 % 2 ^ 32)
  let dr := if tblDram s t then
      ((s.dram.filter (fun e => decide (tblBase s t ≤ e.1) && decide (e.1 < tblBase s t + tblArea s t))).map (fun e =>
        let o := e.1 - tblBase s t
        (o / 320) * 4 + (o % 320 / 64 - 1))).eraseDups
    else []
  (dr ++ on).filter (locLive s t)

/-- A maintenance read of the entry at `loc`, for a DRAM entry after its bucket's tag line (R201), that finds a parity error lists the location
(R202). -/
def visitProbe (s : State) (t loc : Nat) : State × Bool :=
  let (v, tag) := if locInDram s t loc then tagProbe s 2 t (loc / 4) else (s, false)
  if tag then (noteParity v t (loc / 4 * 4), true)
  else
    let (u, bad) := emProbe v 2 t loc
    if bad then (noteParity u t loc, true) else (u, false)

/-! ## Ageing (R199) -/

/-- A table's next pass begins. -/
def execAgeingPassStart (t : Fin 64) (edges : Nat) (s : State) : Out :=
  let u := advance s edges
  let k := t.val
  .next (if pktUp u && tblLive u k && !u.flag F.AGT_TBL_STS_INIT k && tblType u k == 0 && u.flag F.AGT_TBL_CFG_AGE_EN k &&
      agePeriod u k != 0 && (mget noPos u.agt.agePos k).isNone && decide (mget noNat u.agt.ageDue k ≤ u.tim.elapsed) then
    { u with agt := { u.agt with
      agePos := mset noPos u.agt.agePos k (some ⟨0, 0, u.tim.elapsed, agePeriod u k, tblSize u k + (stashLocs u k).length⟩),
      ageDue := mset noNat u.agt.ageDue k (mget noNat u.agt.ageDue k + agePeriod u k) } }
  else u)

/-- One visit: a set hit bit clears, and an entry without one goes unless it is static or frozen. A visit to a DRAM location reads the
bucket's tag line (R201). -/
def ageVisit (s : State) (t loc : Nat) : State :=
  let (u, bad) := if locInDram s t loc then
      (let r := tagProbe s 2 t (loc / 4); if r.2 then (noteParity r.1 t (loc / 4 * 4), true) else r)
    else visitProbe s t loc
  let e := emRaw u t loc
  if bad then u
  else if emHit u t loc then setHit u t loc false
  else if entStatic e || entFrozen e then u
  else count (emDelete u t loc) (12800 + 8 * t + 6) 1 0

/-- When a pass's visits reach its position `i` (R199). -/
def ageTime (p : AgePass) (i : Nat) : Nat := p.start + p.period * i / max 1 p.count

/-- The position of a location in a pass: stash slots follow the table's own locations, each held slot in turn. -/
def agePlace (s : State) (t : Nat) (p : AgePass) (l : Nat) : Nat := if l < tblSize s t then l else tblSize s t + p.slots

/-- The pass visits the next location that holds an entry once its time has come, or ends; a visit that comes late puts off those after
it. -/
def ageNext (s : State) (t : Nat) (p : AgePass) : State :=
  let put := fun (x : Option AgePass) => { s with agt := { s.agt with agePos := mset noPos s.agt.agePos t x } }
  match (liveLocs s t).find? (fun l => decide (p.pos ≤ l)) with
  | none => if ageTime p p.count ≤ s.tim.elapsed then put none else s
  | some l =>
    let due := ageTime p (agePlace s t p l)
    if s.tim.elapsed < due then s
    else
      let slots := if l < tblSize s t then p.slots else p.slots + 1
      ageVisit (put (some { p with pos := l + 1, slots := slots, start := p.start + (s.tim.elapsed - due) })) t l

def execAgeingVisit (x : Fin 64 × Nat) (s : State) : Out :=
  let t := x.1
  let u := advance s x.2
  match mget noPos u.agt.agePos t.val with
  | none => .next u
  | some p => .next (if pktUp u && u.flag F.AGT_TBL_CFG_AGE_EN t.val then ageNext u t.val p else u)

/-! ## Class 1 commands (R204–R212) -/

def cmdTable (c : Ctl) : Nat := bits (bodyWord c 0) 5 0
def cmdBit (c : Ctl) (i : Nat) : Bool := bitOf (bodyWord c 0) i
def cmdLoc (c : Ctl) : Nat := bodyWord c 1

/-- The checks that come first (R208), with the command's own range check. -/
def class1 (c : Ctl) (s : State) (types : List Nat) (inRange : Bool) (f : State → CtlRes × State) : CtlRes × State :=
  let t := cmdTable c
  if !tblLive s t then (.done stAbsent (body1 s t 0xFFFFFFFF 0 0 0 false false), s)
  else if s.flag F.AGT_TBL_STS_INIT t then (.done stBusy (body1 s t 0xFFFFFFFF 0 0 0 false false), s)
  else if !types.contains (tblType s t) || !inRange then (.done stRange (body1 s t 0xFFFFFFFF 0 0 0 false false), s)
  else f s

/-- A completion with no more than a status, and one that names a location. -/
def plain1 (s : State) (t st : Nat) : CtlRes × State := (.done st (body1 s t 0xFFFFFFFF 0 0 0 false false), s)
def atLoc1 (s : State) (t loc : Nat) : CtlRes × State := (.done stOk (body1 s t loc 0 0 0 false false), s)

/-- LOC is a location of the table (R170, R178). -/
def locOk (s : State) (t loc : Nat) : Bool := decide (loc < if tblType s t = 0 then tblSize s t + 4096 else tblSize s t)

def imageOf (img : List Byte) : Item := itemOfBytes (img ++ List.replicate 64 0)

/-- The lowest place of an LPM table's memory that holds no prefix. -/
def pfxPlace (s : State) (t : Nat) : Nat :=
  let used := (pfxAll s t).map (·.place)
  ((List.range (used.length + 1)).find? (fun i => !used.contains i)).getD 0

/-- The prefix of an LPM image: its address bits, length and result (R177). -/
def imagePfx (s : State) (t : Nat) (img : List Byte) : Prefix :=
  let pad := img ++ List.replicate 32 0
  let n := (leNat (pad.take 4)) % 256
  ⟨keepBits (lpmKey (s.flag F.AGT_TBL_CFG_V6 t) (pad.drop 4)) n, n, BitVec.ofNat 64 (leNat ((pad.drop 20).take 8)), pfxPlace s t⟩

def plenOk (s : State) (t : Nat) (img : List Byte) : Bool :=
  tblType s t ≠ 1 || decide ((imagePfx s t img).plen ≤ if s.flag F.AGT_TBL_CFG_V6 t then 128 else 32)

/-- The image of a stored prefix. -/
def pfxImage (s : State) (t : Nat) (p : Prefix) : List Byte :=
  let n := if s.flag F.AGT_TBL_CFG_V6 t then 16 else 4
  leBytes 4 (2 ^ 31 + p.plen) ++ (beBytes 16 p.addr.toNat).take n ++ List.replicate (16 - n) 0 ++ leBytes 8 p.result.toNat ++ List.replicate 4 0

/-- The stored prefix of a command's image, where a read of it is good; one with a parity error is listed (R202). -/
def findPfx (s : State) (t : Nat) (p : Prefix) : State × Option Prefix :=
  match (pfxOf s t).find? (fun q => q.plen == p.plen && q.addr == p.addr) with
  | none => (s, none)
  | some q => if unitErr s 6 (pfxUnit t q.place) ≠ 0 then (noteParity s t q.place, none) else (s, some q)
def dropPfx (s : State) (t : Nat) (q : Prefix) : State := setPfx s t ((pfxAll s t).filter (fun x => x.place != q.place))

/-- The EM entry that a command names, by key or by LOC (R205, R208). An entry with a parity error is listed and not found (R202). -/
def cmdEntry (c : Ctl) (s : State) (img : List Byte) : State × Option Nat :=
  let t := cmdTable c
  if cmdBit c 14 then
    (if locLive s t (cmdLoc c) then (let r := visitProbe s t (cmdLoc c); (r.1, if r.2 then none else some (cmdLoc c))) else (s, none))
  else emSeek s t (entKey (imageOf img) (tblKeyLen s t))

/-- What a command does with the entry that it names. -/
def withEntry (c : Ctl) (s : State) (img : List Byte) (f : State → Nat → CtlRes × State) : CtlRes × State :=
  match cmdEntry c s img with
  | (u, none) => plain1 u (cmdTable c) stNotFound
  | (u, some l) => f u l

/-- What a command does with the prefix that it names. -/
def withPfx (c : Ctl) (s : State) (img : List Byte) (f : State → Prefix → CtlRes × State) : CtlRes × State :=
  match findPfx s (cmdTable c) (imagePfx s (cmdTable c) img) with
  | (u, none) => plain1 u (cmdTable c) stNotFound
  | (u, some q) => f u q

def tblInsert (c : Ctl) (img : List Byte) (s : State) : CtlRes × State :=
  let t := cmdTable c
  class1 c s [0, 1, 2] (plenOk s t img && (tblType s t ≠ 2 || locOk s t (cmdLoc c))) (fun s =>
    if tblType s t = 0 then
      let e := imageOf img
      let n := tblKeyLen s t
      match emSeek s t (entKey e n) with
      | (s, some _) => plain1 s t stExists
      | (s, none) =>
        match emInsert s t (mkEntry (entStatic e) (entFrozen e) n (entSrc e) (tblGen s t) 0 (entKey e n) (entAction e)) with
        | (⟨some l, m, st, _⟩, u) => (.done stOk (body1 u t l 0 0 m st false), u)
        | (⟨none, _, _, blocked⟩, u) => plain1 u t (if blocked then stFullDeferred else stFull)
    else if tblType s t = 1 then
      let p := imagePfx s t img
      match findPfx s t p with
      | (s, some _) => plain1 s t stExists
      | (s, none) =>
        if lpmCap s t ≤ (pfxAll s t).length then plain1 s t stFull
        else plain1 (putPfx s t p (pfxInsert p (pfxAll s t))) t stOk
    else atLoc1 (dirPut s t (cmdLoc c) img) t (cmdLoc c))

def tblUpdate (c : Ctl) (img : List Byte) (s : State) : CtlRes × State :=
  let t := cmdTable c
  class1 c s [0, 1] (plenOk s t img && (tblType s t ≠ 0 || !cmdBit c 14 || locOk s t (cmdLoc c))) (fun s =>
    if tblType s t = 0 then
      withEntry c s img (fun s l =>
        let e := emRaw s t l
        let m := imageOf img
        let thaw := cmdBit c 19 && !entFrozen m
        let u := emRewrite s t l (if cmdBit c 18 then entStatic m else entStatic e) (if cmdBit c 19 then entFrozen m else entFrozen e)
          (if cmdBit c 17 then entSrc m else entSrc e) (tblGen s t) (if thaw then 0 else entMoves e)
          (if cmdBit c 16 then entAction m else entAction e) (emHit s t l)
        atLoc1 (if thaw then trackDrop u t (entKey e (tblKeyLen s t)) else u) t l)
    else
      withPfx c s img (fun s q =>
        let r := if cmdBit c 16 then { q with result := (imagePfx s t img).result } else q
        plain1 (putPfx s t q ((pfxAll s t).map (fun x => if x == q then r else x))) t stOk))

def tblDelete (c : Ctl) (img : List Byte) (s : State) : CtlRes × State :=
  let t := cmdTable c
  class1 c s [0, 1, 2] (plenOk s t img && ((tblType s t = 0 && !cmdBit c 14) || tblType s t = 1 || locOk s t (cmdLoc c))) (fun s =>
    if tblType s t = 0 then withEntry c s img (fun s l => atLoc1 (emDelete s t l) t l)
    else if tblType s t = 1 then
      withPfx c s img (fun s q => plain1 (dropPfx s t q) t stOk)
    else if locListed s t (cmdLoc c) then plain1 s t stNotFound
    else atLoc1 (dirPut s t (cmdLoc c) []) t (cmdLoc c))

/-- The buffer address of a command: bits [5:0] are 0. -/
def cmdAddr (c : Ctl) : Nat := bodyDword c 4

def tblSearch (c : Ctl) (img : List Byte) (s : State) (fn : Nat) : CtlRes × State :=
  let t := cmdTable c
  class1 c s [0, 1, 2] (plenOk s t img && ((tblType s t = 0 && !cmdBit c 14) || tblType s t = 1 || locOk s t (cmdLoc c))) (fun s =>
    if tblType s t = 0 then withEntry c s img (fun s l => atLoc1 (hostWrite s fn (cmdAddr c) (itemBytes (emImage s t l))) t l)
    else if tblType s t = 1 then
      withPfx c s img (fun s p => plain1 (hostWrite s fn (cmdAddr c) (pfxImage s t p)) t stOk)
    else if locListed s t (cmdLoc c) then plain1 s t stNotFound
    else
      let (u, bad) := dirProbe s 2 t (cmdLoc c)
      if bad then plain1 (noteParity u t (cmdLoc c)) t stNotFound
      else atLoc1 (hostWrite u fn (cmdAddr c) (dirRaw u t (cmdLoc c))) t (cmdLoc c))

/-- Up to `n` EM records from location `pos`: the records, where the cursor stands, and the state. Entries with a parity error are
listed and skipped. -/
def emRecords (s : State) (t : Nat) : List Nat → Nat → Nat → List Byte → Nat → Nat × List Byte × Nat × State
  | _, 0, pos, acc, done => (pos, acc, done, s)
  | [], _ + 1, _, acc, done => (tblSize s t + 4096, acc, done, s)
  | l :: r, n + 1, _, acc, done =>
    let p := visitProbe s t l
    if p.2 then emRecords p.1 t r (n + 1) (l + 1) acc done
    else emRecords p.1 t r n (l + 1) (acc ++ itemBytes (emImage p.1 t l)) (done + 1)

/-- DIR records of `n` indexes from `pos`: a listed or failing entry reads as zeros. -/
def dirRecords (s : State) (t : Nat) : Nat → Nat → List Byte → List Byte × State
  | 0, _, acc => (acc, s)
  | n + 1, pos, acc =>
    let p := if locListed s t pos then (s, true) else dirProbe s 2 t pos
    let u := if p.2 && !locListed s t pos then noteParity p.1 t pos else p.1
    let bs := if p.2 then [] else dirRaw u t pos
    dirRecords u t n (pos + 1) (acc ++ (bs ++ List.replicate 64 0).take 64)

/-- Prefixes past the cursor's last one, ascending. -/
def pfxAfter (s : State) (t : Nat) (a : Option (W128 × Nat)) : List Prefix :=
  match a with
  | none => pfxOf s t
  | some (x, n) => (pfxOf s t).filter (fun p => pfxBefore x n p.addr p.plen)

/-- A TBL_NEXT has read `done` records: the cursor moves, or closes at the end of the table. -/
def nextDone (c : Ctl) (s : State) (fn : Nat) (bs : List Byte) (cur : Cursor) (done : Nat) (end_ : Bool) : CtlRes × State :=
  let t := cmdTable c
  let u := setCursor (hostWrite s fn (cmdAddr c) bs) t (if end_ then none else some cur)
  (.done stOk (body1 u t 0xFFFFFFFF done cur.pos 0 false end_), u)

def tblNext (c : Ctl) (s : State) (fn : Nat) : CtlRes × State :=
  let t := cmdTable c
  let n := bits (bodyWord c 3) 8 0
  class1 c s [0, 1, 2] (decide (1 ≤ n) && decide (n ≤ 256)) (fun s =>
    let cur := mget noCursor s.agt.cursors t
    if cmdBit c 15 && cur.isSome then plain1 s t stBusy
    else if !cmdBit c 15 && cur.isNone then plain1 s t stNotFound
    else
      let k := cur.getD ⟨0, none, 0⟩
      if tblType s t = 0 then
        let (pos, bs, done, u) := emRecords s t ((liveLocs s t).filter (fun l => decide (k.pos ≤ l))) n k.pos [] 0
        nextDone c u fn bs ⟨pos, none, u.tim.elapsed⟩ done (decide (tblSize u t + 4096 ≤ pos))
      else if tblType s t = 1 then
        let l := pfxAfter s t k.after
        let take := l.take n
        let after := match take.getLast? with | some p => some (p.addr, p.plen) | none => k.after
        nextDone c s fn (take.flatMap (fun p => pfxImage s t p ++ List.replicate 32 0)) ⟨k.pos + take.length, after, s.tim.elapsed⟩ take.length (decide (l.length ≤ n))
      else
        let m := min n (tblSize s t - k.pos)
        let (bs, u) := dirRecords s t m k.pos []
        nextDone c u fn bs ⟨k.pos + m, none, u.tim.elapsed⟩ m (decide (tblSize u t ≤ k.pos + m)))

def tblFlush (c : Ctl) (s : State) : CtlRes × State :=
  let t := cmdTable c
  let mode := bits (bodyWord c 0) 29 28
  class1 c s [0, 1] (tblType s t = 0 || mode = 0) (fun s =>
    if (mget noFlush s.agt.flushes t).isSome then plain1 s t stBusy
    else if mode = 3 then plain1 (s.setFld F.AGT_TBL_GEN_GEN t (tblGen s t + 1)) t stOk
    else
      let p : FlushPass := ⟨mode, bits (bodyWord c 0) 27 20, bits (bodyWord c 2) 15 0, cmdBit c 13, 0, none, 0⟩
      (.later (.tblFlush t), { s with agt := { s.agt with flushes := mset noFlush s.agt.flushes t (some p) } }))

/-- What the pass selects (R212). -/
def flushSelects (p : FlushPass) (e : Item) : Bool :=
  (if p.mode = 0 then true else if p.mode = 1 then entSrc e == p.port else entGen e == p.gen) && (!entStatic e || p.incl)

/-- What is left for the pass to visit. -/
def flushNextLoc (s : State) (t : Nat) (p : FlushPass) : Option Nat := (liveLocs s t).find? (fun l => decide (p.pos ≤ l))
def flushNextPfx (s : State) (t : Nat) (p : FlushPass) : Option Prefix := (pfxAfter s t p.after).head?

def setFlush (s : State) (t : Nat) (p : FlushPass) : State := { s with agt := { s.agt with flushes := mset noFlush s.agt.flushes t (some p) } }

/-- The pass visits the next location or prefix that holds an entry (R212). -/
def flushVisit (s : State) (t : Nat) (p : FlushPass) : State :=
  if tblType s t = 1 then
    match flushNextPfx s t p with
    | none => s
    | some q => count (setFlush (dropPfx s t q) t { p with after := some (q.addr, q.plen), deleted := p.deleted + 1 }) (12800 + 8 * t + 7) 1 0
  else
    match flushNextLoc s t p with
    | none => s
    | some l =>
      let (u, bad) := visitProbe s t l
      if !bad && flushSelects p (emRaw u t l) then
        count (setFlush (emDelete u t l) t { p with pos := l + 1, deleted := p.deleted + 1 }) (12800 + 8 * t + 7) 1 0
      else setFlush u t { p with pos := l + 1 }

def execFlushVisit (t : Fin 64) (s : State) : Out :=
  match mget noFlush s.agt.flushes t.val with
  | none => .next s
  | some p => .next (if pktUp s then flushVisit s t.val p else s)

/-- The pass has visited everything. -/
def flushOver (s : State) (t : Nat) (p : FlushPass) : Bool :=
  if tblType s t = 1 then (flushNextPfx s t p).isNone else (flushNextLoc s t p).isNone

def execTblFlushComplete (t : Fin 64) (s : State) : Out :=
  match mget noFlush s.agt.flushes t.val with
  | none => .next s
  | some p => .next (if pktUp s && flushOver s t.val p then flushEnd s t.val else s)

def tblCursorClose (c : Ctl) (s : State) : CtlRes × State :=
  class1 c s [0, 1, 2] true (fun s => plain1 (setCursor s (cmdTable c) none) (cmdTable c) stOk)

/-- TBL_LOC_CLEAR (R202): the location is written invalid with good parity and leaves the list. -/
def tblLocClear (c : Ctl) (s : State) : CtlRes × State :=
  let t := cmdTable c
  let l := cmdLoc c
  class1 c s [0] (locOk s t l) (fun s =>
    if !locListed s t l then plain1 s t stNotFound
    else
      let u := setHit (emPut s t l 0) t l false
      let v := if l < tblSize s t then u else stashGive u t (l - tblSize s t)
      atLoc1 { v with agt := { v.agt with listed := v.agt.listed.filter (· != (t, l)) } } t l)

/-- `img` is what Agate reads at ADDR. -/
def execTblInsert (c : Ctl) (img : List Byte) (s : State) : Out := .next (ctlExec s c 0x0101 (fun u _ => tblInsert c img u))
def execTblUpdate (c : Ctl) (img : List Byte) (s : State) : Out := .next (ctlExec s c 0x0102 (fun u _ => tblUpdate c img u))
def execTblDelete (c : Ctl) (img : List Byte) (s : State) : Out := .next (ctlExec s c 0x0103 (fun u _ => tblDelete c img u))
def execTblSearch (c : Ctl) (img : List Byte) (s : State) : Out := .next (ctlExec s c 0x0104 (fun u fn => tblSearch c img u fn))
def execTblNext (c : Ctl) (s : State) : Out := .next (ctlExec s c 0x0105 (fun u fn => tblNext c u fn))
def execTblFlush (c : Ctl) (s : State) : Out := .next (ctlExec s c 0x0106 (fun u _ => tblFlush c u))
def execTblCursorClose (c : Ctl) (s : State) : Out := .next (ctlExec s c 0x0107 (fun u _ => tblCursorClose c u))
def execTblLocClear (c : Ctl) (s : State) : Out := .next (ctlExec s c 0x0108 (fun u _ => tblLocClear c u))

/-- 1 s with no TBL_NEXT closes the cursor (R209). -/
def execCursorTimeout (t : Fin 64) (edges : Nat) (s : State) : Out :=
  let u := advance s edges
  .next (match mget noCursor u.agt.cursors t.val with
    | some k => if pktUp u && decide (1000000000 * 2 ^ 32 ≤ u.tim.elapsed - k.at_) then setCursor u t.val none else u
    | none => u)

end Sys2Proof.Machine
end

