-- ==== Sys2Proof/Machine/Flags.lean ====
section
/-!
DEFINITION. What the arithmetic instructions compute: results and the flags C, V, Z and N (R300, R305, R313).
-/

namespace Sys2Proof.Machine

/-- Z and N follow a result. -/
def setZN (x : Thread) (r : W32) : Thread := setFlagBit (setFlagBit x 2 (r == 0)) 3 r.msb

/-- C and V, then Z and N. -/
def setCVZN (x : Thread) (c v : Bool) (r : W32) : Thread := setZN (setFlagBit (setFlagBit x 0 c) 1 v) r

/-- gD = r with Z and N. -/
def putZN (x : Thread) (rd : Nat) (r : W32) : Thread := gSet (setZN x r) rd r

/-- gD = r with Z alone. -/
def putZ (x : Thread) (rd : Nat) (r : W32) : Thread := gSet (setZ x (r == 0)) rd r

/-- gD = a + b + carry: C is the carry out and V signed overflow. -/
def addInto (x : Thread) (rd : Nat) (a b : W32) (carry : Bool) : Thread :=
  let r := a + b + BitVec.ofNat 32 (b2n carry)
  gSet (setCVZN x (decide (2 ^ 32 ≤ a.toNat + b.toNat + b2n carry)) (decide (a.toInt + b.toInt + b2n carry ≠ r.toInt)) r) rd r

/-- gD = a − b − borrow: C is the borrow out. -/
def subInto (x : Thread) (rd : Nat) (a b : W32) (borrow : Bool) : Thread :=
  let r := a - b - BitVec.ofNat 32 (b2n borrow)
  gSet (setCVZN x (decide (a.toNat < b.toNat + b2n borrow)) (decide (a.toInt - b.toInt - b2n borrow ≠ r.toInt)) r) rd r

/-- The last bit out of a shift, which leaves C unchanged when its count is 0. -/
def shiftC (x : Thread) (n : Nat) (b : Bool) : Thread := if n = 0 then x else setFlagBit x 0 b

/-- Shifts and rotates by `n`, 0–31. -/
def shlInto (x : Thread) (rd : Nat) (a : W32) (n : Nat) : Thread := putZN (shiftC x n (a.getLsbD (32 - n))) rd (a <<< n)
def shrInto (x : Thread) (rd : Nat) (a : W32) (n : Nat) : Thread := putZN (shiftC x n (a.getLsbD (n - 1))) rd (a >>> n)
def sarInto (x : Thread) (rd : Nat) (a : W32) (n : Nat) : Thread := putZN (shiftC x n (a.getLsbD (n - 1))) rd (a.sshiftRight n)
def rolInto (x : Thread) (rd : Nat) (a : W32) (n : Nat) : Thread := putZN x rd (a.rotateLeft n)
def rorInto (x : Thread) (rd : Nat) (a : W32) (n : Nat) : Thread := putZN x rd (a.rotateRight n)

/-- gB[4:0]. -/
def shiftBy (b : W32) : Nat := b.toNat % 32

/-- High halves of products. -/
def mulHigh (a b : W32) : W32 := BitVec.ofNat 32 (a.toNat * b.toNat / 2 ^ 32)
def mulHighS (a b : W32) : W32 := BitVec.ofInt 32 (a.toInt * b.toInt / 2 ^ 32)

def clzOf (a : W32) : W32 := if a = 0 then 32 else BitVec.ofNat 32 (31 - Nat.log2 a.toNat)
def popcOf (a : W32) : W32 := BitVec.ofNat 32 ((List.range 32).countP a.getLsbD)
def bswapOf (a : W32) : W32 := BitVec.ofNat 32 (beNat (leBytes 4 a.toNat))

/-- One's-complement addition of 32 bits, with end-around carry. -/
def csumOf (a b : W32) : W32 := BitVec.ofNat 32 ((a.toNat + b.toNat) % 2 ^ 32 + (a.toNat + b.toNat) / 2 ^ 32)

/-- A checksum folded to 16 bits and complemented. -/
def csumFold (a : W32) : W32 :=
  let t := a.toNat / 2 ^ 16 + a.toNat % 2 ^ 16
  BitVec.ofNat 32 (2 ^ 16 - 1 - (t % 2 ^ 16 + t / 2 ^ 16) % 2 ^ 16)

/-- A field of `w` bits from `pos`. -/
def extOf (a : W32) (pos w : Nat) : W32 := BitVec.ofNat 32 (a.toNat / 2 ^ pos % 2 ^ w)

/-- `d` with the field of `w` bits at `pos` replaced from the low bits of `a`; bits past 31 are dropped. -/
def insOf (d a : W32) (pos w : Nat) : W32 :=
  let m := BitVec.ofNat 32 ((2 ^ w - 1) * 2 ^ pos)
  (d &&& ~~~m) ||| (BitVec.ofNat 32 (a.toNat * 2 ^ pos) &&& m)

end Sys2Proof.Machine
end

