-- ==== Sys2Proof/Machine/Aes.lean ====
section
/-!
DEFINITION. AES as FIPS 197 defines it, with the block multiplication of GCM (NIST SP 800-38D) and the subkeys of CMAC (NIST SP 800-38B):
what CPX-C computes (R352).
-/

namespace Sys2Proof.Machine

/-- The S-box, entry i in bits [8i+7:8i]. -/
def aesSboxTable : Nat := 0x16bb54b00f2d99416842e6bf0d89a18cdf2855cee9871e9b948ed9691198f8e19e1dc186b95735610ef6034866b53e708a8bbd4b1f74dde8c6b4a61c2e2578ba08ae7a65eaf4566ca94ed58d6d37c8e779e4959162acd3c25c2406490a3a32e0db0b5ede14b8ee4688902a22dc4f816073195d643d7ea7c41744975fec130ccdd2f3ff1021dab6bcf5389d928f40a351a89f3c507f02f94585334d43fbaaefd0cf584c4a39becb6a5bb1fc20ed00d153842fe329b3d63b52a05a6e1b1a2c830975b227ebe28012079a059618c323c7041531d871f1e5a534ccf73f362693fdb7c072a49cafa2d4adf04759fa7dc982ca76abd7fe2b670130c56f6bf27b777c63
def aesSbox (b : Nat) : Nat := (aesSboxTable >>> (8 * b)) % 256

/-- Multiplication by x in the field of AES. -/
def aesXtime (a : Nat) : Nat := if 128 ≤ a then (2 * a % 256) ^^^ 0x1B else 2 * a

/-- One more word of the key schedule, words held newest first. -/
def aesNextWord (nk i rcon : Nat) (ws : List (List Nat)) : List Nat :=
  let prev := ws.headD []
  let base := ws.getD (nk - 1) []
  let t := if i % nk = 0 then
      (match prev with
       | [a, b, c, d] => [aesSbox b ^^^ rcon, aesSbox c, aesSbox d, aesSbox a]
       | l => l)
    else if nk = 8 && i % nk = 4 then prev.map aesSbox
    else prev
  List.zipWith (fun x y => x ^^^ y) base t

/-- The schedule grown by `n` words from word `i`. -/
def aesGrow (nk : Nat) : Nat → Nat → Nat → List (List Nat) → List (List Nat)
  | 0, _, _, ws => ws
  | n + 1, i, rcon, ws =>
    aesGrow nk n (i + 1) (if i % nk = 0 then aesXtime rcon else rcon) (aesNextWord nk i rcon ws :: ws)

/-- A list cut into groups of four. -/
def fours {α : Type} : List α → List (List α)
  | a :: b :: c :: d :: r => [a, b, c, d] :: fours r
  | _ => []

/-- Round keys of 16 bytes, in order. -/
def aesKeys (key : List Byte) : List (List Nat) :=
  let nk := key.length / 4
  let ws := (aesGrow nk (3 * nk + 28) nk 1 ((fours (key.map BitVec.toNat)).reverse)).reverse
  (fours ws).map List.flatten

/-- SubBytes and ShiftRows. -/
def aesSubShift (b : List Nat) : List Nat :=
  (List.range 16).map (fun i => aesSbox (b.getD ((i + 4 * (i % 4)) % 16) 0))

/-- MixColumns. -/
def aesMix (b : List Nat) : List Nat :=
  ((fours b).map (fun c => match c with
    | [p, q, r, t] =>
      let a := p ^^^ q ^^^ r ^^^ t
      [p ^^^ a ^^^ aesXtime (p ^^^ q), q ^^^ a ^^^ aesXtime (q ^^^ r), r ^^^ a ^^^ aesXtime (r ^^^ t), t ^^^ a ^^^ aesXtime (t ^^^ p)]
    | l => l)).flatten

def xorNats (a b : List Nat) : List Nat := List.zipWith (fun x y => x ^^^ y) a b

/-- The rounds after the first key addition. -/
def aesRounds : List (List Nat) → List Nat → List Nat
  | [], b => b
  | [k], b => xorNats (aesSubShift b) k
  | k :: r, b => aesRounds r (xorNats (aesMix (aesSubShift b)) k)

/-- AES encryption of one 16-byte block under a key of 16 or 32 bytes. -/
def aesEnc (key blk : List Byte) : List Byte :=
  match aesKeys key with
  | [] => blk
  | k :: r => (aesRounds r (xorNats (blk.map BitVec.toNat) k)).map (BitVec.ofNat 8)

/-- A block as the string of bits that GCM numbers from its first byte's most significant bit. -/
def gcmNat (blk : List Byte) : Nat := beNat blk

/-- Multiplication in the field of GHASH. -/
def gcmMulFrom : Nat → Nat → Nat → Nat → Nat
  | 0, _, _, z => z
  | n + 1, x, v, z =>
    gcmMulFrom n x (if v % 2 = 1 then (v / 2) ^^^ (0xE1 * 2 ^ 120) else v / 2) (if bitOf x n then z ^^^ v else z)

def gcmMul (x y : Nat) : Nat := gcmMulFrom 128 x y 0

/-- Doubling of a CMAC subkey. -/
def cmacDouble (l : Nat) : Nat := if 2 ^ 127 ≤ l then (2 * l % 2 ^ 128) ^^^ 0x87 else 2 * l

end Sys2Proof.Machine
end

