-- ==== Sys2Proof/Machine/Sha.lean ====
section
/-!
DEFINITION. SHA-256 and SHA-384 as FIPS 180-4 defines them: what CPX-H computes (R354) and what the boot ROM and Edsen check (R496, R511).
-/

namespace Sys2Proof.Machine

/-- Round constants, word i at bits [32i+31:32i] and [64i+63:64i]. -/
def sha256Table : Nat := 0xc67178f2bef9a3f7a4506ceb90befffa8cc7020884c8781478a5636f748f82ee682e6ff35b9cca4f4ed8aa4a391c0cb334b0bcb52748774c1e376c0819a4c116106aa070f40e3585d6990624d192e819c76c51a3c24b8b70a81a664ba2bfe8a192722c8581c2c92e766a0abb650a735453380d134d2c6dfc2e1b213827b70a851429296706ca6351d5a79147c6e00bf3bf597fc7b00327c8a831c66d983e515276f988da5cb0a9dc4a7484aa2de92c6f240ca1cc0fc19dc6efbe4786e49b69c1c19bf1749bdc06a780deb1fe72be5d74550c7dc3243185be12835b01d807aa98ab1c5ed5923f82a459f111f13956c25be9b5dba5b5c0fbcf71374491428a2f98
def sha512Table : Nat := 0x6c44198c4a4758175fcb6fab3ad6faec597f299cfc657e2a4cc5d4becb3e42b6431d67c49c100d4c3c9ebe0a15c9bebc32caab7b40c7249328db77f523047d841b710b35131c471b113f9804bef90dae0a637dc5a2c898a606f067aa72176fbaf57d4f7fee6ed178eada7dd6cde0eb1ed186b8c721c0c207ca273eceea26619cc67178f2e372532bbef9a3f7b2c67915a4506cebde82bde990befffa23631e288cc702081a6439ec84c87814a1f0ab7278a5636f43172f60748f82ee5defb2fc682e6ff3d6b2b8a35b9cca4f7763e3734ed8aa4ae3418acb391c0cb3c5c95a6334b0bcb5e19b48a82748774cdf8eeb991e376c085141ab5319a4c116b8d2d0c8106aa07032bbd1b8f40e35855771202ad69906245565a910d192e819d6ef5218c76c51a30654be30c24b8b70d0f89791a81a664bbc423001a2bfe8a14cf1036492722c851482353b81c2c92e47edaee6766a0abb3c77b2a8650a73548baf63de53380d139d95b3df4d2c6dfc5ac42aed2e1b21385c26c92627b70a8546d22ffc142929670a0e6e7006ca6351e003826fd5a79147930aa725c6e00bf33da88fc2bf597fc7beef0ee4b00327c898fb213fa831c66d2db43210983e5152ee66dfab76f988da831153b55cb0a9dcbd41fbd44a7484aa6ea6e4832de92c6f592b0275240ca1cc77ac9c650fc19dc68b8cd5b5efbe4786384f25e3e49b69c19ef14ad2c19bf174cf6926949bdc06a725c7123580deb1fe3b1696b172be5d74f27b896f550c7dc3d5ffb4e2243185be4ee4b28c12835b0145706fbed807aa98a3030242ab1c5ed5da6d8118923f82a4af194f9b59f111f1b605d0193956c25bf348b538e9b5dba58189dbbcb5c0fbcfec4d3b2f7137449123ef65cd428a2f98d728ae22

/-- Initial hash values. -/
def sha256Init : List Nat := [0x6a09e667, 0xbb67ae85, 0x3c6ef372, 0xa54ff53a, 0x510e527f, 0x9b05688c, 0x1f83d9ab, 0x5be0cd19]
def sha384Init : List Nat := [0xcbbb9d5dc1059ed8, 0x629a292a367cd507, 0x9159015a3070dd17, 0x152fecd8f70e5939, 0x67332667ffc00b31, 0x8eb44a8768581511, 0xdb0c2e0d64f98fa7, 0x47b5481dbefa4fa4]

/-- What the two families differ in: word size, rounds, round constants and the rotations of the four functions. -/
structure ShaKind where
  w : Nat
  rounds : Nat
  table : Nat
  s0 : Nat × Nat × Nat
  s1 : Nat × Nat × Nat
  e0 : Nat × Nat × Nat
  e1 : Nat × Nat × Nat

def sha256Kind : ShaKind := ⟨32, 64, sha256Table, (7, 18, 3), (17, 19, 10), (2, 13, 22), (6, 11, 25)⟩
def sha512Kind : ShaKind := ⟨64, 80, sha512Table, (1, 8, 7), (19, 61, 6), (28, 34, 39), (14, 18, 41)⟩

def rotRight (w x n : Nat) : Nat := (x >>> n) ||| ((x <<< (w - n)) % 2 ^ w)
def shaSmall (w : Nat) (r : Nat × Nat × Nat) (x : Nat) : Nat := rotRight w x r.1 ^^^ rotRight w x r.2.1 ^^^ (x >>> r.2.2)
def shaBig (w : Nat) (r : Nat × Nat × Nat) (x : Nat) : Nat := rotRight w x r.1 ^^^ rotRight w x r.2.1 ^^^ rotRight w x r.2.2

/-- One round on the eight working variables with message word `m` and constant `k`. -/
def shaRound (c : ShaKind) (h : List Nat) (m k : Nat) : List Nat :=
  match h with
  | [a, b, cc, d, e, f, g, hh] =>
    let ch := (e &&& f) ^^^ ((2 ^ c.w - 1 - e) &&& g)
    let maj := (a &&& b) ^^^ (a &&& cc) ^^^ (b &&& cc)
    let t1 := hh + shaBig c.w c.e1 e + ch + k + m
    let t2 := shaBig c.w c.e0 a + maj
    [(t1 + t2) % 2 ^ c.w, a, b, cc, (d + t1) % 2 ^ c.w, e, f, g]
  | l => l

/-- The rounds from round `i`, over a window of the next sixteen message words. -/
def shaRounds (c : ShaKind) : Nat → Nat → List Nat → List Nat → List Nat
  | 0, _, _, h => h
  | n + 1, i, win, h =>
    let m := win.getD 0 0
    let next := (shaSmall c.w c.s1 (win.getD 14 0) + win.getD 9 0 + shaSmall c.w c.s0 (win.getD 1 0) + m) % 2 ^ c.w
    shaRounds c n (i + 1) (win.drop 1 ++ [next]) (shaRound c h m ((c.table >>> (c.w * i)) % 2 ^ c.w))

/-- One block of 16 words compressed into a hash value. -/
def shaBlock (c : ShaKind) (h : List Nat) (blk : List Byte) : List Nat :=
  let ws := (List.range 16).map (fun i => beNat ((blk.drop (i * (c.w / 8))).take (c.w / 8)))
  List.zipWith (fun x y => (x + y) % 2 ^ c.w) h (shaRounds c c.rounds 0 ws h)

/-- Whole blocks of a message compressed; the fuel is the number of blocks. -/
def shaBlocks (c : ShaKind) : Nat → List Nat → List Byte → List Nat
  | 0, h, _ => h
  | n + 1, h, bs => shaBlocks c n (shaBlock c h (bs.take (2 * c.w))) (bs.drop (2 * c.w))

/-- The padding after `len` message bytes. -/
def shaPad (c : ShaKind) (len : Nat) : List Byte :=
  let blk := 2 * c.w
  let lb := c.w / 4
  let z := (2 * blk - 1 - lb - len % blk) % blk
  [0x80] ++ List.replicate z 0 ++ beBytes lb (8 * len)

/-- The rest `buf` of a message of `len` bytes padded and compressed. -/
def shaFinish (c : ShaKind) (h : List Nat) (buf : List Byte) (len : Nat) : List Nat :=
  let m := buf ++ shaPad c len
  shaBlocks c (m.length / (2 * c.w)) h m

/-- A hash value as bytes. -/
def shaBytes (c : ShaKind) (h : List Nat) : List Byte := h.flatMap (beBytes (c.w / 8))

/-- SHA-384 of a message. -/
def sha384 (m : List Byte) : List Byte := (shaBytes sha512Kind (shaFinish sha512Kind sha384Init m m.length)).take 48

end Sys2Proof.Machine
end

