-- ==== Sys2Proof/Machine/CpxOps.lean ====
section
/-!
DEFINITION. The coprocessors (R338–R364): lanes and queues, what each command does when it commits, how locks are granted, and how
commands are squashed.
-/

namespace Sys2Proof.Machine

def noLane : Nat → Lane := fun _ =>
  { c := [], mode := 0, err := false, holder := none, abandoned := false, key := [], j0 := 0, ctr := 0, ghash := 0, aad := 0,
    bytes := 0, aadEnd := false, dataEnd := false, dir := none, mac := 0, hash := [], buf := [] }
def noCmds : Nat → List CpxCmd := fun _ => []
def noSlot : Nat → KeySlot := fun _ => ⟨[], false, false⟩

def laneKey (n u l : Nat) : Nat := 32 * n + 16 * u + l
def laneOf (s : State) (n u l : Nat) : Lane := mget noLane s.cpx.lane (laneKey n u l)
def setLane (s : State) (n u l : Nat) (x : Lane) : State := { s with cpx := { s.cpx with lane := mset noLane s.cpx.lane (laneKey n u l) x } }
def cpxQ (s : State) (n u : Nat) : List CpxCmd := mget noCmds s.cpx.queue (2 * n + u)
def setCpxQ (s : State) (n u : Nat) (q : List CpxCmd) : State := { s with cpx := { s.cpx with queue := mset noCmds s.cpx.queue (2 * n + u) q } }
def slotOf (s : State) (n k : Nat) : KeySlot := mget noSlot s.cpx.slot (512 * n + k)
def setSlot (s : State) (n k : Nat) (x : KeySlot) : State :=
  noteWrite { s with cpx := { s.cpx with slot := mset noSlot s.cpx.slot (512 * n + k) x } } 9 n (512 * n + k) k true

/-- Counter set k of a unit (R364). -/
def cpxCount (s : State) (n u k by_ : Nat) : State := count s (13312 + 16 * n + 8 * u + k) 1 by_

def noW128 : Nat → W128 := fun _ => 0
def cReg (x : Lane) (r : Nat) : W128 := mget noW128 x.c r
def setC (x : Lane) (r : Nat) (v : W128) : Lane := { x with c := mset noW128 x.c r v }

/-- The bytes of a register, byte 0 first, and back (R338). -/
def regBytes (v : W128) : List Byte := leBytes 16 v.toNat
def bytesReg (l : List Byte) : W128 := BitVec.ofNat 128 (leNat (l.take 16))

/-- A lane with its registers, state and ERR cleared (R344, R345, R351); holder and mark stay. -/
def laneClear (x : Lane) : Lane := { noLane 0 with holder := x.holder, abandoned := x.abandoned }

/-! ## Queue (R342, R343, R346) -/

/-- Commands of lane `l`, in confirm order. -/
def laneCmds (q : List CpxCmd) (l : Nat) : List CpxCmd := q.filter (·.lane == l)

def isLock (c : CpxCmd) : Bool := c.move.isNone && c.cop == 0

/-- Thread `i` has a LOCK of lane `l` queued. -/
def lockQueued (q : List CpxCmd) (l i : Nat) : Bool := q.any (fun c => c.lane == l && c.thr == i && isLock c)

/-- A queued LOCK waits for a grant: the lane is held, or an earlier LOCK of it is queued (R342). -/
def lockWaits (s : State) (n u : Nat) (q : List CpxCmd) (c : CpxCmd) : Bool :=
  isLock c && ((laneOf s n u c.lane).holder.isSome ||
    ((laneCmds q c.lane).takeWhile (fun d => d.tag != c.tag)).any isLock)

/-- Commands held by LOCKs waiting for a grant: those LOCKs and what their threads have queued behind them (R343). -/
def cpxHeldBack (s : State) (n u : Nat) (q : List CpxCmd) : List CpxCmd :=
  q.filter (fun c => ((laneCmds q c.lane).takeWhile (fun d => d.tag != c.tag) ++ [c]).any (fun d => d.thr == c.thr && lockWaits s n u q d))

/-- A command finds room (R343, R346). -/
def cpxRoom (s : State) (n u : Nat) (c : CpxCmd) : Bool :=
  let q := cpxQ s n u
  decide (q.length < 64) &&
  (let q' := q ++ [{ c with tag := 64 }]
   let h := cpxHeldBack s n u q'
   !(h.any (fun d => d.tag == 64)) || decide (h.length ≤ 32))

/-- A free entry's number (R346): which one is a free choice. -/
def freeTag (s : State) (q : List CpxCmd) : Nat × State :=
  let free := (List.range 64).filter (fun i => !(q.any (fun c => c.tag == i)))
  let (i, u) := draw s free.length
  (free.getD i 0, u)

/-- The command of a lane that takes effect next (R342, R350): the holder's first, or on a free lane the first of all. -/
def cpxNext (s : State) (n u l : Nat) : Option CpxCmd :=
  let q := laneCmds (cpxQ s n u) l
  match (laneOf s n u l).holder with
  | some i => q.find? (fun c => c.thr == i)
  | none => q.head?

def dropCmd (s : State) (n u : Nat) (c : CpxCmd) : State := setCpxQ s n u ((cpxQ s n u).filter (fun d => d.tag != c.tag))

/-! ## The effect of each operation (R351, R352, R355) -/

/-- What an operation makes of its lane: the lane, the registers it writes, the data bytes it processed, and whether it is refused. -/
structure CpxEff where
  lane : Lane
  out : List (Nat × W128)
  bytes : Nat
  bad : Bool

def cpxOk (x : Lane) : CpxEff := ⟨x, [], 0, false⟩
def cpxBad (x : Lane) (outs : List Nat) : CpxEff := ⟨x, outs.map (fun r => (r, 0)), 0, true⟩

/-- The lane's number of bytes from cB word 0 [4:0]. -/
def nOf (v : W128) : Nat := v.toNat % 32

def encBlk (x : Lane) (b : List Byte) : List Byte := aesEnc x.key b
def hOf (x : Lane) : Nat := gcmNat (encBlk x (List.replicate 16 0))
def blkOf (v : Nat) : List Byte := beBytes 16 v

/-- One block into GHASH. -/
def ghashIn (x : Lane) (b : List Byte) : Lane :=
  { x with ghash := BitVec.ofNat 128 (gcmMul (x.ghash.toNat ^^^ gcmNat b) (hOf x)) }

/-- The first `n` bytes padded with zeros to a block. -/
def padBlk (b : List Byte) (n : Nat) : List Byte := (b.take n ++ List.replicate 16 0).take 16

/-- The next counter block (R352). -/
def nextCtr (x : Lane) : Lane :=
  { x with ctr := BitVec.ofNat 128 (x.ctr.toNat / 2 ^ 32 * 2 ^ 32 + (x.ctr.toNat + 1) % 2 ^ 32) }

/-- GCM_AAD of `n` bytes; a partial block ends the AAD. -/
def gcmAad (x : Lane) (a : W128) (n : Nat) (part : Bool) : CpxEff :=
  if x.mode ≠ 1 || x.dir.isSome || x.aadEnd || (part && (n = 0 || 15 < n)) || 2 ^ 61 - 1 < x.aad + n then cpxBad x []
  else ⟨{ ghashIn x (padBlk (regBytes a) n) with aad := x.aad + n, aadEnd := part }, [], n, false⟩

/-- GCM data of `n` bytes in the direction `enc`. -/
def gcmData (x : Lane) (enc : Bool) (d : Nat) (a : W128) (n : Nat) (part : Bool) : CpxEff :=
  if x.mode ≠ 1 || x.dir == some (!enc) || x.dataEnd || (part && (n = 0 || 15 < n)) || 2 ^ 36 - 32 < x.bytes + n then cpxBad x [d]
  else
    let y := nextCtr x
    let o := List.zipWith (fun p q => p ^^^ q) (regBytes a) (encBlk y (blkOf y.ctr.toNat))
    let txt := padBlk o n
    let z := ghashIn y (if enc then txt else padBlk (regBytes a) n)
    ⟨{ z with bytes := x.bytes + n, dataEnd := part, dir := some enc }, [(d, bytesReg txt)], n, false⟩

/-- The GCM tag as a block (NIST SP 800-38D). -/
def gcmTag (x : Lane) : List Byte :=
  let y := ghashIn x (blkOf (8 * x.aad * 2 ^ 64 + 8 * x.bytes))
  List.zipWith (fun p q => p ^^^ q) (encBlk x (blkOf x.j0.toNat)) (blkOf y.ghash.toNat)

/-- An INIT that copies a key slot: refused when the slot is not VALID (R352, R445). -/
def keyInit (x : Lane) (k : KeySlot) (bad : Bool) (f : Lane → Lane) : CpxEff :=
  if !k.valid || bad then cpxBad { x with err := false } []
  else cpxOk (f { x with key := if k.k256 then (k.key ++ List.replicate 32 0).take 32 else (k.key ++ List.replicate 16 0).take 16, err := false })

/-- The last CMAC block of `n` bytes (NIST SP 800-38B). -/
def cmacLast (x : Lane) (d : Nat) (a : W128) (n0 : Nat) : CpxEff :=
  if x.mode ≠ 2 then cpxBad x [d]
  else
    let n := min n0 16
    let k1 := cmacDouble (gcmNat (encBlk x (List.replicate 16 0)))
    let m := if n = 16 then gcmNat (regBytes a) ^^^ k1
      else gcmNat (((regBytes a).take n ++ [0x80] ++ List.replicate 16 0).take 16) ^^^ cmacDouble k1
    ⟨{ x with mode := 0, aad := x.aad + n }, [(d, bytesReg (encBlk x (blkOf (m ^^^ x.mac.toNat))))], n, false⟩

def shaKindOf (x : Lane) : ShaKind := if x.mode = 3 then sha256Kind else sha512Kind

/-- Message bytes into a hash. -/
def shaIn (x : Lane) (bs : List Byte) (part : Bool) : CpxEff :=
  let k := shaKindOf x
  let b := x.buf ++ bs
  let full := 2 * k.w ≤ b.length
  ⟨{ x with hash := if full then shaBlock k x.hash (b.take (2 * k.w)) else x.hash, buf := if full then b.drop (2 * k.w) else b,
            aad := x.aad + bs.length, dataEnd := part }, [], bs.length, false⟩

def shaMode (x : Lane) : Bool := x.mode == 3 || x.mode == 4
def crcMode (x : Lane) : Bool := x.mode == 5 || x.mode == 6

/-- A digest in registers from `d` onward. -/
def shaOut (x : Lane) (d n : Nat) : CpxEff :=
  let k := shaKindOf x
  let bs := shaBytes k (shaFinish k x.hash x.buf x.aad)
  ⟨{ x with mode := 0 }, (List.range n).map (fun i => (d + i, bytesReg (bs.drop (16 * i)))), 0, false⟩

def crcVal (x : Lane) : Nat := x.hash.headD 0
def crcIn (x : Lane) (bs : List Byte) (part : Bool) : CpxEff :=
  let v := if x.mode = 5 then crc32cRun (crcVal x) bs else crc64Run (crcVal x) bs
  ⟨{ x with hash := [v], aad := x.aad + bs.length, dataEnd := part }, [], bs.length, false⟩

/-- A fresh operation in a mode: state cleared, ERR cleared, registers kept. -/
def newMode (x : Lane) (m : Nat) (h : List Nat) : Lane :=
  { noLane 0 with c := x.c, holder := x.holder, abandoned := x.abandoned, mode := m, hash := h }

/-- LSTAT's word (R351). -/
def lstat (x : Lane) : W128 :=
  BitVec.ofNat 128 (x.mode + b2n x.err * 2 ^ 8 + b2n x.abandoned * 2 ^ 9 + b2n x.dir.isSome * 2 ^ 10
    + x.aad % 2 ^ 32 * 2 ^ 32 + x.bytes % 2 ^ 32 * 2 ^ 64)

/-- GCM_VERIFY's comparison: true on match. -/
def gcmMatches (x : Lane) (a b : W128) : Bool :=
  let t := nOf b
  let n := if t = 0 || 16 < t then 16 else t
  (gcmTag x).take n == (regBytes a).take n

/-- An operation by its COP value on a lane, with the key slot it names and whether that slot has a parity error. Operations on locks and
key slots are not here. -/
def cpxEff (x : Lane) (cop d : Nat) (a b : W128) (k : KeySlot) (kbad : Bool) : CpxEff :=
  match cop with
  | 0x02 => cpxOk (laneClear x)
  | 0x03 => ⟨x, [(d, lstat x)], 0, false⟩
  | 0x04 => ⟨x, [(d, a)], 0, false⟩
  | 0x05 => ⟨x, [(d, a ^^^ b)], 0, false⟩
  | 0x10 =>
    keyInit x k kbad (fun y =>
      let j := BitVec.ofNat 128 (beNat ((regBytes b).take 12) * 2 ^ 32 + 1)
      { newMode y 1 [] with key := y.key, j0 := j, ctr := j })
  | 0x11 => gcmAad x a 16 false
  | 0x12 => gcmAad x a (nOf b) true
  | 0x13 => gcmData x true d a 16 false
  | 0x14 => gcmData x true d a (nOf b) true
  | 0x15 => gcmData x false d a 16 false
  | 0x16 => gcmData x false d a (nOf b) true
  | 0x17 => if x.mode ≠ 1 then cpxBad x [d] else ⟨{ x with mode := 0 }, [(d, bytesReg (gcmTag x))], 0, false⟩
  | 0x18 =>
    if x.mode ≠ 1 then ⟨x, [(d, 1)], 0, true⟩
    else ⟨{ x with mode := 0 }, [(d, if gcmMatches x a b then 0 else 1)], 0, false⟩
  | 0x20 => keyInit x k kbad (fun y => { newMode y 2 [] with key := y.key })
  | 0x21 =>
    if x.mode ≠ 2 then cpxBad x []
    else ⟨{ x with mac := BitVec.ofNat 128 (gcmNat (encBlk x (blkOf (gcmNat (regBytes a) ^^^ x.mac.toNat)))), aad := x.aad + 16 }, [], 16, false⟩
  | 0x22 => cmacLast x d a (nOf b)
  | 0x40 => cpxOk (newMode x 3 sha256Init)
  | 0x41 => cpxOk (newMode x 4 sha384Init)
  | 0x42 => if !shaMode x || x.dataEnd then cpxBad x [] else shaIn x (regBytes a) false
  | 0x43 => if !shaMode x || x.dataEnd || nOf b = 0 || 15 < nOf b then cpxBad x [] else shaIn x ((regBytes a).take (nOf b)) true
  | 0x44 => if x.mode ≠ 3 then cpxBad x [d, d + 1] else shaOut x d 2
  | 0x45 => if x.mode ≠ 4 then cpxBad x [d, d + 1, d + 2] else shaOut x d 3
  | 0x50 => cpxOk (newMode x 5 [0xFFFFFFFF])
  | 0x51 => cpxOk (newMode x 6 [0])
  | 0x52 => if !crcMode x || x.dataEnd then cpxBad x [] else crcIn x (regBytes a) false
  | 0x53 => if !crcMode x || x.dataEnd || nOf b = 0 || 15 < nOf b then cpxBad x [] else crcIn x ((regBytes a).take (nOf b)) true
  | 0x54 =>
    if !crcMode x then cpxBad x [d]
    else ⟨{ x with mode := 0 }, [(d, BitVec.ofNat 128 (if x.mode = 5 then crcVal x ^^^ 0xFFFFFFFF else crcVal x))], 0, false⟩
  | 0x55 => if !crcMode x then cpxBad x [] else cpxOk { x with hash := [if x.mode = 5 then a.toNat % 2 ^ 32 else a.toNat % 2 ^ 64] }
  | _ => cpxOk x

/-- Registers written: while ERR = 1 zero, except LSTAT's word and GCM_VERIFY's mismatch (R351; log entry 21). -/
def cpxOuts (x : Lane) (cop : Nat) (outs : List (Nat × W128)) : Lane :=
  outs.foldl (fun y o => setC y (o.1 % 16) (if x.err && cop != 0x03 then (if cop = 0x18 then 1 else 0) else o.2)) x

/-- A command's effect at its commit, for the operations that act on the lane and the key slots alone. -/
def cpxRun (s : State) (n u : Nat) (c : CpxCmd) : State :=
  let x := laneOf s n u c.lane
  let a := cReg x c.ca
  let b := cReg x c.cb
  let d := cReg x c.cd
  let slot := a.toNat % 512
  let usesKey := c.cop = 0x10 || c.cop = 0x20
  let kbad := usesKey && unitErr s 9 (512 * n + slot) != 0
  let s0 := if kbad then noteUe s 9 7 1 2 n slot else s
  if c.cop = 0x30 then
    let w := d.toNat
    cpxCount (setSlot s0 n (w % 512) ⟨regBytes a ++ regBytes b, true, bitOf w 31⟩) n u 0 0
  else if c.cop = 0x31 then cpxCount (setSlot s0 n (d.toNat % 512) ⟨[], false, false⟩) n u 0 0
  else
    let e := cpxEff x c.cop c.cd a b (slotOf s0 n slot) kbad
    let y := { e.lane with err := e.lane.err || e.bad }
    let z := cpxOuts y c.cop e.out
    let s1 := cpxCount (setLane s0 n u c.lane z) n u 0 e.bytes
    let s2 := if e.bad then cpxCount s1 n u 7 0 else s1
    if c.cop = 0x18 && !e.bad && !gcmMatches x a b then cpxCount s2 n u 5 0 else s2

/-! ## Squash and discard (R348, R349) -/

/-- A thread waiting on a discarded `mfc` or `scq` issues it again. -/
def cpxReissue (s : State) (n u : Nat) (c : CpxCmd) : State :=
  let t := 256 * n + c.thr
  let x := thrOf s t
  match x.wait with
  | .cpr u' tag => if u' = u && tag = c.tag && x.st = .stall then endWait s t x else s
  | _ => s

/-- A command squashed. -/
def squash (s : State) (n u : Nat) (c : CpxCmd) : State := cpxCount (dropCmd s n u c) n u 1 0

/-- A command discarded, uncounted; a thread that waits for its data issues it again. -/
def discard (s : State) (n u : Nat) (c : CpxCmd) : State := cpxReissue (dropCmd s n u c) n u c

/-! ## Locks (R342, R344, R345) -/

/-- A LOCK takes effect on a free lane: its thread holds the lane, and its status word is written. -/
def lockTake (s : State) (n u : Nat) (c : CpxCmd) : State :=
  let x := laneOf s n u c.lane
  let y := setC { x with holder := some c.thr } c.cd (BitVec.ofNat 128 (if x.abandoned then tsAbandoned else 0))
  cpxCount (setLane (dropCmd s n u c) n u c.lane y) n u 0 0

/-- The next waiting LOCK of a freed lane is granted. -/
def lockPass (s : State) (n u l : Nat) : State :=
  match (laneCmds (cpxQ s n u) l).find? isLock with
  | some c => if (laneOf s n u l).holder.isNone then lockTake s n u c else s
  | none => s

/-- Thread `i`'s commands of a lane that it does not hold are discarded (log entry 21). -/
def laneStray (s : State) (n u l i : Nat) : State :=
  foldS ((laneCmds (cpxQ s n u) l).filter (fun c => c.thr == i)) (fun v c => discard v n u c) s

/-- UNLOCK (R344); what its thread has queued behind it has no lane any more. -/
def unlockRun (s : State) (n u : Nat) (c : CpxCmd) : State :=
  let x := laneOf s n u c.lane
  let y := if s.flag F.CPX_CFG_CLR_ON_UNLOCK (2 * n + u) then laneClear x else x
  let s1 := cpxCount (setLane (dropCmd s n u c) n u c.lane { y with holder := none, abandoned := false }) n u 0 0
  lockPass (laneStray s1 n u c.lane c.thr) n u c.lane

/-! ## Moves (R356) -/

/-- `mfc` and `scq` read the lane at their retire point; the thread goes on. -/
def moveOut (s : State) (n u : Nat) (c : CpxCmd) (kind idx : Nat) (addr : W32) : State :=
  let t := 256 * n + c.thr
  let v := cReg (laneOf s n u c.lane) c.cd
  let s1 := cpxCount (dropCmd s n u c) n u 0 0
  let x := thrOf s1 t
  if kind = 1 then endWaitNext (rfWrite s1 t addr.toNat) t (gSet x addr.toNat (BitVec.ofNat 32 (bits v.toNat (32 * idx + 31) (32 * idx))))
  else
    let s2 := match localOf t addr.toNat 16 with
      | some p => placeWrite s1 t p (regBytes v)
      | none => s1
    endWaitNext s2 t (thrOf s2 t)

/-- `mtc` and `lcq` write the lane at their commit; `lcq` of a poisoned word sets ERR and writes nothing (R448). -/
def moveIn (s : State) (n u : Nat) (c : CpxCmd) (kind idx : Nat) (data : W128) : State :=
  let x := laneOf s n u c.lane
  let s1 := cpxCount (dropCmd s n u c) n u 0 0
  if c.poisoned then cpxCount (setLane s1 n u c.lane { x with err := true }) n u 7 0
  else
    let v := if kind = 0 then BitVec.ofNat 128 (setBits (cReg x c.cd).toNat (32 * idx + 31) (32 * idx) data.toNat) else data
    setLane s1 n u c.lane (setC x c.cd v)

/-! ## Commits (R350) -/

/-- The lane's next command, when it is confirmed or a read whose turn has come, takes effect. A command whose thread no longer holds the
lane is discarded (log entry 21). -/
def cpxCommitOne (s : State) (n u l : Nat) : State :=
  match cpxNext s n u l with
  | none => s
  | some c =>
    if isLock c then (if (laneOf s n u l).holder.isNone then lockTake s n u c else s)
    else if (laneOf s n u l).holder ≠ some c.thr then discard s n u c
    else
      match c.move with
      | some (1, i, a, _) => moveOut s n u c 1 i a
      | some (3, i, a, _) => moveOut s n u c 3 i a
      | some (k, i, _, d) => moveIn s n u c k i d
      | none => if c.cop = 1 then unlockRun s n u c else dropCmd (cpxRun s n u c) n u c

/-- Reads at the front of a lane return their data at once; the fuel is the queue's length. -/
def cpxPumpFrom : Nat → State → Nat → Nat → Nat → State
  | 0, s, _, _, _ => s
  | f + 1, s, n, u, l =>
    match cpxNext s n u l with
    | some c =>
      match c.move with
      | some (1, _, _, _) => cpxPumpFrom f (cpxCommitOne s n u l) n u l
      | some (3, _, _, _) => cpxPumpFrom f (cpxCommitOne s n u l) n u l
      | _ => s
    | none => s

/-- `cpwait`s that find none of their commands left end, and threads that waited for a queue entry issue again (R331). -/
def cpxWake (s : State) (n u : Nat) : State :=
  foldS (s.gar.thr.map (·.1)) (fun v t =>
    if isMgt t || cluOf t != n then v
    else
      let x := thrOf v t
      match x.wait with
      | .cpw u' l => if u' = u && !((laneCmds (cpxQ v n u) l).any (fun c => c.thr == t % 256 && c.confirmed)) then endWaitNext v t x else v
      | .cpq u' c => if u' = u && x.st = .stall && cpxRoom v n u c then endWait v t { x with requeued := true } else v
      | _ => v) s

/-- The DRAINED bit of a disabled unit follows its queue (R358). -/
def cpxDrain (s : State) (n u : Nat) : State :=
  if !s.flag F.CPX_CFG_EN (2 * n + u) && (cpxQ s n u).isEmpty then s.setFlag F.CPX_STS_DRAINED (2 * n + u) true else s

/-- One commit on a lane with what follows it. -/
def cpxCommit (s : State) (n u l : Nat) : State :=
  let s1 := cpxCommitOne s n u l
  cpxDrain (cpxWake (cpxPumpFrom (cpxQ s1 n u).length s1 n u l) n u) n u

/-! ## Squash, FREE and disable (R345, R348, R349, R358, R359) -/

/-- The holder's confirmed commands of a lane complete; the fuel is the queue's length. -/
def cpxFinish : Nat → State → Nat → Nat → Nat → Nat → State
  | 0, s, _, _, _, _ => s
  | f + 1, s, n, u, l, i =>
    if (laneOf s n u l).holder = some i && (laneCmds (cpxQ s n u) l).any (fun c => c.thr == i && c.confirmed) then
      cpxFinish f (cpxCommitOne s n u l) n u l i
    else s

/-- The commands of a lane's holder that are not confirmed are squashed, and the lane is cleared, marked and freed (R345). -/
def laneRelease (s : State) (n u l i : Nat) : State :=
  let s1 := foldS ((laneCmds (cpxQ s n u) l).filter (fun c => c.thr == i)) (fun v c => cpxReissue (squash v n u c) n u c) s
  lockPass (cpxCount (setLane s1 n u l { laneClear (laneOf s1 n u l) with holder := none, abandoned := true }) n u 4 0) n u l

/-- FREE of a lane: the holder's confirmed commands complete first, and where an UNLOCK among them passes the lane on, FREE meets the new
holder (R345, R363). The fuel is one more than the queue's length. -/
def laneFreeFrom : Nat → State → Nat → Nat → Nat → State
  | 0, s, _, _, _ => s
  | f + 1, s, n, u, l =>
    match (laneOf s n u l).holder with
    | none => s
    | some i =>
      let s1 := cpxFinish (cpxQ s n u).length s n u l i
      if (laneOf s1 n u l).holder = some i then laneRelease s1 n u l i else laneFreeFrom f s1 n u l

/-- What waits for the clock of a parked cluster (R361). -/
def dueOf (s : State) (n : Nat) : List CpxDue := mget (fun _ => []) s.cpx.due n
def setDue (s : State) (n : Nat) (l : List CpxDue) : State := { s with cpx := { s.cpx with due := mset (fun _ => []) s.cpx.due n l } }

/-- FREE of a held lane (R345). -/
def laneFreeNow (s : State) (n u l : Nat) : State :=
  if (laneOf s n u l).holder.isNone then s
  else cpxDrain (cpxWake (laneFreeFrom ((cpxQ s n u).length + 1) s n u l) n u) n u

/-- FREE, at unparking where the cluster is parked. -/
def laneFree (s : State) (n u l : Nat) : State :=
  if parked s n then setDue s n (dueOf s n ++ [.free u l]) else laneFreeNow s n u l

/-- A free lane's first LOCK, if it is thread `i`'s, takes effect. -/
def lockFirst (s : State) (n u l i : Nat) : State :=
  if (laneOf s n u l).holder.isSome then s
  else
    match (laneCmds (cpxQ s n u) l).find? isLock with
    | some c => if c.thr = i then lockTake s n u c else s
    | none => s

/-- A thread's reset on one lane (R348, R359): its unconfirmed commands are squashed; where it holds the lane, or its LOCK of a free lane
is first, its confirmed commands complete and the lane is freed as FREE does; a LOCK that waits is withdrawn with what is behind it. -/
def laneThreadReset (s : State) (n u l i : Nat) : State :=
  let mine := (laneCmds (cpxQ s n u) l).filter (fun c => c.thr == i)
  let s1 := lockFirst (foldS (mine.filter (fun c => !c.confirmed)) (fun v c => squash v n u c) s) n u l i
  if (laneOf s1 n u l).holder = some i then
    let s2 := cpxFinish (cpxQ s1 n u).length s1 n u l i
    if (laneOf s2 n u l).holder = some i then laneRelease s2 n u l i else s2
  else laneStray s1 n u l i

/-- A thread's reset on both units. -/
def cpxThreadNow (s : State) (n i : Nat) : State :=
  foldS [0, 1] (fun v u =>
    cpxDrain (cpxWake (foldS (List.range 16) (fun w l =>
      if (laneOf w n u l).holder = some i || (laneCmds (cpxQ w n u) l).any (fun c => c.thr == i) then laneThreadReset w n u l i else w) v)
      n u) n u) s

/-- A thread's reset reaches the coprocessors, at unparking where the cluster is parked. -/
def cpxThreadReset (s : State) (n i : Nat) : State :=
  if parked s n then setDue s n (dueOf s n ++ [.thread i]) else cpxThreadNow s n i

/-- What waited for the cluster's clock is done. -/
def cpxUnpark (s : State) (n : Nat) : State :=
  foldS (dueOf s n) (fun v d => match d with
    | .free u l => laneFreeNow v n u l
    | .thread i => cpxThreadNow v n i) (setDue s n [])

/-- EN of a unit cleared (R358): every waiting LOCK completes with BUSY, and what is behind it is discarded. -/
def cpxDisable (s : State) (n u : Nat) : State :=
  let q := cpxQ s n u
  let back := cpxHeldBack s n u q
  let s1 := foldS back (fun v c =>
    let w := cpxReissue (dropCmd v n u c) n u c
    if isLock c then setLane w n u c.lane (setC (laneOf w n u c.lane) c.cd (BitVec.ofNat 128 tsBusy)) else w)
    (s.setFlag F.CPX_CFG_EN (2 * n + u) false)
  cpxDrain (cpxWake s1 n u) n u

end Sys2Proof.Machine
end

