-- ==== Sys2Proof/Machine/FlintOps.lean ====
section
/-!
DEFINITION. Flint's shared operations (R365–R379): access rights, acquire, release, grants, freed events, forced release and
abandonment.
-/

namespace Sys2Proof.Machine

def noLock : Nat → Lock := fun _ => ⟨none, false, false, []⟩
def noSem : Nat → Sem := fun _ => ⟨false, [], []⟩
def lockOf (s : State) (k : Nat) : Lock := mget noLock s.flt.lock k
def putLock (s : State) (k : Nat) (x : Lock) : State := { s with flt := { s.flt with lock := mset noLock s.flt.lock k x } }
def setLock (s : State) (k : Nat) (x : Lock) : State := arrWrite (putLock s k x) 5 k
def semOf (s : State) (k : Nat) : Sem := mget noSem s.flt.sem k
def putSem (s : State) (k : Nat) (x : Sem) : State := { s with flt := { s.flt with sem := mset noSem s.flt.sem k x } }
def setSem (s : State) (k : Nat) (x : Sem) : State := arrWrite (putSem s k x) 6 k

/-- A lock, or a semaphore, is read; a lost one is free with nothing queued (R452). -/
def lockProbe (s : State) (k : Nat) : State := arrProbe s 5 k (fun u => putLock u k (noLock k))
def semProbe (s : State) (k : Nat) : State := arrProbe s 6 k (fun u => putSem u k (noSem k))

/-! ## Owners and rights (R366, R367) -/

def ownerOfThr (t : Nat) : Nat := if isMgt t then 2 ^ 14 + (t - 0x2000) else t
def ownerOfFn (f : Nat) : Nat := 2 ^ 15 + f

/-- The thread of an owner ID, if it is one. -/
def thrOfOwner (o : Nat) : Option Nat :=
  if o < 2 ^ 13 then some o else if 2 ^ 14 ≤ o && o < 2 ^ 14 + 8 then some (0x2000 + (o - 2 ^ 14)) else none

/-- A request of an owner is permitted by the group's access pair. `sem` says which kind of group. -/
def fltAllowed (s : State) (sem : Bool) (num o : Nat) : Bool :=
  let g := num / 64
  let clu := if sem then s.reg .FLT_SGRP_CLU g else s.reg .FLT_LGRP_CLU g
  let acc := if sem then s.reg .FLT_SGRP_ACC g else s.reg .FLT_LGRP_ACC g
  if o < 2 ^ 13 then bitOf clu (cluOf o) && (isS s o || bitOf acc 0)
  else if o < 2 ^ 15 then bitOf acc 1
  else bitOf acc 2

/-! ## Semaphores (R365, R369) -/

def semHeld (x : Sem) : Nat := x.holds.foldl (fun n h => n + h.units) 0
def semAvail (s : State) (k : Nat) : Nat := s.fld F.FLT_SEM_CFG_MAX k - semHeld (semOf s k)
def unitsOfOwner (x : Sem) (o : Nat) : Nat := x.holds.foldl (fun n h => if h.owner = o then n + h.units else n) 0

/-- Holding records in use. -/
def hrecUsed (s : State) : Nat := s.flt.sem.foldl (fun n e => n + e.2.holds.length) 0

/-- The units, and a record where one is needed, are available. -/
def semCan (s : State) (k o n : Nat) : Bool :=
  decide (n ≤ semAvail s k) && (decide (0 < unitsOfOwner (semOf s k) o) || decide (hrecUsed s < 4096))

/-- `n` units of a semaphore pass to an owner, who is told of the mark. -/
def semTake (s : State) (k o n : Nat) : State :=
  let x := semOf s k
  let hs := if 0 < unitsOfOwner x o then x.holds.map (fun h => if h.owner = o then { h with units := h.units + n, told := h.told || x.mark } else h)
    else x.holds ++ [⟨o, n, x.mark⟩]
  setSem s k { x with holds := hs }

/-- `n` units of an owner come back; an empty record returns to the pool. -/
def semGive (x : Sem) (o n : Nat) : Sem :=
  { x with holds := (x.holds.map (fun h => if h.owner = o then { h with units := h.units - n } else h)).filter (fun h => decide (h.units ≠ 0)) }

/-! ## Grants (R370, R375) -/

/-- A thread sees that its queued acquire has been granted: OK or ACQ_ABANDONED. -/
def grantSeen (s : State) (t rd : Nat) (mark : Bool) : State :=
  endWaitNext s t (setStatus (thrOf s t) rd (if mark then tsAbandoned else 0) 0)

/-- Threads of an unparking cluster see the grants made while it was parked (R379). -/
def grantsSeen (s : State) (n : Nat) : State :=
  foldS (s.gar.thr.map (·.1)) (fun u t =>
    match (thrOf u t).wait with
    | .granted rd mark => if !isMgt t && cluOf t == n && (thrOf u t).st != .fault then grantSeen u t rd mark else u
    | _ => u) s

/-- A queued acquire is granted; a thread of a parked cluster sees it at unparking (R379). -/
def fltDone (s : State) (o : Nat) (mark : Bool) : State :=
  match thrOfOwner o with
  | none => s
  | some t =>
    let x := thrOf s t
    match x.wait with
    | .flint rd _ _ _ =>
      if !isMgt t && parked s (cluOf t) then setThr s t { x with wait := .granted rd mark } else grantSeen s t rd mark
    | _ => s

/-- A free lock goes to the head of its queue. -/
def lockGrant (s : State) (k : Nat) : State :=
  let x := lockOf s k
  match x.owner, x.queue with
  | none, o :: r => fltDone (setLock s k { x with owner := some o, told := x.mark, queue := r }) o x.mark
  | _, _ => s

/-- Heads of a semaphore's queue are granted while their counts are available; the fuel is the queue's length. -/
def semGrantFrom : Nat → State → Nat → State
  | 0, s, _ => s
  | f + 1, s, k =>
    let x := semOf s k
    match x.queue with
    | (o, n) :: r =>
      if semCan s k o n then semGrantFrom f (fltDone (semTake (setSem s k { x with queue := r }) k o n) o x.mark) k else s
    | [] => s

def semGrant (s : State) (k : Nat) : State := semGrantFrom (semOf s k).queue.length s k

/-- Every semaphore whose head waits for a holding record is tried again (R369, R379). -/
def semGrantAll (s : State) : State := foldS (s.flt.sem.map (·.1)) semGrant s

/-! ## Freed events and abandonment (R372, R374, R376) -/

/-- A release of a lock delivers its freed events and removes the registrations. -/
def lockFreed (s : State) (k : Nat) : State :=
  let os := (s.flt.regs.filter (fun r => r.1 == k)).map (·.2)
  let u := { s with flt := { s.flt with regs := s.flt.regs.filter (fun r => r.1 != k) } }
  foldS os (fun v o => match thrOfOwner o with
    | some t => setEv v t 8
    | none => v) u

/-- An abandonment is recorded (R376). -/
def noteAbandon (s : State) (sem : Bool) (num o : Nat) : State :=
  let w := b2n sem * 2 ^ 31 + num * 2 ^ 16
  raiseSrc ((s.setReg .FLT_ABN_LAST 0 (w + o)).bump F.FLT_ABN_CNT_COUNT 0 1) 162 w

/-- A lock freed as abandoned, before its grant. -/
def lockAbandon (s : State) (k o : Nat) : State :=
  noteAbandon (lockFreed (setLock s k { lockOf s k with owner := none, mark := true, told := false }) k) false k o

/-- An owner's units of a semaphore freed as abandoned, before any grant. -/
def semAbandon (s : State) (k o : Nat) : State :=
  let x := semOf s k
  noteAbandon (setSem s k { semGive x o (unitsOfOwner x o) with mark := true }) true k o

/-- A holder's reset (R374). -/
def fltReset (s : State) (o : Nat) : State :=
  let locks := (s.flt.lock.filter (fun e => e.2.owner == some o)).map (·.1)
  let sems := (s.flt.sem.filter (fun e => decide (0 < unitsOfOwner e.2 o))).map (·.1)
  let drop := { s with flt := { s.flt with regs := s.flt.regs.filter (fun r => r.2 != o) } }
  let s1 := foldS (s.flt.lock.map (·.1)) (fun u k => setLock u k { lockOf u k with queue := (lockOf u k).queue.filter (· ≠ o) }) drop
  let s2 := foldS (s.flt.sem.map (·.1)) (fun u k => setSem u k { semOf u k with queue := (semOf u k).queue.filter (fun q => q.1 != o) }) s1
  let s3 := foldS locks (fun u k => lockAbandon u k o) s2
  let s4 := foldS sems (fun u k => semAbandon u k o) s3
  semGrantAll (foldS locks lockGrant s4)

/-! ## Requests (R368, R369, R372) -/

/-- A try-acquire of a lock by an owner: the status, HELD_BEFORE, and the state after it; BUSY changes neither owner nor queue. -/
def lockTry (s0 : State) (k o : Nat) : Nat × Bool × State :=
  let s := lockProbe s0 k
  let x := lockOf s k
  if !fltAllowed s false k o then (tsDenied, false, s)
  else if x.owner = some o then (0, true, s)
  else if x.owner = none && x.queue.isEmpty then
    (if x.mark then tsAbandoned else 0, false, setLock s k { x with owner := some o, told := x.mark })
  else (tsBusy, false, s)

/-- A normal release of a lock. -/
def lockRel (s0 : State) (k o : Nat) : Nat × State :=
  let s := lockProbe s0 k
  let x := lockOf s k
  if x.owner = some o then
    (0, lockGrant (lockFreed (setLock s k { x with owner := none, mark := x.mark && !x.told, told := false }) k) k)
  else (tsNotHeld, s)

/-- A try-acquire of a semaphore. -/
def semTry (s0 : State) (k o n : Nat) : Nat × State :=
  let s := semProbe s0 k
  let x := semOf s k
  if !fltAllowed s true k o then (tsDenied, s)
  else if x.queue.isEmpty && semCan s k o n then (if x.mark then tsAbandoned else 0, semTake s k o n)
  else (tsBusy, s)

/-- A normal release of semaphore units (R369, R375). -/
def semRel (s0 : State) (k o n : Nat) : Nat × State :=
  let s := semProbe s0 k
  let x := semOf s k
  if n ≤ unitsOfOwner x o then
    let told := x.holds.any (fun h => h.owner == o && h.told)
    (0, semGrantAll (semGrant (setSem s k { semGive x o n with mark := x.mark && !told }) k))
  else (tsNotHeld, s)

/-- A forced release of the holding that an owner has (R373): whether there was one. -/
def fltForce (s : State) (sem : Bool) (num o : Nat) : Bool × State :=
  if sem then
    if num ≤ 511 && 0 < unitsOfOwner (semOf s num) o then (true, semGrantAll (semGrant (semAbandon s num o) num)) else (false, s)
  else if (lockOf s num).owner = some o then (true, lockGrant (lockAbandon s num o) num)
  else (false, s)

/-- A registration for a freed event (R372): OK, FULL or DENIED. -/
def fltRegister (s : State) (k o : Nat) : Nat × State :=
  if !fltAllowed s false k o then (tsDenied, s)
  else if s.flt.regs.contains (k, o) then (0, s)
  else if (lockOf s k).owner = none then
    (0, match thrOfOwner o with
      | some t => setEv s t 8
      | none => s)
  else if 1024 ≤ s.flt.regs.length then (tsFull, s)
  else (0, { s with flt := { s.flt with regs := s.flt.regs ++ [(k, o)] } })

/-- A registration cancelled (R372). -/
def fltCancel (s : State) (k o : Nat) : Nat × State :=
  if s.flt.regs.contains (k, o) then (0, { s with flt := { s.flt with regs := s.flt.regs.filter (· ≠ (k, o)) } }) else (tsNotHeld, s)

/-- FLT_LOCK[k] as it reads, and the two words of FLT_SEM[s]. -/
def lockWord (s : State) (k : Nat) : Nat :=
  let x := lockOf s k
  b2n x.owner.isSome * 2 ^ 31 + b2n x.mark * 2 ^ 30 + min x.queue.length 16383 * 2 ^ 16 + x.owner.getD 0xFFFF
def semCfgWord (s : State) (k : Nat) : Nat := semAvail s k * 2 ^ 16 + s.fld F.FLT_SEM_CFG_MAX k
def semStsWord (s : State) (k : Nat) : Nat :=
  let x := semOf s k
  b2n x.mark * 2 ^ 31 + semHeld x % 2 ^ 17 * 2 ^ 14 + min x.queue.length 16383

/-- An acquire withdrawn from its queue (R378). -/
def fltWithdraw (s : State) (o : Nat) (sem : Bool) (num : Nat) : State :=
  if sem then
    let x := semOf s num
    semGrant (setSem s num { x with queue := x.queue.filter (fun q => q.1 != o) }) num
  else setLock s num { lockOf s num with queue := (lockOf s num).queue.filter (· ≠ o) }

/-- A write of FLT_FORCE (R373). -/
def fltForceWrite (s : State) (w : Nat) : State :=
  let r := fltForce s (bitOf w 31) (bits w 27 16) (bits w 15 0)
  if r.1 then settle r.2 else s.setFlag F.FLT_STS_FORCE_MISS 0 true

end Sys2Proof.Machine
end

