-- ==== Sys2Proof/Machine/EgressOps.lean ====
section
/-!
DEFINITION. The transmit side's shared operations: ports and their pause frames (R62, R63, R69, R70, R73), admission and multicast
(R383, R386), header write-back (R391, R392), token buckets and DWRR (R388, R389), the calendar's tables (R397, R400, R401) and
frames in transmission (R72, R394, R456).
-/

namespace Sys2Proof.Machine

def noPort : Nat → Port := fun _ => ⟨0, false, 0, 0, 0, 0, []⟩
def noPkts : Nat → List EPkt := fun _ => []
def noTx : Nat → Option EPkt := fun _ => none
def noTxf : Nat → Option TxFrame := fun _ => none
def noBucket : Nat → Option Bucket := fun _ => none

def portOf (s : State) (p : Nat) : Port := mget noPort s.lpt p
def setPort (s : State) (p : Nat) (x : Port) : State := { s with lpt := mset noPort s.lpt p x }
def egrQ (s : State) (e : Nat) : List EPkt := mget noPkts s.egr.queues e
def putEgrQ (s : State) (e : Nat) (l : List EPkt) : State := { s with egr := { s.egr with queues := mset noPkts s.egr.queues e l } }
def setEgrQ (s : State) (e : Nat) (l : List EPkt) : State := arrWrite (putEgrQ s e l) 3 e
def txOf (s : State) (p : Nat) : Option EPkt := mget noTx s.egr.tx p
def setTx (s : State) (p : Nat) (x : Option EPkt) : State := { s with egr := { s.egr with tx := mset noTx s.egr.tx p x } }
def txfOf (s : State) (p : Nat) : Option TxFrame := mget noTxf s.egr.txOn p
def setTxf (s : State) (p : Nat) (x : Option TxFrame) : State := { s with egr := { s.egr with txOn := mset noTxf s.egr.txOn p x } }

/-! ## Ports (R62, R63, R81) -/

/-- Ports that a quad now forms. -/
def quadPorts (s : State) (q : Nat) : List Nat :=
  ((List.range 4).map (4 * q + ·) ++ [8 * (q / 2)]).eraseDups.filter (fun p =>
    decide (0 < portLanes s p) && (p / 4 == q || portLanes s p == 8))

/-- The lanes of a port. -/
def lanesOf (s : State) (p : Nat) : List Nat := (List.range (portLanes s p)).map (p + ·)

/-- The port that contains a lane, if its quad forms one. -/
def portOfLane (s : State) (l : Nat) : Option Nat :=
  [l, l / 2 * 2, l / 4 * 4, l / 8 * 8].find? (fun p => decide (0 < portLanes s p) && decide (l < p + portLanes s p))

/-- Picoseconds that one byte takes at the port rate. -/
def psPerByte (s : State) (p : Nat) : Nat := 80 / max 1 (portLanes s p)

/-- MAX_FRAME in force. -/
def maxFrame (s : State) (p : Nat) : Nat := clamp 64 10240 (s.fld F.LPT_CFG_MAX_FRAME p)

/-- A 16-bit field as a signed number. -/
def signed16 (v : Nat) : Int := if v < 2 ^ 15 then (v : Int) else (v : Int) - 2 ^ 16

/-- The corrections of R73 in ps, with the board trim. -/
def rxCorr (s : State) (p : Nat) : Int :=
  let u := portLanes s p
  (if u = 1 then 61400 else if u = 2 then 52600 else if u = 4 then 47900 else 44100) + signed16 (s.fld F.LPT_TS_ADJ_RX_PS p)
def txCorr (s : State) (p : Nat) : Int :=
  let u := portLanes s p
  (if u = 1 then 38200 else if u = 2 then 33000 else if u = 4 then 29500 else 27300) + signed16 (s.fld F.LPT_TS_ADJ_TX_PS p)

/-- A network time in 2^-32 ns moved by a number of ps. -/
def ntPlus (nt : Nat) (ps : Int) : Nat := ((nt : Int) + ps * 2 ^ 32 / 1000).toNat % 2 ^ 96

/-- The port is enabled and its link passes frames; with LOOPBACK 3 egress sees it down (R79). -/
def portUp (s : State) (p : Nat) : Bool :=
  portFormed s p && s.flag F.LPT_CFG_EN p && s.fld F.LPT_LINK_STATE p == 4 && (portOf s p).loop != 3

/-! ## Orrery's back-pressure classes as the sources see them (R236, R237) -/

/-- Instances of a register kind that hold something other than its reset value. -/
def regsOf (s : State) (r : RegName) : List Nat :=
  (s.regs.filter (fun e => e.1 / 2 ^ 24 == r.ctorIdx)).map (fun e => e.1 % 2 ^ 24)

def slotsFree (s : State) : Nat := 65536 - (s.ory.onchip.map (fun e => e.2.length)).sum
def tagsFree (s : State) : Nat := 65536 - s.ory.tags.length
def slotBp (s : State) : Bool := decide (slotsFree s < s.fld F.ORY_SLOT_XOFF_SLOTS 0)
def tagBp (s : State) : Bool := decide (tagsFree s < s.fld F.ORY_TAG_XOFF_TAGS 0)

/-- Class `b` is asserted. -/
def bpcAsserted (s : State) (b : Nat) : Bool :=
  slotBp s || tagBp s || (regsOf s .ORY_Q_STS).any (fun q =>
    s.flag F.ORY_Q_STS_XOFF_ACT q && s.flag F.ORY_Q_CFG_BPC_EN q && s.fld F.ORY_Q_CFG_BPC q == b)

/-- The queue is in XOFF or its class is asserted (R238). -/
def queueXoff (s : State) (q : Nat) : Bool :=
  s.flag F.ORY_Q_STS_XOFF_ACT q || (s.flag F.ORY_Q_CFG_BPC_EN q && bpcAsserted s (s.fld F.ORY_Q_CFG_BPC q))

/-- An asserted class names line source `i`. -/
def bpcLine (s : State) (i : Nat) : Bool :=
  (List.range 64).any (fun b => bitOf (s.reg .ORY_BPC_LINE (4 * b + i / 32)) (i % 32) && bpcAsserted s b)
def bpcSrc (s : State) (c : Nat) : Bool :=
  (List.range 64).any (fun b => bitOf (s.reg .ORY_BPC_SRC (8 * b + c / 32)) (c % 32) && bpcAsserted s b)
def bpcRecirc (s : State) : Bool := (List.range 64).any (fun b => s.flag F.ORY_BPC_CFG_RECIRC b && bpcAsserted s b)

/-! ## XOFF and pause frames (R69, R70) -/

/-- Priority `i` of line port `p` is in XOFF. -/
def lineXoff (s : State) (p i : Nat) : Bool := s.flag F.CRN_REQ_STS_XOFF_ACT (8 * p + i) || bpcLine s (8 * p + i)

def xoffMask (s : State) (p : Nat) : Nat := (List.range 8).foldl (fun m i => putBit m i (lineXoff s p i)) 0

/-- The priorities for which the port pauses its peer under its flow-control mode. -/
def pauseMask (s : State) (p : Nat) : Nat :=
  let x := xoffMask s p
  let m := s.fld F.LPT_CFG_FC_MODE p
  if m = 1 then (if x = 0 then 0 else 255) else if m = 2 then x &&& s.fld F.LPT_CFG_PFC_EN p else 0

/-- A big-endian value of `n` bytes at packet byte `x`. -/
def beAt (win : List Byte) (x n : Nat) : Nat := beNat ((win.drop x ++ List.replicate n 0).take n)

/-- A MAC Control frame: EtherType 0x8808 with opcode 0x0001 or 0x0101. -/
def macCtl (frame : List Byte) : Option Nat :=
  let op := beAt frame 14 2
  if beAt frame 12 2 = 0x8808 && (op = 1 || op = 0x101) then some op else none

/-- PCLK edges that a pause of `q` quanta lasts at the port rate (R390): 512 bit times each. -/
def pauseEdges (s : State) (p q : Nat) : Nat := (q * 768 + 100 * portLanes s p - 1) / (100 * max 1 (portLanes s p))

/-- A received pause for priority `i` (R390): a new frame restarts the timer, and quanta 0 ends the pause. -/
def setPaused (s : State) (p i q : Nat) : State :=
  { s with egr := { s.egr with pauseEnd := mset noNat s.egr.pauseEnd (8 * p + i) (if q = 0 then 0 else s.clk + pauseEdges s p q) } }

def pausedNow (s : State) (p i : Nat) : Bool := decide (s.clk < mget noNat s.egr.pauseEnd (8 * p + i))

/-- Egress obeys the quanta of a pause or PFC frame (R71, R390, R407). -/
def pauseObey (s : State) (p : Nat) (op : Nat) (frame : List Byte) : State :=
  if !s.flag F.EGR_PORT_CFG_PAUSE_RESP p then s
  else
    let u := count s (14336 + 16 * p + 5) 1 0
    if op = 1 then foldS (List.range 8) (fun v i => setPaused v p i (beAt frame 16 2)) u
    else foldS (List.range 8) (fun v i => if bitOf (beAt frame 16 2) i then setPaused v p i (beAt frame (18 + 2 * i) 2) else v) u

/-- The 64 bytes of a pause or PFC frame, FCS included (R70, IEEE 802.3). -/
def pauseBytes (f : PauseFrame) : List Byte :=
  let q := fun (i : Nat) => if f.en.getLsbD i && !f.zero.getLsbD i then f.quanta.toNat else 0
  let op := if f.pfc then beBytes 2 0x101 ++ beBytes 2 f.en.toNat ++ (List.range 8).flatMap (fun i => beBytes 2 (q i))
    else beBytes 2 1 ++ beBytes 2 (q 0)
  let body := (beBytes 6 f.dst.toNat ++ beBytes 6 f.src.toNat ++ beBytes 2 0x8808 ++ op ++ List.replicate 42 0).take 60
  body ++ leBytes 4 (ethFcs body)

/-- What the port transmits returns to its own reception inside the chip (R79). -/
def looped (s : State) (p : Nat) : Bool := (portOf s p).loop == 1 || (portOf s p).loop == 2

/-- A pause or PFC frame leaves the port and is counted; in a near-end loopback the port receives it itself (R79). -/
def sendPause (s : State) (p : Nat) (pfc : Bool) (en xon : Nat) : State :=
  let x := portOf s p
  let f : PauseFrame := ⟨pfc, BitVec.ofNat 8 en, BitVec.ofNat 8 xon, BitVec.ofNat 16 (s.fld F.LPT_FC_QUANTA p),
    BitVec.ofNat 48 (s.fld F.LPT_MAC_HI_ADDR_HI p * 2 ^ 32 + s.fld F.LPT_MAC_LO_ADDR_LO p), 0x0180C2000001⟩
  let u := count (setPort s p { x with sent := if looped s p then x.sent else f :: x.sent, pauseAt := s.tim.elapsed })
    (32 * p + (if pfc then 22 else 21)) 1 64
  if looped s p then pauseObey (count u (32 * p + (if pfc then 5 else 4)) 1 64) p (if pfc then 0x101 else 1) (pauseBytes f) else u

/-- The port's pauses follow its XOFF state (R69, R70, R82): a frame for newly paused priorities and, with XON_EN, quanta 0 for released ones;
FC_MODE changed between 802.3x and PFC releases the pauses of the old kind. -/
def pauseSync (s : State) (p : Nat) : State :=
  let x := portOf s p
  let old := x.paused.toNat
  if !portUp s p then (if old = 0 then s else setPort s p { x with paused := 0 })
  else
    let new := pauseMask s p
    let kind := s.fld F.LPT_CFG_FC_MODE p == 2
    let s1 := setPort s p { x with paused := BitVec.ofNat 8 new, pfc := if new = 0 then x.pfc else kind }
    let gone := if s.flag F.LPT_FC_XON_EN p then old &&& (255 - new) else 0
    if old ≠ 0 && new ≠ 0 && x.pfc != kind then
      sendPause (if s.flag F.LPT_FC_XON_EN p then sendPause s1 p x.pfc old old else s1) p kind new 0
    else if new &&& (255 - old) ≠ 0 || gone ≠ 0 then sendPause s1 p (if new = 0 then x.pfc else kind) (new ||| gone) gone
    else s1

/-- Every port's pauses after a change of XOFF, and the panic of the real-time port. -/
def linePauses (s : State) : State := panicSync (foldS (List.range 16) pauseSync s)

/-! ## Queues, groups and ports of egress (R381, R382) -/

def egrGroup (s : State) (e : Nat) : Nat := s.fld F.EGR_Q_CFG_GROUP e
def egrPort (s : State) (e : Nat) : Nat := s.fld F.EGR_GRP_CFG_PORT (egrGroup s e)

/-- Sets of a queue and of a port; P = 18 for what belongs to no port (R407). -/
def egrCount (s : State) (e k by_ : Nat) : State := count s (327680 + 4 * e + k) 1 by_
def egrPortCount (s : State) (p k by_ : Nat) : State := count s (14336 + 16 * p + k) 1 by_

/-- Queues that hold packets for port `p`. -/
def queuesFor (s : State) (p : Nat) : List Nat := (s.egr.queues.map (·.1)).filter (fun e => egrPort s e == p)

def queuedBytes (l : List EPkt) : Nat := (l.map (·.len)).sum

/-- Bytes queued for a port (EGR_PORT_QUEUED). -/
def portQueued (s : State) (p : Nat) : Nat := ((queuesFor s p).map (fun e => queuedBytes (egrQ s e))).sum

/-- The reference of a packet held by egress removed. -/
def dropPkt (s : State) (x : EPkt) : State := unref s x.head

/-! ## Transmit prefetch (R402) -/

/-- The bursts of DRAM cells that hold the packet, in its order. -/
def dramBursts (s : State) (x : EPkt) : List Nat :=
  match chainAt s x.head with
  | some ch => ((unitsOf ch 0 ch.len).filterMap (fun k => match ch.cells[k / 8]? with
      | some c => if cellSpace c = 0 then none else some ((cellDram s c + 16 * (k % 8)) / 64)
      | none => none)).eraseDups
  | none => []

/-- `l` is what the port's prefetch is to hold, up to the buffer's 2,048 units: what of it is not there is left to fetch. -/
def pfFill (s : State) (p : Nat) (l : List Nat) : State :=
  let have_ := pfHave s p
  { s with egr := { s.egr with pfLeft := mset noNats s.egr.pfLeft p ((l.diff (have_.map (·.1))).take (2048 - have_.length)) } }

/-- The prefetch of a line port without a running calendar is to hold its queued packets, queue by queue (log entry 59). -/
def pfSync (s : State) (p : Nat) : State :=
  if p < 16 && s.fld F.MER_STS_STATE p = 0 then
    panicSync (pfFill s p ((queuesFor s p).flatMap (fun e => (egrQ s e).flatMap (dramBursts s))))
  else s

/-- A packet leaves the port or is dropped: what was prefetched for it goes, and nothing of it is left to fetch. -/
def pfDrop (s : State) (p : Nat) (bs : List Nat) : State :=
  if bs.isEmpty then s
  else
    let pf := bs.foldl (fun l b => match l.find? (fun y => y.1 == b) with | some y => l.erase y | none => l) (pfHave s p)
    pfSync { s with egr := { s.egr with pf := mset noPairs s.egr.pf p pf, pfLeft := mset noNats s.egr.pfLeft p ((pfList s p).diff bs) } } p

/-- Admission of one packet at a unicast queue, from step 3 of R383. -/
def admitUni (s : State) (x : EPkt) : State :=
  let e := x.queue
  let p := egrPort s e
  if !s.flag F.EGR_Q_CFG_EN e then egrCount (dropPkt s x) e 3 x.len
  else if p < 16 && !portFormed s p then egrCount (dropPkt s x) e 3 x.len
  else if p < 16 && !s.flag F.LPT_CFG_EN p then
    egrCount (count (dropPkt s x) (32 * p + 24) 1 (x.len + 4)) e 3 x.len
  else if s.fld F.EGR_Q_LIMIT_LIMIT e * 1024 ≤ queuedBytes (egrQ s e) then egrCount (dropPkt s x) e 2 x.len
  else
    let u := setEgrQ s e (egrQ s e ++ [x])
    egrCount (if (dramBursts u x).isEmpty then u else pfSync u p) e 0 x.len

/-- Multicast expansion (R386): copies for the members, in order, `refs` of them with a reference. -/
def expandFrom (s : State) (x : EPkt) (base : Nat) : Nat → Nat → Nat → State
  | _, _, 0 => s
  | i, refs, n + 1 =>
    let e := s.fld F.EGR_MCM_QUEUE ((base + i) % 4096)
    if refs = 0 then expandFrom (egrPortCount s 18 2 x.len) x base (i + 1) 0 n
    else if s.flag F.EGR_Q_CFG_KIND e then
      expandFrom (egrPortCount (unref s x.head) 18 3 x.len) x base (i + 1) (refs - 1) n
    else expandFrom (admitUni (egrCount s x.queue 1 x.len) { x with queue := e }) x base (i + 1) (refs - 1) n

/-- Up to `n` references added to a chain (R121): how many, and the state. -/
def addRefs (s : State) (h n : Nat) : Nat × State :=
  match chainAt s h with
  | none => (0, s)
  | some ch => let k := min n (255 - ch.refs); (k, setChain s h (some { ch with refs := ch.refs + k }))

/-- Admission from step 3 (R383, R386). -/
def admitFrom3 (s : State) (x : EPkt) : State :=
  let e := x.queue
  if s.flag F.EGR_Q_CFG_EN e && s.flag F.EGR_Q_CFG_KIND e then
    let m := s.fld F.EGR_Q_DEST_DEST e % 512
    let n := min 64 (s.fld F.EGR_MCL_COUNT m)
    let s1 := egrCount s e 0 x.len
    if n = 0 then egrCount (dropPkt s1 x) e 3 x.len
    else
      let (k, s2) := addRefs s1 x.head (n - 1)
      expandFrom s2 x (s.fld F.EGR_MCL_BASE m) 0 (k + 1) n
  else admitUni s x

/-- A packet that the ordering gate releases comes to egress (R383). -/
def egrAdmit (s : State) (x : Emit) : State :=
  match x.head with
  | none => if s.flag F.EGR_CTL_EN 0 then egrPortCount s 18 10 0 else egrPortCount s 18 9 0
  | some h =>
    let len := match chainAt s h with | some ch => ch.len | none => 0
    if !s.flag F.EGR_CTL_EN 0 then egrPortCount (unref s h) 18 9 len
    else admitFrom3 s ⟨x.queue, h, len, x.item, x.tsop, x.udpck, x.ptpOfs⟩

/-! ## Header write-back (R392, R393) -/

/-- The port that write-back drops are counted for: 18 for a multicast list queue. -/
def wbPort (s : State) (e : Nat) : Nat := if s.flag F.EGR_Q_CFG_KIND e then 18 else egrPort s e

/-- Cells of a chain that write-back in place frees when its first byte moves to position `start` (R392): the leading cells that hold no
byte, of a linked chain those of its own new cells. The last of these stays as the chain's name where the cell behind it already names
another chain (log entry 59). -/
def wbGone (s : State) (h : Nat) (ch : Chain) (start : Nat) : Nat :=
  let k := start / 128
  if ch.behind.isNone || k < ch.own then k
  else
    let next := (ch.cells.drop k).headD h
    if next ≠ h && (chainAt s next).isSome then ch.own - 1 else k

/-- Write-back in place: NEW header bytes over bytes M − NEW to M − 1, the first byte advanced, leading cells freed. Answers the new
head's name. -/
def wbInPlace (s : State) (h : Nat) (ch : Chain) (hdr : List Byte) (m : Nat) : Nat × State :=
  let adv := m - hdr.length
  let start := ch.ofs + adv
  let s1 := writeCells s 3 ch.cells start hdr
  let k := wbGone s h ch start
  let gone := (ch.cells.take ch.own).take k
  let s2 := freeCells (setChain s1 h none) gone
  let h' := (ch.cells.drop k).headD h
  (h', setChain s2 h' (some { ch with cells := ch.cells.drop k, own := ch.own - k, ofs := start - 128 * k, len := ch.len - adv, carry := false,
                                      broken := ch.broken.map (· - k) }))

/-- Marks the units of new cells poisoned that hold bytes copied from poisoned units (R447): `src` and `dst` are positions. -/
def copyPoison (s : State) (ch new : Chain) (bad : List Nat) (src dst n : Nat) : State :=
  foldS (List.range n) (fun u i =>
    if bad.contains ((ch.ofs + src + i) / 16) then
      let d := new.ofs + dst + i
      match new.cells[d / 128]? with
      | some c => if cellSpace c = 0 then setUnitErr u 0 (8 * cellIdx c + d % 128 / 16) 2
                  else
                    let b := (cellDram u c + d % 128) / 64
                    let v := burstMask u b ||| 2 ^ (d % 64 / 16)
                    setUnitErr u 13 b (if v = 15 then 2 else 2 + v)
      | none => u
    else u) s

/-- Write-back with a new head: the cells under `r`, or none when Cairn refuses. The chain behind keeps the emit's reference. -/
def wbNewHead (s : State) (r h : Nat) (ch : Chain) (hdr : List Byte) (m : Nat) : Option Nat × State :=
  let pos := ch.ofs + m
  let t := if pos % 128 = 0 || m = ch.len then 0 else min (128 - pos % 128) (ch.len - m)
  let n := cellsFor (hdr.length + t)
  match requestCells s r n with
  | (none, u) => (none, u)
  | (some cells, u) =>
    let (u1, bad) := probeChain u ch 3 m t
    let rest := if m + t = ch.len then [] else ch.cells.drop ((pos + t) / 128)
    let ofs := 128 * n - (hdr.length + t)
    let new : Chain := { cells := cells ++ rest, refs := 1, ofs := if rest.isEmpty then 0 else ofs, len := hdr.length + (ch.len - m),
                         carry := false, owner := none, own := n, behind := some h,
                         broken := ch.broken.map (fun b => b + n - min b (ch.cells.length - rest.length)) }
    let u2 := foldS cells linkWrite (writeCells u1 3 cells new.ofs (hdr ++ chainBytes u1 ch m t))
    let u3 := copyPoison u2 ch new bad m hdr.length t
    let h' := new.cells.headD 0
    match chainAt u3 h' with
    | some old => (some h', unref (setChain u3 h' (some { old with refs := old.refs + 1 })) h)
    | none => (some h', setChain u3 h' (some new))

/-- Header write-back of chain `h` with the NEW header bytes `hdr` over OLD packet bytes: the chain to emit, or none when the emit is
dropped, its reference removed and counted (R392). -/
def writeBack (s : State) (r e h : Nat) (hdr : List Byte) (old : Nat) : Option Nat × State :=
  match chainAt s h with
  | none => (some h, s)
  | some ch =>
    if hdr.isEmpty && old = 0 then (some h, s)
    else
      let m := min old ch.len
      let len := hdr.length + (ch.len - m)
      let inPlace := ch.refs = 1 && hdr.length ≤ m
      let pos := ch.ofs + m
      let t := if pos % 128 = 0 || m = ch.len then 0 else min (128 - pos % 128) (ch.len - m)
      let cells := if inPlace then ch.cells.length - wbGone s h ch (ch.ofs + m - hdr.length)
                   else cellsFor (hdr.length + t) + (if m + t = ch.len then 0 else ch.cells.length - (pos + t) / 128)
      if len = 0 || 10240 < len || 80 < cells then (none, egrPortCount (unref s h) (wbPort s e) 1 ch.len)
      else if inPlace then
        let (h', u) := wbInPlace s h ch hdr m
        (some h', u)
      else
        match wbNewHead s r h ch hdr m with
        | (some h', u) => (some h', u)
        | (none, u) => (none, egrPortCount (unref u h) (wbPort u e) 0 ch.len)

/-! ## Token buckets (R389) -/

def queueKey (e : Nat) : Nat := e
def groupKey (g : Nat) : Nat := 2 ^ 16 + g
def portKey (p : Nat) : Nat := 2 ^ 17 + p

/-- A SHAPE register: RATE in [31:12], BURST in [11:0]. -/
def shapeRate (w : Nat) : Nat := bits w 31 12
def shapeDepth (w : Nat) : Int := ((max 1 (bits w 11 0)) * 1024 * (800 * 2 ^ 32) : Nat)

/-- The level of a bucket now. -/
def bucketLevel (s : State) (key w : Nat) : Int :=
  match mget noBucket s.egr.bucket key with
  | none => shapeDepth w
  | some b => min (shapeDepth w) (b.level + (shapeRate w * (s.tim.elapsed - b.since) : Nat))

/-- Unshaped, or positive. -/
def bucketOpen (s : State) (key w : Nat) : Bool := shapeRate w == 0 || decide (0 < bucketLevel s key w)

/-- Bytes taken from a bucket at a start. -/
def bucketTake (s : State) (key w n : Nat) : State :=
  let b : Option Bucket := if shapeRate w = 0 then none else some ⟨bucketLevel s key w - (n * (800 * 2 ^ 32) : Nat), s.tim.elapsed⟩
  { s with egr := { s.egr with bucket := mset noBucket s.egr.bucket key b } }

/-! ## DWRR (R388) -/

/-- Visits before a candidate with deficit `d`, quantum `q` and `n` bytes at its head can send. -/
def visitsFor (d q n : Nat) : Nat := max 1 ((n - d + q - 1) / q)

/-- The rotation of `l` that starts after `x`, for a rising list. -/
def rotateAfter (l : List Nat) (x : Nat) : List Nat := l.filter (fun y => decide (x < y)) ++ l.filter (fun y => decide (y ≤ x))

/-- The candidate served next: the one whose turn it is while its deficit covers its head, else the first to afford its head as the turn
passes on. Answers the candidate and the deficits after it was chosen. `dfc`, `qtm` and `len` give deficit, quantum and head bytes. -/
def dwrrPick (turn : Nat) (cands : List Nat) (dfc qtm len : Nat → Nat) : Option (Nat × List (Nat × Nat)) :=
  if cands.contains turn && decide (len turn ≤ dfc turn) then some (turn, [(turn, dfc turn)])
  else
    let order := rotateAfter cands turn
    let best := order.foldl (fun (b : Option (Nat × Nat)) c =>
      let v := visitsFor (dfc c) (qtm c) (len c)
      match b with
      | some (_, vb) => if v < vb then some (c, v) else b
      | none => some (c, v)) none
    best.map (fun (w, v) =>
      let k := order.idxOf w
      (w, order.map (fun c => (c, dfc c + qtm c * (if order.idxOf c ≤ k then v else v - 1)))))

def setDeficits (s : State) (base : Nat) (l : List (Nat × Nat)) : State :=
  foldS l (fun u x => { u with egr := { u.egr with deficit := mset noNat u.egr.deficit (base + x.1) x.2 } }) s

/-- WEIGHT × 64 bytes, 0 acting as 1. -/
def quantum (w : Nat) : Nat := 64 * max 1 w

/-! ## The calendar's tables (R397) -/

def slotCell (p copy i w : Nat) : Nat := 2 ^ 20 * p + 2 ^ 16 * copy + 2 * i + w
def slotWord (s : State) (p copy i w : Nat) : Nat := (mget noW32' s.egr.slots (slotCell p copy i w)).toNat
where noW32' : Nat → W32 := fun _ => 0

def merActive (s : State) (p : Nat) : Nat := s.fld F.MER_STS_ACTIVE p
def slotLen (s : State) (p copy i : Nat) : Nat := max 1000 (bits (slotWord s p copy i 0) 31 8)
def slotClass (s : State) (p copy i : Nat) : Nat := bits (slotWord s p copy i 0) 5 0
def slotGuard (s : State) (p copy i : Nat) : Nat := bits (slotWord s p copy i 1) 31 16
def slotAlloc (s : State) (p copy i : Nat) : Option Nat :=
  let a := bits (slotWord s p copy i 1) 15 0
  if a = 0 then none else some (1024 * a)

/-- NSLOTS as it acts. -/
def nslotsActs (v : Nat) : Nat := clamp 1 1024 v

/-- The period of a copy with `n` slots. -/
def merPeriod (s : State) (p copy n : Nat) : Nat := ((List.range n).map (slotLen s p copy)).sum

/-- Queue `e` has bit `c` of its class mask. -/
def inClass (s : State) (e c : Nat) : Bool := bitOf (s.reg .EGR_Q_CLASS e) c

/-- A frame of `n` bytes that starts now ends at or before network time `t`, judged at the transmit MDI (R400). -/
def endsBy (s : State) (p n : Nat) (t : Int) : Bool :=
  decide ((s.tim.nt.toNat : Int) * 1000 + (txCorr s p + ((n + 8) * psPerByte s p : Nat)) * 2 ^ 32 ≤ t * 1000 * 2 ^ 32)

/-- The calendar of port `p` admits queue `e` at this moment, leaving out the fit of its head (R400). -/
def calAdmits (s : State) (p e : Nat) : Bool :=
  let st := s.fld F.MER_STS_STATE p
  let m := merOf s p
  if 16 ≤ p || st = 0 then true
  else if st = 2 then inClass s e (slotClass s p (merActive s p) (s.fld F.MER_STS_SLOT p)) && !m.skipped.contains e
  else if st = 1 then
    s.flag F.MER_CFG_GAP_EN p && inClass s e (s.fld F.MER_CFG_GAP_CLASS p) && !(s.flag F.MER_CFG_MODE p && m.next.isSome) &&
      !m.skipped.contains e
  else false

/-- The head of queue `e`, a frame of `n` bytes, fits the running slot or gap. -/
def calFits (s : State) (p n : Nat) : Bool :=
  let st := s.fld F.MER_STS_STATE p
  let m := merOf s p
  if 16 ≤ p || st = 0 then true
  else if st = 2 then
    endsBy s p n ((m.slotEnd : Int) - slotGuard s p (merActive s p) (s.fld F.MER_STS_SLOT p)) &&
      (match m.alloc with | some a => decide (n ≤ a) | none => true)
  else match m.next with
    | some a => endsBy s p n ((a : Int) - s.fld F.MER_CFG_GAP_GUARD p)
    | none => true

/-- Deficits of the queues and groups of a port set to 0 (R401). -/
def zeroDeficits (s : State) (p : Nat) : State :=
  { s with egr := { s.egr with deficit := mkeep (fun k =>
      !(if k < 2 ^ 16 then egrPort s k == p else k < 2 ^ 17 && s.fld F.EGR_GRP_CFG_PORT (k - 2 ^ 16) == p)) s.egr.deficit } }

/-! ## Fields of a work item that egress and HIF read (R155, R156) -/

def itForm (it : Item) : Bool := bitOf (itemWord it 1) 29
def itTs1 (it : Item) : Bool := bitOf (itemWord it 1) 28
def itTsCap (it : Item) : Bool := bitOf (itemWord it 1) 27
def itSrc (it : Item) : Nat := bits (itemWord it 1) 26 19
def itKind (it : Item) : Nat := bits (itemWord it 1) 18 17
def itPri (it : Item) : Nat := bits (itemWord it 1) 16 14
def itLen (it : Item) : Nat := bits (itemWord it 1) 13 0
/-- HOST_SIDE is flag 7: word 15 of a parse-form item holds OFFLOAD and TS_COOKIE (R146, R155). -/
def itHostSide (it : Item) : Bool := bitOf (itemWord it 8) 7
def itCookie (it : Item) : Nat := if itForm it then itemWord it 5 % 2 ^ 16 else if itHostSide it then itemWord it 15 % 2 ^ 16 else 0
def itMeta (it : Item) : Nat := if itForm it || itKind it ≠ 0 then itemWord it 3 else 0
def itOffloadRes (it : Item) : Nat := if itForm it then itemWord it 5 / 2 ^ 16 else 0
/-- The 32-bit receive timestamp, when the item carries one. -/
def itRxTs (it : Item) : Option Nat :=
  if itForm it then (if itemWord it 4 = 0 then none else some (itemWord it 4))
  else if itKind it = 0 then some (itemWord it 3) else none

/-! ## One-step timestamps (R394) -/

/-- The frame bytes with `new` written from `ofs`. -/
def patch (bs : List Byte) (ofs : Nat) (new : List Byte) : List Byte := bs.take ofs ++ new ++ bs.drop (ofs + new.length)

/-- The 16-bit big-endian words of bytes [a, a + 2n). -/
def words16 (bs : List Byte) (a n : Nat) : List Nat := (List.range n).map (fun i => beNat ((bs.drop (a + 2 * i)).take 2))

/-- One's-complement sum folded to 16 bits. -/
def fold16 : Nat → Nat → Nat
  | 0, x => x
  | f + 1, x => if x < 2 ^ 16 then x else fold16 f (x / 2 ^ 16 + x % 2 ^ 16)

/-- RFC 1624: HC' = ~(~HC + Σ (~m + m')). -/
def rfc1624 (hc : Nat) (old new : List Nat) : Nat :=
  0xFFFF - fold16 8 ((0xFFFF - hc) + (old.map (0xFFFF - ·)).sum + new.sum)

/-- The stamped packet: TX is in 2^-8 ns, RX in ns. `a` is PTP_OFS. A residence time that would be negative, after a step back, is taken as 0
(DESIGN CHOICE, log entry 55). -/
def stampBytes (bs : List Byte) (a tsop : Nat) (udp : Bool) (tx rx : Nat) : List Byte :=
  let corr := beNat ((bs.drop (a + 8)).take 8)
  let add := if tsop = 1 then (tx % 256) * 256 else (tx - rx * 256) * 256
  let b1 := patch bs (a + 8) (beBytes 8 ((corr + add) % 2 ^ 64))
  let ns := tx / 256
  let b2 := if tsop = 1 then patch b1 (a + 34) (beBytes 6 (ns / 1000000000) ++ beBytes 4 (ns % 1000000000)) else b1
  let hc := beNat ((bs.drop (a - 2)).take 2)
  if udp && hc ≠ 0 then patch b2 (a - 2) (beBytes 2 (rfc1624 hc (words16 bs a 22) (words16 b2 a 22))) else b2

/-- The stamp of a packet that leaves port `p` at transmit time `tx` (2^-8 ns): its bytes, whether it was stamped and whether it counts
TS_SKIP. -/
def stampOf (s : State) (x : EPkt) (bs : List Byte) (tx : Nat) : List Byte × Bool × Bool :=
  if !itTs1 x.item || x.tsop = 0 then (bs, false, false)
  else
    let rx := itRxTs x.item
    if bs.length < x.ptpOfs + 44 || (x.udpck && decide (x.ptpOfs < 2)) || (x.tsop = 2 && rx.isNone) then (bs, false, true)
    else (stampBytes bs x.ptpOfs x.tsop x.udpck tx (rebuildNt s (rx.getD 0)), true, false)

/-! ## Frames in transmission (R72) -/

/-- The port is free again: the packet's reference is removed. -/
def txDrop (s : State) (p : Nat) : State :=
  match txOf s p with
  | some x => dropPkt (setTxf (setTx s p none) p none) x
  | none => s

/-- A frame cut short after the bytes `sent`: an error codeword ends it on the wire, and it is counted TX_ABORT with its bytes (R72,
R447). -/
def txAbort (s : State) (p : Nat) (sent : List Byte) : State :=
  match txOf s p with
  | some x =>
    let u := if looped s p then s else { s with egr := { s.egr with wire := (p, sent, true) :: s.egr.wire } }
    count (txDrop u p) (32 * p + 23) 1 (x.len + 4)
  | none => s

/-- The frame in transmission is cut short; how much of it has left is a free choice. -/
def txCutShort (s : State) (p : Nat) : State :=
  match txfOf s p with
  | some f => let (n, u) := draw s (f.bytes.length + 1); txAbort u p (f.bytes.take n)
  | none => s

/-- The first bit of the started packet enters the PCS (R72, R394, R447, R456). -/
def txEnter (s : State) (p : Nat) : State :=
  match txOf s p with
  | none => s
  | some x =>
    match chainAt s x.head with
    | none => txDrop s p
    | some ch =>
      let t := ntPlus s.tim.nt.toNat (txCorr s p + (8 * psPerByte s p : Nat))
      let tx := t / 2 ^ 24
      let (s0, bad) := probeChainFrom s ch 3 0 (if ch.carry then ch.len + 4 else ch.len) (pfHave s p)
      let s1 := pfDrop s0 p (dramBursts s0 x)
      if !bad.isEmpty then
        txAbort s1 p ((chainBytes s1 ch 0 ch.len).take ((List.range ch.len).findIdx (fun i => bad.contains ((ch.ofs + i) / 16))))
      else
        let (bs, stamped, skip) := stampOf s1 x (chainBytes s1 ch 0 ch.len) tx
        let s2 := if skip then egrPortCount s1 p 4 x.len else s1
        let s3 := if stamped then setChain s2 x.head (some { ch with carry := false }) else s2
        let fcs := leBytes 4 (ethFcs bs)
        let carried := if ch.carry && !stamped then some (chainBytes s1 ch ch.len 4) else none
        let ts : Option TxTs := if itTsCap x.item then some ⟨BitVec.ofNat 64 (tx / 256), BitVec.ofNat 8 tx, BitVec.ofNat 16 (itCookie x.item)⟩ else none
        setTxf s3 p (some ⟨bs ++ carried.getD fcs, (match carried with | some c => c != fcs | none => false), ts⟩)

/-- The last bit of the frame leaves (R49, R72, R456); in a near-end loopback the transmitter is in electrical idle (R79). -/
def txFinish (s : State) (p : Nat) : State :=
  match txfOf s p with
  | none => s
  | some f =>
    let n := f.bytes.length
    let s1 := if looped s p then s else { s with egr := { s.egr with wire := (p, f.bytes, false) :: s.egr.wire } }
    let s2 := count s1 (32 * p + 20) 1 n
    let s3 := if f.carryBad then errRecord (count s2 (32 * p + 25) 1 n) 0 1 2 p 0 else s2
    let s4 := match f.ts with | some t => pushTxts s3 p t | none => s3
    txDrop s4 p

/-- Egress drops everything it holds for a disabled port (R80, R388, R396): queued packets with the deficits of their queues and groups, one
whose first bit has not entered the PCS, and what is prefetched. -/
def portFlush (s : State) (p : Nat) : State :=
  let off := fun (u : State) (x : EPkt) => count (dropPkt u x) (32 * p + 24) 1 (x.len + 4)
  let s1 := foldS (queuesFor s p) (fun u e => foldS (egrQ u e) off (setEgrQ u e [])) s
  let s2 := match txOf s1 p, txfOf s1 p with
    | some x, none => off (setTx s1 p none) x
    | _, _ => s1
  let s3 := zeroDeficits s2 p
  { s3 with egr := { s3.egr with pf := mset noPairs s3.egr.pf p [], pfLeft := mset noNats s3.egr.pfLeft p [] } }

/-- A line port is drained (R80). -/
def portDrained (s : State) (p : Nat) : Bool :=
  !s.flag F.LPT_CFG_EN p && (txOf s p).isNone && (queuesFor s p).isEmpty

end Sys2Proof.Machine
end

