-- ==== Sys2Proof/Machine/OrreryOps.lean ====
section
/-!
DEFINITION. Orrery's shared operations: enqueue (R217–R221, R230, R232, R235, R239), tags and the ordering gate (R226–R231), held
tags (R240, R241), dispatch (R222–R225, R267) and delay lists (R246–R249).
-/

namespace Sys2Proof.Machine

def noItems : Nat → List QItem := fun _ => []
def noTag : Nat → Option Tag := fun _ => none
def noTags : Nat → List Nat := fun _ => []
def noCtx : Nat → Option Nat := fun _ => none
def noTurn : Nat → Nat × Nat := fun _ => (0, 0)

def onchipQ (s : State) (q : Nat) : List QItem := mget noItems s.ory.onchip q
def spillQ (s : State) (q : Nat) : List QItem := mget noItems s.ory.spill q
def setOnchip (s : State) (q : Nat) (l : List QItem) : State := { s with ory := { s.ory with onchip := mset noItems s.ory.onchip q l } }
def setSpill (s : State) (q : Nat) (l : List QItem) : State := { s with ory := { s.ory with spill := mset noItems s.ory.spill q l } }
def tagOf (s : State) (t : Nat) : Option Tag := mget noTag s.ory.tags t
def putTag (s : State) (t : Nat) (x : Option Tag) : State := { s with ory := { s.ory with tags := mset noTag s.ory.tags t x } }
def setTag (s : State) (t : Nat) (x : Option Tag) : State := arrWrite (putTag s t x) 1 t
def domTags (s : State) (d : Nat) : List Nat := mget noTags s.ory.doms d
def setDom (s : State) (d : Nat) (l : List Nat) : State := { s with ory := { s.ory with doms := mset noTags s.ory.doms d l } }
def ctxHolder (s : State) (c : Nat) : Option Nat := mget noCtx s.ory.ctx c
def setCtx (s : State) (c : Nat) (t : Option Nat) : State := { s with ory := { s.ory with ctx := mset noCtx s.ory.ctx c t } }

/-- Counter sets of R258. -/
def oryQ (s : State) (q k by_ : Nat) : State := count s (98304 + 8 * q + k) 1 by_
def oryDom (s : State) (d k by_ : Nat) : State := count s (131072 + 8 * d + k) 1 by_
def oryDev (s : State) (k by_ : Nat) : State := count s (262144 + k) 1 by_
def oryList (s : State) (l k by_ : Nat) : State := count s (262160 + 4 * l + k) 1 by_

/-! ## Depth, limits and XOFF (R235, R236) -/

def qDepth (s : State) (q : Nat) : Nat := (onchipQ s q).length + (spillQ s q).length

/-- Entries of the spill ring; 0 without one. -/
def spillSize (s : State) (q : Nat) : Nat :=
  let l := s.fld F.ORY_Q_SPILL_CFG_SPILL_LOG2 q
  if s.flag F.ORY_Q_CFG_POLICY q && l ≠ 0 then 2 ^ clamp 10 22 l else 0

/-- The effective limit (R235). -/
def qLimit (s : State) (q : Nat) : Nat :=
  min (s.fld F.ORY_Q_LIMIT_LIMIT q) (s.fld F.ORY_Q_ONCHIP_ONCHIP_MAX q + spillSize s q)

/-- XOFF re-evaluated at an enqueue or a dispatch (R236, R254). -/
def qEval (s : State) (q : Nat) : State :=
  let xoff := s.fld F.ORY_Q_XOFF_XOFF q
  let xon := min (s.fld F.ORY_Q_XON_XON q) xoff
  let d := qDepth s q
  if s.flag F.ORY_Q_STS_XOFF_ACT q then (if d < xon then s.setFlag F.ORY_Q_STS_XOFF_ACT q false else s)
  else if xoff ≤ d then oryQ (s.setFlag F.ORY_Q_STS_XOFF_ACT q true) q 5 0
  else s

/-! ## Tags and the ordering gate (R226, R227) -/

/-- A new tag at the tail of a domain: which number is a free choice. -/
def newTag (s : State) (d : Nat) : Nat × State :=
  let (i, u) := draw s (tagsFree s)
  let t := nthFree (u.ory.tags.map (·.1)) i
  (t, setDom (setTag u t (some ⟨d, false, [], none, none⟩)) d (domTags u d ++ [t]))

/-- One packet released to egress (R227, R229). -/
def gateOut (s0 : State) (d : Option Nat) (x : Emit) (tag : Option Nat) : State :=
  let s := traceOry s0 2 x.dom x.oq tag x.thr
  egrAdmit (match d with
    | some n => oryDom s n 0 (bits (itemWord x.item 1) 13 0)
    | none => s) x

/-- The head advances past done tags, and the recorded emits of each new head are released (R227). The fuel is the domain's length. -/
def gateAdvanceFrom : Nat → State → Nat → State
  | 0, s, _ => s
  | f + 1, s, d =>
    match domTags s d with
    | [] => s
    | t :: r =>
      match tagOf s t with
      | none => gateAdvanceFrom f (setDom s d r) d
      | some x =>
        let s1 := foldS x.emits (fun u e => gateOut u (some d) e (some t)) (setTag s t (some { x with emits := [] }))
        if x.done then gateAdvanceFrom f (setTag (setDom s1 d r) t none) d else s1

def gateAdvance (s : State) (d : Nat) : State := gateAdvanceFrom ((domTags s d).length + 1) s d

/-- Tag `t` and its gate records are read (R452): a lost tag leaves its domain with what it recorded, and lost records release nothing. -/
def ordProbe (s : State) (t : Nat) : State :=
  match tagOf s t with
  | none => s
  | some x =>
    let u := arrProbe s 1 t (fun v => gateAdvance (putTag v t none) x.domain)
    arrProbe u 2 t (fun v => match tagOf v t with
      | some y => putTag v t (some { y with emits := [] })
      | none => v)

/-- A tag is done. -/
def tagDone (s0 : State) (t : Nat) : State :=
  let s := ordProbe s0 t
  match tagOf s t with
  | none => s
  | some x => gateAdvance (setTag s t (some { x with done := true, holder := none, heldFrom := none })) x.domain

def isHeadTag (s : State) (t : Nat) : Bool :=
  match tagOf s t with
  | some x => (domTags s x.domain).head? == some t
  | none => false

/-- Gate records in use. -/
def gateUsed (s : State) : Nat := (s.ory.tags.map (fun e => match e.2 with | some x => x.emits.length | none => 0)).sum

/-- An emit of this tag needs a record and the gate store is full. -/
def gateFull (s : State) (tag : Option Nat) : Bool :=
  match tag with
  | none => false
  | some t => !isHeadTag s t && decide (131072 ≤ gateUsed s)

/-- An emit comes to the gate: released at once, or recorded under its tag. -/
def gateEmit (s0 : State) (tag : Option Nat) (x : Emit) : State :=
  match tag with
  | none => gateOut s0 none x none
  | some t =>
    let s := ordProbe s0 t
    match tagOf s t with
    | none => gateOut s none x none
    | some y =>
      if isHeadTag s t then gateOut s (some y.domain) x (some t)
      else arrWrite (setTag s t (some { y with emits := y.emits ++ [x] })) 2 t

/-! ## Held tags (R240) -/

/-- The thread is halted by a fault or by Edsen. -/
def thrHalted (s : State) (t : Nat) : Bool := (thrOf s t).st == .fault || (thrOf s t).halt.isSome

/-- The counts of R240 follow their conditions: a count starts when all hold and a break ends it; a holder that Edsen halts does not
count while FREEZE_ORDER = 1 (R526). -/
def holdSync (s : State) : State :=
  foldS (s.ory.tags.map (·.1)) (fun u t =>
    match tagOf u t with
    | none => u
    | some x =>
      let on := !x.done && isHeadTag u t && (match x.holder with
        | some h => thrHalted u h && !(u.flag F.DBG_CTL_FREEZE_ORDER 0 && (thrOf u h).halt.isSome)
        | none => false)
      let from_ := if on then (match x.heldFrom with | some e => some e | none => some u.tim.elapsed) else none
      if from_ = x.heldFrom then u else setTag u t (some { x with heldFrom := from_ })) s

/-- What follows any change of items, tags, cells or threads: waits that have ended, hold counts, and pauses. -/
def settleAll (s : State) : State := linePauses (holdSync (settle s))

/-! ## Items -/

/-- The atomic flow context of a FLOW value (R232). -/
def ctxOf (flow : W32) : Nat := (flow.toNat / 2 ^ 16) ^^^ (flow.toNat % 2 ^ 16)

/-- An item of queue `q` is disposed of: its tag is done and its chain reference removed (R120, R221). -/
def dropItem (s : State) (q : Nat) (x : QItem) : State :=
  let u := unrefHandle (traceOry s 4 x.domain q x.tag 0) (itemWord x.item 0)
  match x.tag with
  | some t => tagDone u t
  | none => u

/-- A queued or delayed item whose data is lost (R256, R459). `place` is 1 for a spill ring and 2 for the delay area. -/
def noteItemLost (s : State) (q place : Nat) : State := raiseSrc (errRecord s 5 1 3 q place) 161 q

/-- How an enqueue ends (R235, R238). -/
inductive EnqRes where
  | ok (tag : Option Nat) (uid : Nat)
  | qoff
  | full
deriving DecidableEq, Repr

/-- DDR5 addresses of a spill ring's item and sidecar (R239). -/
def spillAddr (s : State) (q i : Nat) : Nat := s.fld F.ORY_Q_SPILL_SPILL_BASE q * 4096 + 64 * i
def sidecarAddr (s : State) (q i : Nat) : Nat := s.fld F.ORY_Q_SPILL_SPILL_BASE q * 4096 + 64 * spillSize s q + 8 * i

/-- An item placed on-chip or in the spill ring (R235, R239). The sidecar's contents are free. -/
def placeItem (s : State) (q : Nat) (x : QItem) (spill : Bool) : State :=
  if spill then
    let i := mget noNat s.ory.spillTail q
    let (v, s1) := drawValue s
    let s2 := dramWrite (dramWrite s1 (spillAddr s1 q i) (itemBytes x.item) 4) (sidecarAddr s1 q i) (leBytes 8 v.toNat) 4
    let s3 := { s2 with ory := { s2.ory with spillTail := mset noNat s2.ory.spillTail q ((i + 1) % max 1 (spillSize s2 q)) } }
    oryQ (setSpill s3 q (spillQ s3 q ++ [x])) q 4 (itLen x.item)
  else setOnchip (noteWrite s 11 0 x.uid x.uid true) q (onchipQ s q ++ [x])

/-- A new item would go to the spill ring (R235). -/
def toSpill (s : State) (q : Nat) : Bool :=
  spillSize s q ≠ 0 && (!(spillQ s q).isEmpty || decide (s.fld F.ORY_Q_ONCHIP_ONCHIP_MAX q ≤ (onchipQ s q).length) || slotsFree s == 0)

/-- The queue's type. -/
def qType (s : State) (q : Nat) : Nat := s.fld F.ORY_Q_CFG_TYPE q

/-- The queue refuses with FULL (R235): depth at the limit, or no slot or tag that it needs. -/
def qFull (s : State) (q : Nat) (needTag : Bool) : Bool :=
  decide (qLimit s q ≤ qDepth s q) || (needTag && tagsFree s == 0) ||
  (if toSpill s q then decide (spillSize s q ≤ (spillQ s q).length) else slotsFree s == 0)

/-- An enqueue keeps the disposing item's tag (R230). -/
def keepsTag (s : State) (q : Nat) (held : Option Nat) : Bool := s.flag F.ORY_Q_CFG_INHERIT q && held.isSome

/-- An enqueue (R218, R226, R230, R232, R235). `dly` marks a delay-list release; `held` is the tag of the item that the enqueue
disposes of, and `thr` the thread that makes it, 0 if none. The refusals are counted here. -/
def enqueue (s : State) (dly : Bool) (q dom : Nat) (flow : W32) (it : Item) (held : Option Nat) (thr : Nat) : EnqRes × State :=
  if !(s.flag F.ORY_CTL_EN 0 || dly) || !s.flag F.ORY_Q_CFG_EN q then (.qoff, oryQ s q (if dly then 2 else 3) (itLen it))
  else
    let keep := keepsTag s q held
    let needTag := qType s q == 1 && !keep
    if qFull s q needTag then (.full, oryQ s q 2 (itLen it))
    else
      let spill := toSpill s q
      let s0 := match held with
        | some t => if keep then s else tagDone s t
        | none => s
      let r : Option Nat × State := if keep then (held, s0) else if needTag then
        (let (t, u) := newTag s0 dom; (some t, u)) else (none, s0)
      let d := match held, keep with
        | some t, true => (match tagOf s t with | some x => x.domain | none => dom)
        | _, _ => dom
      let u := r.2.ory.uids
      let s1 := { r.2 with ory := { r.2.ory with uids := u + 1 } }
      let s2 := match r.1 with
        | some t => (match tagOf s1 t with | some x => setTag s1 t (some { x with holder := none, heldFrom := none }) | none => s1)
        | none => s1
      let x : QItem := ⟨it, d, flow, r.1, if qType s q = 2 then some (ctxOf flow) else none, u⟩
      (.ok r.1 u, qEval (oryQ (placeItem (traceOry s2 0 d q r.1 thr) q x spill) q 0 (itLen it)) q)

/-- A blocking enqueue can be accepted, or would be refused QOFF: its wait is over (R238). -/
def enqReady (s : State) (q : Nat) (held : Option Nat) : Bool :=
  !s.flag F.ORY_CTL_EN 0 || !s.flag F.ORY_Q_CFG_EN q ||
  (!s.flag F.ORY_Q_STS_XOFF_ACT q && !qFull s q (qType s q == 1 && !keepsTag s q held))

/-! ## What a thread holds (R231, R233) -/

/-- The context of a thread's item is released. -/
def releaseCtx (s : State) (t : Nat) : State :=
  match (thrOf s t).item with
  | some h =>
    match h.ctx with
    | some c => setThr (setCtx s c none) t { thrOf s t with item := some { h with ctx := none } }
    | none => s
  | none => s

/-- The responses due to a thread are discarded, and its slots no longer pend (R183, R282). -/
def dropLookups (s : State) (t : Nat) : State :=
  let u := { s with agt := { s.agt with lookups := s.agt.lookups.map (fun l =>
    if l.owner == some (.thread t) then { l with owner := none } else l) } }
  setThr u t { thrOf u t with pend := 0 }

/-- The thread holds no item any more: its context is released, responses still due are discarded (R183) and the budget timer is
disarmed (R322). -/
def releaseItem (s : State) (t : Nat) : State :=
  let u := dropLookups (releaseCtx s t) t
  setThr u t { thrOf u t with item := none, budget := .off }

/-- A thread's item is dropped at a reset (R231): the tag is done, counted RESET_DROP. The HANDLE of the thread block is checked. -/
def resetDrop (s : State) (t : Nat) : State :=
  match (thrOf s t).item with
  | none => s
  | some h =>
    let it := curItem s t
    let hd := itemWord it 0
    let s1 := if hd = nullHandle then s else if handleGood s hd then unref s (hd / 8) else noteBadHandle s hd
    let s1 := traceOry s1 5 h.domain h.queue h.tag t
    let s2 := match h.tag with
      | some g => tagDone (oryDom s1 h.domain 2 (itLen it)) g
      | none => oryDev s1 0 (itLen it)
    releaseItem s2 t

/-- What a thread reset does in Orrery (R282): waits withdrawn and the item dropped. -/
def oryThreadReset (s : State) (t : Nat) : State :=
  resetDrop { s with ory := { s.ory with gets := s.ory.gets.filter (fun e => e.1 != t) } } t

/-! ## Dispatch (R222–R225) -/

/-- The oldest eligible item of a queue (R223). -/
def eligible (s : State) (q : Nat) : Option QItem :=
  if qType s q = 2 then
    ((onchipQ s q).zipIdx.find? (fun x => match x.1.ctx with
      | some c => (ctxHolder s c).isNone && !((onchipQ s q).take x.2).any (fun y => y.ctx == some c)
      | none => true)).map (·.1)
  else (onchipQ s q).head?

/-- Enabled queues of group `g` at priority `p` with an eligible item. -/
def dispCands (s : State) (g p : Nat) : List Nat :=
  (s.ory.onchip.map (·.1)).filter (fun q => s.flag F.ORY_Q_CFG_EN q && s.fld F.ORY_Q_CFG_GROUP q == g &&
    s.fld F.ORY_Q_CFG_PRI q == p && (eligible s q).isSome)

/-- DWRR over queues: WEIGHT dispatches per round. Answers the queue and the turn after it. -/
def dispTurn (s : State) (g p : Nat) (cands : List Nat) : Option (Nat × Nat × Nat) :=
  let (t, left) := mget noTurn s.ory.turn (8 * g + p)
  if cands.contains t && decide (0 < left) then some (t, t, left - 1)
  else (rotateAfter cands t).head?.map (fun q => (q, q, max 1 (s.fld F.ORY_Q_CFG_WEIGHT q) - 1))

/-- The priority and queue served for a group. -/
def dispQueue (s : State) (g : Nat) : Option (Nat × Nat × Nat × Nat) :=
  ([7, 6, 5, 4, 3, 2, 1, 0].findSome? (fun p => (dispTurn s g p (dispCands s g p)).map (fun x => (p, x))))

def member (s : State) (g n : Nat) : Bool := bitOf (s.reg .ORY_GRP_MEMBERS g) n

/-- The thread of cluster `n` that has waited longest in `get` on `g`. -/
def getWaiter (s : State) (g n : Nat) : Option Nat :=
  (s.ory.gets.find? (fun e => e.2 == g && !isMgt e.1 && cluOf e.1 == n)).map (·.1)

/-- Within the dispatch interval of R225. -/
def inInterval (s : State) (n : Nat) : Bool :=
  let x := mget noNat s.ory.dispAt n
  x ≠ 0 && decide (s.clk + 1 < x + 8)

/-- The cluster and thread that take the next dispatch of a group. -/
def dispTarget (s : State) (g : Nat) : Option Nat :=
  let from_ := mget noNat s.ory.lastClu g
  (((List.range 32).map (fun i => (from_ + i) % 32)).filter (fun n => member s g n && clUp s n && !parked s n && !inInterval s n)).findSome?
    (getWaiter s g)

/-- Prefetched lookups of an item go to its thread (R153): responses that have come are written, the others pend. -/
def landPrefetch (s : State) (t uid : Nat) : State :=
  let mine := s.agt.landed.filter (·.1 == uid)
  let s1 := foldS mine (fun u x => bankWrite u (coreOf t) (thrBlk t + 0x40 + 0x20 * x.2.1) x.2.2) s
  let due := s1.agt.lookups.filter (fun l => l.owner == some (.item uid))
  let s2 := { s1 with agt := { s1.agt with
    landed := s1.agt.landed.filter (·.1 != uid),
    lookups := s1.agt.lookups.map (fun l => if l.owner == some (.item uid) then { l with owner := some (.thread t) } else l) } }
  let x := thrOf s2 t
  setThr s2 t { x with pend := due.foldl (fun p l => p ||| BitVec.ofNat 4 (2 ^ l.slot)) x.pend }

/-- The dispatch record at 0xC0–0xD7 of the thread block (R267). -/
def dispRecord (s : State) (x : QItem) (q g : Nat) : List Byte :=
  leBytes 4 (x.domain * 2 ^ 16 + q) ++
  leBytes 4 (match x.tag with | some t => 2 ^ 31 + t | none => 0) ++
  leBytes 4 x.flow.toNat ++ leBytes 8 (nt64 s) ++ leBytes 4 g

/-- The packet bytes of an item into a thread's header buffer (R224, R447). -/
def dispData (s : State) (t : Nat) (it : Item) : State :=
  let h := itemWord it 0
  if h = nullHandle then s else
  match chainAt s (h / 8) with
  | none => s
  | some ch =>
    let n := min (itLen it) 256
    let (u, bad) := probeChain s ch 1 0 n
    let v := bankWrite u (coreOf t) (hdrBuf t) (chainBytes u ch 0 n)
    bankPoison v (coreOf t) (hdrBuf t) ((List.range n).map (fun i => bad.contains ((ch.ofs + i) / 16)))

/-- Item `x` of queue `q` is dispatched to thread `t`, which waits in `get` on `g` (R223, R224, R267). -/
def dispatchTo (s : State) (g q t : Nat) (x : QItem) : State :=
  let s1 := setOnchip s q ((onchipQ s q).filter (fun y => y.uid != x.uid))
  let s2 := qEval (oryQ s1 q 1 (itLen x.item)) q
  let s3 := match x.tag with
    | some k => (match tagOf s2 k with | some y => setTag s2 k (some { y with holder := some t }) | none => s2)
    | none => s2
  let s4 := match x.ctx with | some c => setCtx s3 c (some t) | none => s3
  let s5 := dispData s4 t x.item
  let s6 := bankWrite (bankWrite s5 (coreOf t) (thrBlk t) (itemBytes x.item)) (coreOf t) (thrBlk t + 0xC0) (dispRecord s5 x q g)
  let s7 := landPrefetch s6 t x.uid
  let s8 := { s7 with ory := { s7.ory with
    gets := s7.ory.gets.filter (fun e => e.1 != t),
    lastClu := mset noNat s7.ory.lastClu g (cluOf t + 1),
    dispAt := mset noNat s7.ory.dispAt (cluOf t) (s7.clk + 1) } }
  let y := thrOf s8 t
  let s8 := traceOry (traceThr s8 t 1 y.pc.toNat q) 1 x.domain q x.tag t
  let h : Held := ⟨x.tag, x.domain, q, x.ctx, false, 0, x.uid⟩
  let s9 := armBudget s8 t
  endWaitNext s9 t { thrOf s9 t with item := some h }

/-- The on-chip slot of an item cannot be read (R452, R459): the entry is lost. The records of the one detection come in ascending class
(R458). -/
def slotLost (s : State) (q : Nat) (x : QItem) : State :=
  let u := setUnitErr (setOnchip s q ((onchipQ s q).filter (fun y => y.uid != x.uid))) 11 x.uid 0
  qEval (noteStateLost (errRecord u 5 1 3 q 0)) q

/-- The on-chip slot of an item read: corrected, or lost. -/
def slotRead (s : State) (g q t : Nat) (x : QItem) : State :=
  let e := unitErr s 11 x.uid
  if e = 2 then slotLost s q x
  else dispatchTo (if e = 1 then (setUnitErr s 11 x.uid 0).bump F.RST_ERR_CNT_CE 11 1 else s) g q t x

/-- One dispatch decision of group `g` (R223). -/
def dispatchOne (s : State) (g : Nat) : State :=
  match dispQueue s g with
  | none => s
  | some (p, q, turn, left) =>
    match eligible s q, dispTarget s g with
    | some x, some t =>
      slotRead { s with ory := { s.ory with turn := mset noTurn s.ory.turn (8 * g + p) (turn, left) } } g q t x
    | _, _ => s

/-! ## Refill and purge (R221, R239, R256) -/

/-- What a read of the oldest spilled item of queue `q` finds: whether it is lost, and the state. -/
def spillProbe (s : State) (q : Nat) : Bool × State :=
  let n := (spillQ s q).length
  let size := max 1 (spillSize s q)
  let i := (mget noNat s.ory.spillTail q + size - n) % size
  let a := dramRead s (spillAddr s q i) 64 4
  let b := dramRead a.2.2 (sidecarAddr s q i) 8 4
  (a.2.1.any id || b.2.1.any id, b.2.2)

/-- A spilled item is lost (R256): SPILL_ERR, its tag done, its chain left as it is. -/
def spillLost (s : State) (q : Nat) (x : QItem) : State :=
  let u := noteItemLost (oryQ s q 7 (itLen x.item)) q 1
  match x.tag with
  | some t => tagDone u t
  | none => u

/-- Queues that may refill now. -/
def refillable (s : State) : List Nat :=
  (s.ory.spill.map (·.1)).filter (fun q => s.flag F.ORY_Q_CFG_EN q &&
    decide ((onchipQ s q).length < s.fld F.ORY_Q_ONCHIP_ONCHIP_MAX q))

/-- One freed slot goes to the next SPILL queue in turn (R239). -/
def refillOne (s : State) : State :=
  if slotsFree s = 0 then s
  else
    match (rotateAfter (refillable s) s.ory.refilled).head? with
    | none => s
    | some q =>
      match spillQ s q with
      | [] => s
      | x :: r =>
        let (lost, u) := spillProbe s q
        let v := { setSpill u q r with ory := { (setSpill u q r).ory with refilled := q } }
        if lost then qEval (spillLost v q x) q else setOnchip (noteWrite v 11 0 x.uid x.uid true) q (onchipQ v q ++ [x])

/-- Every item of queue `q` dropped and counted PURGED (R221); a spilled item that cannot be read is lost instead. -/
def purgeSpill : List QItem → State → Nat → State
  | [], s, _ => s
  | x :: r, s, q =>
    let (lost, u) := spillProbe s q
    let v := setSpill u q ((spillQ u q).drop 1)
    purgeSpill r (if lost then spillLost v q x else dropItem (oryQ v q 6 (itLen x.item)) q x) q

/-- The oldest item of a queue purged; a queue purges its on-chip items first. -/
def purgeOne (s : State) (q : Nat) : State :=
  match onchipQ s q, spillQ s q with
  | x :: r, _ => dropItem (oryQ (setOnchip s q r) q 6 (itLen x.item)) q x
  | [], x :: _ => purgeSpill [x] s q
  | [], [] => s

def purgeAll (s : State) (q : Nat) : State :=
  let s1 := foldS (onchipQ s q) (fun u x => dropItem (oryQ u q 6 (itLen x.item)) q x) (setOnchip s q [])
  purgeSpill (spillQ s1 q) s1 q

/-- Contexts bound to a queued item are not held: nothing else is to release. A queue is drained (R221). -/
def qDrained (s : State) (q : Nat) : Bool := !s.flag F.ORY_Q_CFG_EN q && qDepth s q == 0

/-- Orrery is drained (R257). -/
def oryDrained (s : State) : Bool :=
  !s.flag F.ORY_CTL_EN 0 && s.ory.onchip.isEmpty && s.ory.spill.isEmpty && s.ory.delayed.isEmpty && gateUsed s == 0 &&
  s.gar.thr.all (fun e => e.2.item.isNone)

/-- Threads of cluster `n` that hold an item. -/
def cluHeld (s : State) (n : Nat) : Nat := (s.gar.thr.filter (fun e => !isMgt e.1 && cluOf e.1 == n && e.2.item.isSome)).length

/-- Cluster `n` is a member of a group, and is drained (R244). -/
def cluMember (s : State) (n : Nat) : Bool := (List.range 64).any (fun g => member s g n)
def cluDrained (s : State) (n : Nat) : Bool := !cluMember s n && cluHeld s n == 0

/-! ## Delay lists (R246–R250) -/

def dlyTick (s : State) (l : Nat) : Nat := 2 ^ clamp 6 30 (s.fld F.ORY_DLY_L_CFG_TICK_LOG2 l)

/-- The release tick of an insert (R247): the first tick at or past the due time that the list had not acted on before the present PCLK
edge. -/
def releaseTick (s : State) (l due : Nat) : Nat :=
  let k := dlyTick s l
  max ((due + k - 1) / k * k) ((s.tim.seen / k + 1) * k)

/-- The DDR5 address of a place of the delay area (R246). -/
def dlyAddr (s : State) (i : Nat) : Nat := s.fld F.ORY_DLY_BASE_BASE 0 * 2 ^ 20 + 80 * i

/-- Why an insert is refused: QOFF or FULL (R247), or none. A disabled Orrery takes no new work (R24, R257; log entry 60). -/
def dlyRefusal (s : State) (l : Nat) : Option Bool :=
  if !s.flag F.ORY_CTL_EN 0 || !s.flag F.ORY_DLY_CTL_EN 0 || !s.flag F.ORY_DLY_L_CFG_EN l then some true
  else if 4194304 ≤ s.ory.delayed.length then some false else none

/-- An accepted insert (R247): the release tick and the state. Which place of the area it takes is free, as are its other 16 bytes. -/
def dlyInsert (s : State) (l due q dom : Nat) (flow : W32) (it : Item) : Nat × State :=
  let tick := releaseTick s l due
  let used := sortBy (fun a b => decide (a ≤ b)) (s.ory.delayed.map (·.place))
  let (i, s1) := draw s (4194304 - used.length)
  let place := nthFree used i
  let (v, s2) := drawValue s1
  let (w, s3) := drawValue s2
  let s4 := dramWrite s3 (dlyAddr s3 place) (itemBytes it ++ leBytes 8 v.toNat ++ leBytes 8 w.toNat) 4
  let u := s4.ory.uids
  let x : DlyItem := ⟨l, tick, q, ⟨it, dom, flow, none, none, u⟩, place⟩
  (tick, oryList { s4 with ory := { s4.ory with delayed := s4.ory.delayed ++ [x], uids := u + 1 } } l 0 (itLen it))

/-- A delayed item lost (R256): counted REFUSED in the list's sets and reported. -/
def dlyLost (s : State) (x : DlyItem) : State := noteItemLost (oryList s x.list 2 (itLen x.it.item)) 0xFFF 2

/-- One due item leaves its list and is enqueued, or dropped when its queue refuses it (R248, R249). -/
def dlyRelease (s : State) (x : DlyItem) : State :=
  let r := dramRead s (dlyAddr s x.place) 80 4
  let s1 := { r.2.2 with ory := { r.2.2.ory with delayed := r.2.2.ory.delayed.filter (fun y => y.place != x.place) } }
  if r.2.1.any id then dlyLost s1 x
  else
    let e := enqueue s1 true x.queue x.it.domain x.it.flow x.it.item none 0
    match e.1 with
    | .ok _ _ => oryList e.2 x.list 1 (itLen x.it.item)
    | _ => oryList (unrefHandle e.2 (itemWord x.it.item 0)) x.list 2 (itLen x.it.item)

/-- Due items of a list in order of release tick, then insertion. -/
def dlyDue (s : State) (l : Nat) : List DlyItem :=
  sortBy (fun a b => decide (a.tick ≤ b.tick)) (s.ory.delayed.filter (fun x => x.list == l && decide (x.tick ≤ nt64 s)))

def dlyPending (s : State) (l : Nat) : Nat := (s.ory.delayed.filter (·.list == l)).length

end Sys2Proof.Machine
end

