-- ==== Sys2Proof/Machine/HaltOps.lean ====
section
/-!
DEFINITION. Edsen's halts (R513–R520): what a halt does to a wait, how a halted thread goes on, and relock (R512).
-/

namespace Sys2Proof.Machine

/-! ## Waits withdrawn -/

/-- A wait that a halt withdraws, so that the instruction issues again at RESUME (R514). -/
def haltWithdraws : Wait → Bool
  | .get _ => true
  | .enq _ _ _ _ => true
  | .gate _ _ _ _ => true
  | .send _ _ _ => true
  | .recv _ _ _ => true
  | .cpq _ _ => true
  | .cpr _ _ => true
  | _ => false

/-- A thread leaves `get` and its place in the queue for its group. -/
def dropGet (s : State) (t : Nat) : State := { s with ory := { s.ory with gets := s.ory.gets.filter (fun e => e.1 != t) } }

/-- The command of a waiting `mfc` or `scq` is squashed (R348). -/
def squashRead (s : State) (t u tag : Nat) : State :=
  match (cpxQ s (cluOf t) u).find? (fun c => c.tag == tag) with
  | some c => squash s (cluOf t) u c
  | none => s

/-- The thread's wait withdrawn: nothing committed, taken or sent. -/
def withdraw (s : State) (t : Nat) : State :=
  let x := thrOf s t
  let u := match x.wait with
    | .get _ => dropGet s t
    | .cpr n tag => squashRead s t n tag
    | _ => s
  setThr u t { thrOf u t with wait := .none }

/-! ## Halt and resume -/

/-- A HALT of one thread (R513, R514): a DORMANT thread is not halted, and a thread in DEBUG stays as it is. -/
def halt (s : State) (t reason : Nat) : State :=
  let x := thrOf s t
  match x.st with
  | .dormant => s
  | .debug => s
  | .fault => haltThr s t reason .fault
  | .run => haltThr s t reason .ready
  | .ready => haltThr s t reason .ready
  | .stall => if haltWithdraws x.wait then haltThr (withdraw s t) t reason .ready else haltThr s t reason .stall

/-- The other threads of a core's cluster, or the other MGT slots, for ACTION 1 (R518, R523). -/
def haltMates (s : State) (t : Nat) : List Nat :=
  (s.gar.thr.map (·.1)).filter (fun i => i != t && (if isMgt t then isMgt i else !isMgt i && cluOf i == cluOf t) &&
    (thrOf s i).st != .dormant && (thrOf s i).st != .debug)

/-- A breakpoint or watchpoint halts its thread, and with ACTION 1 every thread of its cluster; each entry raises DBG_EVENT (R520). -/
def haltMatch (s : State) (t reason action : Nat) : State :=
  let s1 := dbgEvent (halt s t reason) reason t
  if action = 1 then foldS (haltMates s1 t) (fun u i => dbgEvent (halt u i 5) 5 i) s1 else s1

/-- A halted thread goes on (R514, R515, R519): in FAULT, STALL or READY, past a `brk`, and once past the breakpoint that stopped it.
`step` halts it again after one instruction. -/
def resumeThr (s : State) (t : Nat) (step : Bool) : State :=
  let x := thrOf s t
  match x.halt with
  | some h =>
    let y := { x with halt := none, stepping := step, bpPass := h.reason == 2, pc := if h.reason = 4 then x.pc + 4 else x.pc }
    match h.prev with
    | .fault => setThr s t { y with st := .fault, stepping := false }
    | .stall => setThr s t (goBudget s (if y.wait = .none then { y with st := .ready, readyAt := s.clk } else { y with st := .stall }))
    | _ => setThr s t (goBudget s { y with st := .ready, readyAt := s.clk })
  | none => if step then s else setThr s t { x with stepping := false }

/-! ## Relock (R512) -/

/-- Threads that Edsen holds or steps. -/
def held (s : State) : List Nat := (s.gar.thr.map (·.1)).filter (fun t => (thrOf s t).halt.isSome || (thrOf s t).stepping)

/-- Edsen locks: threads resume, breakpoints and watchpoints go off, and its controls and its session clear. Trace continues. The holds
that DBG_RST and DBG_RST_CL place are released by the caller. -/
def lockEdsen (s : State) : State :=
  let s1 := foldS (held s) (fun u t => resumeThr u t false) s
  let s2 := foldS (regsOf s1 .DBG_CORE_BPC) (fun u i => u.setFlag F.DBG_CORE_BPC_EN i false) s1
  let s3 := foldS (regsOf s2 .DBG_CORE_WPC) (fun u i => u.setFlag F.DBG_CORE_WPC_EN i false) s2
  let s4 := ((s3.setReg .DBG_CTL 0 0).setReg .DBG_RST 0 0).setReg .DBG_RST_CL 0 0
  let s5 := s4.setFld F.DBG_SESSION_OWNER 0 0
  (s5.setFlag F.DBG_LOCK_UNLOCKED 0 false).setFld F.DBG_LOCK_SCOPE 0 0

/-- Edsen is unlocked with a scope bit: 0 HALT, 1 REG, 2 RST (R511). -/
def dbgScope (s : State) (b : Nat) : Bool := s.flag F.DBG_LOCK_UNLOCKED 0 && bitOf (s.fld F.DBG_LOCK_SCOPE 0) b

end Sys2Proof.Machine
end

