-- ==== Sys2Proof/Machine/ParserOps.lean ====
section
/-!
DEFINITION. The parser: the walk (R142–R146), classification (R147–R150), hashing and spreading (R151, R152), the work item (R155,
R158) and what becomes of a packet (R153, R154, R160, R447, R451).
-/

namespace Sys2Proof.Machine

/-! ## Windows and their switches (R159) -/

def graphCopy (s : State) : Nat := s.fld F.PRS_STS_GRAPH_ACTIVE 0
def clsCopy (s : State) : Nat := s.fld F.PRS_STS_CLS_ACTIVE 0

/-- The word at a shadow-window offset of copy `c`. -/
def prsWord (s : State) (c ofs : Nat) : Nat := (mget noW32 s.prs.win (2 ^ 20 * c + ofs)).toNat

/-- A word of the graph set and of the classifier set in their active copies. -/
def gWord (s : State) (ofs : Nat) : Nat := prsWord s (graphCopy s) ofs
def cWord (s : State) (ofs : Nat) : Nat := prsWord s (clsCopy s) ofs

/-- The offset belongs to the graph set. -/
def inGraphSet (ofs : Nat) : Bool := decide (ofs < 0x30000)

/-- The check unit of a window word. -/
def prsUnit (c ofs : Nat) : Nat := 2 ^ 18 * c + ofs / 4

/-! ## The walk (R143–R145) -/

/-- What a walk leaves: flags as a 256-bit number, layer bytes by slot, and the window offsets it read as (first, one past last). -/
structure Walk where
  flags : Nat
  layers : List Nat
  read : List (Nat × Nat)
deriving DecidableEq, Repr

def setF (w : Walk) (f : Nat) : Walk := { w with flags := putBit w.flags f true }

/-- A node's or an action's flag: 0–7 belong to the hardware (R144). -/
def setUserF (w : Walk) (f : Nat) : Walk := if f < 8 then w else setF w f

/-- A layer recorded (R145). -/
def recordLayer (w : Walk) (slot pos : Nat) : Walk :=
  if 510 ≤ pos then setF w 5
  else
    let v := { w with layers := w.layers.set slot (pos / 2) }
    if pos % 2 = 1 then setF v 4 else v

/-- The walk from a next-node field at `pos`; `depth` nodes have been visited and the fuel is what the limit of 24 leaves. -/
def walkFrom (s : State) (win : List Byte) (len : Nat) : Nat → Nat → Nat → Walk → Walk
  | 0, _, _, w => w
  | fuel + 1, fld, pos, w =>
    if !bitOf fld 8 then w
    else
      let b := 0x10000 + 64 * (fld % 256)
      let n := fun i => gWord s (b + 4 * i)
      let w0 := { w with read := (b, b + 64) :: w.read }
      let selMask := bits (n 1) 15 0
      let selOfs := bits (n 1) 31 26
      let mf := bits (n 2) 13 11
      let mult := if mf = 1 then 1 else if mf = 2 then 2 else if mf = 3 then 4 else if mf = 4 then 8 else 0
      let lenOfs := bits (n 2) 31 26
      let need := max (max pos (if selMask ≠ 0 then pos + selOfs + 4 else 0)) (if mult ≠ 0 then pos + lenOfs + 2 else 0)
      if 512 < need then setF (setF w0 0) 2
      else if len < need then setF (setF w0 0) 1
      else
        let f := (beAt win (pos + selOfs) 4 >>> bits (n 1) 25 21) &&& selMask
        let hdr := bits (n 2) 8 0 + ((beAt win (pos + lenOfs) 2 >>> bits (n 2) 25 22) &&& bits (n 2) 21 14) * mult
        if len < pos + hdr then setF (setF w0 0) 1
        else
          let w1 := if bitOf (n 0) 27 then recordLayer w0 (bits (n 0) 26 23) pos else w0
          let w2 := if bitOf (n 3) 31 then setUserF w1 (bits (n 3) 30 23) else w1
          let w3 := if bitOf (n 3) 22 then setUserF w2 (bits (n 3) 21 14) else w2
          let hit := (List.range (min 8 (bits (n 0) 31 28))).find? (fun i =>
            f &&& bits (n (4 + i)) 15 0 == bits (n (4 + i)) 31 16)
          let next := match hit with
            | some i => bits (n (12 + i / 3)) (10 * (i % 3) + 8) (10 * (i % 3))
            | none => bits (n 0) 8 0
          if bitOf next 8 && fuel == 0 then setF (setF w3 0) 3
          else walkFrom s win len fuel next (pos + hdr) w3

/-- The walk of a packet whose start-table entry is `start`. -/
def walk (s : State) (start : Nat) (win : List Byte) (len : Nat) : Walk :=
  let o := 0x14000 + 4 * start
  walkFrom s win len 24 (bits (gWord s o) 8 0) 0 ⟨0, List.replicate 16 0xFF, [(o, o + 4)]⟩

/-! ## Keys, ranges and rules (R147–R149) -/

/-- Segment `k` of profile `p`: its bytes, or none when it is disabled. -/
def segment (s : State) (win : List Byte) (w : Walk) (p k : Nat) : Option (List Byte) :=
  let x := bits (cWord s (0x30200 + 16 * p + 4 * (k / 2))) (16 * (k % 2) + 15) (16 * (k % 2))
  if bitOf x 15 then
    let l := w.layers.getD (bits x 14 11) 0xFF
    some ((List.range (bits x 3 0 + 1)).map (fun i => if l = 0xFF then 0 else win.getD (2 * l + bits x 10 4 + i) 0))
  else none

/-- Two byte strings in order. -/
def bytesLe (a b : List Byte) : Bool := decide (beNat a ≤ beNat b)

/-- A pair of segments with the smaller first, when both are enabled and of one length (R151). -/
def symPair (a b : Option (List Byte)) : List (Option (List Byte)) :=
  match a, b with
  | some x, some y => if x.length = y.length && !bytesLe x y then [b, a] else [a, b]
  | _, _ => [a, b]

/-- The key of a profile (R147), with the reordering of SYM (R151). -/
def keyOf (s : State) (win : List Byte) (w : Walk) (p : Nat) (sym : Bool) : List Byte :=
  let g := segment s win w p
  let l := if sym then symPair (g 0) (g 1) ++ symPair (g 2) (g 3) ++ [g 4, g 5, g 6, g 7] else (List.range 8).map g
  ((l.map (·.getD [])).flatten).take 64

/-- Range comparator `c` (R148). -/
def rangeBit (s : State) (win : List Byte) (w : Walk) (c : Nat) : Bool :=
  let cfg := cWord s (0x30000 + 8 * c)
  let lim := cWord s (0x30004 + 8 * c)
  let l := w.layers.getD (bits cfg 12 9) 0xFF
  let x := 2 * l + bits cfg 8 0
  bitOf cfg 31 && l != 0xFF && decide (x + 2 ≤ win.length) &&
    decide (bits lim 15 0 ≤ beAt win x 2) && decide (beAt win x 2 ≤ bits lim 31 16)

def rangeVec (s : State) (win : List Byte) (w : Walk) : Nat :=
  (List.range 64).foldl (fun v c => if rangeBit s win w c then putBit v c true else v) 0

/-- Rule entry `i` matches (R149). -/
def ruleMatches (s : State) (x : PIn) (flags ranges i : Nat) : Bool :=
  let r := fun k => cWord s (0x40000 + 64 * i + 4 * k)
  let mask := bits (r 0) 19 12
  let test := fun k =>
    let f := bits (r (1 + k / 2)) (16 * (k % 2) + 15) (16 * (k % 2))
    !bitOf f 15 || bitOf flags (f % 256) == bitOf f 14
  let rm := r 3 + 2 ^ 32 * r 4
  bitOf (r 0) 31 && bitOf (r 0) (28 + x.kind) && (x.src.toNat &&& mask) == (bits (r 0) 27 20 &&& mask) &&
    bitOf (r 0) (4 + x.pri) && test 0 && test 1 && test 2 && test 3 && (ranges &&& rm) == ((r 5 + 2 ^ 32 * r 6) &&& rm)

/-- Rule entries whose first word the active classifier copy lists, rising. -/
def listedRules (s : State) : List Nat :=
  ((s.prs.win.map (·.1)).filter (fun k => k / 2 ^ 20 == clsCopy s && decide (0x40000 ≤ k % 2 ^ 20) &&
    decide (k % 2 ^ 20 < 0x50000) && k % 64 == 0)).map (fun k => (k % 2 ^ 20 - 0x40000) / 64)

/-- The first rule that matches (R149). -/
def ruleFor (s : State) (x : PIn) (flags ranges : Nat) : Option Nat := (listedRules s).find? (ruleMatches s x flags ranges)

/-! ## Hashing (R151) -/

/-- The Toeplitz key as a 544-bit number, byte 0 at the top. -/
def tkey (s : State) : Nat := (List.range 17).foldl (fun a j => a * 2 ^ 32 + cWord s (0x30440 + 4 * j)) 0

/-- The Toeplitz hash. -/
def toeplitz (tk : Nat) (key : List Byte) : Nat :=
  (List.range (8 * key.length)).foldl (fun h i =>
    if (key.getD (i / 8) 0).getLsbD (7 - i % 8) then h ^^^ (tk >>> (512 - i)) % 2 ^ 32 else h) 0

/-! ## What becomes of a packet -/

/-- A parser counter (R163). -/
def prsCount (s : State) (k by_ : Nat) : State := count s (11265 + k) 1 by_

/-- A packet reaches the parser input (R140, R160). -/
def toParser (s : State) (x : PIn) : State :=
  if pktUp s && s.flag F.PRS_CTL_EN 0 then { s with prs := { s.prs with waiting := s.prs.waiting ++ [x] } }
  else
    let len := match chainAt s x.head with | some ch => ch.len | none => 0
    prsCount (unref s x.head) 7 len

/-- A packet that recirculates as a new arrival (R14, R158). -/
def recircPIn (x : EPkt) : PIn :=
  { kind := 2, start := 17, head := x.head, src := BitVec.ofNat 8 (itSrc x.item), pri := itPri x.item,
    word3 := BitVec.ofNat 32 (itMeta x.item), tsCap := itTsCap x.item, cookie := BitVec.ofNat 16 (itCookie x.item),
    offload := BitVec.ofNat 16 (if itForm x.item then itOffloadRes x.item
      else if itHostSide x.item then itemWord x.item 15 / 2 ^ 16 else 0) }

/-- The next packet in order (R140): line arrivals before host and recirculation arrivals. -/
def nextPIn (s : State) : Option PIn :=
  match s.prs.waiting.find? (·.kind == 0) with
  | some x => some x
  | none => s.prs.waiting.head?

/-- The first parity error in the window words that a packet reads, as an offset in the PRS block (R451). -/
def prsBad (s : State) (read : List (Nat × Nat)) : Option Nat :=
  (s.integ.bad.filterMap (fun e =>
    let u := e.1 % 2 ^ 64
    let o := 4 * (u % 2 ^ 18)
    let copy := if inGraphSet o then graphCopy s else clsCopy s
    if e.1 / 2 ^ 64 == 8 && u / 2 ^ 18 == copy && read.any (fun r => decide (r.1 ≤ o) && decide (o < r.2)) then some (o + 0x80000)
    else none)).head?

/-- A prefetch that is issued (R153): the table, the key, or none. -/
def prefetchOf (s : State) (win : List Byte) (w : Walk) (act2 i : Nat) : Option (Nat × List Byte) :=
  let en := bitOf act2 (if i = 0 then 31 else 15)
  let t := if i = 0 then bits act2 29 24 else bits act2 13 8
  let key := keyOf s win w (if i = 0 then bits act2 23 20 else bits act2 7 4) false
  if en && tblLive s t && !key.isEmpty then some (t, key) else none

/-- An accepted lookup joins those that Agate answers. -/
def agtAccept (s : State) (k : Lkp) : State := { s with agt := { s.agt with lookups := s.agt.lookups ++ [k] } }

/-- The lookup of prefetch `i` of the item `uid` (R180). -/
def prefetchIssue (s : State) (uid i len : Nat) (act2 : Nat) (p : Option (Nat × List Byte)) : State :=
  match p with
  | some (t, key) => agtAccept s ⟨t, key, i, s.flag F.AGT_TBL_CFG_PF_CNT t, len, false, 0, false, some (.item uid), false⟩
  | none => if bitOf act2 (if i = 0 then 31 else 15) then prsCount s 6 0 else s

/-- The parse-form work item (R155). -/
def parseItem (x : PIn) (len flags hash : Nat) (layers : List Nat) (pf0 pf1 : Bool) : Item :=
  let w1 := b2n pf1 * 2 ^ 31 + b2n pf0 * 2 ^ 30 + b2n x.tsCap * 2 ^ 27 + x.src.toNat * 2 ^ 19 + x.kind * 2 ^ 17 + x.pri * 2 ^ 14 + len % 2 ^ 14
  let lw := fun k => (List.range 4).foldl (fun a i => a + layers.getD (4 * k + i) 0xFF * 2 ^ (8 * i)) 0
  let fw := fun k => bits flags (32 * k + 31) (32 * k)
  let ws := [handleOf x.head, w1, hash, x.word3.toNat, lw 0, lw 1, lw 2, lw 3, fw 0, fw 1, fw 2, fw 3, fw 4, fw 5, fw 6,
             bits flags 255 240 * 2 ^ 16 + bits flags 239 224]
  BitVec.ofNat 512 (ws.foldr (fun w a => w % 2 ^ 32 + 2 ^ 32 * a) 0)

/-- Results counted (R163): the matching rule or the default action, and the flags of the walk. -/
def prsNote (s : State) (rule : Option Nat) (flags len : Nat) : State :=
  let s1 := count s (match rule with | some i => 10240 + i | none => 11264) 1 len
  foldS [0, 1, 2, 3] (fun u f => if bitOf flags f then prsCount u f len else u) s1

/-- A pipeline accepts packet `x` and parses, classifies and enqueues it (R143–R158). -/
def parsePacket (s : State) (x : PIn) : State :=
  match chainAt s x.head with
  | none => s
  | some ch =>
    let len := ch.len
    let n := min len 512
    let (s1, bad) := probeChain s ch 0 0 n
    if !bad.isEmpty then unref s1 x.head
    else
      let win := chainBytes s1 ch 0 n
      let w := walk s1 x.start win len
      let host := x.kind != 0
      let f1 := if host then setBits (putBit w.flags 7 true) 255 224 (x.offload.toNat * 2 ^ 16 + x.cookie.toNat) else w.flags
      let w1 := { w with flags := f1 }
      let ranges := rangeVec s1 win w1
      let rule := ruleFor s1 x f1 ranges
      let ab := match rule with | some i => 0x40000 + 64 * i + 28 | none => 0x30400
      let a0 := cWord s1 ab
      let a1 := cWord s1 (ab + 4)
      let a2 := cWord s1 (ab + 8)
      let f2 := if rule.isSome then putBit f1 6 true else f1
      let sf := bits a1 24 17
      let f3 := if bitOf a1 25 && decide (8 ≤ sf) && !(host && decide (224 ≤ sf)) then putBit f2 sf true else f2
      let key := keyOf s1 win w1 (bits a1 31 28) (bitOf a1 26)
      let hash := if bitOf a1 27 then crc32c key else toeplitz (tkey s1) key
      let grp := 0x30300 + 4 * bits a0 29 24
      let g := cWord s1 grp
      let ind := 0x60000 + 4 * ((bits g 30 16 + hash % 2 ^ bits g 3 0) % 32768)
      let spread := bitOf a0 30
      let prof := fun p => (0x30200 + 16 * p, 0x30210 + 16 * p)
      let rules := match rule with | some i => (0x40000, 0x40000 + 64 * (i + 1)) | none => (0x40000, 0x50000)
      let read := w.read ++ [(0x30000, 0x30200), rules, (ab, ab + 12), prof (bits a1 31 28)] ++
        (if bitOf a1 27 then [] else [(0x30440, 0x30484)]) ++ (if spread then [(grp, grp + 4), (ind, ind + 4)] else []) ++
        (if bitOf a2 31 then [prof (bits a2 23 20)] else []) ++ (if bitOf a2 15 then [prof (bits a2 7 4)] else [])
      match prsBad s1 read with
      | some o => unref (noteUe s1 8 3 1 2 o 0) x.head
      | none =>
        let s2 := prsNote s1 rule f3 len
        if bitOf a0 31 then prsCount (unref s2 x.head) 4 len
        else
          let q := if spread then bits (cWord s2 ind) 25 14 else bits a0 23 12
          let d := if spread then bits (cWord s2 ind) 13 0 else bits a1 13 0
          let p0 := prefetchOf s2 win w1 a2 0
          let p1 := prefetchOf s2 win w1 a2 1
          let it := parseItem x len f3 hash w.layers p0.isSome p1.isSome
          match enqueue s2 false q d (BitVec.ofNat 32 hash) it none 0 with
          | (.ok _ uid, u) => prefetchIssue (prefetchIssue u uid 0 len a2 p0) uid 1 len a2 p1
          | (_, u) => prsCount (unref u x.head) 5 len

/-- The next packet is taken. -/
def parseNext (s : State) : State :=
  match nextPIn s with
  | none => s
  | some x =>
    let l := s.prs.waiting
    linePauses (parsePacket { s with prs := { s.prs with waiting := l.eraseIdx (l.findIdx (· == x)) } } x)

/-! ## Rows -/

def execParsePacket (s : State) : Out :=
  .next (if pktUp s && s.flag F.PRS_CTL_EN 0 then parseNext s else s)

/-- EN set (R159). -/
def prsEnable (s : State) : State := (s.setFlag F.PRS_CTL_EN 0 true).setFlag F.PRS_STS_DRAINED 0 false

/-- EN cleared (R160): no pipeline holds a packet between rows, so the parser is drained at once. -/
def prsDisable (s : State) : State :=
  let l := s.prs.waiting
  let u := (s.setFlag F.PRS_CTL_EN 0 false).setFlag F.PRS_STS_DRAINED 0 true
  foldS l toParser { u with prs := { u.prs with waiting := [] } }

def execParserEnable (s : State) : Out := .next (if pktUp s then prsEnable s else s)
def execParserDisable (s : State) : Out := .next (if pktUp s then linePauses (prsDisable s) else s)

/-- A switch request (R27, R29): SWITCHED clears on a new one. -/
def prsReq (s : State) (req done : Fld) : State := if s.flag req 0 then s else (s.setFlag req 0 true).setFlag done 0 false

def graphReq (s : State) : State := prsReq s F.PRS_CTL_GRAPH_REQ F.PRS_STS_GRAPH_SWITCHED
def clsReq (s : State) : State := prsReq s F.PRS_CTL_CLS_REQ F.PRS_STS_CLS_SWITCHED

def execGraphReq (s : State) : Out := .next (if pktUp s then graphReq s else s)
def execClsReq (s : State) : Out := .next (if pktUp s then clsReq s else s)

/-- A pending switch takes effect at a packet boundary while the parser is enabled (R159). -/
def prsSwitch (s : State) (req done act : Fld) : State :=
  if s.flag F.PRS_CTL_EN 0 && s.flag req 0 then
    ((s.setFlag req 0 false).setFlag done 0 true).setFld act 0 (1 - s.fld act 0)
  else s

def graphSwitch (s : State) : State := prsSwitch s F.PRS_CTL_GRAPH_REQ F.PRS_STS_GRAPH_SWITCHED F.PRS_STS_GRAPH_ACTIVE
def clsSwitch (s : State) : State := prsSwitch s F.PRS_CTL_CLS_REQ F.PRS_STS_CLS_SWITCHED F.PRS_STS_CLS_ACTIVE

/-- Requests made in one write switch at the same boundary (R159). -/
def switchBoth (s : State) : State :=
  if s.flag F.PRS_CTL_EN 0 then clsSwitch (graphSwitch { s with prs := { s.prs with joint := false } }) else s

def execGraphSwitch (s : State) : Out :=
  .next (if pktUp s then (if s.prs.joint then switchBoth s else graphSwitch s) else s)
def execClassifierSwitch (s : State) : Out :=
  .next (if pktUp s then (if s.prs.joint then switchBoth s else clsSwitch s) else s)

end Sys2Proof.Machine
end

