-- ==== Sys2Proof/Machine/LinePort.lean ====
section
/-!
DEFINITION. Line ports (03): reception, pause, transmission, the link states, and the lanes' tests.
-/

namespace Sys2Proof.Machine

/-! ## Link states (R74) -/

/-- A change of link state: recorded with the network time, and the LINK_CHG source raised. -/
def setLink (s : State) (p st : Nat) : State :=
  raiseSrc (((s.setFld F.LPT_LINK_STATE p st).setFlag F.LPT_LINK_CHG p true).setReg .LPT_LINK_NT p (nt64 s)) p st

def linkSt (s : State) (p : Nat) : Nat := s.fld F.LPT_LINK_STATE p
def phyOn (s : State) (p : Nat) : Bool := s.flag F.LPT_CFG_PHY_EN p

/-- A frame in reception, of which `n` bytes have come, is cut off (R80, R82). -/
def rxCut (s : State) (p : Nat) (part : Option Nat) : State :=
  match part with
  | some n => count s (32 * p + 9) 1 n
  | none => s

/-- The frame in transmission is cut short (R72). One that has not entered the PCS is held. -/
def txCut (s : State) (p : Nat) : State := txCutShort s p

/-- A held frame enters the PCS when the link is UP again (R72). -/
def txResume (s : State) (p : Nat) : State :=
  if (txOf s p).isSome && (txfOf s p).isNone && portUp s p then txEnter s p else s

def setLanes (s : State) (p : Nat) (f : Fld) (b : Bool) : State := foldS (lanesOf s p) (fun u l => u.setFlag f l b) s

/-! ## Reception (R66–R71) -/

/-- The ingress priority of a frame (R67). -/
def framePri (s : State) (p : Nat) (frame : List Byte) : Nat :=
  let tpid := beAt frame 12 2
  if tpid = 0x8100 || tpid = 0x88A8 then
    let pcp := beAt frame 14 2 / 2 ^ 13
    bits (s.fld F.LPT_PRI_PCP_MAP p) (3 * pcp + 2) (3 * pcp)
  else s.fld F.LPT_PRI_DEF_PRI p

/-- Priority `i` in XOFF refuses the frame at admission (R69). -/
def xoffDrops (s : State) (p i : Nat) : Bool :=
  let m := s.fld F.LPT_CFG_FC_MODE p
  lineXoff s p i && (m == 0 || m == 3 || (m == 2 && !bitOf (s.fld F.LPT_CFG_PFC_EN p) i))

/-- A frame that has passed checks 1 to 4 is classified, admitted and stored (R66–R68). `rxTs` is its receive timestamp. -/
def rxStore (s : State) (p : Nat) (frame : List Byte) (rxTs : Nat) : State :=
  let n := frame.length
  let i := framePri s p frame
  if xoffDrops s p i then count s (32 * p + 8) 1 n
  else
    match storePacket s (8 * p + i) frame (n - 4) true with
    | (none, u) => count u (32 * p + 6) 1 n
    | (some h, u) =>
      toParser (count (count u (32 * p) 1 n) (32 * p + 12 + i) 1 n)
        { kind := 0, start := p, head := h, src := BitVec.ofNat 8 p, pri := i, word3 := BitVec.ofNat 32 rxTs, tsCap := false,
          cookie := 0, offload := 0 }

/-- A received frame (R65, R66): its bytes from destination address through FCS, the codewords that FEC corrected with the symbols
corrected, and the codewords it could not correct. -/
def rxFrame (s : State) (p : Nat) (frame : List Byte) (corr syms bad : Nat) : State :=
  let n := frame.length
  let s1 := if corr = 0 then s else count s (32 * p + 10) corr syms
  let s2 := if bad = 0 then s1 else count s1 (32 * p + 11) bad 0
  let body := frame.take (n - 4)
  if !s2.flag F.LPT_CFG_EN p then count s2 (32 * p + 7) 1 n
  else if 0 < bad || n < 4 || frame.drop (n - 4) ≠ leBytes 4 (ethFcs body) then count s2 (32 * p + 1) 1 n
  else if n < 64 then count s2 (32 * p + 2) 1 n
  else if maxFrame s2 p < n then count s2 (32 * p + 3) 1 n
  else
    match macCtl frame with
    | some op => pauseObey (count s2 (32 * p + (if op = 1 then 4 else 5)) 1 n) p op frame
    | none => rxStore s2 p frame (ntPlus s2.tim.nt.toNat (-(rxCorr s2 p + (n * psPerByte s2 p : Nat))) / 2 ^ 32)

/-- In the far-end loopback the lanes retransmit what they receive (R79). -/
def farLoop (s : State) (p : Nat) (frame : List Byte) : State :=
  if (portOf s p).loop = 3 then { s with egr := { s.egr with wire := (p, frame, false) :: s.egr.wire } } else s

/-- A frame arrives from the line; in a near-end loopback the port receives only its own (R79). -/
def execRxFrame (p : Fin 16) (frame : List Byte) (corr syms bad : Nat) (s : State) : Out :=
  .next (if pktUp s && portFormed s p && phyOn s p && linkSt s p == 4 && !looped s p then
    linePauses (farLoop (rxFrame s p frame corr syms bad) p frame) else s)

/-! ## Pause and transmission -/

/-- Time passes and the pause frame is repeated (R70). -/
def execPauseRefresh (p : Fin 16) (edges : Nat) (s : State) : Out :=
  let u := advance s edges
  let ns := max 1000 (u.fld F.LPT_FC_REFRESH_NS p)
  let due := decide (ns * 2 ^ 32 ≤ u.tim.elapsed - (portOf u p).pauseAt)
  .next (if portUp u p && (portOf u p).paused ≠ 0 && due then
    sendPause u p (u.fld F.LPT_CFG_FC_MODE p == 2) (pauseMask u p) 0 else u)

/-- The frame in transmission ends, and in a near-end loopback the port receives it (R79). -/
def nearLoop (s : State) (p : Nat) : State :=
  match txfOf s p with
  | some f => if looped s p then rxFrame (txFinish s p) p f.bytes 0 0 0 else txFinish s p
  | none => txFinish s p

/-- The last bit of a frame leaves (R72). -/
def execFrameTxComplete (p : Fin 16) (edges : Nat) (s : State) : Out :=
  let u := advance s edges
  .next (if portFormed u p then linePauses (nearLoop (txResume u p) p) else u)

/-! ## Enables (R74, R79, R80) -/

def linkOff (s : State) (p : Nat) : Bool := linkSt s p == 0

/-- PHY_EN takes effect on a formed port: LOOPBACK and AN_MODE are applied, the lanes' PRBS tests end, and the link leaves OFF (R74, R78, R79). -/
def phyRise (s : State) (p : Nat) : State :=
  let s1 := setLanes (setLanes s p F.LPT_LANE_PRBS_CTL_GEN_EN false) p F.LPT_LANE_PRBS_CTL_CHK_EN false
  let s2 := setLanes s1 p F.LPT_LANE_PRBS_CTL_CHK_LOCK false
  let s3 := setPort s2 p { portOf s2 p with loop := s2.fld F.LPT_CFG_LOOPBACK p, anMode := s2.fld F.LPT_CFG_AN_MODE p }
  setLink s3 p 1

/-- PHY_EN set; on a lane that starts no port the bit waits until it does (R63). -/
def phySet (s : State) (p : Nat) : State :=
  if phyOn s p then s
  else
    let u := s.setFlag F.LPT_CFG_PHY_EN p true
    if portFormed u p then phyRise u p else u

/-- PHY_EN cleared: the link goes OFF, with the lanes' locks lost. -/
def phyClear (s : State) (p : Nat) (part : Option Nat) : State :=
  if !phyOn s p then s
  else
    let s1 := s.setFlag F.LPT_CFG_PHY_EN p false
    if !portFormed s1 p then s1
    else
      let s2 := txCut (rxCut s1 p part) p
      let s3 := setLanes (setLanes s2 p F.LPT_LANE_ADAPT_SIG_DET false) p F.LPT_LANE_ADAPT_CDR_LOCK false
      let s4 := (s3.setFlag F.LPT_LINK_LOCAL_FAULT p false).setFlag F.LPT_LINK_REMOTE_FAULT p false
      pauseSync (if linkOff s4 p then s4 else setLink s4 p 0) p

/-- EN takes effect on a formed port (R63, R80, R396). -/
def portRise (s : State) (p : Nat) : State := pauseSync (s.setFlag F.LPT_STS_DRAINED p false) p

/-- LPT[p]_CFG.EN set; on a lane that starts no port the bit waits until it does (R63). -/
def portSet (s : State) (p : Nat) : State :=
  let u := s.setFlag F.LPT_CFG_EN p true
  if portFormed u p then portRise u p else u

/-- DRAINED of a port follows when nothing is left (R80). -/
def portDrain (s : State) (p : Nat) : State := if portDrained s p then s.setFlag F.LPT_STS_DRAINED p true else s

/-- LPT[p]_CFG.EN cleared (R80): the frame in reception is cut off, egress drops what it holds, the frame in transmission goes on. -/
def portClear (s : State) (p : Nat) (part : Option Nat) : State :=
  if !s.flag F.LPT_CFG_EN p then s
  else
    let s1 := s.setFlag F.LPT_CFG_EN p false
    portDrain (pauseSync (if portFormed s1 p then portFlush (rxCut s1 p part) p else s1) p) p

def lpt (s : State) (p : Nat) : Bool := lineUp s && lanePresent s p

def execPhyEnSet (p : Fin 16) (s : State) : Out := .next (if lpt s p then phySet s p else s)
def execPhyEnClear (p : Fin 16) (part : Option Nat) (s : State) : Out := .next (if lpt s p then linePauses (phyClear s p part) else s)
def execPortEnSet (p : Fin 16) (s : State) : Out := .next (if lpt s p then portSet s p else s)
def execPortEnClear (p : Fin 16) (part : Option Nat) (s : State) : Out := .next (if lpt s p then linePauses (portClear s p part) else s)

/-- Every lane of the port detects signal in WAIT_SIGNAL: TRAIN (R74). -/
def execSignalDetect (p : Fin 16) (s : State) : Out :=
  .next (if portFormed s p && phyOn s p && linkSt s p == 1 then
    let u := setLink (setLanes s p F.LPT_LANE_ADAPT_SIG_DET true) p 2
    setPort u p { portOf u p with trainAt := u.tim.elapsed } else s)

/-- The taps that training agrees for a lane, clamped so that their magnitudes sum to at most 63 (R75, R76). Where the other three alone
exceed 63, MAIN is 0 and the sum stays above (DESIGN CHOICE, log entry 56). -/
def clampTaps (pre2 pre1 main post1 : BitVec 6) : Nat :=
  let mag := fun (x : BitVec 6) => x.toInt.natAbs
  let m := min main.toNat (63 - (mag pre2 + mag pre1 + mag post1))
  pre2.toNat * 2 ^ 18 + pre1.toNat * 2 ^ 12 + m * 2 ^ 6 + post1.toNat

/-- A lane's taps written as the fields PRE2 to POST1. -/
def putTaps (s : State) (l v : Nat) : State :=
  s.setReg .LPT_LANE_TXEQ l (setBits (s.reg .LPT_LANE_TXEQ l) 29 6 v)

/-- Training or adaptation ends with the CDR locked on all lanes: ALIGN (R74). With AN_MODE 0 the agreed taps are written (R75);
`taps` gives them lane by lane as (PRE2, PRE1, MAIN, POST1). -/
def execTrainComplete (p : Fin 16) (taps : List (BitVec 6 × BitVec 6 × BitVec 6 × BitVec 6)) (s : State) : Out :=
  .next (if portFormed s p && phyOn s p && linkSt s p == 2 then
    let u := setLanes s p F.LPT_LANE_ADAPT_CDR_LOCK true
    let v := if (portOf u p).anMode = 0 then
        foldS (lanesOf u p) (fun w l => match taps[l - p]? with
          | some t => putTaps w l (clampTaps t.1 t.2.1 t.2.2.1 t.2.2.2)
          | none => w) u
      else u
    setLink v p 3 else s)

/-- Time passes and TRAIN_MS runs out in TRAIN (R74). -/
def execTrainTimeout (p : Fin 16) (edges : Nat) (s : State) : Out :=
  let u := advance s edges
  let ms := u.fld F.LPT_LINK_CFG_TRAIN_MS p
  .next (if portFormed u p && linkSt u p == 2 && ms != 0 && decide (ms * 1000000 * 2 ^ 32 ≤ u.tim.elapsed - (portOf u p).trainAt) then
    setLink (u.bump F.LPT_LINK_DOWN_CNT p 1) p 1 else u)

/-- FEC and PCS lanes are aligned: UP, and a frame that the port held is sent (R72, R74). -/
def execAlignDone (p : Fin 16) (s : State) : Out :=
  .next (if portFormed s p && phyOn s p && linkSt s p == 3 then linePauses (txResume (setLink s p 4) p) else s)

/-- Signal or alignment is lost (R72, R74): `part` gives the bytes of a frame in reception. -/
def signalLoss (s : State) (p : Nat) (part : Option Nat) : State :=
  let st := linkSt s p
  if portFormed s p && (st == 2 || st == 3 || st == 4 || st == 5) then
    let s1 := if st = 4 then s.bump F.LPT_LINK_DOWN_CNT p 1 else s
    let s2 := txCut (rxCut s1 p part) p
    let s3 := setLanes (setLanes s2 p F.LPT_LANE_ADAPT_SIG_DET false) p F.LPT_LANE_ADAPT_CDR_LOCK false
    let s4 := (s3.setFlag F.LPT_LINK_LOCAL_FAULT p false).setFlag F.LPT_LINK_REMOTE_FAULT p false
    linePauses (setLink s4 p 1)
  else s

def execSignalLoss (p : Fin 16) (part : Option Nat) (s : State) : Out := .next (signalLoss s p part)

/-- A local or remote fault moves UP to FAULT, and in FAULT the other kind is recorded too (R74). On leaving UP the frames in transmission
and in reception are cut short as for link loss (DESIGN CHOICE, log entry 56). -/
def execLinkFault (p : Fin 16) (remote : Bool) (part : Option Nat) (s : State) : Out :=
  let s1 := s.setFlag (if remote then F.LPT_LINK_REMOTE_FAULT else F.LPT_LINK_LOCAL_FAULT) p true
  .next (if portFormed s p && linkSt s p == 4 then linePauses (setLink (txCut (rxCut s1 p part) p) p 5)
    else if portFormed s p && linkSt s p == 5 then s1 else s)

/-- The faults clear: UP again (R74). -/
def execLinkFaultClear (p : Fin 16) (s : State) : Out :=
  .next (if portFormed s p && linkSt s p == 5 then
    let s1 := (s.setFlag F.LPT_LINK_LOCAL_FAULT p false).setFlag F.LPT_LINK_REMOTE_FAULT p false
    linePauses (txResume (setLink s1 p 4) p) else s)

/-! ## Quad modes (R62, R81) -/

/-- A quad of MODE 4 whose partner holds another mode is powered down (R81). -/
def pairWait (s : State) (q : Nat) : Bool := quadMode s q == 4 && quadMode s (if q % 2 = 0 then q + 1 else q - 1) != 4

/-- PAIR_WAIT follows the modes of a pair of quads. -/
def quadSync (s : State) (q : Nat) : State := s.setFlag F.LPT_QUAD_STS_PAIR_WAIT q (pairWait s q)

/-- The ETH_REFCLK of a quad is good: [0] clocks quads 0 and 1, and [1] clocks 2 and 3 (R62, R480). -/
def quadClk (s : State) (q : Nat) : Bool := s.flag (if q < 2 then F.RST_CLKMON_STS_ETH0_OK else F.RST_CLKMON_STS_ETH1_OK) 0

/-- The quad's PLL is locked: the quad is powered and its reference is good. -/
def quadPll (s : State) (q : Nat) : Bool := quadMode s q != 0 && !pairWait s q && quadClk s q

/-- Every port that a quad forms is disabled and drained (R81). -/
def quadIdle (s : State) (q : Nat) : Bool :=
  (quadPorts s q).all (fun p => !s.flag F.LPT_CFG_EN p && !phyOn s p && s.flag F.LPT_STS_DRAINED p)

/-- A lane that now starts a port: PHY_EN and EN that its registers hold take effect (R63, R74). -/
def portStart (s : State) (p : Nat) : State :=
  let u := if phyOn s p then phyRise s p else s
  if u.flag F.LPT_CFG_EN p then portRise u p else u

/-- A write to LPT_QUAD[q]_CFG.MODE (R81). -/
def quadWrite (s : State) (q m : Nat) : State :=
  let pair := if q % 2 = 0 then q + 1 else q - 1
  if 5 ≤ m || !quadIdle s q || (m = 4 && !quadIdle s pair) then s.setFlag F.LPT_QUAD_STS_MODE_REJECT q true
  else
    let u := s.setFld F.LPT_QUAD_CFG_MODE q m
    let v := quadSync u q
    let w := if quadPresent v pair then quadSync v pair else v
    foldS ((List.range 16).filter (fun p => portFormed w p && !portFormed s p)) portStart w

def execQuadModeWrite (q : Fin 4) (m : BitVec 3) (s : State) : Out :=
  .next (if lineUp s && quadPresent s q then quadWrite s q m.toNat else s)

/-! ## Eye monitor and PRBS (R77, R78) -/

def laneUp (s : State) (l : Nat) : Bool := lineUp s && lanePresent s l

/-- GO (R77). -/
def eyeGo (s : State) (l : Nat) : State := s.setFlag F.LPT_LANE_EYE_CTL_BUSY l true

def execEyeMeasureGo (l : Fin 16) (s : State) : Out := .next (if laneUp s l then eyeGo s l else s)

/-- The measured heights arrive (R77). -/
def execEyeMeasureDone (l : Fin 16) (upper middle lower : Byte) (s : State) : Out :=
  .next (if laneUp s l && s.flag F.LPT_LANE_EYE_CTL_BUSY l then
    (s.setFlag F.LPT_LANE_EYE_CTL_BUSY l false).setReg .LPT_LANE_EYE_RES l
      (upper.toNat * 2 ^ 16 + middle.toNat * 2 ^ 8 + lower.toNat) else s)

/-- A lane accepts PRBS enables (R78). -/
def prbsOk (s : State) (l : Nat) : Bool :=
  quadMode s (l / 4) != 0 && (match portOfLane s l with | some p => !phyOn s p | none => true)

/-- A write of the PRBS enables (R78): setting either is refused outside that condition. -/
def prbsWrite (s : State) (l : Nat) (gen chk : Bool) : State :=
  if (gen || chk) && !prbsOk s l then s.setFlag F.LPT_LANE_PRBS_CTL_REJECT l true
  else
    let u := (s.setFlag F.LPT_LANE_PRBS_CTL_GEN_EN l gen).setFlag F.LPT_LANE_PRBS_CTL_CHK_EN l chk
    if chk then u else u.setFlag F.LPT_LANE_PRBS_CTL_CHK_LOCK l false

def execPrbsEnable (l : Fin 16) (gen chk : Bool) (s : State) : Out := .next (if laneUp s l then prbsWrite s l gen chk else s)

/-- The checker locks, and counts the bit errors from there on (R78): `errors` of them. -/
def prbsLock (s : State) (l errors : Nat) : State :=
  let u := if s.flag F.LPT_LANE_PRBS_CTL_CHK_LOCK l then s else s.setFld F.LPT_LANE_PRBS_ERR_ERRORS l 0
  (u.setFlag F.LPT_LANE_PRBS_CTL_CHK_LOCK l true).bump F.LPT_LANE_PRBS_ERR_ERRORS l errors

def execPrbsCheckerLock (l : Fin 16) (errors : Nat) (s : State) : Out :=
  .next (if laneUp s l && s.flag F.LPT_LANE_PRBS_CTL_CHK_EN l then prbsLock s l errors else s)

/-! ## What a lane transmits (R74, R78, R79) -/

/-- The output of a lane's transmitter: nothing, a PRBS pattern by its number with whether the lane maps it to PAM4 itself, what the lane
receives, or the port's data. -/
inductive LaneOut where
  | idle
  | pattern (k : Nat) (mapped : Bool)
  | peer
  | data
deriving DecidableEq, Repr

/-- GEN_EN sends the pattern in place of electrical idle; patterns 0–4 are mapped two bits at a time. -/
def laneOut (s : State) (l : Nat) : LaneOut :=
  let k := s.fld F.LPT_LANE_PRBS_CTL_PATTERN l
  let port := portOfLane s l
  if s.flag F.LPT_LANE_PRBS_CTL_GEN_EN l then .pattern (if 8 ≤ k then 0 else k) (8 ≤ k || k ≤ 4)
  else match port with
    | none => .idle
    | some p =>
      if linkSt s p = 0 || looped s p then .idle else if (portOf s p).loop = 3 then .peer else .data

/-- Two bits, first bit first, as a PAM4 level by Gray coding. -/
def pam4 (a b : Bool) : Nat := if a then (if b then 2 else 3) else (if b then 1 else 0)

/-- A bit sequence as PAM4 levels. -/
def pam4Levels : List Bool → List Nat
  | a :: b :: r => pam4 a b :: pam4Levels r
  | _ => []

end Sys2Proof.Machine
end

