-- ==== Sys2Proof/Machine/Egress.lean ====
section
/-!
DEFINITION. Egress scheduling (R387–R396) and the Meridian calendar (R397–R404).
-/

namespace Sys2Proof.Machine

/-! ## Scheduling (R387) -/

/-- The port starts something now, its buckets apart (R396). -/
def portOpen (s : State) (p : Nat) : Bool :=
  if p < 16 then portUp s p && (txOf s p).isNone
  else if p = 16 then (txOf s 16).isNone
  else p == 17 && !bpcRecirc s && decide ((s.prs.waiting.filter (·.kind == 2)).length < 64)

/-- The head of queue `e`. -/
def headLen (s : State) (e : Nat) : Nat := match egrQ s e with | x :: _ => x.len | [] => 0

/-- Bytes that a start takes from the buckets (R389): frame bytes plus 20 on a line port, packet bytes elsewhere. -/
def shapeBytes (p len : Nat) : Nat := if p < 16 then len + 24 else len

/-- A queue is eligible (R387): a packet, a positive bucket, admitted by the calendar, its head not held by HIF. -/
def qEligible (s : State) (p e : Nat) : Bool :=
  !(egrQ s e).isEmpty && bucketOpen s (queueKey e) (s.reg .EGR_Q_SHAPE e) && calAdmits s p e && !mget noBool s.egr.held e

/-- Eligible queues of group `g`, rising. -/
def groupCands (s : State) (p g : Nat) : List Nat :=
  (s.egr.queues.map (·.1)).filter (fun e => egrGroup s e == g && qEligible s p e)

def deficitOf (s : State) (base i : Nat) : Nat := mget noNat s.egr.deficit (base + i)

/-- The queue that group `g` would serve, with the deficits after it is chosen. -/
def pickQueue (s : State) (p g : Nat) : Option (Nat × List (Nat × Nat)) :=
  dwrrPick (mget noNat s.egr.turn (groupKey g)) (groupCands s p g) (deficitOf s 0) (fun e => quantum (s.fld F.EGR_Q_CFG_WEIGHT e)) (headLen s)

/-- Groups of port `p` at priority `i` with a positive bucket and an eligible queue. -/
def prioGroups (s : State) (p i : Nat) : List Nat :=
  sortBy (fun a b => decide (a ≤ b)) (((queuesFor s p).map (egrGroup s)).eraseDups.filter (fun g =>
    s.fld F.EGR_GRP_CFG_PRI g == i && bucketOpen s (groupKey g) (s.reg .EGR_GRP_SHAPE g) && !(groupCands s p g).isEmpty))

/-- A choice: the priority, the group and its deficits, the queue and its deficits. -/
structure Choice where
  pri : Nat
  grp : Nat
  grpDfc : List (Nat × Nat)
  que : Nat
  queDfc : List (Nat × Nat)
deriving DecidableEq, Repr

/-- The choice at one priority. -/
def pickAt (s : State) (p i : Nat) : Option Choice :=
  let gs := prioGroups s p i
  let head := fun g => match pickQueue s p g with | some x => headLen s x.1 | none => 0
  match dwrrPick (mget noNat s.egr.turn (8 * p + i)) gs (deficitOf s (2 ^ 16)) (fun g => quantum (s.fld F.EGR_GRP_CFG_WEIGHT g)) head with
  | none => none
  | some (g, gd) => (pickQueue s p g).map (fun x => ⟨i, g, gd, x.1, x.2⟩)

/-- The scheduler's choice for port `p` (R387): the highest priority that is not paused and has an eligible queue. -/
def pick (s : State) (p : Nat) : Option Choice :=
  if !portOpen s p || !bucketOpen s (portKey p) (s.reg .EGR_PORT_SHAPE p) then none
  else [7, 6, 5, 4, 3, 2, 1, 0].findSome? (fun i => if p < 16 && pausedNow s p i then none else pickAt s p i)

/-- A queue whose head does not fit is passed over for the rest of the slot (R400). -/
def guardSkip (s : State) (p e : Nat) : State :=
  let m := merOf s p
  let u := setMer s p { m with skipped := e :: m.skipped }
  if s.fld F.MER_STS_STATE p = 2 then egrPortCount u p 6 0 else u

/-- Calendar fit is tried choice by choice; the fuel is the number of queues. -/
def pickFit : Nat → State → Nat → State × Option Choice
  | 0, s, _ => (s, none)
  | f + 1, s, p =>
    match pick s p with
    | none => (s, none)
    | some c => if calFits s p (headLen s c.que + 4) then (s, some c) else pickFit f (guardSkip s p c.que) p

/-- In a gap nothing is passed over for longer than the decision. -/
def choose (s : State) (p : Nat) : State × Option Choice :=
  let r := pickFit (s.egr.queues.length + 1) s p
  if p < 16 && s.fld F.MER_STS_STATE p = 1 then (setMer r.1 p { merOf r.1 p with skipped := (merOf s p).skipped }, r.2) else r

/-- The choice is charged and its packet leaves its queue (R388, R389, R400): a queue or group that empties has its deficit set to 0. -/
def takeHead (s : State) (p : Nat) (c : Choice) (x : EPkt) (rest : List EPkt) : State :=
  let n := shapeBytes p x.len
  let s1 := setDeficits (setDeficits s 0 c.queDfc) (2 ^ 16) c.grpDfc
  let s2 := setDeficits s1 0 [(c.que, if rest.isEmpty then 0 else deficitOf s1 0 c.que - x.len)]
  let s3 := setEgrQ s2 c.que rest
  let gEmpty := !(s3.egr.queues.any (fun q => egrGroup s3 q.1 == c.grp))
  let s4 := setDeficits s3 (2 ^ 16) [(c.grp, if gEmpty then 0 else deficitOf s3 (2 ^ 16) c.grp - x.len)]
  let s5 := { s4 with egr := { s4.egr with turn := mset noNat (mset noNat s4.egr.turn (8 * p + c.pri) c.grp) (groupKey c.grp) c.que } }
  let s6 := bucketTake (bucketTake (bucketTake s5 (queueKey c.que) (s5.reg .EGR_Q_SHAPE c.que) n)
    (groupKey c.grp) (s5.reg .EGR_GRP_SHAPE c.grp) n) (portKey p) (s5.reg .EGR_PORT_SHAPE p) n
  let m := merOf s6 p
  let s7 := if p < 16 && s6.fld F.MER_STS_STATE p = 2 then setMer s6 p { m with alloc := m.alloc.map (· - (x.len + 4)) } else s6
  egrCount s7 c.que 1 x.len

/-- The packet starts on its port (R72, R387, R394): to the MAC, to HIF, or back to the parser. `enters` says that its first bit has
entered the PCS. -/
def startPkt (s : State) (p : Nat) (x : EPkt) (enters : Bool) : State :=
  if p = 17 then toParser s (recircPIn x)
  else if p = 16 then setTx s 16 (some x)
  else
    if maxFrame s p < x.len + 4 then dropPkt (count (pfDrop s p (dramBursts s x)) (32 * p + 26) 1 (x.len + 4)) x
    else
      let s2 := setTx s p (some x)
      if enters then txEnter s2 p else s2

/-- One scheduling decision of port `p` (R387). The entry of a queue's head that cannot be read is lost (R452). -/
def egressStart (s : State) (p : Nat) (enters : Bool) : State :=
  match choose s p with
  | (u, none) => u
  | (v, some c) =>
    let u := arrProbe v 3 c.que (fun w => putEgrQ w c.que (egrQ w c.que).tail)
    if egrQ u c.que != egrQ v c.que then u
    else
      match egrQ u c.que with
      | [] => u
      | x :: rest => startPkt (takeHead u p c x rest) p x enters

def execEgressStart (p : Fin 18) (edges : Nat) (enters : Bool) (s : State) : Out :=
  let u := advance s edges
  .next (if pktUp u then linePauses (egressStart u p enters) else u)

/-- Time passes and a received pause of priority `i` runs out (R390). -/
def execPauseExpire (p : Fin 16) (i : Fin 8) (edges : Nat) (s : State) : Out :=
  let u := advance s edges
  .next (if pausedNow u p i then u else
    { u with egr := { u.egr with pauseEnd := mset noNat u.egr.pauseEnd (8 * p.val + i) 0 } })

/-! ## The calendar (R397–R404) -/

/-- The shadow set becomes active (R27, R403). The copy of the slot count that becomes active holds what NSLOTS acts as, and a later switch
brings that count back to the shadow (DESIGN CHOICE, log entry 55). -/
def merSwitch (s : State) (p : Nat) : State :=
  if !s.flag F.MER_CTL_SW_REQ p then s
  else
    let n := nslotsActs (s.fld F.MER_NSLOTS_SHADOW p)
    let old := s.fld F.MER_NSLOTS_ACTIVE p
    let u := s.setFld F.MER_STS_ACTIVE p (1 - merActive s p)
    let v := (((u.setFlag F.MER_CTL_SW_REQ p false).setFlag F.MER_STS_SWITCHED p true).setFld F.MER_NSLOTS_ACTIVE p n).setFld F.MER_NSLOTS_SHADOW p old
    v.setReg .MER_PERIOD p (merPeriod v p (merActive v p) n)

/-- Slot `i` of the active copy begins at network time `t` (R401). -/
def enterSlot (s : State) (p i t : Nat) : State :=
  let c := merActive s p
  let u := zeroDeficits ((s.setFld F.MER_STS_STATE p 2).setFld F.MER_STS_SLOT p i) p
  let m := merOf u p
  setMer u p { m with slotAt := t, slotEnd := t + slotLen u p c i, alloc := slotAlloc u p c i, skipped := [], preroll := none }

/-- A period begins at network time `t`, with any pending switch (R398, R399, R403). -/
def beginPeriod (s : State) (p t : Nat) : State :=
  let sw := s.flag F.MER_CTL_SW_REQ p
  let s1 := merSwitch s p
  let nt := !s1.flag F.MER_CFG_MODE p
  let s2 := if sw && nt then s1.setReg .MER_ANCHOR p t else s1
  let s3 := s2.wrapAdd F.MER_PSEQ_PERIODS p 1
  let m := merOf s3 p
  enterSlot (setMer s3 p { m with periodAt := t, next := if nt then some (t + s3.reg .MER_PERIOD p) else m.more.head?, more := m.more.drop 1 }) p 0 t

/-- The calendar of an EXT-mode port meets an anchor while its period still runs (R399). -/
def syncEarly (s : State) (p : Nat) : State :=
  setMer (egrPortCount (s.setFlag F.MER_STS_SYNC_EARLY p true) p 8 0) p { merOf s p with next := (merOf s p).more.head?, more := (merOf s p).more.drop 1 }

/-- The last slot of the running period has ended by now. -/
def periodOver (s : State) (p : Nat) : Bool :=
  s.fld F.MER_STS_SLOT p + 1 == s.fld F.MER_NSLOTS_ACTIVE p && decide ((merOf s p).slotEnd ≤ nt64 s)

/-- What happens at the instant that a calendar waits for: a period begins, or an early anchor is dropped. -/
def periodStart (s : State) (p : Nat) : State :=
  let st := s.fld F.MER_STS_STATE p
  let m := merOf s p
  match m.next with
  | none => s
  | some a =>
    if st = 0 || m.stopping || nt64 s < a then s
    else if st = 2 && !periodOver s p then (if s.flag F.MER_CFG_MODE p then syncEarly s p else s)
    else beginPeriod s p a

def execPeriodStart (p : Fin 16) (edges : Nat) (s : State) : Out :=
  let u := advance s edges
  .next (if pktUp u then periodStart u p else u)

/-- The end of a period that nothing follows at once: a gap (R400). -/
def enterGap (s : State) (p : Nat) : State :=
  let u := zeroDeficits (s.setFld F.MER_STS_STATE p 1) p
  setMer u p { merOf u p with alloc := none, skipped := [], preroll := none }

/-- A slot boundary that has come (R401). The boundary between NT-mode periods is PERIOD_START's, and the end of a period after EN
cleared is CALENDAR_STOP's. -/
def slotBoundary (s : State) (p : Nat) : State :=
  let m := merOf s p
  let i := s.fld F.MER_STS_SLOT p
  if s.fld F.MER_STS_STATE p ≠ 2 || nt64 s < m.slotEnd then s
  else if i + 1 < s.fld F.MER_NSLOTS_ACTIVE p then enterSlot s p (i + 1) m.slotEnd
  else if s.flag F.MER_CFG_MODE p && !m.stopping then enterGap s p
  else s

def execSlotBoundary (p : Fin 16) (edges : Nat) (s : State) : Out :=
  let u := advance s edges
  .next (if pktUp u then slotBoundary u p else u)

/-- The copy and slot that come next on a calendar, and their start: pre-roll of a switch pending uses the new copy (R403). -/
def nextSlot (s : State) (p : Nat) : Option (Nat × Nat × Nat) :=
  let m := merOf s p
  let i := s.fld F.MER_STS_SLOT p
  let copy := if s.flag F.MER_CTL_SW_REQ p then 1 - merActive s p else merActive s p
  if s.fld F.MER_STS_STATE p = 0 then none
  else if s.fld F.MER_STS_STATE p = 2 && i + 1 < s.fld F.MER_NSLOTS_ACTIVE p then some (merActive s p, i + 1, m.slotEnd)
  else m.next.map (fun a => (copy, 0, a))

/-- Queues of a port in the order in which the scheduler would take their head packets; the fuel is the number of queues. -/
def headOrder : Nat → State → Nat → List Nat
  | 0, _, _ => []
  | f + 1, s, p =>
    match pick s p with
    | none => []
    | some c =>
      match egrQ s c.que with
      | [] => []
      | x :: rest =>
        let u := takeHead s p c x rest
        c.que :: headOrder f (setMer u p { merOf u p with skipped := c.que :: (merOf u p).skipped }) p

/-- Pre-roll begins for the next slot (R402): the bursts of the head packets of its admitted queues are left to fetch, in the order in which
the scheduler would take them at that moment. What is prefetched already stays. -/
def prerollStart (s : State) (p : Nat) : State :=
  match nextSlot s p with
  | none => s
  | some (copy, i, t) =>
    let m := merOf s p
    let from_ := max (t - s.fld F.MER_PREROLL_NS p) (if s.fld F.MER_STS_STATE p = 2 then m.slotAt else 0)
    if nt64 s < from_ || m.preroll == some i then s
    else
      let v := setTx (setMer (((s.setFld F.MER_STS_STATE p 2).setFld F.MER_STS_SLOT p i).setFld F.MER_STS_ACTIVE p copy) p { m with skipped := [] }) p none
      let want := (headOrder s.egr.queues.length v p).flatMap (fun e => match egrQ s e with | x :: _ => dramBursts s x | [] => [])
      pfFill (setMer s p { m with preroll := some i }) p want

def execPrerollStart (p : Fin 16) (edges : Nat) (s : State) : Out :=
  let u := advance s edges
  .next (if pktUp u && portFormed u p then panicSync (prerollStart u p) else u)

/-- A switch request (R27, R29, R403). -/
def merSwReq (s : State) (p : Nat) : State :=
  if s.flag F.MER_CTL_SW_REQ p then s else (s.setFlag F.MER_CTL_SW_REQ p true).setFlag F.MER_STS_SWITCHED p false

def execSwReq (p : Fin 16) (s : State) : Out := .next (if pktUp s && lanePresent s p then merSwReq s p else s)

/-- EN is refused for an EXT-mode calendar whose SYNC_DELAY is too short (R399). -/
def merRefused (s : State) (p : Nat) : Bool :=
  s.flag F.MER_CFG_MODE p &&
  (decide (s.fld F.MER_SYNC_DELAY p < s.fld F.MER_CFG_GAP_GUARD p + 1000) || decide (s.fld F.MER_SYNC_DELAY p < s.fld F.MER_PREROLL_NS p))

/-- EN set (R398, R399, R403): the port is in a gap until the first period; a calendar whose last period still runs goes on. -/
def merEnable (s : State) (p : Nat) : State :=
  if s.flag F.MER_CFG_EN p then s
  else if merRefused s p then s.setFlag F.MER_STS_REJECT p true
  else
    let u := s.setFlag F.MER_CFG_EN p true
    if s.fld F.MER_STS_STATE p ≠ 0 then setMer u p { merOf u p with stopping := false }
    else
      let v := u.setFld F.MER_STS_STATE p 1
      setMer (pfFill v p []) p { noMer 0 with next := if s.flag F.MER_CFG_MODE p then none else some (merNextNt s p (nt64 s + s.fld F.MER_PREROLL_NS p)) }

def execCalendarEnable (p : Fin 16) (s : State) : Out := .next (if pktUp s && lanePresent s p then merEnable s p else s)

/-- STATE is OFF and every queue is admitted (R403). -/
def merOff (s : State) (p : Nat) : State := pfSync (setMer ((s.setFld F.MER_STS_STATE p 0).setFld F.MER_STS_SLOT p 0) p (noMer 0)) p

/-- EN cleared (R403): at the end of the running period, or at once in a gap. -/
def merDisable (s : State) (p : Nat) : State :=
  if !s.flag F.MER_CFG_EN p then s
  else
    let u := s.setFlag F.MER_CFG_EN p false
    if s.fld F.MER_STS_STATE p = 2 then setMer u p { merOf u p with stopping := true } else merOff u p

def execCalendarDisable (p : Fin 16) (s : State) : Out := .next (if pktUp s && lanePresent s p then merDisable s p else s)

/-- The running period ends after EN cleared (R403). -/
def execCalendarStop (p : Fin 16) (edges : Nat) (s : State) : Out :=
  let u := advance s edges
  .next (if pktUp u && (merOf u p).stopping && u.fld F.MER_STS_STATE p == 2 && periodOver u p then merOff u p else u)

end Sys2Proof.Machine
end

