-- ==== Sys2Proof/Machine/HostIf.lean ====
section
/-!
DEFINITION. The host interface (R85–R118): doorbells, ring enables, packet fetch and delivery, function reset and link events.
-/

namespace Sys2Proof.Machine

/-! ## Ring kinds -/

/-- The fields of one ring kind: 0 TX, 1 RX, 2 CQ, 3 control, 4 event-log. -/
structure RingFlds where
  cfg : RegName
  en : Fld
  fn : Fld
  local_ : Fld
  size : Fld
  drained : Fld
  reject : Fld
  prod : Fld
  cons : Fld
  count : Nat

def ringFlds (kind : Fin 5) : RingFlds :=
  match kind with
  | 0 => ⟨.HIF_TXR_CFG, F.HIF_TXR_CFG_EN, F.HIF_TXR_CFG_FN, F.HIF_TXR_CFG_LOCAL, F.HIF_TXR_CFG_SIZE_LOG2, F.HIF_TXR_STS_DRAINED,
          F.HIF_TXR_STS_REJECT, F.HIF_TXR_PROD_PROD, F.HIF_TXR_STS_CONS, 4096⟩
  | 1 => ⟨.HIF_RXR_CFG, F.HIF_RXR_CFG_EN, F.HIF_RXR_CFG_FN, F.HIF_RXR_CFG_LOCAL, F.HIF_RXR_CFG_SIZE_LOG2, F.HIF_RXR_STS_DRAINED,
          F.HIF_RXR_STS_REJECT, F.HIF_RXR_PROD_PROD, F.HIF_RXR_STS_CONS, 4096⟩
  | 2 => ⟨.HIF_CQ_CFG, F.HIF_CQ_CFG_EN, F.HIF_CQ_CFG_FN, F.HIF_CQ_CFG_LOCAL, F.HIF_CQ_CFG_SIZE_LOG2, F.HIF_CQ_STS_DRAINED,
          ⟨.HIF_CQ_STS, 17, 17⟩, F.HIF_CQ_STS_PROD, F.HIF_CQ_CONS_CONS, 1024⟩
  | 3 => ⟨.HIF_CTR_CFG, F.HIF_CTR_CFG_EN, F.HIF_CTR_CFG_FN, F.HIF_CTR_CFG_LOCAL, F.HIF_CTR_CFG_SIZE_LOG2, F.HIF_CTR_STS_DRAINED,
          F.HIF_CTR_STS_REJECT, F.HIF_CTR_PROD_PROD, F.HIF_CTR_STS_CONS, 64⟩
  | 4 => ⟨.HIF_EVR_CFG, F.HIF_EVR_CFG_EN, F.HIF_EVR_CFG_FN, F.HIF_EVR_CFG_LOCAL, F.HIF_EVR_CFG_SIZE_LOG2, F.HIF_EVR_STS_DRAINED,
          ⟨.HIF_EVR_STS, 17, 17⟩, F.HIF_EVR_STS_PROD, F.HIF_EVR_CONS_CONS, 16⟩

/-- The ring-kind has a REJECT bit: completion and event-log rings have none. -/
def hasReject (kind : Fin 5) : Bool := kind == 0 || kind == 1 || kind == 3

def rFld (s : State) (k : Fin 5) (f : RingFlds → Fld) (i : Nat) : Nat := s.fld (f (ringFlds k)) i
def ringSz (s : State) (k : Fin 5) (i : Nat) : Nat := ringSize (rFld s k (·.size) i)

/-- The enabled ring of a kind that a function knows by a local number (R94). -/
def ringFor (s : State) (k : Fin 5) (f loc : Nat) : Option Nat :=
  (regsOf s (ringFlds k).cfg).find? (fun i => rFld s k (·.en) i == 1 && rFld s k (·.fn) i == f && rFld s k (·.local_) i == loc)

/-- The state of ring `i` of kind `k` is read; a lost one no longer names an enabled ring (R452). -/
def ringUnit (k : Fin 5) (i : Nat) : Nat := 8192 * k.val + i
def ringProbe (s : State) (k : Fin 5) (i : Nat) : State := arrProbe s 4 (ringUnit k i) (fun u => u.setFlag (ringFlds k).en i false)

/-- A HIF counter set of a function; sets of FN values that name no function of the layout stay zero (R118). A VF that is disabled keeps
its set, which counts what is dropped for it (R24, R113; log entry 51). -/
def hifCount (s : State) (f k by_ : Nat) : State := if fnInLayout s f then count s (512 + 8 * f + k) 1 by_ else s

/-! ## Doorbells (R93, R94, R105) -/

/-- A doorbell reaches the function's page. -/
def pageUp (s : State) (f : Nat) : Bool := pktUp s && fnExists s f && linkUp s (fnLink f)

/-- A doorbell for ring kind `k`: discarded, or given to `act` with the ring. -/
def doorbell (k : Fin 5) (f : BitVec 9) (ring : BitVec 13) (formed : Bool) (s : State) (act : Nat → Out) : Out :=
  if !pageUp s f.toNat then .next s
  else if !formed || (fnOf s f.toNat).flr then .next (count s (512 + 8 * f.toNat + 6) 1 0)
  else
    match ringFor s k f.toNat ring.toNat with
    | none => .next (count s (512 + 8 * f.toNat + 6) 1 0)
    | some i => act i

/-- A producer index that moves forward and stays within size of its consumer (R116). -/
def prodOk (size cons old new : Nat) : Bool :=
  decide (new < 2 * size) && decide (ringUsed size new cons ≤ size) && decide (ringUsed size old cons ≤ ringUsed size new cons)

/-- A consumer index that moves forward and not past its producer (R116). -/
def consOk (size prod old new : Nat) : Bool := decide (new < 2 * size) && decide (ringUsed size prod new ≤ ringUsed size prod old)

/-- A producer doorbell takes effect. -/
def prodDoorbell (k : Fin 5) (index : BitVec 17) (s : State) (i : Nat) : Out :=
  let u := ringProbe s k i
  if rFld u k (·.en) i = 0 then .next u
  else if prodOk (ringSz u k i) (rFld u k (·.cons) i) (rFld u k (·.prod) i) index.toNat then
    .next (arrWrite (u.setFld (ringFlds k).prod i index.toNat) 4 (ringUnit k i))
  else .fault .ringMisuse

def execDoorbellTx (f : BitVec 9) (ring : BitVec 13) (index : BitVec 17) (formed : Bool) (s : State) : Out :=
  doorbell 0 f ring formed s (prodDoorbell 0 index s)
def execDoorbellRx (f : BitVec 9) (ring : BitVec 13) (index : BitVec 17) (formed : Bool) (s : State) : Out :=
  doorbell 1 f ring formed s (prodDoorbell 1 index s)
def execDoorbellControl (f : BitVec 9) (ring : BitVec 13) (index : BitVec 17) (formed : Bool) (s : State) : Out :=
  doorbell 3 f ring formed s (prodDoorbell 3 index s)

/-- A completion ring's consumer moves: STALL falls with an advance (R106), and with `arm` the ring is armed and its unread entries count
at once (R105, R117). -/
def cqConsume (s : State) (c index : Nat) (arm : Bool) : State :=
  let u := cqStall (s.setFld F.HIF_CQ_CONS_CONS c index) c
  let q := mget noList u.hif.unread c
  let v := { u with hif := { u.hif with unread := mset noList u.hif.unread c (q.drop (q.length - cqUnread u c)) } }
  let w := if arm then { v with hif := { v.hif with armAt := mset noNat v.hif.armAt c v.tim.elapsed } }.setFlag F.HIF_CQ_STS_ARMED c true else v
  cqModerate w c

/-- A consumer doorbell of a completion ring takes effect. -/
def cqDoorbell (index : BitVec 17) (arm : Bool) (s0 : State) (c : Nat) : Out :=
  let s := ringProbe s0 2 c
  if rFld s 2 (·.en) c = 0 then .next s
  else if consOk (cqSize s c) (s.fld F.HIF_CQ_STS_PROD c) (s.fld F.HIF_CQ_CONS_CONS c) index.toNat then .next (arrWrite (cqConsume s c index.toNat arm) 4 (ringUnit 2 c))
  else .fault .ringMisuse

/-- A consumer doorbell of an event-log ring takes effect. -/
def evDoorbell (index : BitVec 17) (arm : Bool) (s0 : State) (e : Nat) : Out :=
  let s := ringProbe s0 4 e
  if rFld s 4 (·.en) e = 0 then .next s
  else if consOk (evSize s e) (s.fld F.HIF_EVR_STS_PROD e) (s.fld F.HIF_EVR_CONS_CONS e) index.toNat then
    let u := s.setFld F.HIF_EVR_CONS_CONS e index.toNat
    .next (evModerate (arrWrite (if arm then u.setFlag F.HIF_EVR_STS_ARMED e true else u) 4 (ringUnit 4 e)) e)
  else .fault .ringMisuse

def execDoorbellCq (f : BitVec 9) (ring : BitVec 13) (index : BitVec 17) (arm formed : Bool) (s : State) : Out :=
  doorbell 2 f ring formed s (cqDoorbell index arm s)

def execDoorbellEventLog (f : BitVec 9) (ring : BitVec 13) (index : BitVec 17) (arm formed : Bool) (s : State) : Out :=
  doorbell 4 f ring formed s (evDoorbell index arm s)

/-- A write to a doorbell page as the 64 bits written (R93, R94): KIND [63:61], RING [44:32], ARM [31], INDEX [16:0]. `formed` says that it is
8 bytes at an 8-byte-aligned slot. A bit that the format marks 0 is an unchecked error (R116). -/
def doorbellWrite (f : BitVec 9) (w : W64) (formed : Bool) (s : State) : Out :=
  let kind := bits w.toNat 63 61
  let index := BitVec.ofNat 17 w.toNat
  let arm := bitOf w.toNat 31
  let act := fun (g : State → Nat → Out) (i : Nat) => if bits w.toNat 60 45 = 0 && bits w.toNat 30 17 = 0 then g s i else .fault .ringMisuse
  let ring := fun (k : Fin 5) (g : State → Nat → Out) => doorbell k f (BitVec.ofNat 13 (bits w.toNat 44 32)) formed s (act g)
  match kind with
  | 0 => ring 0 (prodDoorbell 0 index)
  | 1 => ring 1 (prodDoorbell 1 index)
  | 2 => ring 2 (cqDoorbell index arm)
  | 3 => ring 3 (prodDoorbell 3 index)
  | 4 => ring 4 (evDoorbell index arm)
  | _ => doorbell 0 f 0 false s (fun _ => .next s)

/-! ## Ring enables (R91, R92, R117) -/

def pf0Ready (s : State) (h : Nat) : Bool := if h = 0 then s.flag F.HIF_FN_STS_HL0_PF0_READY 0 else s.flag F.HIF_FN_STS_HL1_PF0_READY 0

/-- The completion ring that a TX or RX ring names. -/
def ringCq (s : State) (k : Fin 5) (i : Nat) : Option Nat :=
  match k with
  | 0 => some (s.fld F.HIF_TXR_CFG2_CQ i)
  | 1 => some (s.fld F.HIF_RXR_CFG2_CQ i)
  | _ => none

/-- The cases in which an EN write is refused (R92). -/
def ringRefused (s : State) (k : Fin 5) (i : Nat) : Bool :=
  let f := rFld s k (·.fn) i
  !fnExists s f || (fnOf s f).flr || (f % 256 ≠ 1 && !pf0Ready s (fnLink f)) ||
  (match ringCq s k i with
   | some c => !s.flag F.HIF_CQ_CFG_EN c || s.fld F.HIF_CQ_CFG_FN c != f
   | none => false) ||
  (k == 0 && decide (s.fld F.HIF_TXR_CFG2_REQ i < 128))

/-- What HIF keeps of a ring beside its registers, as a rise of EN or a function reset leaves it. -/
def ringForget (s : State) (k : Fin 5) (i : Nat) : State :=
  let h := s.hif
  match k with
  | 2 => { s with hif := { h with unread := mset noList h.unread i [] } }.setFlag F.HIF_CQ_STS_STALL i false
  | 3 => { s with hif := { h with ctlNext := mset noNat h.ctlNext i 0, ctlDone := mkeep (fun x => x / 2 ^ 17 != i) h.ctlDone } }
  | _ => s

/-- EN set (R91, R92). -/
def ringEnable (s : State) (k : Fin 5) (i : Nat) : State :=
  let r := ringFlds k
  if s.flag r.en i then s
  else if ringRefused s k i then (if hasReject k then s.setFlag r.reject i true else s)
  else ringForget ((((s.setFlag r.en i true).setFld r.prod i 0).setFld r.cons i 0).setFlag r.drained i false) k i

/-- Nothing of the ring is in flight (R24, R117). -/
def ringIdle (s : State) (k : Fin 5) (i : Nat) : Bool :=
  match k with
  | 0 => !(s.hif.txDone.any (·.ring == i))
  | 1 => match txOf s 16 with | some x => s.fld F.EGR_Q_DEST_DEST x.queue != i | none => true
  | 3 => !(s.hif.ctl.any (fun c => c.ring == i && !c.dead))
  | _ => true

/-- A stopped ring whose work has ended is drained. -/
def ringDrain (s : State) (k : Fin 5) (i : Nat) : State :=
  let r := ringFlds k
  if !s.flag r.en i && ringIdle s k i then s.setFlag r.drained i true else s

/-- EN cleared (R24, R117). -/
def ringDisable (s : State) (k : Fin 5) (i : Nat) : State :=
  if s.flag (ringFlds k).en i then ringDrain (s.setFlag (ringFlds k).en i false) k i else s

def execRingEnable (k : Fin 5) (i : BitVec 12) (s : State) : Out :=
  .next (if pktUp s && decide (i.toNat < (ringFlds k).count) then ringEnable s k i.toNat else s)
def execRingDisable (k : Fin 5) (i : BitVec 12) (s : State) : Out :=
  .next (if pktUp s && decide (i.toNat < (ringFlds k).count) then ringDisable s k i.toNat else s)

/-! ## Transmit (R95–R100) -/

/-- The index of the next descriptor to fetch: CONS past the packets fetched and not completed. -/
def txPtr (s : State) (i : Nat) : Nat :=
  (s.fld F.HIF_TXR_STS_CONS i + ((s.hif.txDone.filter (·.ring == i)).map (·.ndesc)).sum) % (2 * ringSz s 0 i)

def txWaiting (s : State) (i : Nat) : Nat := ringUsed (ringSz s 0 i) (s.fld F.HIF_TXR_PROD_PROD i) (txPtr s i)

/-- A TX ring from which HIF may fetch (R99, R106, R115). -/
def txReady (s : State) (i : Nat) : Bool :=
  s.flag F.HIF_TXR_CFG_EN i && decide (0 < txWaiting s i) && fnCanDma s (s.fld F.HIF_TXR_CFG_FN i) &&
  cqReady s (s.fld F.HIF_TXR_CFG2_CQ i) && !s.flag F.CRN_REQ_STS_XOFF_ACT (s.fld F.HIF_TXR_CFG2_REQ i) &&
  !bpcSrc s (s.fld F.HIF_TXR_CFG2_SRC i)

def txDeficit (s : State) (i : Nat) : Nat := mget noNat s.hif.txDef i
def setTxDeficit (s : State) (i v : Nat) : State := { s with hif := { s.hif with txDef := mset noNat s.hif.txDef i v } }

/-- The rings of the highest priority at which one is ready, with that priority. -/
def txCands (s : State) : Nat × List Nat :=
  let ready := (regsOf s .HIF_TXR_CFG).filter (txReady s)
  match [7, 6, 5, 4, 3, 2, 1, 0].find? (fun p => ready.any (fun i => s.fld F.HIF_TXR_CFG_PRI i == p)) with
  | none => (0, [])
  | some p => (p, ready.filter (fun i => s.fld F.HIF_TXR_CFG_PRI i == p))

/-- HIF's choice of TX ring (R97): strict priority, then deficit round robin, in which a ring is served while its deficit covers the packet
at its head. `len` gives the bytes of each candidate's head packet. -/
def txChoose (s : State) (len : Nat → Nat) : Option (Nat × State) :=
  let (p, cands) := txCands s
  (dwrrPick (mget noNat s.hif.txTurn p) cands (txDeficit s) (fun i => 1024 * max 1 (s.fld F.HIF_TXR_CFG2_QUANTUM i)) len).map (fun x =>
    (x.1, foldS x.2 (fun u d => setTxDeficit u d.1 d.2) { s with hif := { s.hif with txTurn := mset noNat s.hif.txTurn p x.1 } }))

/-- The descriptors of the next packet: up to the first EOP, or 16 (R95). -/
def txPacketDescs : Nat → List TxDesc → Option (List TxDesc)
  | 0, _ => some []
  | _, [] => none
  | n + 1, d :: r => if d.eop then some [d] else (txPacketDescs n r).map (d :: ·)

/-- A buffer's bytes: LEN of them. -/
def txBytes (d : TxDesc) : List Byte := (d.data ++ List.replicate d.len.toNat 0).take d.len.toNat

/-- Bytes of a packet, and whether its descriptors keep the limits of R95. -/
def txLen (ds : List TxDesc) : Nat := (ds.map (fun d => d.len.toNat)).sum
def txGood (ds : List TxDesc) : Bool :=
  (match ds.getLast? with | some d => d.eop | none => false) && decide (14 ≤ txLen ds) && decide (txLen ds ≤ 10236)

/-- A packet of ring `i` fetched: stored and handed to the parser, or dropped as BADLEN or NOBUF (R95–R98). -/
def txTake (s : State) (i : Nat) (ds : List TxDesc) : State :=
  let f := s.fld F.HIF_TXR_CFG_FN i
  let bs := ds.flatMap txBytes
  let n := txLen ds
  let first := ds.headD ⟨0, false, false, false, 0, 0, 0, []⟩
  let fin := fun (u : State) (st : Nat) => setTxDeficit { u with hif := { u.hif with
    txDone := u.hif.txDone ++ [⟨i, ds.length, (match ds.getLast? with | some d => d.cqe | none => false), st, n⟩] } } i (txDeficit u i - n)
  if !txGood ds then fin (hifCount s f 2 n) stBadLen
  else
    match storePacket s (s.fld F.HIF_TXR_CFG2_REQ i) bs n false with
    | (none, u) => fin (hifCount u f 1 n) stNoBuf
    | (some h, u) =>
      fin (toParser (hifCount u f 0 n)
        { kind := 1, start := 16, head := h, src := BitVec.ofNat 8 (u.fld F.HIF_TXR_CFG2_SRC i), pri := u.fld F.HIF_TXR_CFG_PRI i,
          word3 := first.meta_, tsCap := first.tsCap, cookie := first.cookie, offload := first.offload }) stOk

/-- The bytes of the packet at the head of ring `j`, as HIF has read its descriptors. -/
def headBytes (heads : List (BitVec 12 × Nat)) (j : Nat) : Option Nat := (heads.find? (fun h => h.1.toNat == j)).map (·.2)

/-- HIF fetches the next packet of ring `i`, where that ring is its choice; `descs` are the descriptors from its fetch pointer, and `heads`
gives the bytes of the head packet of each other ring that competes with it. A descriptor of LEN 0 in a packet that R95 does not refuse
is outside its range and unchecked (R116). -/
def execTxPacketFetch (i : BitVec 12) (x : TxRead) (s : State) : Out :=
  let j := i.toNat
  match txPacketDescs 16 (x.descs.take (txWaiting s j)) with
  | none => .next s
  | some ds =>
    if !pktUp s || !((txCands s).2.all (fun k => k == j || (headBytes x.heads k).isSome)) then .next s
    else
      match txChoose s (fun k => if k = j then txLen ds else (headBytes x.heads k).getD 0) with
      | none => .next s
      | some (k, u) =>
      if k != j then .next s
      else if txGood ds && ds.any (fun d => d.len == 0) then .fault .ringMisuse
      else
        let w := ringProbe u 0 j
        let v := if rFld w 0 (·.en) j = 0 then w else linePauses (txTake w j ds)
        .next (if txWaiting v j = 0 then setTxDeficit v j 0 else v)

/-- The oldest fetched packet of ring `i` completes (R100); with its completion ring full it waits (R106). -/
def txComplete (s : State) (i : Nat) : State :=
  match s.hif.txDone.find? (·.ring == i) with
  | none => s
  | some d =>
    let c := s.fld F.HIF_TXR_CFG2_CQ i
    let wants := d.cqe || d.status != stOk
    if wants && !cqReady s c then s
    else
      let cons := (s.fld F.HIF_TXR_STS_CONS i + d.ndesc) % (2 * ringSz s 0 i)
      let s1 := { s with hif := { s.hif with txDone := s.hif.txDone.erase d } }.setFld F.HIF_TXR_STS_CONS i cons
      let s2 := if wants then cqPush s1 c [cons, s1.fld F.HIF_TXR_CFG_LOCAL i, d.status, 0, 0, 0, 0, 0] else s1
      ringDrain s2 0 i

def execTxPacketComplete (i : BitVec 12) (s : State) : Out := .next (if pktUp s then txComplete s i.toNat else s)

/-! ## Ring errors (R110) -/

/-- The ring stops on a failed read: ERR, a ring-error entry, a RING_STOP record and DMAERR. -/
def ringStop (s : State) (k : Fin 5) (i : Nat) : State :=
  let r := ringFlds k
  let f := rFld s k (·.fn) i
  let err := match k with | 0 => F.HIF_TXR_STS_ERR | 1 => F.HIF_RXR_STS_ERR | _ => F.HIF_CTR_STS_ERR
  let s1 := (s.setFlag r.en i false).setFlag err i true
  let nt := nt64 s1
  let s2 := match ringCq s1 k i with
    | some c => cqPush s1 c [0, rFld s1 k (·.local_) i + k.val * 2 ^ 13, stDmaErr, 0, 0, nt % 2 ^ 32, nt / 2 ^ 32, 2 * 2 ^ 28]
    | none => s1
  let s3 := eventRecord s2 1 1 (k.val * 2 ^ 13 + i) f 0
  hifCount (raiseSrc s3 167 (k.val * 2 ^ 13 + i)) f 7 0

/-- A packet released to the host port leaves HIF: its reference goes, and its place, in the port or at the head of its queue. -/
def rxGone (s : State) (x : EPkt) (held : Bool) : State :=
  if held then
    let u := setEgrQ s x.queue (egrQ s x.queue).tail
    unref { u with egr := { u.egr with held := mset noBool u.egr.held x.queue false, heldQ := u.egr.heldQ.erase x.queue } } x.head
  else unref (setTx s 16 none) x.head

/-- The packet of egress queue `e` that is at hand: in HIF, or held at the head of its queue (R102). -/
def rxAtHand (s : State) (e : Nat) : Option (EPkt × Bool) :=
  match txOf s 16 with
  | some x => if x.queue = e then some (x, false) else if mget noBool s.egr.held e then (egrQ s e).head?.map (·, true) else none
  | none => if mget noBool s.egr.held e then (egrQ s e).head?.map (·, true) else none

/-- A packet's bytes scattered over its buffers. -/
def rxScatter (s : State) (f : Nat) : List RxDesc → List Byte → State
  | [], _ => s
  | d :: r, bs => rxScatter (hostData s f d.addr.toNat (bs.take d.len.toNat)) f r (bs.drop d.len.toNat)

/-- What a packet has written into the buffers read before a descriptor read failed stays there; no completion follows (R110). -/
def rxPartial (s : State) (r : Nat) (x : EPkt) (filled : List RxDesc) : State :=
  match chainAt s x.head with
  | some ch => rxScatter s (s.fld F.HIF_RXR_CFG_FN r) filled (chainBytes s ch 0 ch.len)
  | none => s

/-- A read for ring `i` fails: for TX and control the ring number, for RX the packet at hand of queue `e` goes with it, after it has
filled the buffers whose descriptors were read before. -/
def execDmaReadError (k : Fin 3) (i : BitVec 12) (a : RxCut) (s : State) : Out :=
  if !pktUp s then .next s
  else
    match k with
    | 1 =>
      match rxAtHand s a.queue.toNat with
      | some (x, held) =>
        let r := s.fld F.EGR_Q_DEST_DEST a.queue.toNat
        .next (if s.flag F.HIF_RXR_CFG_EN r && fnCanDma s (s.fld F.HIF_RXR_CFG_FN r) then
          linePauses (ringDrain (rxGone (ringStop (rxPartial s r x a.filled) 1 r) x held) 1 r) else s)
      | none => .next s
    | 0 => .next (if txReady s i.toNat then ringDrain (ringStop s 0 i.toNat) 0 i.toNat else s)
    | 2 =>
      .next (if s.flag F.HIF_CTR_CFG_EN i.toNat && ctrNext s i.toNat != s.fld F.HIF_CTR_PROD_PROD i.toNat &&
          fnCanDma s (s.fld F.HIF_CTR_CFG_FN i.toNat) then ringDrain (ringStop s 3 i.toNat) 3 i.toNat else s)

/-! ## Receive (R101–R103) -/

/-- Buffers, in order, that hold `n` bytes; none where they do not suffice. -/
def rxBuffers : List RxDesc → Nat → Option (List RxDesc)
  | _, 0 => some []
  | [], _ + 1 => none
  | d :: r, n + 1 => (rxBuffers r (n + 1 - d.len.toNat)).map (d :: ·)

/-- A packet that egress released earlier to the same ring is held: completions keep the order of release (R103), so this one waits
behind it. -/
def rxBehind (s : State) (x : EPkt) (held : Bool) : Bool :=
  let r := fun (e : Nat) => s.fld F.EGR_Q_DEST_DEST e
  (if held then s.egr.heldQ.takeWhile (· ≠ x.queue) else s.egr.heldQ).any (fun e => e ≠ x.queue && r e == r x.queue)

/-- HIF keeps the packet until it can deliver it: it waits at the head of its queue (R102). -/
def rxHold (s : State) (x : EPkt) (held : Bool) : State :=
  if held then s
  else
    let u := setEgrQ (setTx s 16 none) x.queue (x :: egrQ s x.queue)
    { u with egr := { u.egr with held := mset noBool u.egr.held x.queue true, heldQ := u.egr.heldQ ++ [x.queue] } }

/-- A packet is written to its buffers and completed (R101, R103). -/
def rxWrite (s : State) (r : Nat) (x : EPkt) (ch : Chain) (held : Bool) (use : List RxDesc) : State :=
  let f := s.fld F.HIF_RXR_CFG_FN r
  let cons := s.fld F.HIF_RXR_STS_CONS r
  let s1 := rxScatter s f use (chainBytes s ch 0 ch.len)
  let s2 := s1.setFld F.HIF_RXR_STS_CONS r ((cons + use.length) % (2 * ringSz s 1 r))
  let ts := match itRxTs x.item with | some t => rebuildNt s2 t | none => 0
  let ws := [cons + use.length * 2 ^ 17, s2.fld F.HIF_RXR_CFG_LOCAL r + ch.len * 2 ^ 16, stOk + itOffloadRes x.item * 2 ^ 16,
             itMeta x.item, itemWord x.item 2, ts % 2 ^ 32, ts / 2 ^ 32, 2 ^ 28]
  rxGone (hifCount (cqPush s2 (s2.fld F.HIF_RXR_CFG2_CQ r) ws) f 3 ch.len) x held

/-- The packet at hand, by what HIF finds (R101, R102, R106, R113, R115, R117, R447, R456). `descs` are the posted descriptors from CONS. -/
def rxDeliver (s : State) (x : EPkt) (held : Bool) (descs : List RxDesc) : State :=
  let r := s.fld F.EGR_Q_DEST_DEST x.queue
  let f := s.fld F.HIF_RXR_CFG_FN r
  let c := s.fld F.HIF_RXR_CFG2_CQ r
  let drop := fun (u : State) (k : Nat) => hifCount (rxGone u x held) f k x.len
  match chainAt s x.head with
  | none => rxGone s x held
  | some ch =>
    if !s.flag F.HIF_RXR_CFG_EN r || !fnExists s f || !linkUp s (fnLink f) || (fnOf s f).flr then drop s 5
    else
      if rxBehind s x held then rxHold s x held else
      let posted := if fnCanDma s f then descs.take (ringUsed (ringSz s 1 r) (s.fld F.HIF_RXR_PROD_PROD r) (s.fld F.HIF_RXR_STS_CONS r)) else []
      if fnCanDma s f && !cqReady s c then
        rxHold s x held
      else
        match rxBuffers (posted.take 16) ch.len with
        | none =>
          if 16 ≤ posted.length then drop s 4
          else if s.fld F.HIF_RXR_CFG_FULL_POLICY r = 1 then rxHold s x held else drop s 4
        | some use =>
          let (s1, bad) := probeChain s ch 4 0 (if ch.carry then ch.len + 4 else ch.len)
          let wrong := ch.carry && chainBytes s1 ch ch.len 4 != leBytes 4 (ethFcs (chainBytes s1 ch 0 ch.len))
          if !bad.isEmpty || wrong then rxGone (errRecord s1 1 2 2 r (handleOf x.head)) x held
          else rxWrite s1 r x ch held use

def execRxPacketDeliver (e : BitVec 14) (descs : List RxDesc) (s : State) : Out :=
  if !pktUp s then .next s
  else
    match rxAtHand s e.toNat with
    | none => .next s
    | some (x, held) =>
      if descs.any (fun d => decide (d.len.toNat < 64) || decide (16384 < d.len.toNat)) then .fault .ringMisuse
      else
        let r := s.fld F.EGR_Q_DEST_DEST e.toNat
        .next (linePauses (ringDrain (rxDeliver (ringProbe s 1 r) x held descs) 1 r))

/-! ## Moderation and held messages (R90, R105) -/

def execCqModerationTimeout (c : BitVec 10) (edges : Nat) (s : State) : Out :=
  let u := advance s edges
  .next (if pktUp u then cqModerate u c.toNat else u)

/-- A vector's held message is sent once the function can send it. -/
def execMsixPendingSend (f : BitVec 9) (v : BitVec 11) (s : State) : Out :=
  let x := fnOf s f.toNat
  .next (if mget noBool x.pba v.toNat && fnCanMsg s f.toNat v.toNat then
    sendMsg (setFn s f.toNat { x with pba := mset noBool x.pba v.toNat false }) f.toNat v.toNat else s)

/-- PF0 ready of link `h` (R112): written through the MGT register port; PF1's writes are ignored. -/
def execPf0ReadyWrite (h : Fin 2) (v fromMgt : Bool) (s : State) : Out :=
  .next (if pktUp s && fromMgt then
    s.setFlag (if h = 0 then F.HIF_FN_STS_HL0_PF0_READY else F.HIF_FN_STS_HL1_PF0_READY) 0 v else s)

/-! ## Functions (R113–R115, R554) -/

/-- Ring `i` of a function that is reset stops: EN, PROD and CONS clear (R113). -/
def ringFlr (s : State) (k : Fin 5) (i : Nat) : State :=
  let r := ringFlds k
  ringForget ((((s.setFlag r.en i false).setFld r.prod i 0).setFld r.cons i 0).setFlag r.drained i true) k i

def isEnded : CtlWork → Bool
  | .ended .. => true
  | _ => false

/-- FLR of one function (R113): rings stop, TX packets in Cairn go on, started commands complete without their completion, and the
function's configuration and message state clear (R90, R374). -/
def flrOne (s : State) (f : Nat) (busy : Bool) : State :=
  let mine := fun (u : State) (k : Fin 5) => (regsOf u (ringFlds k).cfg).filter (fun i => rFld u k (·.en) i == 1 && rFld u k (·.fn) i == f)
  let gone := mine s 0
  let s1 := { s with hif := { s.hif with
    txDone := s.hif.txDone.filter (fun d => !gone.contains d.ring && s.fld F.HIF_TXR_CFG_FN d.ring != f)
    ctl := (s.hif.ctl.filter (fun c => !(c.fn = f && isEnded c.work))).map (fun c => if c.fn = f then { c with dead := true } else c) } }
  let s2 := [0, 1, 2, 3, 4].foldl (fun u k => foldS (mine u k) (fun v i => ringFlr v k i) u) s1
  let s3 := foldS [0, 1, 2, 3, 4] (fun u (k : Fin 5) => foldS ((regsOf u (ringFlds k).cfg).filter (fun i => rFld u k (·.fn) i == f)) (fun v i => ringDrain v k i) u) s2
  fltReset (setFn s3 f { noFn f with flr := busy, aer := (fnOf s f).aer }) (ownerOfFn f)

/-- VFs of link `h` that exist. -/
def vfsOf (s : State) (h : Nat) : List Nat := ((List.range 256).map (256 * h + ·)).filter (fun f => decide (2 ≤ f % 256) && fnExists s f)

/-- VF Enable cleared (R113, R554). -/
def vfDisable (s : State) (h : Nat) : State :=
  let u := foldS (vfsOf s h) (fun u f => flrOne u f false) s
  { u with hif := { u.hif with vfEn := mset noBool u.hif.vfEn h false } }

/-- FLR of a function; PF0's also disables its VFs. -/
def flr (s : State) (f : Nat) (busy : Bool) : State :=
  if f % 256 = 0 then
    let u := vfDisable s (fnLink f)
    flrOne { u with hif := { u.hif with numVfs := mset noNat u.hif.numVfs (fnLink f) 0 } } f busy
  else flrOne s f busy

def execFunctionLevelReset (f : BitVec 9) (s : State) : Out :=
  .next (if fnUp s f.toNat then settle (icuSync (flr s f.toNat true)) else s)

def execFlrComplete (f : BitVec 9) (s : State) : Out :=
  .next (if (fnOf s f.toNat).flr then icuSync (setFn s f.toNat { fnOf s f.toNat with flr := false }) else s)

def execVfDisable (h : Fin 2) (s : State) : Out :=
  .next (if fnUp s (256 * h.val) && mget noBool s.hif.vfEn h.val then settle (icuSync (vfDisable s h.val)) else s)

/-- TotalVFs of PF0 (R88). -/
def totalVfs (s : State) : Nat := if s.hif.bifur then 126 else 254

/-- VF Enable set, with NumVFs up to TotalVFs (R88, R554). -/
def execVfEnable (h : Fin 2) (n : Byte) (s : State) : Out :=
  .next (if fnUp s (256 * h.val) && !mget noBool s.hif.vfEn h.val && decide (n.toNat ≤ totalVfs s) then
    icuSync { s with hif := { s.hif with vfEn := mset noBool s.hif.vfEn h.val true, numVfs := mset noNat s.hif.numVfs h.val n.toNat } } else s)

def execBusMasterEnableChange (f : BitVec 9) (v : Bool) (s : State) : Out :=
  .next (if fnUp s f.toNat && !(fnOf s f.toNat).flr then ctlResume (icuSync (setFn s f.toNat { fnOf s f.toNat with bme := v })) else s)

def execD3hotChange (f : BitVec 9) (v : Bool) (s : State) : Out :=
  .next (if fnUp s f.toNat && !(fnOf s f.toNat).flr then ctlResume (icuSync (setFn s f.toNat { fnOf s f.toNat with d3 := v })) else s)

def execMsixEnableChange (f : BitVec 9) (en mask : Bool) (s : State) : Out :=
  .next (if fnUp s f.toNat && !(fnOf s f.toNat).flr then
    icuSync (setFn s f.toNat { fnOf s f.toNat with msixEn := en, fmask := mask }) else s)

/-- Link `h` comes up at a rate and width that its layout and MAX_SPEED allow (R85, R86). -/
def execPcieLinkUp (h : Fin 2) (speed : BitVec 3) (width : BitVec 5) (flit : Bool) (s : State) : Out :=
  let cap := s.fld F.HIF_LINK_CFG_MAX_SPEED 0
  let top := if cap = 0 || cap = 7 then 6 else cap
  let w := width.toNat
  let fits := [1, 2, 4, 8, 16].contains w && decide (w ≤ (if s.hif.bifur then 8 else 16)) && decide (1 ≤ speed.toNat) && decide (speed.toNat ≤ top) &&
    (flit || speed.toNat != 6)
  .next (if s.rst.aon && hostUp s h.val && (h == 0 || s.hif.bifur) && fits && !linkUp s h.val then
    ctlResume (icuSync ((((s.setFlag F.HIF_LINK_STS_DL_UP h.val true).setFlag F.HIF_LINK_STS_FLIT h.val flit).setFld F.HIF_LINK_STS_WIDTH h.val w).setFld
      F.HIF_LINK_STS_SPEED h.val speed.toNat)) else s)

/-- The link's status while it is down. -/
def linkDown (s : State) (h : Nat) : State :=
  ((((s.setFlag F.HIF_LINK_STS_DL_UP h false).setFlag F.HIF_LINK_STS_FLIT h false).setFld F.HIF_LINK_STS_WIDTH h 0).setFld F.HIF_LINK_STS_SPEED h 0)

def execPcieLinkDown (h : Fin 2) (s : State) : Out := .next (if linkUp s h.val then icuSync (linkDown s h.val) else s)

end Sys2Proof.Machine
end

