-- ==== Sys2Proof/Machine/ResetOps.lean ====
section
/-!
DEFINITION. Resets: a thread's (R281, R282), each domain's (R360, R379, R421, R465, R467, R473), the sources that hold domains in
reset (R466–R468), the release sequence (R469–R472, R489, R498) and the watchdog's count (R476).
-/

namespace Sys2Proof.Machine

/-! ## Thread reset (R282) -/

/-- The error marks of memory `m` from unit `lo` up to `hi` removed. -/
def clearBad (s : State) (m lo hi : Nat) : State :=
  { s with integ := { s.integ with bad := mkeep (fun k => !(decide (badKey m lo ≤ k) && decide (k < badKey m hi))) s.integ.bad } }

/-- A thread reset. Operations that Cairn or the DMA engine has accepted complete; the record of the last fault is kept. -/
def thrReset (s : State) (t : Nat) : State :=
  let s1 := if isMgt t then s else oryThreadReset s t
  let s2 := fltReset s1 (ownerOfThr t)
  let s3 := if isMgt t then s2 else cpxThreadReset s2 (cluOf t) (t % 256)
  let s4 := dropLookups s3 t
  let x := thrOf s4 t
  clearBad (setThr s4 t { noThread 0 with cause := x.cause, detail := x.detail, acc := x.acc.map (fun a => { a with live := false }) }) 4
    (32 * t) (32 * t + 32)

/-! ## Domains -/

/-- Domains are numbered as their bits of RST_DOM_STS, and CL[n] as 32 + n. -/
def dMgt : Nat := 1
def dHost (h : Nat) : Nat := 2 + h
def dMem : Nat := 4
def dPkt : Nat := 5
def dLine : Nat := 6
def dCl (n : Nat) : Nat := 32 + n

def inRst (s : State) (d : Nat) : Bool := if d < 32 then bitOf (s.reg .RST_DOM_STS 0) d else bitOf (s.reg .RST_DOM_STS_CL 0) (d - 32)
def setRst (s : State) (d : Nat) (b : Bool) : State :=
  if d < 32 then s.setReg .RST_DOM_STS 0 (putBit (s.reg .RST_DOM_STS 0) d b)
  else s.setReg .RST_DOM_STS_CL 0 (putBit (s.reg .RST_DOM_STS_CL 0) (d - 32) b)

/-- The cluster of an instance of a cluster register. -/
def cluOfReg (r : RegName) (i : Nat) : Nat := i / (((regDesc r).dims.drop 1).foldl (fun n d => n * d.1) 1)

/-- Every register whose kind and index pass `p` back at its reset value. -/
def regsReset (s : State) (p : RegName → Nat → Bool) : State :=
  { s with regs := mkeep (fun k => match regOfKey k with
      | some r => !p r (k % 2 ^ 24)
      | none => true) s.regs }

def domRegs (s : State) (d : RegDom) : State := regsReset s (fun r _ => (regDesc r).dom == d)
def cluRegs (s : State) (n : Nat) : State := regsReset s (fun r i => (regDesc r).dom == .cl && cluOfReg r i == n)

/-! ## CL[n] (R287, R360, R465, R473) -/

/-- A refused send of thread `t` counted CHOFF at its cluster; MGT has no such set (R286, R296). -/
def noteChoff (s : State) (t : Nat) : State := if isMgt t then s else count s (393216 + 4096 * cluOf t + 4095) 1 0

/-- A thread blocked in a send to a channel that no longer takes messages completes CHOFF, counted at its own cluster (R286, R287). -/
def sendersOff (s : State) (p : Nat → Bool) : State :=
  foldS (s.gar.thr.map (·.1)) (fun u t =>
    let x := thrOf u t
    match x.wait with
    | .send rd ch _ => if p ch && x.st == .stall then noteChoff (endWaitNext u t (setStatus x rd tsChoff 0)) t else u
    | _ => u) s

/-- Messages in transit to a reset cluster are discarded, counted CHOFF at their senders (R287). -/
def transitOff (s : State) (n : Nat) : State :=
  let lost := s.gar.transit.filter (fun m => m.1 / 64 == n)
  foldS lost (fun u m => noteChoff u m.2.from_)
    { s with gar := { s.gar with transit := s.gar.transit.filter (fun m => m.1 / 64 != n) } }

/-- Both coprocessors of a cluster (R360): every entry is discarded, and ABANDONED sets, counted, on each lane that was held. -/
def cpxReset (s0 : State) (n : Nat) : State :=
  let heldKeys := (s0.cpx.lane.filter (fun e => e.1 / 32 == n && e.2.holder.isSome)).map (·.1)
  let s := foldS heldKeys (fun u k => cpxCount u n (k / 16 % 2) 4 0) s0
  let s1 := { s with cpx := {
    due := mkeep (· ≠ n) s.cpx.due,
    lane := heldKeys.foldl (fun m k => mset noLane m k { noLane 0 with abandoned := true }) (mkeep (fun k => k / 32 != n) s.cpx.lane),
    queue := mkeep (fun k => k / 2 != n) s.cpx.queue,
    slot := mkeep (fun k => k / 512 != n) s.cpx.slot,
    kbuf := mkeep (fun k => k / 4096 != n) s.cpx.kbuf } }
  clearBad s1 9 (512 * n) (512 * n + 512)

/-- Cairn's sweep of what the cluster owns at its reset begins (R133). -/
def sweepStart (s : State) (n : Nat) : State :=
  if (ownedBy s n).isEmpty then s else
  let u := foldS (ownedBy s n) (fun u h =>
    match chainAt u h with
    | some ch => setChain u h (some { ch with owner := some (32 + n) })
    | none => u) s
  { u with crn := { u.crn with sweep := mset noBool u.crn.sweep n true } }.setFlag F.CRN_CLU_STS_RECLAIM_BUSY n true

def resetCl (s : State) (n : Nat) : State :=
  let mine := (s.gar.thr.map (·.1)).filter (fun t => !isMgt t && cluOf t == n)
  let s1 := foldS mine (fun u t => setThr (thrReset u t) t (noThread 0)) (cpxReset s n)
  let s3 := transitOff (sendersOff s1 (fun c => c / 64 == n)) n
  let s4 := { s3 with gar := { s3.gar with
    chan := mkeep (fun c => c / 64 != n) s3.gar.chan,
    faultq := mkeep (· ≠ n) s3.gar.faultq,
    wg := mkeep (fun k => k / 8 != n) s3.gar.wg,
    icache := mkeep (fun k => k / 2 ^ 23 != n) s3.gar.icache } }
  let s5 := clearBad (clearBad s4 4 (8192 * n) (8192 * (n + 1))) 5 (2 ^ 23 * n) (2 ^ 23 * (n + 1))
  let s6 := sweepStart s5 n
  levelSrc (cluRegs s6 n) (96 + n) false 0

/-! ## MGT (R465, R473, R504, R536) -/

/-- A running transfer of the SPI or I2C1 controller is cut (R536). -/
def cutTransfers (s : State) : State :=
  (({ s with pio := { s.pio with spi := none, i2c1 := none } }.setFlag F.PIO_SPI_CTL_BUSY 0 false).setFlag F.PIO_I2C1_CTL_BUSY 0 false)

def resetMgt (s : State) : State :=
  let s1 := foldS ((List.range 8).map (0x2000 + ·)) (fun u t => setThr (thrReset u t) t (noThread 0)) s
  let s2 := icuSync s1
  let s3 := { s2 with icu := { s2.icu with retEn := false, retOut := [], retNew := false } }.setFlag F.ICU_RET_STS_SAVED 0 false
  domRegs ((cutTransfers s3).setFlag F.RST_MGT_PWR_ASLEEP 0 false) .mgt

/-! ## HOST h (R114, R467) -/

def readyFld (h : Nat) : Fld := if h = 0 then F.HIF_FN_STS_HL0_PF0_READY else F.HIF_FN_STS_HL1_PF0_READY

def resetHost (s : State) (h : Nat) : State :=
  let s1 := linkDown s h
  let pf := fun (u : State) (f : Nat) => let v := flr u f false; setFn v f { fnOf v f with aer := 0 }
  let s2 := pf (pf s1 (256 * h)) (256 * h + 1)
  let s3 := if pktUp s2 then s2.setFlag (readyFld h) 0 false else s2
  icuSync (raiseSrc s3 (168 + h) 0)

/-! ## LINE (R80, R82, R473) -/

/-- A link that was not OFF goes to OFF (R74, R430). -/
def linkLost (s : State) (p : Nat) : State := if s.fld F.LPT_LINK_STATE p = 0 then s else raiseSrc s p 0

def resetLine (s : State) : State :=
  let s1 := foldS (List.range 16) (fun u p => linkLost (portFlush (txCutShort u p) p) p) s
  domRegs { s1 with lpt := [] } .line

/-! ## MEM (R256, R421) -/

/-- Reset values that depend on the variant (R3, R409). -/
def variantRegs (s : State) : State := if s.variant = .l1200 then s.setFld F.DRC_CFG_NCH 0 2 else s

/-- DRC and what DRAM holds (R421). -/
def drcReset (s : State) : State := variantRegs (domRegs (clearBad { s with dram := [], drc := Drc.zero } 13 0 (2 ^ 64)) .mem)

def resetMem (s : State) : State :=
  let s1 := foldS (s.ory.spill.map (·.1)) (fun u q => qEval (foldS (spillQ u q) (fun v x => spillLost v q x) (setSpill u q [])) q) s
  drcReset (foldS s1.ory.delayed dlyLost { s1 with ory := { s1.ory with delayed := [] } })

/-! ## PKT (R36, R61, R254, R379, R465, R522) -/

/-- Waiting acquires complete DENIED (R379). -/
def fltDeny (s : State) : State :=
  foldS (s.gar.thr.map (·.1)) (fun u t =>
    let x := thrOf u t
    match x.wait with
    | .flint rd _ _ _ => endWaitNext u t (setStatus x rd tsDenied 0)
    | _ => u) s

/-- Memories of the PKT domain, whose error marks go with it. -/
def pktMems : List Nat := [0, 1, 6, 7, 8, 10, 11, 12]

def tcmpLevels (s : State) : BitVec 4 := (List.range 4).foldl (fun v k => if (tcmpOf s k).high then v ||| BitVec.ofNat 4 (2 ^ k) else v) 0

def resetPkt (s : State) : State :=
  let s1 := fltDeny s
  let s2 := foldS pktMems (fun u m => clearBad u m 0 (2 ^ 64)) s1
  let up := fun h => (s2.flag F.HIF_LINK_STS_DL_UP h, s2.reg .HIF_LINK_STS h)
  let (a, b) := (up 0, up 1)
  let s3 := regsReset s2 (fun r _ => (regDesc r).dom == .pkt)
  let s4 := (s3.setReg .HIF_LINK_STS 0 a.2).setReg .HIF_LINK_STS 1 b.2
  { s4 with
    pio := { s4.pio with tcmpHeld := tcmpLevels s4 }
    tim := Tim.zero
    hif := { Hif.zero with fns := s4.hif.fns, vfEn := s4.hif.vfEn, numVfs := s4.hif.numVfs, bifur := s4.hif.bifur, mem := s4.hif.mem, sent := s4.hif.sent,
                            posted := s4.hif.posted }
    crn := Crn.zero
    prs := { win := [], waiting := [], joint := false }
    ory := Ory.zero
    egr := { Egr.zero with wire := s4.egr.wire }
    icu := { Icu.zero with retEn := s4.icu.retEn }
    agt := Agt.zero
    flt := { lock := [], sem := [], regs := [] }
    integ := { Integ.zero with bad := s4.integ.bad }
    dbg := { s4.dbg with trace := mkeep (fun k => k / 4096 != 33) s4.dbg.trace } }.setReg .DBG_OTRC_STS 0 0

/-! ## Sources (R466–R468) -/

def presentClusters (s : State) : List Nat := (List.range 32).filter (clusterPresent s)

/-- The domains that a request reaches: WARM is every domain but AON, and PKT takes LINE and every CL[n] with it (R466, R467). -/
def reachOf (s : State) (req : Nat) : List Nat :=
  let warm := bitOf req 8
  let pkt := warm || bitOf req 5
  [1, 2, 3, 4, 5, 6].filter (fun d => warm || bitOf req d || (d = 6 && pkt)) ++
  ((presentClusters s).filter (fun n => pkt || bitOf req (32 + n))).map dCl

/-- The order in which one assertion works through its domains: PKT comes last, because the others act on what it holds. -/
def rstRank (d : Nat) : Nat := if 32 ≤ d then 0 else if d = 1 then 1 else if d ≤ 3 then 2 else if d = 6 then 3 else if d = 4 then 4 else 5

def resetDomain (s : State) (d : Nat) : State :=
  let u := setRst s d true
  if 32 ≤ d then resetCl u (d - 32)
  else if d = 1 then resetMgt u
  else if d = 2 then resetHost u 0
  else if d = 3 then resetHost u 1
  else if d = 4 then resetMem u
  else if d = 5 then resetPkt u
  else resetLine u

/-- Domains not yet in reset enter it. -/
def resetDomains (s : State) (ds : List Nat) : State :=
  settleAll (icuSync (foldS (sortBy (fun a b => decide (rstRank a ≤ rstRank b)) (ds.filter (fun d => !inRst s d))) resetDomain s))

/-- A source asserts (R466, R468, R471, R487): its cause bit sets, and the domains it reaches leave every release event. -/
def assertSrc (s : State) (h : RstHold) (cause : Nat) : State :=
  let u := s.setReg .RST_CAUSE 0 (putBit (s.reg .RST_CAUSE 0) cause true)
  let ds := reachOf u h.req
  let v := { u with rst := { u.rst with
    holds := u.rst.holds ++ [h],
    events := (u.rst.events.map (fun e => { e with doms := e.doms.filter (fun d => !ds.contains d) })).filter (fun e => !e.doms.isEmpty) } }
  resetDomains v ds

/-- A pulse lasts 256 SYSREF cycles: 15,360 PCLK edges (R466). -/
def pulseEdges : Nat := 15360
def pulse (s : State) (src : RstSrc) (req cause : Nat) : State := assertSrc s ⟨src, req, some (s.clk + pulseEdges)⟩ cause

def isHeld (s : State) (d : Nat) : Bool := s.rst.holds.any (fun h => (reachOf s h.req).contains d)

/-- Domains that are in reset, wait in no release event and are held by no source become free in one release event, with what the same
SYSREF_CLK edge has freed before (R469, R487). HOST1 takes part only in the layout with two links (R470). -/
def freeDoms (s : State) : State :=
  let all := [1, 2, 3, 4, 5, 6] ++ (presentClusters s).map dCl
  let gone := all.filter (fun d => inRst s d && !isHeld s d && !(s.rst.events.any (fun e => e.doms.contains d)) && (d != 3 || s.hif.bifur))
  let edge := s.clk / 60
  if gone.isEmpty || !s.rst.aon then s
  else if s.rst.events.any (fun e => e.edge == edge && e.last.isNone) then
    { s with rst := { s.rst with events := s.rst.events.map (fun e => if e.edge = edge && e.last.isNone then { e with doms := e.doms ++ gone } else e) } }
  else { s with rst := { s.rst with events := s.rst.events ++ [⟨edge, gone, none⟩] } }

/-- Sources that pass `p` release. -/
def releaseSrcs (s : State) (p : RstHold → Bool) : State :=
  freeDoms { s with rst := { s.rst with holds := s.rst.holds.filter (fun h => !p h) } }

/-! ## Lock-ups (R277, R471, R493, R521) -/

def clLockup (s : State) (n : Nat) : State :=
  let u := (s.setReg .RST_LOCKUP_CL 0 (putBit (s.reg .RST_LOCKUP_CL 0) n true)).setFlag F.DBG_TRC_STS_STOPPED n true
  pulse { u with rst := { u.rst with lockups := u.rst.lockups ||| BitVec.ofNat 32 (2 ^ n) } } .lockup (2 ^ (32 + n)) 12

def mgtLockup (s : State) : State := pulse (s.setFlag F.DBG_MTRC_STS_STOPPED 0 true) .lockup 2 13

/-! ## The watchdog's count (R476) -/

/-- PCLK edges in a millisecond of SYSREF_CLK time. -/
def msEdges : Nat := 1500000
def wdtTimeout (s : State) : Nat := max 1 (s.fld F.RST_WDT_CFG_TIMEOUT_MS 0) * msEdges

/-- PCLK edges left of the count. -/
def wdtLeft (s : State) : Option Nat :=
  match s.rst.wdt with
  | .run start => some (wdtTimeout s - (s.clk - start))
  | _ => none

/-- The count restarts at TIMEOUT_MS. -/
def wdtRestart (s : State) : State := { s with rst := { s.rst with wdt := .run s.clk } }.setFlag F.RST_WDT_STS_WARNED 0 false

/-- A kick with the right key. -/
def wdtKick (s : State) : State :=
  match s.rst.wdt with
  | .run _ => wdtRestart s
  | _ => s

/-! ## Release (R469–R472, R489, R498, R512) -/

/-- Edsen relocks, and its debug requests release. -/
def relock (s : State) : State := settleAll (releaseSrcs (lockEdsen s) (fun h => h.src == .dbg))

/-- The ROM enters a stage: the watchdog is kicked (R498). -/
def romStage (s : State) (k : Nat) : State := wdtKick (s.setFld F.MGT_BOOT_STS_STAGE 0 k)

/-- The first instruction of the boot ROM. -/
def romEntry : W32 := 0x01000000

/-- The ROM starts at a release of MGT: STAGE 0 latches MODE and passes on (R489, R498). -/
def romStart (s : State) : State :=
  let m := s.rst.strap.toNat
  let s1 := ((romStage s 0).setFld F.MGT_BOOT_STS_MODE 0 m).setFlag F.PIO_SPI_CTL_ROM_OWN 0 true
  let s2 := setThr s1 0x2000 { noThread 0 with st := .run, priv := true, pc := romEntry }
  if m = 0 then romStage s2 1
  else if m = 1 then romStage s2 2
  else setThr ((romStage s2 5).setFld F.MGT_BOOT_STS_ERR 0 (if m = 3 then 6 else 0)) 0x2000 (noThread 0)

/-- BIFUR sampled at the release of HOST0 (R86): the layout, and whether HOST1 becomes free. In the layout with one link HOST1 stays in
reset and waits in no release event (R470). -/
def sampleBifur (s : State) : State × Bool :=
  let b := s.flag F.HIF_LINK_CFG_BIFUR 0
  if inRst s 3 then
    let ev := s.rst.events.map (fun e => { e with doms := e.doms.filter (· ≠ 3) })
    ({ s with hif := { s.hif with bifur := b }, rst := { s.rst with events := if b then s.rst.events else ev } }.setFlag
      F.HIF_LINK_CFG_BIFUR_PEND 0 false, b && !isHeld s 3 && !(s.rst.events.any (fun e => e.doms.contains 3)))
  else (s.setFlag F.HIF_LINK_CFG_BIFUR_PEND 0 (b != s.hif.bifur), false)

/-- LOCKUP[n] raised for the clusters of a mask (R472). -/
def raiseLockups (s : State) (m : W32) : State :=
  foldS ((List.range 32).filter m.getLsbD) (fun u n => raiseSrc u (128 + n) 0)
    { s with rst := { s.rst with lockups := s.rst.lockups &&& ~~~m } }

/-- Which edge a domain left reset at is kept, because its registers then read their Reset values (R10). -/
def noteUp (s : State) (d : Nat) : State := { s with rst := { s.rst with upAt := mset noNat s.rst.upAt d (s.clk + 1) } }

/-- One domain leaves reset, and the PLL that clocks it has locked. A level source is pending while its condition holds, THERM_ALARM's
in AON over a reset of PKT too (R431). -/
def leaveReset (s : State) (d : Nat) : State :=
  let u := noteUp (setRst s d false) d
  if d = 1 then relock (romStart (u.setFlag F.RST_PLL_STS_G 0 true))
  else if d = 4 then u.setFlag F.RST_PLL_STS_M 0 true
  else if d = 5 then
    let v := u.setFlag F.RST_PLL_STS_P 0 true
    let w := match v.rst.clkFail with
      | some k => raiseSrc { v with rst := { v.rst with clkFail := none } } 172 k
      | none => v
    levelSrc (raiseLockups w w.rst.lockups) 171 w.rst.alarm.isSome (w.rst.alarm.getD 0)
  else if 32 ≤ d then
    let n := d - 32
    let v := (u.setFlag F.RST_CLU_CLK_PLL_LOCK n true).setFlag F.RST_CLU_CLK_PARKED n false
    if pktUp v then raiseLockups v (v.rst.lockups &&& BitVec.ofNat 32 (2 ^ n)) else v
  else u

/-- Groups of four present clusters in index order (R470). -/
def cluGroup (s : State) (n : Nat) : Nat := ((presentClusters s).filter (fun m => decide (m < n))).length / 4

/-- The domains that a release event releases next. -/
def nextRelease (s : State) (e : RelEvent) : List Nat :=
  match [1, 2, 3, 4, 5, 6].find? (fun d => e.doms.contains d) with
  | some d => [d]
  | none =>
    match (sortBy (fun a b => decide (a ≤ b)) e.doms).head? with
    | some d => e.doms.filter (fun x => cluGroup s (x - 32) == cluGroup s (d - 32))
    | none => []

/-- A release event may release now: it is its first release, or the gap has passed (R470). -/
def eventDue (s : State) (e : RelEvent) : Bool :=
  match e.last with
  | none => true
  | some l => decide (l + pulseEdges ≤ s.clk)

/-- The watchdog's count restarts when the domains that it reached are out of reset (R476). -/
def wdtSync (s : State) : State :=
  match s.rst.wdt with
  | .waiting => if (reachOf s (if s.flag F.RST_WDT_CFG_REACH 0 then 2 ^ 8 else 2)).all (fun d => !inRst s d || (d = 3 && !s.hif.bifur)) then wdtRestart s else s
  | _ => s

/-- An event after it has released `ds`, and HOST1 has joined it if `more`; an event with nothing left to release is over. -/
def eventAfter (e : RelEvent) (clk : Nat) (ds : List Nat) (more : Bool) : RelEvent :=
  let rest := e.doms.filter (fun d => !ds.contains d)
  { e with doms := if more then rest ++ [3] else rest, last := some clk }

/-- The first due event's next domains leave reset. -/
def releaseNext (s : State) : State :=
  match s.rst.events.findIdx? (eventDue s) with
  | none => s
  | some k =>
    let ds := nextRelease s ((s.rst.events[k]?).getD ⟨0, [], none⟩)
    let (s1, more) := if ds = [2] then sampleBifur s else (s, false)
    let ev := (s1.rst.events.modify k (fun e => eventAfter e s1.clk ds more)).filter (fun e => !e.doms.isEmpty)
    settleAll (wdtSync (foldS ds leaveReset { s1 with rst := { s1.rst with events := ev } }))

end Sys2Proof.Machine
end

