-- ==== Sys2Proof/Machine/Issue.lean ====
section
/-!
DEFINITION. How a thread issues one instruction: faults (R276–R278, R334, R335, R493), the turn (R261, R262), the fetch (R264, R269,
R304), breakpoints and watchpoints (R518, R519, R523) and the retire point.
-/

namespace Sys2Proof.Machine

/-! ## Fault causes (R334) -/

def cIllegal : Nat := 0x01
def cPriv : Nat := 0x02
def cBadAddr : Nat := 0x03
def cAlign : Nat := 0x04
def cBadBit : Nat := 0x05
def cBadCell : Nat := 0x06
def cNoCpx : Nat := 0x07
def cCpxOff : Nat := 0x08
def cCpxFlt : Nat := 0x09
def cBudget : Nat := 0x0A
def cNoItem : Nat := 0x0B
def cItem : Nat := 0x0C
def cBadItem : Nat := 0x0D
def cBadArg : Nat := 0x0E
def cTrap : Nat := 0x0F
def cBrk : Nat := 0x10
def cEcc : Nat := 0x11
def cParity : Nat := 0x12

/-! ## Taking a fault -/

/-- The firmware runs: the ROM has handed MGT over (R498). -/
def fwRun (s : State) : Bool := s.fld F.MGT_BOOT_STS_STAGE 0 == 4

/-- A fault of an MGT slot (R493, R505): recorded, and redirected to MGT_FAULT_VEC; a double fault, or one while the ROM runs, locks
MGT up. -/
def mgtFault (s : State) (t cause detail : Nat) : State :=
  let x := thrOf s t
  let y := { x with cause := cause, detail := BitVec.ofNat 32 detail, inFault := true, stepping := false, wait := .none,
                    pc := BitVec.ofNat 32 (4 * s.fld F.MGT_FAULT_VEC_PC 0), st := if x.st = .stall then .ready else x.st, readyAt := s.clk }
  let u := (setThr s t y).setReg .MGT_THR_PC (t - 0x2000) x.pc.toNat
  if x.inFault || !fwRun s then mgtLockup u else u

/-- The fault record (R278). -/
def faultRecord (s : State) (t cause detail : Nat) : List W32 :=
  [BitVec.ofNat 32 (cause * 2 ^ 24 + t), (thrOf s t).pc, BitVec.ofNat 32 detail, BitVec.ofNat 32 (nt64 s)]

/-- A fault of a packet thread (R277, R278): the thread keeps what it holds, and a supervisor's fault locks the cluster up. -/
def pktFault (s : State) (t cause detail : Nat) : State :=
  let n := cluOf t
  let x := thrOf s t
  let s1 := setThr s t (pauseBudget s { x with st := .fault, cause := cause, detail := BitVec.ofNat 32 detail, stepping := false, requeued := false })
  let q := faultqOf s n
  let s2 := if q.length < 64 then { s1 with gar := { s1.gar with faultq := mset noRecs s1.gar.faultq n (q ++ [faultRecord s t cause detail]) } }
    else s1.setFlag F.GCL_STS_FQ_OVF n true
  let s3 := count s2 (393216 + 4096 * n + 4092) 1 0
  let s4 := if cause = cBudget then count s3 (393216 + 4096 * n + 4093) 1 0 else s3
  let s5 := levelSrc s4 (96 + n) true 0
  if isSupv s t then clLockup s5 n else s5

/-- A thread faults (R334). -/
def thrFault (s : State) (t cause detail : Nat) : State :=
  let u := traceThr s t 3 (thrOf s t).pc.toNat cause
  settleAll (if isMgt t then mgtFault u t cause detail else pktFault u t cause detail)

/-! ## The turn (R261, R262) -/

/-- The other contexts of a thread's slot. -/
def slotMates (t : Nat) : List Nat := if isMgt t then [] else ([0, 1, 2, 3].map (fun c => t / 4 * 4 + c)).filter (· ≠ t)

/-- Ready context `i` takes the slot before `t` does. -/
def olderThan (s : State) (i t : Nat) : Bool :=
  (thrOf s i).st == .ready && (decide ((thrOf s i).readyAt < (thrOf s t).readyAt) || ((thrOf s i).readyAt == (thrOf s t).readyAt && decide (i < t)))

/-- The thread's slot can issue from it now: its domain runs, and it is the running context or the oldest ready one. -/
def canTurn (s : State) (t : Nat) : Bool :=
  thrExists s t && thrUp s t && (if isMgt t then !s.flag F.RST_MGT_PWR_ASLEEP 0 else !parked s (cluOf t)) &&
  (match (thrOf s t).st with
   | .run => true
   | .ready => (slotMates t).all (fun i => (thrOf s i).st != .run && !olderThan s i t)
   | _ => false)

/-! ## The fetch (R264, R269, R491) -/

def noWord : Nat → Option W32 := fun _ => none

/-- One past the last byte of a cluster's program image. -/
def imageEnd (s : State) (n : Nat) : Nat := 0x100000 + 4096 * min 128 (s.fld F.GCL_IMG_LIMIT n)

/-- The key of an instruction-cache word. -/
def icKey (t pc : Nat) : Nat := coreOf t * 2 ^ 20 + (pc - 0x100000) / 4

/-- What a fetch finds: a word, a miss, an address outside the image, a cached word with a parity error, or code of the boot ROM, whose
contents the spec does not give. -/
inductive Fetch where
  | word (w : W32)
  | miss
  | bad
  | parity
  | rom
deriving DecidableEq, Repr

def fetch (s : State) (t : Nat) : Fetch :=
  let pc := (thrOf s t).pc.toNat
  if isMgt t then
    if pc + 4 ≤ 0x100000 then .word (BitVec.ofNat 32 (leNat (rdBytes s.mgtMem pc 4)))
    else if 0x1000000 ≤ pc && decide (pc < 0x1010000) && !fwRun s then .rom
    else .bad
  else if pc < 0x100000 || imageEnd s (cluOf t) < pc + 4 then .bad
  else
    match mget noWord s.gar.icache (icKey t pc) with
    | none => .miss
    | some w => if unitErr s 5 (icKey t pc) ≠ 0 then .parity else .word w

/-! ## Encodings that no instruction has (R304) -/

/-- COP values of a coprocessor (R351, R352, R355). -/
def copDefined (unit : Bool) (cop : Nat) : Bool :=
  cop ≤ 5 ||
  (if unit then (0x40 ≤ cop && cop ≤ 0x45) || (0x50 ≤ cop && cop ≤ 0x55)
   else (0x10 ≤ cop && cop ≤ 0x18) || (0x20 ≤ cop && cop ≤ 0x22) || cop == 0x30 || cop == 0x31)

/-- An opcode, FN, COND or COP value that the instruction set does not define. -/
def undefinedWord (w : W32) : Bool :=
  let v := w.toNat
  let op := bits v 31 26
  let fnR := bits v 10 5
  let fnU := bits v 5 0
  if op = 0x00 then fnR == 17 || decide (30 ≤ fnR)
  else if op = 0x17 || 0x2A ≤ op then true
  else if op = 0x18 then decide (6 ≤ bits v 15 13)
  else if op = 0x1C then decide (2 ≤ fnR)
  else if op = 0x1D then decide (8 ≤ bits v 25 22)
  else if op = 0x1F then decide (5 ≤ fnR)
  else if op = 0x20 then decide (3 ≤ fnU)
  else if op = 0x21 then decide (5 ≤ fnU)
  else if op = 0x22 then decide (11 ≤ fnU)
  else if op = 0x23 || op = 0x24 then decide (8 ≤ fnU)
  else if op = 0x25 then decide (6 ≤ fnU)
  else if op = 0x26 then decide (1 ≤ fnU)
  else if op = 0x27 then bits v 8 7 == 0 && !copDefined (bitOf v 25) (bits v 6 0)
  else if op = 0x28 then decide (5 ≤ fnU)
  else if op = 0x29 then decide (3 ≤ fnR)
  else false

/-! ## Breakpoints and watchpoints (R518, R523) -/

/-- A thread's core among the 257 of DBG_CORE. -/
def dbgCore (t : Nat) : Nat := if isMgt t then 256 else coreOf t

def bpHit (s : State) (t i : Nat) : Bool :=
  let k := 4 * dbgCore t + i
  s.flag F.DBG_CORE_BPC_EN k && s.reg .DBG_CORE_BP k == (thrOf s t).pc.toNat &&
  (!s.flag F.DBG_CORE_BPC_TID_EN k || s.fld F.DBG_CORE_BPC_TID k == t % 32)

/-- ACTION of a breakpoint or watchpoint; 3 acts as 0. -/
def actionOf (a : Nat) : Nat := if a = 3 then 0 else a

/-- The matching breakpoint that halts, and the state with the trace records of those that only trace. -/
def bpMatch (s : State) (t : Nat) : Option Nat × State :=
  if (thrOf s t).bpPass then (none, s)
  else
    let hits := [0, 1, 2, 3].filter (bpHit s t)
    let act := fun i => actionOf (s.fld F.DBG_CORE_BPC_ACTION (4 * dbgCore t + i))
    ((hits.find? (fun i => act i != 2)).map act,
     foldS (hits.filter (fun i => act i == 2)) (fun u i => traceThr u t 5 (thrOf s t).pc.toNat i) s)

/-- A load or store that watchpoints see. -/
structure Touch where
  addr : Nat
  len : Nat
  store : Bool
deriving DecidableEq, Repr

def wpHit (s : State) (t j : Nat) (x : Touch) : Bool :=
  let k := 2 * dbgCore t + j
  let b := 2 ^ min 16 (s.fld F.DBG_CORE_WPC_SIZE_LOG2 k)
  let lo := s.reg .DBG_CORE_WP k / b * b
  s.flag F.DBG_CORE_WPC_EN k && s.flag (if x.store then F.DBG_CORE_WPC_ST else F.DBG_CORE_WPC_LD) k &&
  (!s.flag F.DBG_CORE_WPC_TID_EN k || s.fld F.DBG_CORE_WPC_TID k == t % 32) &&
  decide (x.addr < lo + b) && decide (lo < x.addr + x.len)

/-- What watchpoints do after an instruction at `pc` has made its accesses; the index of a watchpoint's trace record counts on from the
four breakpoints. -/
def watch (s : State) (t pc : Nat) (ts : List Touch) : Option Nat × State :=
  let hits := [0, 1].filter (fun j => ts.any (wpHit s t j))
  let act := fun j => actionOf (s.fld F.DBG_CORE_WPC_ACTION (2 * dbgCore t + j))
  ((hits.find? (fun j => act j != 2)).map act, foldS (hits.filter (fun j => act j == 2)) (fun u j => traceThr u t 5 pc (4 + j)) s)

/-! ## Issue and retire -/

/-- What an instruction comes to. -/
inductive Res where
  /-- It completes, with the loads and stores that watchpoints see. -/
  | done (s : State) (ts : List Touch)
  /-- It transfers control. -/
  | jump (s : State) (pc : W32)
  /-- It faults; the state holds what detecting the fault has recorded. -/
  | fault (s : State) (cause detail : Nat)
  /-- It enters a long stall. -/
  | wait (s : State) (w : Wait)
  /-- `brk` that Edsen takes. -/
  | brk (s : State)
  /-- It makes an error that the device does not check. -/
  | bad (r : Fault)

/-- The thread takes the turn. -/
def takeTurn (s : State) (t : Nat) : State := setThr s t { thrOf s t with st := .run, bpPass := false }

/-- The instruction has retired; the thread goes on at `pc` (R515, R518), unless its own effect has reset the thread. -/
def retire (s : State) (t : Nat) (pc : W32) (ts : List Touch) : State :=
  if (thrOf s t).st = .dormant then s else
  let old := (thrOf s t).pc.toNat
  let (hit, s1) := watch (setThr s t { thrOf s t with pc := pc, requeued := false }) t old ts
  match hit with
  | some a => settleAll (haltMatch s1 t 3 a)
  | none => if (thrOf s1 t).stepping then settleAll (dbgEvent (haltThr s1 t 1 .ready) 1 t) else s1

/-- The first register of a list that has a parity error (R335). -/
def badReg (s : State) (t : Nat) (rs : List Nat) : Option Nat := rs.find? (fun r => r != 0 && unitErr s 4 (32 * t + r) != 0)

/-- What follows from an instruction's outcome. `rds` and `wrs` are the general registers it reads and writes, and `sq` is what a
parity error at its retire point does to a command it has sent (R335). -/
def finish (s : State) (t : Nat) (rds wrs : List Nat) (sq : State → State) (r : Res) : Out :=
  match r with
  | .fault u c d => .next (thrFault u t c d)
  | _ =>
    match badReg s t rds with
    | some g => .next (thrFault (noteUe (sq s) 4 6 3 2 t g) t cParity g)
    | none =>
      match r with
      | .fault u c d => .next (thrFault u t c d)
      | .done u ts => .next (retire (foldS wrs (fun v g => rfWrite v t g) u) t ((thrOf u t).pc + 4) ts)
      | .jump u p => .next (retire (foldS wrs (fun v g => rfWrite v t g) (traceThr u t 0 (thrOf u t).pc.toNat p.toNat)) t p [])
      | .wait u w => .next (settleAll (stall u t w))
      | .brk u => .next (settleAll (dbgEvent (halt u t 4) 4 t))
      | .bad r => .fault r

/-- A cached word with a parity error is fetched again (R445). -/
def icParity (s : State) (t : Nat) : State :=
  let pc := (thrOf s t).pc.toNat
  let u := noteUe s 5 6 4 1 (32 * coreOf t) pc
  let v := { setUnitErr u 5 (icKey t pc) 0 with gar := { u.gar with icache := mset noWord u.gar.icache (icKey t pc) none } }
  settleAll (stall (takeTurn v t) t .fetch)

/-- A turn of thread `t` at which the instruction with word `w` is to issue. The instruction that runs is the one the thread fetches: an
undefined word faults ILLEGAL, and with another instruction at its pc nothing happens (log entry 7). -/
def issueAt (t : Nat) (w : W32) (rds wrs : List Nat) (sq : State → State) (body : State → Res) (s : State) : Out :=
  if !canTurn s t then .next s
  else if budgetLate s t then .next (thrFault s t cBudget 0)
  else
    match fetch s t with
    | .rom => .next s
    | .bad => .next (thrFault s t cBadAddr (thrOf s t).pc.toNat)
    | .miss => .next (settleAll (stall (takeTurn s t) t .fetch))
    | .parity => .next (icParity s t)
    | .word v =>
      if v ≠ w && !undefinedWord v then .next s
      else
        match bpMatch s t with
        | (some a, u) => .next (settleAll (haltMatch u t 2 a))
        | (none, u) =>
          if v ≠ w then .next (thrFault (takeTurn u t) t cIllegal v.toNat)
          else finish (takeTurn u t) t rds wrs sq (body (takeTurn u t))

/-! ## Encodings (R303) -/

def wordR (op fn : Nat) (f : FmtR) : W32 :=
  BitVec.ofNat 32 (op * 2 ^ 26 + f.rd.toNat * 2 ^ 21 + f.ra.toNat * 2 ^ 16 + f.rb.toNat * 2 ^ 11 + fn * 2 ^ 5 + f.sh.toNat)
def wordI (op : Nat) (f : FmtI) : W32 := BitVec.ofNat 32 (op * 2 ^ 26 + f.rd.toNat * 2 ^ 21 + f.ra.toNat * 2 ^ 16 + f.imm.toNat)
def wordU (op fn : Nat) (f : FmtU) : W32 :=
  BitVec.ofNat 32 (op * 2 ^ 26 + f.rd.toNat * 2 ^ 21 + f.ra.toNat * 2 ^ 16 + f.rb.toNat * 2 ^ 11 + f.rc.toNat * 2 ^ 6 + fn)
def wordUI (op fn : Nat) (f : FmtUI) : W32 :=
  BitVec.ofNat 32 (op * 2 ^ 26 + f.rd.toNat * 2 ^ 21 + f.ra.toNat * 2 ^ 16 + f.imm.toNat * 2 ^ 6 + fn)
def wordBR (op cond : Nat) (f : FmtBR) : W32 :=
  BitVec.ofNat 32 (op * 2 ^ 26 + f.ra.toNat * 2 ^ 21 + f.rb.toNat * 2 ^ 16 + cond * 2 ^ 13 + f.off.toNat)
def wordBB (op : Nat) (sense : Bool) (f : FmtBB) : W32 := BitVec.ofNat 32 (op * 2 ^ 26 + b2n sense * 2 ^ 25 + f.bit.toNat * 2 ^ 12 + f.off.toNat)
def wordJ (op : Nat) (f : FmtJ) : W32 := BitVec.ofNat 32 (op * 2 ^ 26 + f.off.toNat)
def wordBT (op fn : Nat) (f : FmtBT) : W32 :=
  BitVec.ofNat 32 (op * 2 ^ 26 + fn * 2 ^ 22 + f.r.toNat * 2 ^ 17 + b2n f.idx * 2 ^ 16 + f.zero.toNat * 2 ^ 13 + f.bit.toNat)
def wordMD (op : Nat) (f : FmtMD) : W32 :=
  BitVec.ofNat 32 (op * 2 ^ 26 + f.px.toNat * 2 ^ 21 + f.py.toNat * 2 ^ 16 + b2n f.acc * 2 ^ 15 + f.ty.toNat * 2 ^ 13 + b2n f.sat * 2 ^ 12
    + f.sx.toNat * 2 ^ 6 + f.sy.toNat)
def wordX1 (op cop : Nat) (f : FmtX1) : W32 :=
  BitVec.ofNat 32 (op * 2 ^ 26 + b2n f.unit * 2 ^ 25 + f.lane.toNat * 2 ^ 21 + f.cd.toNat * 2 ^ 17 + f.ca.toNat * 2 ^ 13 + f.cb.toNat * 2 ^ 9 + cop)
def wordX2 (op : Nat) (dir : Bool) (f : FmtX2) : W32 :=
  BitVec.ofNat 32 (op * 2 ^ 26 + b2n f.unit * 2 ^ 25 + f.lane.toNat * 2 ^ 21 + f.c.toNat * 2 ^ 17 + f.g.toNat * 2 ^ 12 + f.w.toNat * 2 ^ 10
    + b2n dir * 2 ^ 9 + 1 * 2 ^ 7 + f.zero.toNat)
def wordX3 (op : Nat) (dir : Bool) (f : FmtX3) : W32 :=
  BitVec.ofNat 32 (op * 2 ^ 26 + b2n f.unit * 2 ^ 25 + f.lane.toNat * 2 ^ 21 + f.c.toNat * 2 ^ 17 + f.g.toNat * 2 ^ 12 + f.mid.toNat * 2 ^ 9
    + 2 * 2 ^ 7 + b2n dir * 2 ^ 6 + f.zero.toNat)
def wordX4 (op : Nat) (f : FmtX4) : W32 :=
  BitVec.ofNat 32 (op * 2 ^ 26 + b2n f.unit * 2 ^ 25 + f.lane.toNat * 2 ^ 21 + f.mid.toNat * 2 ^ 9 + 3 * 2 ^ 7 + f.zero.toNat)

end Sys2Proof.Machine
end

