-- ==== Sys2Proof/Machine/Operands.lean ====
section
/-!
DEFINITION. Operands of instructions: effective addresses (R306), what a load makes of the bytes it reads and what a store writes
(R306), the local addresses of unit instructions (R314), and the checks of R298, R303 and R334.
-/

namespace Sys2Proof.Machine

/-! ## Registers and fields -/

/-- A register by its field. -/
def gv (x : Thread) (r : BitVec 5) : W32 := gGet x r.toNat

/-- A register pair is even and from 2 to 30 (R298). -/
def pairOk (r : BitVec 5) : Bool := r.toNat % 2 == 0 && r != 0

/-- ea = gA + sext(IMM16). -/
def effAddr (x : Thread) (f : FmtI) : Nat := (gv x f.ra + f.imm.signExtend 32).toNat

/-! ## Loads and stores (R306) -/

/-- Bytes that a load or store of this OP moves. -/
def accBytes (op : Nat) : Nat :=
  if op = 0x08 || op = 0x09 || op = 0x10 then 1
  else if op = 0x0A || op = 0x0B || op = 0x0D || op = 0x11 || op = 0x13 then 2
  else if op = 0x0F || op = 0x15 then 8
  else 4

/-- What a load of this OP does with the little-endian number `v` it has read: gD, or the accumulator that RD names. -/
def loadInto (x : Thread) (op rd v : Nat) : Thread :=
  if op = 0x08 then gSet x rd (BitVec.ofNat 32 v)
  else if op = 0x09 then gSet x rd ((BitVec.ofNat 8 v).signExtend 32)
  else if op = 0x0A then gSet x rd (BitVec.ofNat 32 v)
  else if op = 0x0B then gSet x rd ((BitVec.ofNat 16 v).signExtend 32)
  else if op = 0x0D then gSet x rd (BitVec.ofNat 32 (beNat (leBytes 2 v)))
  else if op = 0x0E then gSet x rd (bswapOf (BitVec.ofNat 32 v))
  else if op = 0x0F then accSet x (rd % 2) (BitVec.ofNat 64 v)
  else if op = 0x16 then gSet x rd (csumOf (gGet x rd) (bswapOf (BitVec.ofNat 32 v)))
  else gSet x rd (BitVec.ofNat 32 v)

/-- The general registers that a load writes. -/
def loadWrites (op rd : Nat) : List Nat := if op = 0x0F then [] else [rd]

/-- The bytes that a store of this OP writes. -/
def storeBytes (x : Thread) (op rd : Nat) : List Byte :=
  let v := (gGet x rd).toNat
  if op = 0x13 then beBytes 2 v
  else if op = 0x14 then beBytes 4 v
  else if op = 0x15 then leBytes 8 (accGet x (rd % 2)).toNat
  else leBytes (accBytes op) v

/-- [ea, ea + n) shares a byte with [lo, hi]. -/
def touches (ea n lo hi : Nat) : Bool := decide (ea ≤ hi) && decide (lo < ea + n)

def touchesCtl (ea n : Nat) : Bool := touches ea n 0x200000 0x20FFFF || touches ea n 0x300000 0x31FFFF

/-- The fault of a load or store by thread `t` at `ea`, in the order of R334: PRIV (R302), ALIGN (R306, R491), BADADDR (R265, R269,
R306, R491). -/
def accFault (s : State) (t ea n : Nat) (store : Bool) : Option Nat :=
  if isMgt t then
    if touches ea n 0x40000000 0x4FFFFFFF && (n < 4 || ea % n != 0) then some cAlign
    else match placeOf t ea n with
      | none => some cBadAddr
      | some (.rom _) => if fwRun s then some cBadAddr else none
      | some _ => none
  else if touchesCtl ea n && !isS s t then some cPriv
  else if (touchesCtl ea n || touches ea n 0x100000 0x1FFFFF) && ea % n != 0 then some cAlign
  else match placeOf t ea n with
    | none => some cBadAddr
    | some (.shared o) => if store && !isS s t && decide (0x100000 + o < imageEnd s (cluOf t)) then some cBadAddr else none
    | some _ => none

/-- Bytes of the boot ROM are not in the spec: each read of 8 bytes or fewer gives a free value. -/
def romRead (s : State) (n : Nat) : Nat × State :=
  let (v, u) := drawValue s
  (v.toNat % 2 ^ (8 * n), u)

/-! ## Unit instructions (R313, R314) -/

/-- A read of the local operand at `ea`: its bytes and the state after it, or a fault BADADDR or ECC. -/
def localRead (s : State) (t ea n : Nat) (k : State → List Byte → Res) : Res :=
  match localOf t ea n with
  | none => .fault s cBadAddr ea
  | some p =>
    match placeRead s t p n with
    | (_, some a, u) => .fault u cEcc a
    | (bs, none, u) => k u bs

/-- A thread with a new record, and nothing to watch. -/
def doneThr (s : State) (t : Nat) (x : Thread) : Res := .done (setThr s t x) []

/-- A status word in gD (R313). -/
def doneStatus (s : State) (t rd status : Nat) : Res := .done (settleAll (setThr s t (setStatus (thrOf s t) rd status 0))) []

end Sys2Proof.Machine
end

