-- ==== Sys2Proof/Machine/Alu.lean ====
section
/-!
DEFINITION. Arithmetic, logic and shifts (R305), one definition per instruction over three shapes of format R and one of format I.
-/

namespace Sys2Proof.Machine

/-- An instruction of OP 0x00 with operands gA and gB; SH must be 0. -/
def aluRow (fn : Nat) (g : Thread → Nat → W32 → W32 → Thread) (t : BitVec 14) (f : FmtR) (s : State) : Out :=
  issueAt t.toNat (wordR 0x00 fn f) [f.ra.toNat, f.rb.toNat] [f.rd.toNat] id (fun u =>
    let x := thrOf u t.toNat
    if f.sh ≠ 0 then .fault u cIllegal (wordR 0x00 fn f).toNat
    else doneThr u t.toNat (g x f.rd.toNat (gv x f.ra) (gv x f.rb))) s

/-- One with operand gA alone; RB and SH must be 0. -/
def aluRow1 (fn : Nat) (g : Thread → Nat → W32 → Thread) (t : BitVec 14) (f : FmtR) (s : State) : Out :=
  issueAt t.toNat (wordR 0x00 fn f) [f.ra.toNat] [f.rd.toNat] id (fun u =>
    let x := thrOf u t.toNat
    if f.rb ≠ 0 ∨ f.sh ≠ 0 then .fault u cIllegal (wordR 0x00 fn f).toNat
    else doneThr u t.toNat (g x f.rd.toNat (gv x f.ra))) s

/-- One with a bit field: SH is its place and RB its width less 1. -/
def aluRowField (fn : Nat) (rds : List Nat) (g : Thread → Thread) (t : BitVec 14) (f : FmtR) (s : State) : Out :=
  issueAt t.toNat (wordR 0x00 fn f) rds [f.rd.toNat] id (fun u => doneThr u t.toNat (g (thrOf u t.toNat))) s

/-- An instruction of format I with operand gA; `bad` says that a field which must be 0 is not. -/
def aluRowI (op : Nat) (bad : Bool) (wrs : List Nat) (g : Thread → W32 → Thread) (t : BitVec 14) (f : FmtI) (s : State) : Out :=
  issueAt t.toNat (wordI op f) [f.ra.toNat] wrs id (fun u =>
    let x := thrOf u t.toNat
    if bad then .fault u cIllegal (wordI op f).toNat else doneThr u t.toNat (g x (gv x f.ra))) s

def execAdd := aluRow 0 (fun x d a b => addInto x d a b false)
def execSub := aluRow 1 (fun x d a b => subInto x d a b false)
def execAnd := aluRow 2 (fun x d a b => putZN x d (a &&& b))
def execOr := aluRow 3 (fun x d a b => putZN x d (a ||| b))
def execXor := aluRow 4 (fun x d a b => putZN x d (a ^^^ b))
def execShl := aluRow 5 (fun x d a b => shlInto x d a (shiftBy b))
def execShr := aluRow 6 (fun x d a b => shrInto x d a (shiftBy b))
def execSar := aluRow 7 (fun x d a b => sarInto x d a (shiftBy b))
def execRol := aluRow 8 (fun x d a b => rolInto x d a (shiftBy b))
def execRor := aluRow 9 (fun x d a b => rorInto x d a (shiftBy b))
def execMul := aluRow 10 (fun x d a b => putZN x d (a * b))
def execMulhu := aluRow 11 (fun x d a b => putZN x d (mulHigh a b))
def execMulhs := aluRow 12 (fun x d a b => putZN x d (mulHighS a b))
def execMin := aluRow 13 (fun x d a b => gSet x d (if a.toInt ≤ b.toInt then a else b))
def execMax := aluRow 14 (fun x d a b => gSet x d (if a.toInt ≤ b.toInt then b else a))
def execMinu := aluRow 15 (fun x d a b => gSet x d (if a.toNat ≤ b.toNat then a else b))
def execMaxu := aluRow 16 (fun x d a b => gSet x d (if a.toNat ≤ b.toNat then b else a))
def execSlt := aluRow 18 (fun x d a b => gSet x d (if a.toInt < b.toInt then 1 else 0))
def execSltu := aluRow 19 (fun x d a b => gSet x d (if a.toNat < b.toNat then 1 else 0))
def execClz := aluRow1 20 (fun x d a => putZ x d (clzOf a))
def execPopc := aluRow1 21 (fun x d a => putZ x d (popcOf a))
def execBswap := aluRow1 22 (fun x d a => gSet x d (bswapOf a))
def execCsum := aluRow 23 (fun x d a b => gSet x d (csumOf a b))
def execCsumf := aluRow1 24 (fun x d a => putZ x d (csumFold a))
def execExt (t : BitVec 14) (f : FmtR) (s : State) : Out :=
  aluRowField 25 [f.ra.toNat] (fun x => putZ x f.rd.toNat (extOf (gv x f.ra) f.sh.toNat (f.rb.toNat + 1))) t f s
def execIns (t : BitVec 14) (f : FmtR) (s : State) : Out :=
  aluRowField 26 [f.ra.toNat, f.rd.toNat]
    (fun x => gSet x f.rd.toNat (insOf (gv x f.rd) (gv x f.ra) f.sh.toNat (f.rb.toNat + 1))) t f s
def execAddc := aluRow 27 (fun x d a b => addInto x d a b (flagC x))
def execSubb := aluRow 28 (fun x d a b => subInto x d a b (flagC x))
def execSel := aluRow 29 (fun x d a b => gSet x d (if flagC x then a else b))

def execAddi (t : BitVec 14) (f : FmtI) (s : State) : Out :=
  aluRowI 0x01 false [f.rd.toNat] (fun x a => addInto x f.rd.toNat a (f.imm.signExtend 32) false) t f s
def execAndi (t : BitVec 14) (f : FmtI) (s : State) : Out :=
  aluRowI 0x02 false [f.rd.toNat] (fun x a => putZN x f.rd.toNat (a &&& f.imm.setWidth 32)) t f s
def execOri (t : BitVec 14) (f : FmtI) (s : State) : Out :=
  aluRowI 0x03 false [f.rd.toNat] (fun x a => putZN x f.rd.toNat (a ||| f.imm.setWidth 32)) t f s
def execXori (t : BitVec 14) (f : FmtI) (s : State) : Out :=
  aluRowI 0x04 false [f.rd.toNat] (fun x a => putZN x f.rd.toNat (a ^^^ f.imm.setWidth 32)) t f s
def execLui (t : BitVec 14) (f : FmtI) (s : State) : Out :=
  aluRowI 0x05 (f.ra != 0) [f.rd.toNat] (fun x _ => gSet x f.rd.toNat (f.imm.setWidth 32 <<< 16)) t f s

/-- `shi`: IMM16[6:5] names the shift and IMM16[4:0] its count. -/
def execShi (t : BitVec 14) (f : FmtI) (s : State) : Out :=
  aluRowI 0x06 (decide (f.imm.toNat / 128 ≠ 0)) [f.rd.toNat] (fun x a =>
    let n := f.imm.toNat % 32
    let k := f.imm.toNat / 32 % 4
    let d := f.rd.toNat
    if k = 0 then shlInto x d a n else if k = 1 then shrInto x d a n else if k = 2 then sarInto x d a n else rolInto x d a n) t f s

def execCmpi (t : BitVec 14) (f : FmtI) (s : State) : Out :=
  aluRowI 0x07 (f.rd != 0) [] (fun x a => subInto x 0 a (f.imm.signExtend 32) false) t f s

end Sys2Proof.Machine
end

