-- ==== Sys2Proof/Machine/Ecdsa.lean ====
section
/-!
DEFINITION. ECDSA verification on P-384 as FIPS 186-5 defines it, which the boot ROM and Edsen apply (R496, R511).
-/

namespace Sys2Proof.Machine

/-- The field prime, the coefficient b, the base point and its order of P-384. -/
def p384P : Nat := 2 ^ 384 - 2 ^ 128 - 2 ^ 96 + 2 ^ 32 - 1
def p384B : Nat := 0xb3312fa7e23ee7e4988e056be3f82d19181d9c6efe8141120314088f5013875ac656398d8a2ed19d2a85c8edd3ec2aef
def p384Gx : Nat := 0xaa87ca22be8b05378eb1c71ef320ad746e1d3b628ba79b9859f741e082542a385502f25dbf55296c3a545e3872760ab7
def p384Gy : Nat := 0x3617de4a96262c6f5d9e98bf9292dc29f8f41dbd289a147ce9da3113b5f0b8c00a60b1ce1d7e819d7a431d7c90ea0e5f
def p384N : Nat := 0xffffffffffffffffffffffffffffffffffffffffffffffffc7634d81f4372ddf581a0db248b0a77aecec196accc52973

/-- `a` to the power of the low `k` bits of `e`, modulo `m`. -/
def powMod (m : Nat) : Nat → Nat → Nat → Nat
  | 0, _, _ => 1 % m
  | k + 1, a, e => (if e % 2 = 1 then a else 1) * powMod m k (a * a % m) (e / 2) % m

/-- The inverse modulo a prime of 384 bits, by Fermat. -/
def invMod (m a : Nat) : Nat := powMod m 384 (a % m) (m - 2)

/-- A point of the curve in Jacobian coordinates: (X / Z², Y / Z³), with Z = 0 for the point at infinity. -/
structure Point where
  x : Nat
  y : Nat
  z : Nat
deriving DecidableEq, Repr

def pointZero : Point := ⟨1, 1, 0⟩

/-- The point with affine coordinates `x` and `y`. -/
def pointAt (x y : Nat) : Point := ⟨x, y, 1⟩

/-- `x − y` in the field. -/
def fieldSub (x y : Nat) : Nat := (x + p384P - y % p384P) % p384P

/-- Twice a point, on a curve with a = −3. -/
def pointDouble (a : Point) : Point :=
  let yy := a.y * a.y % p384P
  let s := 4 * a.x * yy % p384P
  let zz := a.z * a.z % p384P
  let m := 3 * fieldSub a.x zz * (a.x + zz) % p384P
  let x := fieldSub (m * m) (2 * s)
  ⟨x, fieldSub (m * fieldSub s x) (8 * yy * yy), 2 * a.y * a.z % p384P⟩

def pointAdd (a b : Point) : Point :=
  if a.z = 0 then b
  else if b.z = 0 then a
  else
    let u1 := a.x * b.z * b.z % p384P
    let s1 := a.y * b.z * b.z * b.z % p384P
    let h := fieldSub (b.x * a.z * a.z) u1
    let r := fieldSub (b.y * a.z * a.z * a.z) s1
    if h = 0 then (if r = 0 then pointDouble a else pointZero)
    else
      let hh := h * h % p384P
      let v := u1 * hh % p384P
      let x := fieldSub (fieldSub (r * r) (h * hh)) (2 * v)
      ⟨x, fieldSub (r * fieldSub v x) (s1 * (h * hh % p384P)), h * a.z * b.z % p384P⟩

/-- The low `k` bits of `e` times a point. -/
def pointMul : Nat → Nat → Point → Point
  | 0, _, _ => pointZero
  | k + 1, e, a =>
    if e = 0 then pointZero
    else
      let q := pointMul k (e / 2) (pointDouble a)
      if e % 2 = 1 then pointAdd a q else q

/-- A public key is a point of the curve. -/
def onCurve (x y : Nat) : Bool :=
  decide (x < p384P) && decide (y < p384P) && decide (y * y % p384P = (fieldSub (x * x * x) (3 * x) + p384B) % p384P)

/-- (r, s) is a signature over a message with the digest `e` under the key (x, y). -/
def ecdsaOk (x y r s e : Nat) : Bool :=
  onCurve x y && decide (0 < r) && decide (r < p384N) && decide (0 < s) && decide (s < p384N) &&
  (let w := invMod p384N s
   let q := pointAdd (pointMul 384 (e * w % p384N) (pointAt p384Gx p384Gy)) (pointMul 384 (r * w % p384N) (pointAt x y))
   let i := invMod p384P q.z
   decide (q.z ≠ 0) && q.x * i % p384P * i % p384P % p384N == r)

/-- A key, as its two coordinates of 48 bytes, that the fused hash names; a blank hash names none (R496, R497, R511). -/
def keyFused (fuse : BitVec 384) (px py : List Byte) : Bool := fuse != 0 && beNat (sha384 (px ++ py)) == fuse.toNat

/-- A signature of 96 bytes over a message (R496, R511). -/
def sigOk (px py r s msg : List Byte) : Bool := ecdsaOk (beNat px) (beNat py) (beNat r) (beNat s) (beNat (sha384 msg))

end Sys2Proof.Machine
end

