-- ==== Sys2Proof/Machine/Cluster.lean ====
section
/-!
DEFINITION. A cluster's own steps: instruction caches (R264, R269), start and thread control (R270, R279, R282), the budget timer
(R276, R336), the fault queue (R279), the supervisor (R280), channels (R285–R287), wait groups (R289), and frequency steps and parking
(R292, R293, R481, R482). Cell operations and transfers that complete while a thread is in FAULT wait for its RESUME (R336).
-/

namespace Sys2Proof.Machine

/-! ## Results of accepted operations (R336) -/

/-- The status or handle of an accepted operation goes to gD and Z. -/
def accWrite (x : Thread) (a : CellReq) : Thread := setZ (gSet x a.rd a.val) a.ok

/-- The operation that the thread waits for. -/
def liveAcc (x : Thread) : Option CellReq := x.acc.find? (·.live)

/-- No operation in progress has a thread that waits for it any more. -/
def orphan (x : Thread) : Thread := { x with acc := (x.acc.filter (fun a => !(a.live && a.done))).map (fun a => { a with live := false }) }

/-! ## Instruction caches (R264, R269) -/

def icWord (s : State) (n pc : Nat) : W32 := BitVec.ofNat 32 (leNat (rdBytes s.gar.smem (sharedKey n (pc - 0x100000)) 4))

/-- Words of core `c` in its cache. -/
def icOf (s : State) (c : Nat) : List Nat := ((s.gar.icache.map (·.1)).filter (fun k => k / 2 ^ 20 == c))

/-- Room for one word in a full cache of 4,096 words: which one goes is a free choice. -/
def icEvict (s : State) (c : Nat) : State :=
  let l := icOf s c
  if l.length < 4096 then s
  else
    let (i, u) := draw s l.length
    { u with gar := { u.gar with icache := mset noWord u.gar.icache (l.getD i 0) none } }

/-- A fill for thread `t` completes: the word at `pc` enters the thread's core's cache, unless it is poisoned (R448): its address and the
state. -/
def icPlace (s : State) (t pc : Nat) : Option Nat × State :=
  let r := placeRead s t (.shared (pc - 0x100000)) 4
  match r.2.1 with
  | some a => (some a, r.2.2)
  | none =>
    let u := icEvict r.2.2 (coreOf t)
    let v := { u with gar := { u.gar with icache := mset noWord u.gar.icache (icKey t pc) (some (icWord u (cluOf t) pc)) } }
    (none, noteWrite v 5 (cluOf t) (icKey t pc) (icKey t pc) true)

/-- The fill that the thread waits for completes. -/
def icFill (s : State) (t : Nat) : State :=
  match icPlace s t (thrOf s t).pc.toNat with
  | (some a, u) =>
    let v := setThr u t { thrOf u t with wait := .none }
    if (thrOf s t).st = .stall then thrFault v t cEcc a else v
  | (none, u) => settleAll (endWait u t (thrOf u t))

/-- The fill for which no thread waits any more completes into the cache (R336). -/
def icLate (s : State) (t : Nat) (pc : W32) (rest : List W32) : State :=
  (icPlace (setThr s t { thrOf s t with fills := rest }) t pc.toNat).2

/-- The oldest fill of the thread completes. -/
def execIcacheMissFill (t : BitVec 14) (s : State) : Out :=
  .next (if thrUp s t.toNat && !isMgt t.toNat && !parked s (cluOf t.toNat) then
    (match (thrOf s t.toNat).fills with
     | pc :: rest => icLate s t.toNat pc rest
     | [] => if (thrOf s t.toNat).wait == .fetch then icFill s t.toNat else s)
    else s)

def icInv (s : State) (n : Nat) : State := s.setFlag F.GCL_CTL_IC_INV n true
def execIcInv (n : Fin 32) (s : State) : Out := .next (if clUp s n.val then icInv s n.val else s)

/-- The invalidation is complete: nothing is cached, and words with a parity error are gone. -/
def icInvDone (s : State) (n : Nat) : State :=
  let u := { s with gar := { s.gar with icache := mkeep (fun k => k / 2 ^ 23 != n) s.gar.icache } }
  (clearBad u 5 (2 ^ 23 * n) (2 ^ 23 * (n + 1))).setFlag F.GCL_CTL_IC_INV n false
def execIcInvDone (n : Fin 32) (s : State) : Out :=
  .next (if clUp s n.val && s.flag F.GCL_CTL_IC_INV n.val then icInvDone s n.val else s)

/-! ## Start (R270) -/

/-- A DORMANT thread starts at `pc`. -/
def startThr (s : State) (t : Nat) (pc : W32) (priv : Bool) : State :=
  let x := thrOf s t
  if x.st = .dormant then setThr s t { x with st := .ready, pc := pc, priv := priv, readyAt := s.clk } else s

/-- A thread's bit of a mask of eight registers. -/
def thrMask (s : State) (r : RegName) (t : Nat) : Bool := bitOf (s.reg r (8 * cluOf t + t % 256 / 32)) (t % 32)

def entryPc (s : State) (n : Nat) : W32 := BitVec.ofNat 32 (4 * s.fld F.GCL_ENTRY_PC n)
def supvPc (s : State) (n : Nat) : W32 := BitVec.ofNat 32 (4 * s.fld F.GCL_SUPV_ENTRY_PC n)

def clusterStart (s : State) (n : Nat) : State :=
  settleAll (foldS ((List.range 256).map (256 * n + ·)) (fun u t =>
    if isSupv u t then startThr u t (supvPc u n) true
    else if thrMask u .GCL_THR_EN t then startThr u t (entryPc u n) (thrMask u .GCL_THR_PRIV t) else u) (s.setFlag F.GCL_STS_STARTED n true))

def execClusterStart (n : Fin 32) (s : State) : Out := .next (if clUp s n.val then clusterStart s n.val else s)

/-! ## The budget timer (R276, R336) -/

/-- A long stall cut short: what the unit has not accepted is withdrawn, accepted lookups, cell operations, transfers and grants stay
(R378), and a fill
of the instruction cache completes without the thread. -/
def cutWait (s : State) (t : Nat) : State :=
  match (thrOf s t).wait with
  | .slots _ => s
  | .cell => s
  | .dma => s
  | .granted _ _ => s
  | .flint _ sem k _ => withdraw (fltWithdraw s (ownerOfThr t) sem k) t
  | .fetch => setThr s t { thrOf s t with wait := .none, fills := (thrOf s t).fills ++ [(thrOf s t).pc] }
  | _ => withdraw s t

/-- The budget of thread `t` has expired. -/
def budgetFault (s : State) (t : Nat) : State := thrFault (if (thrOf s t).st = .stall then cutWait s t else s) t cBudget 0

def execBudgetExpire (t : BitVec 14) (edges : Nat) (s : State) : Out :=
  let u := advance s edges
  let x := thrOf u t.toNat
  .next (if thrUp u t.toNat && budgetOut u t.toNat && (x.st == .run || x.st == .ready || x.st == .stall) then budgetFault u t.toNat else u)

/-! ## The fault queue (R279) -/

def faultqPop (s : State) (n : Nat) : State :=
  match faultqOf s n with
  | [] => { s with rdata := 0 }
  | r :: rest =>
    let s1 := { s with gar := { s.gar with faultq := mset noRecs s.gar.faultq n rest } }
    let s2 := foldS [0, 1, 2, 3] (fun u k => u.setReg .GCL_FAULTQ_REC (4 * n + k) (r.getD k 0).toNat) s1
    settleAll { levelSrc s2 (96 + n) (!rest.isEmpty) 0 with rdata := BitVec.ofNat 64 (2 ^ 31 + rest.length) }

def execFaultqPop (n : Fin 32) (s : State) : Out := .next (if clUp s n.val then faultqPop s n.val else { s with rdata := 0 })

/-! ## Thread control (R276, R279, R282, R336) -/

def thrctlReject (s : State) (n : Nat) : State := s.setFlag F.GCL_STS_THRCTL_REJECT n true

/-- A faulted thread goes on: after BUDGET with the full budget, otherwise with what was left. -/
def reBudget (s : State) (t : Nat) : State :=
  if (thrOf s t).cause = cBudget then (if (thrOf s t).budget = .off then s else armBudget s t) else setThr s t (goBudget s (thrOf s t))

/-- A faulted thread continues at `pc`: what it had waited for is left to complete without it. -/
def goAt (s : State) (t : Nat) (pc : W32) : State :=
  let x := orphan (thrOf s t)
  reBudget (setThr s t { x with st := .ready, wait := .none, pc := pc, readyAt := s.clk }) t

/-- RESUME: the instruction issues again, or an accepted request's wait goes on. -/
def thrResume (s : State) (t : Nat) : State :=
  let x := thrOf s t
  match x.wait with
  | .slots m =>
    if x.pend.toNat &&& m = 0 then goAt s t (x.pc + 4) else reBudget (setThr s t { x with st := .stall }) t
  | .cell => match liveAcc x with
    | some a => if a.done then goAt (rfWrite (setThr s t (accWrite x a)) t a.rd) t (x.pc + 4) else reBudget (setThr s t { x with st := .stall }) t
    | none => goAt s t x.pc
  | .dma => match liveAcc x with
    | some a => if a.done then goAt (rfWrite (setThr s t (accWrite x a)) t a.rd) t (x.pc + 4) else reBudget (setThr s t { x with st := .stall }) t
    | none => goAt s t x.pc
  | .granted rd mark => goAt (rfWrite (setThr s t (setStatus x rd (if mark then tsAbandoned else 0) 0)) t rd) t (x.pc + 4)
  | _ => goAt s t x.pc

/-- A thread's item disposed of as `drop` does (R221, R231, R322): counted DROPPED in the tag's domain, its chain reference removed and
its tag done. A handle that no longer is good is only reported (R123). -/
def dropHeld (s : State) (t : Nat) : State :=
  match (thrOf s t).item with
  | none => s
  | some h =>
    let it := curItem s t
    let hd := itemWord it 0
    let s1 := traceOry (traceThr s t 2 (thrOf s t).pc.toNat 0) 4 h.domain h.queue h.tag t
    let s2 := if hd = nullHandle then s1 else if handleGood s1 hd then unref s1 (hd / 8) else noteBadHandle s1 hd
    let s3 := match h.tag with
      | some g => tagDone (oryDom s2 h.domain 4 (itLen it)) g
      | none => s2
    releaseItem s3 t

/-- DROP: the item goes, and the thread starts again at GCL_ENTRY at its level with its registers, events, watch mask, staging and timer
compare cleared. -/
def thrDrop (s : State) (t : Nat) : State :=
  let u := dropHeld s t
  let x := orphan (thrOf u t)
  clearBad (setThr u t { noThread 0 with st := .ready, priv := x.priv, pc := entryPc u (cluOf t), readyAt := u.clk, acc := x.acc, fills := x.fills,
                                         cause := x.cause, detail := x.detail }) 4 (32 * t) (32 * t + 32)

/-- The operation OP on local thread `i` of cluster `n`, or its refusal. -/
def thrctl (s : State) (n i op : Nat) (pc : W32) (sev : Nat) : State :=
  let t := 256 * n + i
  let x := thrOf s t
  let p := BitVec.ofNat 32 (pc.toNat / 4 * 4)
  let faulty := x.st == .fault
  let no := thrctlReject s n
  if op = 0 then s
  else settleAll (
    if op = 1 then (if faulty then thrResume s t else no)
    else if op = 2 then (if faulty then goAt s t (x.pc + 4) else no)
    else if op = 3 then (if faulty then goAt s t p else no)
    else if op = 4 then (if faulty && x.item.isSome then thrDrop s t else no)
    else if op = 5 then (if isSupv s t then no else thrReset s t)
    else if op = 6 then (if x.st = .dormant then startThr s t p (isSupv s t || thrMask s .GCL_THR_PRIV t) else no)
    else if op = 7 then (if x.st = .dormant then no else setEv s t (BitVec.ofNat 16 (sev % 256 * 256)))
    else no)

def thrctlRow (n : Fin 32) (i : Byte) (op : Nat) (pc : W32) (sev : Byte) (s : State) : Out :=
  .next (if clUp s n.val then thrctl s n.val i.toNat op pc sev.toNat else s)

def execThrctlResume (n : Fin 32) (i : Byte) (s : State) : Out := thrctlRow n i 1 0 0 s
def execThrctlSkip (n : Fin 32) (i : Byte) (s : State) : Out := thrctlRow n i 2 0 0 s
def execThrctlRedirect (n : Fin 32) (i : Byte) (pc : W32) (s : State) : Out := thrctlRow n i 3 pc 0 s
def execThrctlDrop (n : Fin 32) (i : Byte) (s : State) : Out := thrctlRow n i 4 0 0 s
def execThrctlReset (n : Fin 32) (i : Byte) (s : State) : Out := thrctlRow n i 5 0 0 s
def execThrctlStart (n : Fin 32) (i : Byte) (pc : W32) (s : State) : Out := thrctlRow n i 6 pc 0 s
def execThrctlSignal (n : Fin 32) (i sev : Byte) (s : State) : Out := thrctlRow n i 7 0 sev s

/-! ## The supervisor (R280) -/

def inAnyGroup (s : State) (n i : Nat) : Bool := (List.range 8).any (fun w => bitOf (s.reg .GCL_WG_MEMBERS ((8 * n + w) * 8 + i / 32)) (i % 32))

def supvWrite (s : State) (n i : Nat) : State :=
  if inAnyGroup s n i then s.setFlag F.GCL_SUPV_REJECT n true
  else
    let old := 256 * n + s.fld F.GCL_SUPV_TID n
    let x := thrOf s old
    let s1 := if x.st = .dormant then s else setThr s old { x with priv := true }
    let s2 := disarmBudget (s1.setFld F.GCL_SUPV_TID n i) (256 * n + i)
    settleAll s2

def execSupervisorChange (n : Fin 32) (i : Byte) (s : State) : Out := .next (if clUp s n.val then supvWrite s n.val i.toNat else s)

/-! ## Channels (R285–R287) -/

/-- A stopped channel that is empty is drained. -/
def chanDrain (s : State) (c : Nat) : State :=
  if !chanEn s c && (chanOf s c).isEmpty && !(s.gar.transit.any (·.1 == c)) then s.setFlag F.GCL_CH_STS_DRAINED c true else s

/-- Threads blocked in a receive from a channel that has been stopped and is empty complete CHOFF. -/
def receiversOff (s : State) (c : Nat) : State :=
  foldS (s.gar.thr.map (·.1)) (fun u t =>
    let x := thrOf u t
    match x.wait with
    | .recv rd _ d => if d = c && x.st == .stall && (chanOf u c).isEmpty then endWaitNext u t (setStatus x rd tsChoff 0) else u
    | _ => u) s

def chanDisable (s : State) (c : Nat) : State :=
  if chanEn s c then settleAll (chanDrain (receiversOff (sendersOff (s.setFlag F.GCL_CH_CFG_EN c false) (· == c)) c) c) else s
def chanEnable (s : State) (c : Nat) : State :=
  if chanEn s c then s else settleAll ((s.setFlag F.GCL_CH_CFG_EN c true).setFlag F.GCL_CH_STS_DRAINED c false)

def execChannelDisable (n : Fin 32) (c : Fin 64) (s : State) : Out :=
  .next (if clUp s n.val then chanDisable s (64 * n.val + c.val) else s)

/-- A message that has come from another cluster is placed, or discarded at a channel that takes none any more: CHOFF at its sender (R287). -/
def transitLand (s : State) (m : Nat × Msg) : State :=
  let s1 := { s with gar := { s.gar with transit := s.gar.transit.erase m } }
  if clUp s (m.1 / 64) then setChan s1 m.1 (chanOf s1 m.1 ++ [m.2]) else noteChoff s1 m.2.from_

/-- Message `i` of those in transit to channel `c`, whose sender has none before it on its way there (R285). -/
def transitPick (s : State) (c i : Nat) : Option (Nat × Msg) :=
  let l := s.gar.transit.filter (·.1 == c)
  match l[i]? with
  | some m => if (l.take i).any (fun x => x.2.from_ == m.2.from_) then none else some m
  | none => none

def execChannelMessageArrival (n : Fin 32) (c : Fin 64) (i : Nat) (s : State) : Out :=
  .next (match transitPick s (64 * n.val + c.val) i with
    | some m => settleAll (transitLand s m)
    | none => s)

/-! ## Wait groups (R289) -/

/-- The thirds of a CCLK cycle that group `g` of cluster `n` has counted: at the step in force a PCLK cycle is 2, 3 or 4 thirds. -/
def wgCount (s : State) (n : Nat) (g : WgSt) : Option Nat :=
  g.since.map (fun e => g.base + (s.clk - e) * (min 2 (s.fld F.RST_CLU_CLK_STEP_CUR n) + 2))

def wgWindow (s : State) (n : Nat) : Nat := max 1024 (s.fld F.GCL_WG_WINDOW_CYCLES n)

/-- The condition of group `w` has held for the window. -/
def wgDue (s : State) (n w : Nat) : Bool :=
  let g := mget noWg s.gar.wg (8 * n + w)
  !g.raised && (match wgCount s n g with
    | some k => decide (3 * wgWindow s n ≤ k)
    | none => false)

def deadlock (s : State) (n w : Nat) : State :=
  let g := mget noWg s.gar.wg (8 * n + w)
  let s1 := { s with gar := { s.gar with wg := mset noWg s.gar.wg (8 * n + w) { g with raised := true } } }
  let s2 := (s1.setFlag F.GCL_WG_STS_DETECTED (8 * n + w) true).setFld F.GCL_WG_NT_NT (8 * n + w) (nt64 s1)
  let s3 := setEv s2 (256 * n + s.fld F.GCL_SUPV_TID n) 64
  settleAll (count (raiseSrc s3 (64 + n) w) (393216 + 4096 * n + 4094) 1 0)

def execDeadlockDetect (n : Fin 32) (w : Fin 8) (edges : Nat) (s : State) : Out :=
  let u := advance s edges
  .next (if clUp u n.val && !parked u n.val && wgDue u n.val w.val then deadlock u n.val w.val else u)

/-- A write of a group's mask: the supervisor's bit stays 0, a bit of an absent thread does not arise, and the count restarts; a
group that has raised DEADLOCK stays so until its condition fails (R288, R289). -/
def wgMaskWrite (s : State) (n w j v : Nat) : State :=
  let sv := s.fld F.GCL_SUPV_TID n
  let v' := if sv / 32 = j then putBit v (sv % 32) false else v
  let s1 := s.setReg .GCL_WG_MEMBERS ((8 * n + w) * 8 + j) v'
  settleAll { s1 with gar := { s1.gar with wg := mset noWg s1.gar.wg (8 * n + w) ⟨none, 0, (mget noWg s1.gar.wg (8 * n + w)).raised⟩ } }

/-! ## Frequency steps and parking (R292, R293, R481, R482) -/

/-- The step that STEP and LIMIT ask for. -/
def stepWanted (s : State) (n : Nat) : Nat := min (s.fld F.RST_CLU_CLK_STEP n) (s.fld F.RST_CLU_CLK_LIMIT n)

/-- The groups of cluster `n` with their counts changed by `f`. -/
def wgMap (s : State) (n : Nat) (f : WgSt → WgSt) : State :=
  { s with gar := { s.gar with wg := (List.range 8).foldl (fun m w => mset noWg m (8 * n + w) (f (mget noWg m (8 * n + w)))) s.gar.wg } }

/-- What the groups of cluster `n` have counted is kept, and they count on from the present edge. -/
def wgFold (s : State) (n : Nat) : State :=
  wgMap s n (fun g => match wgCount s n g with | some k => { g with since := some s.clk, base := k } | none => g)

/-- A step in progress, or its end. -/
def setStepTo (s : State) (n v : Nat) : State := { s with rst := { s.rst with stepTo := mset noNat s.rst.stepTo n v } }

/-- The step `v` is in force; cycles counted at the old one stay counted (R292). -/
def stepSet (s : State) (n v : Nat) : State := setStepTo ((wgFold s n).setFld F.RST_CLU_CLK_STEP_CUR n v) n 0

/-- A step begins where STEP or LIMIT asks for one and none is in progress (R481, R487). -/
def stepBegin (s : State) (n : Nat) : State :=
  if mget noNat s.rst.stepTo n = 0 && stepWanted s n != s.fld F.RST_CLU_CLK_STEP_CUR n then setStepTo s n (stepWanted s n + 1) else s

/-- The step in progress takes effect, and the next begins if STEP or LIMIT has changed meanwhile (R487). -/
def stepApply (s : State) (n : Nat) : State :=
  let g := mget noNat s.rst.stepTo n
  stepBegin (stepSet s n (if g = 0 then stepWanted s n else g - 1)) n

def execFrequencyStep (n : Fin 32) (s : State) : Out :=
  .next (if s.rst.aon && clusterPresent s n.val && !parked s n.val then stepApply s n.val else s)

/-- The groups of cluster `n` count on from the present edge: what they had counted when its clock stopped stands (R293). -/
def wgOn (s : State) (n : Nat) : State := wgMap s n (fun g => { g with since := g.since.map (fun _ => s.clk) })

/-- The cluster parks: PARK asks for it and the cluster is drained. A step in progress completes first (R487). -/
def parkNow (s0 : State) (n : Nat) : State :=
  let s := if mget noNat s0.rst.stepTo n = 0 then s0 else stepApply s0 n
  let u := (wgFold s n).setFlag F.RST_CLU_CLK_PARKED n true
  if u.flag F.RST_CLU_CLK_DEEP n then u.setFlag F.RST_CLU_CLK_PLL_LOCK n false else u

def execClusterPark (n : Fin 32) (s : State) : Out :=
  .next (if clUp s n.val && s.flag F.RST_CLU_CLK_PARK n.val && !parked s n.val && cluDrained s n.val then parkNow s n.val else s)

/-- CCLK runs again, at the step asked for; what came meanwhile acts (R293). -/
def unparkNow (s : State) (n : Nat) : State :=
  settleAll (cpxUnpark (grantsSeen (stepSet (wgOn ((s.setFlag F.RST_CLU_CLK_PARKED n false).setFlag F.RST_CLU_CLK_PLL_LOCK n true) n) n (stepWanted s n)) n) n)

def execClusterUnpark (n : Fin 32) (s : State) : Out :=
  .next (if clUp s n.val && !s.flag F.RST_CLU_CLK_PARK n.val && parked s n.val then unparkNow s n.val else s)

/-! ## The timer compare (R273, R293) -/

/-- A thread's armed compare has been reached: TIMER sets and the compare is disarmed. -/
def tcmpDue (s : State) (t : Nat) : Bool :=
  thrUp s t && (isMgt t || !parked s (cluOf t)) && (match (thrOf s t).tcmp with
    | some v => decide (v.toNat ≤ nt64 s)
    | none => false)

def tcmpFire (s : State) (t : Nat) : State :=
  let x := thrOf s t
  settleAll (setThr s t { x with tcmp := none, ev := x.ev ||| 1 })

def execTimerCompareFire (t : BitVec 14) (edges : Nat) (s : State) : Out :=
  let u := advance s edges
  .next (if tcmpDue u t.toNat then tcmpFire u t.toNat else u)

end Sys2Proof.Machine
end

