-- ==== Sys2Proof/Machine/Dram.lean ====
section
/-!
DEFINITION. The DDR5 controller's own steps (R412–R426): entry into the channel queues, service, refresh, the patrol scrubber, the
command and training engines, initialisation, enable and disable, and the error registers.
-/

namespace Sys2Proof.Machine

/-- A client request arrives at its port (R411, R413, R420): beyond the capacity a read returns 0 and a write is lost. -/
def dramRequest (s : State) (x : DReq) : State :=
  if drcCapacity s * 2 ^ 24 ≤ x.burst then
    let u := s.bump F.DRC_STS_OOR 0 1
    if isWrite x then u else giveBack u x (List.replicate 64 0) 0
  else enterAll { s with drc := { s.drc with waiting := s.drc.waiting ++ [x] } }

/-- The first burst that a line port's prefetch has neither asked for nor got (R402). -/
def pfNext (s : State) (p : Nat) : Option Nat :=
  let out := (s.drc.waiting ++ (List.range 6).flatMap (rqOf s)).filter (fun y => y.port == 0 && y.line == p)
  (pfList s p).find? (fun b => !out.any (·.burst == b))

/-- `wr` is the offset and the bytes of a write, `line` the line port of a real-time read, which is made for the first burst that its
prefetch has not yet asked for (R402). -/
def execDramRequest (k : Fin 8) (burst : BitVec 33) (wr : Option (Fin 64 × List Byte)) (line : Fin 16) (edges : Nat) (s : State) : Out :=
  let u := advance s edges
  .next (if drcReady u && (k.val ≠ 0 || wr.isSome || pfNext u line.val == some burst.toNat) then
    dramRequest u ⟨k.val, burst.toNat, wr.map (fun d => (d.1.val, d.2.take (64 - d.1.val))), line.val, 0, 0, false⟩ else u)

/-! ## Service (R416, R417) -/

/-- The channel's slot where its next request is a read, or, with `wr`, a write: the request is served; a refresh at its limit goes first
(R416, R418). `pos` are the x4 positions at which the devices return a burst corrupted (R422). -/
def slot (s : State) (c : Nat) (wr : Bool) (pos : List Nat) : State :=
  match [0, 1].find? (refAtLimit s c) with
  | some r => refresh s c r
  | none =>
    match chooseNext s c with
    | some x => if isWrite x == wr then serveNext s c x pos else s
    | none => s

def execDramReadComplete (c : Fin 6) (x : BurstBack) (s : State) : Out :=
  let u := advance s x.edges
  .next (if dramOn u then slot u c.val false (x.pos.map (·.val)) else u)

def execDramWriteDrain (c : Fin 6) (edges : Nat) (s : State) : Out :=
  let u := advance s edges
  .next (if dramOn u then slot u c.val true [] else u)

/-! ## Refresh (R418) -/

/-- A rank of the channel is refreshed. -/
def execDramRefresh (x : Fin 6 × Fin 2) (s : State) : Out :=
  .next (if dramOn s && chanInSet s x.1.val then refresh s x.1.val x.2.val else s)

/-- MR4 of a rank read: the interval it indicates, in ns, and whether it is above 85 °C. A first reading starts the rank's refresh. -/
def mr4 (s : State) (c r ns : Nat) (hot : Bool) : State :=
  let k := 2 * c + r
  let first := mget noNat s.drc.refInt k = 0
  let u := { s with drc := { s.drc with refInt := mset noNat s.drc.refInt k ns, hot := mset noBool s.drc.hot k hot } }
  let v := u.setFlag F.DRC_CH_STS_HI_TEMP c (mget noBool u.drc.hot (2 * c) || mget noBool u.drc.hot (2 * c + 1))
  if first then { v with drc := { v.drc with refDue := mset noNat v.drc.refDue k (v.tim.elapsed + refInterval v c r) } } else v

def execMr4Poll (c : Fin 6) (x : Mr4Read) (s : State) : Out :=
  .next (if dramOn s && chanInSet s c.val then mr4 s c.val x.rank.val x.ns.toNat x.hot else s)

/-! ## The patrol scrubber (R424) -/

/-- Up to three x4 positions, free: where the devices return the scrubber's burst corrupted (R422; log entry 23). -/
def freePos (s : State) : List Nat × State :=
  let (n, u) := draw s 4
  (List.range n).foldl (fun x _ => let (p, v) := draw x.2 10; (x.1 ++ [p], v)) ([], u)

/-- One burst read through port 7 (R412). -/
def scrubBurst (s : State) (b : Nat) : State :=
  let (pos, u) := freePos s
  (dramPass (deviceError u b pos) 7 b none).2.2

def dramScrub (s : State) : State :=
  let n := drcCapacity s * 2 ^ 24
  if n = 0 then s
  else
    let b := s.drc.scrubPos % n
    let u := scrubBurst s b
    if b + 1 = n then { u with drc := { u.drc with scrubPos := 0 } }.wrapAdd F.DRC_SCRUB_STS_PASSES 0 1
    else { u with drc := { u.drc with scrubPos := b + 1 } }

def execDramScrubRead (s : State) : Out :=
  .next (if drcReady s && s.flag F.DRC_SCRUB_EN 0 && !panicOn s then dramScrub s else s)

/-! ## The command engine (R425) -/

/-- Fields of a command: channel, subchannel, rank, address and data. -/
def mrwGo (s : State) (op ch sub rank addr data : Nat) : State :=
  let put := fun (u : State) => foldS [(F.DRC_MRW_OP, op), (F.DRC_MRW_CH, ch), (F.DRC_MRW_SUB, sub), (F.DRC_MRW_RANK, rank), (F.DRC_MRW_ADDR, addr),
    (F.DRC_MRW_DATA, data)] (fun v x => v.setFld x.1 0 x.2) u
  if !memUp s then s
  else if s.flag F.DRC_MRW_BUSY 0 || !dramOn s then put s
  else { (put s).setFlag F.DRC_MRW_BUSY 0 true with drc := { s.drc with mrw := some (op, ch, sub, rank, addr, data) } }

def execModeRegisterWrite (ch : BitVec 3) (sub rank : Bool) (addr : BitVec 12) (data : Byte) (s : State) : Out :=
  .next (mrwGo s 0 ch.toNat (b2n sub) (b2n rank) addr.toNat data.toNat)
def execModeRegisterRead (ch : BitVec 3) (sub rank : Bool) (addr : BitVec 12) (data : Byte) (s : State) : Out :=
  .next (mrwGo s 1 ch.toNat (b2n sub) (b2n rank) addr.toNat data.toNat)
def execRcdWrite (ch : BitVec 3) (sub rank : Bool) (addr : BitVec 12) (data : Byte) (s : State) : Out :=
  .next (mrwGo s 2 ch.toNat (b2n sub) (b2n rank) addr.toNat data.toNat)
def execRcdRead (ch : BitVec 3) (sub rank : Bool) (addr : BitVec 12) (data : Byte) (s : State) : Out :=
  .next (mrwGo s 3 ch.toNat (b2n sub) (b2n rank) addr.toNat data.toNat)

def devKey (op ch sub rank addr : Nat) : Nat := op * 2 ^ 20 + ch * 2 ^ 16 + sub * 2 ^ 15 + rank * 2 ^ 14 + addr

/-- The command finishes; `v` is what a read gives. -/
def mrwDone (s : State) (v : Byte) : State :=
  match s.drc.mrw with
  | none => s
  | some (op, ch, sub, rank, addr, data) =>
    let u := { s with drc := { s.drc with mrw := none } }.setFlag F.DRC_MRW_BUSY 0 false
    if op % 2 = 1 then u.setFld F.DRC_MRW_DATA 0 v.toNat
    else { u with drc := { u.drc with devRegs := mset zeroByte u.drc.devRegs (devKey op ch sub rank addr) (BitVec.ofNat 8 data) } }

def execMrwComplete (v : Byte) (s : State) : Out := .next (if memUp s then mrwDone s v else s)

/-! ## The training engine (R425) -/

def trnGo (s : State) (step ch sub rank lo hi : Nat) : State :=
  let u := foldS [(F.DRC_TRN_CTL_STEP, step), (F.DRC_TRN_CTL_CH, ch), (F.DRC_TRN_CTL_SUB, sub), (F.DRC_TRN_CTL_RANK, rank), (F.DRC_TRN_CTL_SWEEP_LO, lo),
    (F.DRC_TRN_CTL_SWEEP_HI, hi)] (fun v x => v.setFld x.1 0 x.2) s
  if !memUp s then s
  else if s.flag F.DRC_TRN_CTL_BUSY 0 || decide (8 ≤ step) then u
  else { u.setFlag F.DRC_TRN_CTL_BUSY 0 true with drc := { u.drc with trn := some step } }

def trnRow (step : Nat) (ch : BitVec 3) (sub rank : Bool) (lo hi : Byte) (s : State) : Out :=
  .next (trnGo s step ch.toNat (b2n sub) (b2n rank) lo.toNat hi.toNat)

def execCsTraining (ch : BitVec 3) (sub rank : Bool) (lo hi : Byte) (s : State) : Out := trnRow 0 ch sub rank lo hi s
def execCaTraining (ch : BitVec 3) (sub rank : Bool) (lo hi : Byte) (s : State) : Out := trnRow 1 ch sub rank lo hi s
def execWriteLevelling (ch : BitVec 3) (sub rank : Bool) (lo hi : Byte) (s : State) : Out := trnRow 2 ch sub rank lo hi s
def execReadStrobeGating (ch : BitVec 3) (sub rank : Bool) (lo hi : Byte) (s : State) : Out := trnRow 3 ch sub rank lo hi s
def execReadDataEye (ch : BitVec 3) (sub rank : Bool) (lo hi : Byte) (s : State) : Out := trnRow 4 ch sub rank lo hi s
def execWriteDataEye (ch : BitVec 3) (sub rank : Bool) (lo hi : Byte) (s : State) : Out := trnRow 5 ch sub rank lo hi s
def execDqReferenceVoltage (ch : BitVec 3) (sub rank : Bool) (lo hi : Byte) (s : State) : Out := trnRow 6 ch sub rank lo hi s
def execCaReferenceVoltage (ch : BitVec 3) (sub rank : Bool) (lo hi : Byte) (s : State) : Out := trnRow 7 ch sub rank lo hi s

/-- Lanes that a step reports. -/
def trnLanes (step : Nat) : Nat := if step = 0 then 1 else if step = 1 || step = 7 then 14 else 40

/-- The step finishes with the edges (left, right, or none passed) of each lane. -/
def trnDone (s : State) (res : List (Byte × Byte × Bool)) : State :=
  match s.drc.trn with
  | none => s
  | some k =>
    let u := foldS ((res.take (trnLanes k)).zipIdx) (fun v x =>
      v.setReg .DRC_TRN_RES x.2 (x.1.1.toNat * 2 ^ 16 + x.1.2.1.toNat * 2 ^ 8 + b2n x.1.2.2 * 2 ^ 7)) s
    { u with drc := { u.drc with trn := none } }.setFlag F.DRC_TRN_CTL_BUSY 0 false

def execTrainingStepDone (res : List (Byte × Byte × Bool)) (s : State) : Out := .next (if memUp s then trnDone s res else s)

/-! ## Initialisation, enable and disable (R419, R420, R426) -/

def drcReject (s : State) : State := s.setFlag F.DRC_STS_REJECT 0 true

def initGo (s : State) : State :=
  if s.flag F.DRC_CTL_EN 0 || !dramOn s || s.flag F.DRC_CTL_INIT_GO 0 then drcReject s
  else (s.setFlag F.DRC_CTL_INIT_GO 0 true).setFlag F.DRC_STS_INIT_DONE 0 false
def execInitGo (s : State) : Out := .next (if memUp s then initGo s else s)

/-- Every burst holds zeros with valid check bits. -/
def initDone (s : State) : State :=
  ((clearBad { s with dram := [] } 13 0 (2 ^ 64)).setFlag F.DRC_CTL_INIT_GO 0 false).setFlag F.DRC_STS_INIT_DONE 0 true
def execInitDone (s : State) : Out := .next (if dramOn s && s.flag F.DRC_CTL_INIT_GO 0 then initDone s else s)

def drcEnable (s : State) : State :=
  if s.flag F.DRC_CTL_EN 0 then s
  else if drcCapacity s = 0 || !s.flag F.DRC_CTL_DRAM_RESET_N 0 || !s.flag F.DRC_STS_INIT_DONE 0 then drcReject s
  else enterAll ((s.setFlag F.DRC_CTL_EN 0 true).setFlag F.DRC_STS_DRAINED 0 false)
def execDrcEnable (s : State) : Out := .next (if memUp s then drcEnable s else s)

/-- A DRAM client area is enabled. -/
def dramAreaOn (s : State) : Bool :=
  s.flag F.CRN_DRAM_CFG_EN 0 || s.flag F.ORY_DLY_CTL_EN 0 ||
  (List.range 64).any (fun t => s.flag F.AGT_TBL_CFG_EN t && s.flag F.AGT_TBL_CFG_LOC t) ||
  (List.range 4096).any (fun q => s.flag F.ORY_Q_CFG_EN q && s.flag F.ORY_Q_CFG_POLICY q && s.fld F.ORY_Q_SPILL_CFG_SPILL_LOG2 q != 0)

def drcDisable (s : State) : State :=
  if !s.flag F.DRC_CTL_EN 0 then s
  else if dramAreaOn s then drcReject s
  else drcDrain (s.setFlag F.DRC_CTL_EN 0 false)
def execDrcDisable (s : State) : Out := .next (if memUp s then drcDisable s else s)

/-- DRAM_RESET_N goes low: the contents are lost, no row is open, and refresh stops (R420, R421). -/
def dramLose (s : State) : State :=
  (clearBad { s with dram := [], drc := { s.drc with rows := [], refInt := [], refDue := [], hot := [] } } 13 0 (2 ^ 64)).setFlag F.DRC_CTL_DRAM_RESET_N 0 false

/-! ## Error registers (R423) -/

def eccRead (s : State) (c : Nat) : State :=
  { s.setReg .DRC_CH_ECC c 0 with rdata := BitVec.ofNat 64 (s.reg .DRC_CH_ECC c), drc := { s.drc with thrDone := mset noBool s.drc.thrDone c false } }
def execDrcEccRead (c : Fin 6) (s : State) : Out := .next (if memUp s && channelPresent s c.val then eccRead s c.val else { s with rdata := 0 })

def eccAddrRead (s : State) (c : Nat) : State := { s.setReg .DRC_CH_ECC_ADDR c 0 with rdata := BitVec.ofNat 64 (s.reg .DRC_CH_ECC_ADDR c) }
def execDrcEccAddrRead (c : Fin 6) (s : State) : Out :=
  .next (if memUp s && channelPresent s c.val then eccAddrRead s c.val else { s with rdata := 0 })

end Sys2Proof.Machine
end

