-- ==== Sys2Proof/Machine/Epoch.lean ====
section
/-!
DEFINITION. Epoch flips (R54–R57, R61) and CNT_DUMP (R58–R60, R452).
-/

namespace Sys2Proof.Machine

/-! ## Flips -/

/-- The epoch unit that owns an on-chip counter set. -/
def epochUnit (k : Nat) : Nat :=
  if k < 512 then k / 32
  else if k < 8192 then 16
  else if k < 10240 then 17
  else if k < 12288 then 18
  else if k < 13312 then 19
  else if k < 14336 then 32 + (k - 13312) / 16
  else if k < 98304 then 21
  else if k < 327680 then 20
  else if k < 393216 then 21
  else 32 + (k - 393216) / 4096

/-- The bank of a set that is frozen, while bank B or bank A is live. -/
def frozen (liveB : Bool) (c : CntSet) : Bank := if liveB then c.a else c.b
def setFrozen (liveB : Bool) (c : CntSet) (b : Bank) : CntSet := if liveB then { c with a := b } else { c with b := b }

/-- A frozen bank counts as cleared (R57). -/
def bankClear (c : CntSet) (b : Bank) : Bool := b.pkts == 0 && b.bytes == 0 && !b.mark && !c.bad

/-- Sets whose frozen bank has not been cleared get the merge mark as it becomes live again; answers whether any did. -/
def markSets (liveB : Bool) (m : SMap CntSet) : SMap CntSet :=
  m.map (fun e => if bankClear e.2 (frozen liveB e.2) then e else (e.1, setFrozen liveB e.2 { frozen liveB e.2 with mark := true }))

def mergedUnits (liveB : Bool) (s : State) : List Nat :=
  ((s.tim.cnt.filter (fun (e : Nat × CntSet) => !bankClear e.2 (frozen liveB e.2))).map (fun (e : Nat × CntSet) => epochUnit e.1) ++
   (s.tim.entryCnt.filter (fun (e : Nat × CntSet) => !bankClear e.2 (frozen liveB e.2))).map (fun (_ : Nat × CntSet) => 19)).eraseDups

/-! ## Records of a dump (R60, R452) -/

/-- The set of entry `i` of a dump, and a set written with good check bits. -/
def dumpSet (s : State) (space table i : Nat) : CntSet :=
  if space = 0 then mget noSet s.tim.cnt i else entSet s table i
def putDumpSet (s : State) (space table i : Nat) (c : CntSet) : State :=
  if space = 0 then noteWrite { s with tim := { s.tim with cnt := mset noSet s.tim.cnt i c } } 10 0 i i true
  else setStore s 2 table i c

/-- What a read of a counter set finds in its check bits (R446, R452): an uncorrectable error makes the set invalid. -/
def probeSet (s : State) (space table i : Nat) : State :=
  if space = 0 then countProbe s i else setProbe s 2 table i

/-- One record, and the state with the frozen bank read and cleared as one operation. -/
def dumpOne (s : State) (liveB : Bool) (space table i : Nat) : List Byte × State :=
  let u := probeSet s space table i
  let c := dumpSet u space table i
  let b := frozen liveB c
  if c.bad then (leBytes 8 (2 ^ 64 - 1) ++ leBytes 8 (2 ^ 64 - 1), putDumpSet u space table i (noSet 0))
  else (leBytes 8 (b.pkts.toNat % 2 ^ 63 + b2n b.mark * 2 ^ 63) ++ leBytes 8 b.bytes.toNat,
        putDumpSet u space table i (setFrozen liveB c noBank))

/-- Records of `n` sets from `i`, each for its 16 bytes from `addr`. -/
def dumpRecs : Nat → State → Bool → Nat → Nat → Nat → Nat → List (Nat × List Byte) × State
  | 0, s, _, _, _, _, _ => ([], s)
  | n + 1, s, liveB, space, table, i, addr =>
    let r := dumpOne s liveB space table i
    let t := dumpRecs n r.2 liveB space table (i + 1) (addr + 16)
    ((addr, r.1) :: t.1, t.2)

/-- The header of a dump (R60). -/
def dumpHeader (s : State) (space table first done : Nat) (cut : Bool) : List Byte :=
  let last := s.reg .TIM_EPOCH_LAST 0
  leBytes 4 (s.fld F.TIM_EPOCH_STS_SEQ 0 * 2 ^ 16 + space * 2 ^ 8 + 1) ++ leBytes 4 first ++ leBytes 4 done ++
  leBytes 4 (table * 2 ^ 8 + b2n cut) ++ leBytes 8 s.tim.prevFlip.toNat ++ leBytes 8 last ++
  leBytes 8 (s.reg .GLB_ASSIGNED_ID 0) ++ leBytes 24 0

/-- A dump ends with `n` records (R60): header, completion body and status OK. -/
def dumpEnd (s : State) (c : CtlCmd) (space table first n : Nat) (addr : W64) (cut : Bool) : State :=
  let liveB := s.flag F.TIM_EPOCH_STS_LIVE 0
  let r := dumpRecs n s liveB space table first (addr.toNat + 64)
  ctlFinish r.2 c (r.1 ++ [(addr.toNat, dumpHeader r.2 space table first n cut)]) stOk [n, r.2.fld F.TIM_EPOCH_STS_SEQ 0 * 2 ^ 16 + b2n cut]

/-- A flip cuts the dumps in progress short (R60): how many records each has written is a free choice below its count. -/
def cutDump (s : State) (c : CtlCmd) : State :=
  match c.work with
  | .cntDump space table first n addr => let (k, u) := draw s n; dumpEnd u c space table first k addr true
  | _ => s

/-! ## The flip -/

/-- The smallest multiple of the period past `now`, from `at_` (R43, R55). -/
def nextFlipAt (at_ per now : Nat) : Nat := if now < at_ + per then at_ + per else at_ + ((now - at_) / per + 1) * per

/-- A flip at this edge (R54, R55, R57). -/
def flip (s0 : State) (late : Bool) : State :=
  let s := foldS s0.hif.ctl cutDump s0
  let liveB := s.flag F.TIM_EPOCH_STS_LIVE 0
  let inst := if late then nt64 s else s.reg .TIM_EPOCH_AT 0
  let seq := (s.fld F.TIM_EPOCH_STS_SEQ 0 + 1) % 2 ^ 16
  let units := mergedUnits liveB s
  let s1 := { s with tim := { s.tim with
    cnt := markSets liveB s.tim.cnt, entryCnt := markSets liveB s.tim.entryCnt, flipAt := some s.tim.elapsed,
    prevFlip := BitVec.ofNat 64 (s.reg .TIM_EPOCH_LAST 0), flipLate := false } }
  let s2 := (((s1.setFlag F.TIM_EPOCH_STS_LIVE 0 (!liveB)).setFld F.TIM_EPOCH_STS_SEQ 0 seq).setFlag F.TIM_EPOCH_STS_SWITCHED 0 true).setReg
    .TIM_EPOCH_LAST 0 inst
  let s3 := foldS units (fun u k => (u.setFlag F.TIM_EPOCH_MERGE_MERGED k true).setFld F.TIM_EPOCH_MERGE_SEQ k seq) s2
  let per := s3.reg .TIM_EPOCH_PERIOD 0
  let s4 := if per = 0 then s3.setFlag F.TIM_EPOCH_CTL_ARM 0 false
    else s3.setReg .TIM_EPOCH_AT 0 (nextFlipAt (s3.reg .TIM_EPOCH_AT 0) (max 100000 per) (nt64 s3))
  raiseSrc s4 33 seq

/-- A flip is armed, and its instant has come. -/
def flipWanted (s : State) : Bool := s.flag F.TIM_EPOCH_CTL_ARM 0 && decide (s.reg .TIM_EPOCH_AT 0 ≤ nt64 s)

/-- Less than 100 µs of elapsed time have passed since the last flip. -/
def flipSoon (s : State) : Bool :=
  match s.tim.flipAt with
  | some e => decide (s.tim.elapsed - e < 100000 * 2 ^ 32)
  | none => false

/-- The flip that is due, or its deferral (R56). -/
def flipDue (s : State) : State :=
  if !flipWanted s then s
  else if flipSoon s then { s.setFlag F.TIM_EPOCH_STS_DEFERRED 0 true with tim := { s.tim with flipLate := true } }
  else flip s s.tim.flipLate

/-- A deferred flip happens at the first of `n` edges that lies 100 µs past the last one, if there is such an edge (R56). -/
def flipDeferred (s : State) (n : Nat) : State :=
  if flipSoon (advance s n) then advance s n
  else
    let k := firstEdge (fun k => !flipSoon (advance s k)) (n.log2 + 1) 0 n
    advance (flipDue (advance s k)) (n - k)

/-- `n` edges pass, and the flip whose instant one of them reaches happens at that edge or is deferred from there (R55, R56). -/
def flipRun (s : State) (n : Nat) : State :=
  if !flipWanted (advance s n) then advance s n
  else
    let m := firstEdge (fun k => flipWanted (advance s k)) (n.log2 + 1) 0 n
    let v := flipDue (advance s m)
    if flipWanted v then flipDeferred v (n - m) else advance v (n - m)

def execEpochFlip (edges : Nat) (s : State) : Out := .next (if pktUp s then flipRun s edges else advance s edges)

/-! ## Arming (R54, R61) -/

/-- ARM set: a request of R27, so SWITCHED clears; an instant already past flips at the next edge. -/
def epochArm (s : State) : State :=
  if s.flag F.TIM_EPOCH_CTL_ARM 0 then s
  else
    let u := (s.setFlag F.TIM_EPOCH_CTL_ARM 0 true).setFlag F.TIM_EPOCH_STS_SWITCHED 0 false
    { u with tim := { u.tim with flipLate := decide (u.reg .TIM_EPOCH_AT 0 < nt64 u) } }

def epochDisarm (s : State) : State :=
  let u := s.setFlag F.TIM_EPOCH_CTL_ARM 0 false
  { u with tim := { u.tim with flipLate := false } }

def epochAtWrite (s : State) (v : Nat) : State :=
  let u := s.setReg .TIM_EPOCH_AT 0 v
  { u with tim := { u.tim with flipLate := u.flag F.TIM_EPOCH_CTL_ARM 0 && decide (v < nt64 u) } }

def execEpochArm (s : State) : Out := .next (if pktUp s then epochArm s else s)
def execEpochDisarm (s : State) : Out := .next (if pktUp s then epochDisarm s else s)
def execEpochAtWrite (v : W64) (s : State) : Out := .next (if pktUp s then epochAtWrite s v.toNat else s)

/-! ## CNT_DUMP (R58–R60) -/

/-- The checks of R59 in order, and the work that follows. -/
def cntDump (c : Ctl) (s : State) : CtlRes :=
  let space := bits (bodyWord c 0) 7 0
  let t := bits (bodyWord c 0) 13 8
  let first := bodyWord c 1
  let n := bodyWord c 2
  let size := if space = 0 then 524288 else tblCounted s t
  if 1 < space || n = 0 || 65536 < n then .done stRange []
  else if space = 1 && (!s.flag F.AGT_TBL_CFG_EN t || !s.flag F.AGT_TBL_CFG_CNT_EN t) then .done stAbsent []
  else if space = 1 && s.flag F.AGT_TBL_STS_INIT t then .done stBusy []
  else if size < first + n then .done stRange []
  else .later (.cntDump space t first n (BitVec.ofNat 64 (bodyDword c 3)))

def execCntDump (c : Ctl) (s : State) : Out := .next (ctlExec s c 0x0201 (fun u _ => (cntDump c u, u)))

def isDump : CtlWork → Bool
  | .cntDump .. => true
  | _ => false

/-- The dump in progress of ring `k` at `index`, and its work. -/
def ctlDump (s : State) (k index : Nat) : Option (CtlCmd × CtlWork) :=
  (s.hif.ctl.find? (fun c => c.ring == k && c.index == index && isDump c.work)).map (fun c => (c, c.work))

/-- A dump of ring `k` at `index` runs to its end. -/
def execCntDumpComplete (k : Fin 64) (index : BitVec 17) (s : State) : Out :=
  match ctlDump s k.val index.toNat with
  | some (c, .cntDump space table first n addr) => .next (if pktUp s then dumpEnd s c space table first n addr false else s)
  | _ => .next s

end Sys2Proof.Machine
end

