-- ==== Sys2Proof/Machine/Icu.lean ====
section
/-!
DEFINITION. The interrupt controller's steps (R431–R440, R444), MGT's sleep (R483), and the integrity unit's: resent beats (R453), the
on-chip scrubber (R462) and error injection (R463).
-/

namespace Sys2Proof.Machine

/-! ## Routing, delivery and claims (R434–R437) -/

/-- The entry of source `i` is read; a lost one is not pending (R452). -/
def srcProbe (s : State) (i : Nat) : State :=
  arrProbe s 7 i (fun u => dropOut (u.setReg .ICU_PEND_SET (i / 32) (putBit (u.reg .ICU_PEND_SET (i / 32)) (i % 32) false)) i)

/-- A deliverable source is routed; with no available target it waits, counted in STALLED. -/
def routeSrc (s0 : State) (i : Nat) : State :=
  let s := srcProbe s0 i
  if deliverable s i then
    match routeChoice s i with
    | some e => { s with icu := { s.icu with next := mset noNat s.icu.next i ((e + 1) % 8), flight := s.icu.flight ++ [⟨i, routeTgt s i e⟩] } }
    | none => s
  else s

def execIcuRouteChoice (i : BitVec 10) (s : State) : Out := .next (if pktUp s then routeSrc s i.toNat else s)

def execIcuDeliveryComplete (i : BitVec 10) (s : State) : Out :=
  .next (if pktUp s then
    match s.icu.flight.find? (·.src == i.toNat) with
    | some x => settleAll (completeFlight s x)
    | none => s
  else s)

/-- A 4-byte read of the claim address of source `i` at target `t`. -/
def claimRead (s : State) (t i : Nat) : State :=
  let r := claimSrc (srcProbe s i) t i
  settleAll { r.2 with rdata := BitVec.ofNat 64 r.1 }

def execIcuClaim (t : Fin 97) (i : BitVec 10) (s : State) : Out :=
  .next (if pktUp s then claimRead s t.val i.toNat else { s with rdata := 0 })

/-! ## Pending and mask (R431, R432, R438, R439, R444) -/

/-- The sources that the ones of word `j` name, of those that exist. -/
def srcsOf (j w : Nat) : List Nat := ((List.range 32).filter (bitOf w)).map (· + 32 * j) |>.filter isListed

def pendSet (s : State) (j w : Nat) : State :=
  foldS (srcsOf j w) (fun u i => if isLevel i || !srcPresent u i then u else setPending u i true) s
def pendClr (s : State) (j w : Nat) : State :=
  settleAll (foldS (srcsOf j w) (fun u i => if isLevel i then u else dropOut (setPending u i false) i) s)
def maskSet (s : State) (j w : Nat) : State := settleAll (foldS (srcsOf j w) (fun u i => dropOut (setMasked u i true) i) s)
def maskClr (s : State) (j w : Nat) : State := foldS (srcsOf j w) (fun u i => setMasked u i false) s

def execIcuPendSet (j : Fin 32) (w : W32) (s : State) : Out := .next (if pktUp s then pendSet s j.val w.toNat else s)
def execIcuPendClr (j : Fin 32) (w : W32) (s : State) : Out := .next (if pktUp s then pendClr s j.val w.toNat else s)
def execIcuMaskSet (j : Fin 32) (w : W32) (s : State) : Out := .next (if pktUp s then maskSet s j.val w.toNat else s)
def execIcuMaskClr (j : Fin 32) (w : W32) (s : State) : Out := .next (if pktUp s then maskClr s j.val w.toNat else s)

/-- A write of SW_SET in a supervisor's view. -/
def swSet (s : State) (w : Nat) : State := if 512 ≤ w % 1024 && decide (w % 1024 ≤ 1022) then raiseSrc s (w % 1024) 0 else s
def execSwSet (n : Fin 32) (w : W32) (s : State) : Out := .next (if clUp s n.val && pktUp s then swSet s w.toNat else s)

/-! ## MGT's sleep (R440, R483) -/

def mgtSlots : List Nat := (List.range 8).map (0x2000 + ·)

/-- Every MGT thread is in `wait` or `waitt` with nothing outstanding. -/
def mgtQuiet (s : State) : Bool :=
  mgtSlots.all (fun t => (thrOf s t).st == .stall && !outstanding s t && (match (thrOf s t).wait with | .ev _ _ _ => true | _ => false))

/-- Target 32 saved, MGCLK stopped. -/
def mgtSleep (s : State) : State :=
  let l := outSet s 32
  let u := { s with icu := { s.icu with
    retEn := s.flag F.ICU_TGT_CFG_EN 32, retOut := l, retNew := false, out := s.icu.out.filter (fun e => e.2 != some 32) } }
  ((u.setFlag F.ICU_RET_STS_SAVED 0 true).setFlag F.RST_MGT_PWR_ASLEEP 0 true).bump F.RST_MGT_PWR_SLEEPS 0 1

def execMgtSleep (s : State) : Out :=
  .next (if mgtUp s && s.flag F.RST_MGT_PWR_SLEEP_EN 0 && !s.flag F.RST_MGT_PWR_ASLEEP 0 && mgtQuiet s then mgtSleep s else s)

/-- Something that wakes MGT: a delivery, a wait that an event has ended, or a timer compare within 4 µs. -/
def wakeDue (s : State) : Bool :=
  s.icu.retNew ||
  mgtSlots.any (fun t => let x := thrOf s t
    x.st == .ready || x.st == .run || (match x.tcmp with | some v => decide (v.toNat ≤ nt64 s + 4000) | none => false))

/-- The copy restored, MGCLK running. -/
def mgtWake (s : State) : State :=
  let u := { s with icu := { s.icu with
    out := s.icu.retOut.foldl (fun m i => mset noTgt m i (some 32)) s.icu.out, retOut := [], retNew := false } }
  let v := ((u.setFlag F.ICU_TGT_CFG_EN 32 s.icu.retEn).setFlag F.ICU_RET_STS_SAVED 0 false).setFlag F.RST_MGT_PWR_ASLEEP 0 false
  settleAll (if s.icu.retNew then v.bump F.ICU_RET_STS_WAKES 0 1 else v)

def execMgtWake (edges : Nat) (s : State) : Out :=
  let u := advance s edges
  .next (if mgtUp u && u.flag F.RST_MGT_PWR_ASLEEP 0 && wakeDue u then mgtWake u else u)

/-! ## The on-chip network (R453) -/

/-- Failures in a row of the beat at hop `h`, whether the hop has stopped, and what they become. -/
def nocFails (s : State) (h : Nat) : Nat := mget noNat s.integ.nocFail h
def nocStopped (s : State) (h : Nat) : Bool := mget noBool s.integ.nocStuck h
def setNoc (s : State) (h n : Nat) : State := { s with integ := { s.integ with nocFail := mset noNat s.integ.nocFail h n } }

/-- A beat is resent; `again` says that it is the beat that failed last. Its 256th failure is NOC_STUCK's. -/
def execNocBeatResend (h : Byte) (again : Bool) (s : State) : Out :=
  let n := (if again then nocFails s h.toNat else 0) + 1
  .next (if pktUp s && !nocStopped s h.toNat && decide (n < 256) then (setNoc s h.toNat n).bump F.RST_ERR_CNT_CE 12 1 else s)

/-- Requests of threads and lookups that a hop may hold: thread and place in its list, and place among the lookups. -/
def inFlight (s : State) : List (Nat × Nat) × List Nat :=
  (s.gar.thr.flatMap (fun e => ((List.range e.2.acc.length).filter (fun i => e.2.acc.any (fun a => e.2.acc[i]? == some a && !a.done && !a.stuck))).map
    (fun i => (e.1, i))),
   (List.range s.agt.lookups.length).filter (fun j => match s.agt.lookups[j]? with | some k => !k.stuck | none => false))

/-- The transaction whose beat has stopped does not complete (R453). Which of those in flight it is, or that it is none of them, is a free
choice. -/
def holdOne (s : State) : State :=
  let c := inFlight s
  let (i, u) := draw s (c.1.length + c.2.length + 1)
  match c.1[i]? with
  | some (t, k) => setThr u t { thrOf u t with acc := (thrOf u t).acc.modify k (fun a => { a with stuck := true }) }
  | none =>
    match c.2[i - c.1.length]? with
    | some j => { u with agt := { u.agt with lookups := u.agt.lookups.modify j (fun k => { k with stuck := true }) } }
    | none => u

def nocStuck (s : State) (h : Nat) : State :=
  let u := { setNoc s h 0 with integ := { (setNoc s h 0).integ with nocStuck := mset noBool s.integ.nocStuck h true } }
  holdOne ((noteUe u 12 10 1 3 h 0).setFlag F.RST_ELOG_STS_NOC_STUCK 0 true)

def execNocStuck (h : Byte) (s : State) : Out :=
  .next (if pktUp s && !nocStopped s h.toNat && nocFails s h.toNat == 255 then nocStuck s h.toNat else s)

/-! ## The on-chip scrubber (R462) -/

/-- Units of each memory, in the order of a pass: memories 0, 1, 2, 3, 10, 11 and 6; the entries of memory 11 are read together, and Agate's tables one after another. -/
def scrubSize (k : Nat) : Nat :=
  match k with
  | 0 => 4194304
  | 1 => 524288
  | 2 => 256 * 32768
  | 3 => 32 * 262144
  | 4 => 524288
  | 5 => 1
  | _ => 64 * 2 ^ 32

/-- A unit of a memory with SECDED read by the scrubber: corrected, or recorded and left. -/
def scrubUnit (s : State) (m u cls ce ue d0 d1 : Nat) : State :=
  let e := unitErr s m u
  if e = 0 then s else if e = 1 then noteCe (setUnitErr s m u 0) m cls ce d0 d1 else noteUe s m cls ue 2 d0 d1

/-- A cluster's memories are read while it runs. -/
def scrubClu (s : State) (n : Nat) : Bool := clUp s n && !parked s n

/-- The units of memory 11 with an error: slots of items that are there, and entries of the other arrays. -/
def badState (s : State) : List Nat :=
  ((s.integ.bad.map (·.1)).filter (fun k => k / 2 ^ 64 == 11)).map (· % 2 ^ 64) |>.filter
    (fun u => decide (2 ^ 48 ≤ u) || (s.ory.onchip.flatMap (·.2)).any (fun x => x.uid == u))

/-- Memory 11 read: what can be corrected is, and what cannot is recorded and left. -/
def scrubState (s : State) : State :=
  foldS (badState s) (fun u i =>
    if unitErr u 11 i = 1 then (setUnitErr u 11 i 0).bump F.RST_ERR_CNT_CE 11 1 else noteStateLost u) s

def scrubAt (s : State) (k pos : Nat) : State :=
  match k with
  | 0 => scrubUnit s 0 pos 2 1 2 (handleOf (pos / 8)) 6
  | 1 =>
    let e := unitErr s 1 pos
    if e = 0 then s else if e = 1 then noteCe (setUnitErr s 1 pos 0) 1 2 1 (handleOf pos) 6 else noteUe s 1 2 3 2 (handleOf pos) 0
  | 2 => let n := pos / 2 ^ 18
    if scrubClu s n then scrubUnit s 2 pos 6 1 2 (256 * n) (4 * (pos % 2 ^ 15)) else s
  | 3 => let n := pos / 2 ^ 18
    if scrubClu s n then scrubUnit s 3 pos 6 1 2 (256 * n) (0x100000 + 4 * (pos % 2 ^ 18)) else s
  | 4 => countProbe s pos
  | 5 => scrubState s
  | _ => let t := pos / 2 ^ 32
    let loc := pos % 2 ^ 32
    let u := if unitErr s 6 (locKey t loc) ≠ 0 && !locInDram s t loc && !locListed s t loc then noteParity s t loc else s
    let v := if unitErr u 6 (setUnit t loc) ≠ 0 then setProbe u 2 t loc else u
    if unitErr v 6 (pfxUnit t loc) ≠ 0 && !locListed v t loc then noteParity v t loc else v

/-- The position after a read: in memory 6 a table's locations end after its stash slots. -/
def scrubNext (s : State) (k pos : Nat) : Nat :=
  if k = 6 && tblSize s (pos / 2 ^ 32) + 4096 ≤ pos % 2 ^ 32 + 1 then (pos / 2 ^ 32 + 1) * 2 ^ 32 else pos + 1

def scrubStep (s : State) : State :=
  let k := s.integ.scrubMem
  let u := scrubAt s k s.integ.scrubPos
  let p := scrubNext s k s.integ.scrubPos
  if p < scrubSize k then { u with integ := { u.integ with scrubPos := p } }
  else
    let v := { u with integ := { u.integ with scrubPos := 0, scrubMem := (k + 1) % 7 } }
    if k = 6 then v.wrapAdd F.RST_SCRUB_STS_PASSES 0 1 else v

def execOnchipScrubRead (s : State) : Out :=
  .next (if pktUp s && s.flag F.RST_SCRUB_CFG_EN 0 then settleAll (scrubStep s) else s)

/-! ## Error injection (R463) -/

/-- ARM written: TARGET 12 acts on the next beat, which always follows, and 14 and 15 are ignored. -/
def einjArm (s : State) : State :=
  let m := s.fld F.RST_EINJ_CTL_TARGET 0
  if s.flag F.RST_EINJ_CTL_ARM 0 || decide (14 ≤ m) then s
  else if m = 12 then s.setFlag F.RST_EINJ_CTL_DONE 0 true
  else s.setFlag F.RST_EINJ_CTL_ARM 0 true

/-- The control word that arms, and its address. -/
def execEinjArm (target : BitVec 4) (bts : BitVec 2) (cluster : Fin 32) (mtch : Bool) (addr : W64) (s : State) : Out :=
  .next (if pktUp s then
    einjArm (foldS [(F.RST_EINJ_CTL_TARGET, target.toNat), (F.RST_EINJ_CTL_BITS, bts.toNat), (F.RST_EINJ_CTL_CLUSTER, cluster.val),
      (F.RST_EINJ_CTL_MATCH, b2n mtch), (F.RST_EINJ_ADDR_ADDR, addr.toNat)] (fun v x => v.setFld x.1 0 x.2) s)
  else s)

end Sys2Proof.Machine
end

