-- ==== Sys2Proof/Machine/Power.lean ====
section
/-!
DEFINITION. Power-on and brown-out, the reset pins, software and block resets, releases (R466–R475), the watchdog (R476), clock failures
(R480) and thermal logic (R484–R486).
-/

namespace Sys2Proof.Machine

/-! ## Power (R466, R470, R471, R489) -/

/-- The device with every domain, AON included, at its reset values: its identity stays, and so do host memory and what has left it. -/
def powerDown (s : State) : State :=
  let z : State := { State.reset with
    pending := s.pending, variant := s.variant, stepping := s.stepping, present := s.present, clk := s.clk, fresh := s.fresh,
    hif := { Hif.zero with mem := s.hif.mem, sent := s.hif.sent, posted := s.hif.posted },
    egr := { Egr.zero with wire := s.egr.wire },
    rst := { Rst.zero with aon := false, events := [], fuse := s.rst.fuse, strap := s.rst.strap },
    pio := { Pio.zero with spiSent := s.pio.spiSent, i2c1Sent := s.pio.i2c1Sent, gpioIn := s.pio.gpioIn } }
  variantRegs (z.setReg .RST_DOM_STS_CL 0 (presentMask s).toNat)

/-- AON is released: every other domain is free, in one release event. -/
def aonRelease (s : State) (strap : BitVec 2) : State :=
  { s with rst := { s.rst with
    aon := true, strap := strap, events := [⟨s.clk / 60, [1, 2, 4, 5, 6] ++ (presentClusters s).map dCl, none⟩] } }

/-- Power comes on with the levels of BOOT_MODE: after a removal (`cold`), or after a brown-out whose record is kept. -/
def execPowerOn (cold : Bool) (strap : BitVec 2) (s : State) : Out :=
  .next (if cold then aonRelease (powerDown s) strap else if s.rst.aon then s else aonRelease s strap)

def brownOut (s : State) : State :=
  let u := powerDown s
  ((u.setReg .RST_CAUSE 0 (putBit (s.reg .RST_CAUSE 0) 1 true)).setReg .RST_LOCKUP_CL 0 (s.reg .RST_LOCKUP_CL 0)).setFlag
    F.RST_THERM_STS_TRIPPED 0 (s.flag F.RST_THERM_STS_TRIPPED 0)

def execBrownOut (s : State) : Out := .next (if s.rst.aon then brownOut s else s)

/-! ## Pins (R466, R469, R114, R86) -/

def srcHeld (s : State) (src : RstSrc) : Bool := s.rst.holds.any (fun h => h.src == src)

def execResetNAssert (s : State) : Out :=
  .next (if s.rst.aon && !srcHeld s .resetN then assertSrc s ⟨.resetN, 2 ^ 8, none⟩ 2 else s)
def execResetNRelease (s : State) : Out := .next (releaseSrcs s (fun h => h.src == .resetN))

/-- PERST_N[1] belongs to a link only in the layout with two links; its level counts in either (R86). -/
def perstAssert (s : State) (h : Nat) : State :=
  let x : RstHold := ⟨.perst h, 2 ^ (2 + h), none⟩
  if h = 0 || s.hif.bifur then assertSrc s x (3 + h) else { s with rst := { s.rst with holds := s.rst.holds ++ [x] } }

def execPerstAssert (h : Fin 2) (s : State) : Out :=
  .next (if s.rst.aon && !srcHeld s (.perst h.val) then perstAssert s h.val else s)
def execPerstRelease (h : Fin 2) (s : State) : Out := .next (releaseSrcs s (fun x => x.src == .perst h.val))

/-! ## Software requests (R474) -/

/-- Bits that requests of a list have. -/
def reqBits (req : Nat) : List Nat := ([1, 2, 3, 4, 5, 6, 8] ++ (List.range 32).map (32 + ·)).filter (bitOf req)

/-- The request bits of the two registers: bits of no domain fall away. -/
def swBits (s : State) (w cl : Nat) : Nat := (w % 2 ^ 9 &&& 0x17E) + (cl &&& (presentMask s).toNat) * 2 ^ 32

/-- A software request asserted: a pulse, or a hold of its own for each bit. -/
def swAssert (s : State) (req : Nat) : State :=
  if s.flag F.RST_SWRST_CFG_HOLD 0 then
    let old := s.rst.holds.filter (fun h => h.src == RstSrc.sw && h.till.isNone)
    let u := assertSrc s ⟨.sw, req, none⟩ 6
    let new := ((reqBits req).filter (fun b => !(old.any (fun h => h.req == 2 ^ b)))).map (fun b => (⟨.sw, 2 ^ b, none⟩ : RstHold))
    { u with rst := { u.rst with holds := s.rst.holds ++ new } }
  else pulse s .sw req 6

/-- A write to RST_SWRST (`w`) or RST_SWRST_CL (`cl`): refused for MEM alone while DRC is not drained, and unchecked for a cluster
that is not drained (R295). -/
def swRequest (s : State) (w cl : Nat) : Out :=
  let req := swBits s w cl
  if req = 0 then .next s
  else if bitOf req 4 && !bitOf req 5 && !bitOf req 8 && !s.flag F.DRC_STS_DRAINED 0 then .next (s.setFlag F.RST_SWRST_CFG_REJECT 0 true)
  else if (List.range 32).any (fun n => bitOf req (32 + n) && clUp s n && !cluDrained s n) then .fault .clusterNotDrained
  else .next (swAssert s req)

def execSoftwareResetRequest (w : BitVec 9) (cl : W32) (s : State) : Out := if s.rst.aon then swRequest s w.toNat cl.toNat else .next s

def swRelease (s : State) (w cl : Nat) : State :=
  let req := swBits s w cl
  releaseSrcs s (fun h => h.src == RstSrc.sw && h.till.isNone && (reqBits req).any (fun b => h.req == 2 ^ b))

def execSoftwareResetRelease (w : BitVec 9) (cl : W32) (s : State) : Out := .next (if s.rst.aon then swRelease s w.toNat cl.toNat else s)

/-- The requests asserted, as RST_SWRST and RST_SWRST_CL read. -/
def swHeld (s : State) : Nat :=
  ([1, 2, 3, 4, 5, 6, 8] ++ (List.range 32).map (32 + ·)).foldl (fun v b =>
    if s.rst.holds.any (fun h => h.src == RstSrc.sw && bitOf h.req b) then v + 2 ^ b else v) 0

/-! ## Pulses and releases (R466, R469, R470) -/

def execResetPulseEnd (edges : Nat) (s : State) : Out :=
  let u := advance s edges
  .next (releaseSrcs u (fun h => match h.till with | some e => decide (e ≤ u.clk) | none => false))

def execDomainRelease (edges : Nat) (s : State) : Out :=
  let u := advance s edges
  .next (if u.rst.aon then releaseNext u else u)

/-! ## Block resets (R26, R475) -/

/-- Every instance of a DRAINED bit is 1. -/
def allDrained (s : State) (f : Fld) : Bool := (regsOf s f.reg).all (fun i => s.flag f i)

/-- Work of Agate that a control command has in progress: a flush, or a dump of a table's counters (R59). -/
def isAgtWork : CtlWork → Bool
  | .tblFlush _ => true
  | .cntDump 1 _ _ _ _ => true
  | _ => false

/-- Agate is busy with nothing but control commands, which its block reset completes RESET (R214). -/
def agtCmdOnly (s : State) : Bool := s.agt.lookups.isEmpty && s.hif.ctl.any (fun c => isAgtWork c.work)

/-- DRAINED of a block: 0 HIF, 1 LPT, 2 CRN, 3 PRS, 4 AGT, 5 ORY, 6 EGR, 7 DRC (R84, R116, R137, R162, R188, R255, R406, R428). -/
def blkDrained (s : State) (b : Nat) : Bool :=
  match b with
  | 0 => [0, 1, 2, 3, 4].all (fun k : Fin 5 => allDrained s (ringFlds k).drained)
  | 1 => allDrained s F.LPT_STS_DRAINED
  | 2 => allDrained s F.CRN_POOL_STS_DRAINED
  | 3 => s.flag F.PRS_STS_DRAINED 0
  | 4 => s.flag F.AGT_STS_DRAINED 0 || agtCmdOnly s
  | 5 => s.flag F.ORY_STS_DRAINED 0
  | 6 => s.flag F.EGR_STS_DRAINED 0
  | _ => s.flag F.DRC_STS_DRAINED 0

/-- Registers of the PKT domain in a range of addresses back at their reset values. -/
def blkRegs (s : State) (lo hi : Nat) : State :=
  regsReset s (fun r _ => (regDesc r).dom == .pkt && decide (lo ≤ (regDesc r).base) && decide ((regDesc r).base < hi))

/-- The block's registers and internal state at the values of its domain's reset; egress takes Meridian with it (log entry 24). -/
def blkReset (s : State) (b : Nat) : State :=
  match b with
  | 0 =>
    let u := blkRegs s 0x400000 0x600000
    let v := (u.setReg .HIF_LINK_STS 0 (s.reg .HIF_LINK_STS 0)).setReg .HIF_LINK_STS 1 (s.reg .HIF_LINK_STS 1)
    clearBad { v with hif := { Hif.zero with fns := s.hif.fns, vfEn := s.hif.vfEn, numVfs := s.hif.numVfs, bifur := s.hif.bifur, mem := s.hif.mem,
                                             sent := s.hif.sent, posted := s.hif.posted } } 11 (arrUnit 4 0) (arrUnit 5 0)
  | 1 => domRegs { s with lpt := [] } .line
  | 2 => clearBad (clearBad { blkRegs s 0x800000 0x900000 with crn := Crn.zero } 0 0 (2 ^ 64)) 1 0 (2 ^ 64)
  | 3 => clearBad { blkRegs s 0x900000 0xA00000 with prs := { win := [], waiting := [], joint := false } } 8 0 (2 ^ 64)
  | 4 =>
    let u := { blkRegs s 0xA00000 0xC00000 with agt := Agt.zero, tim := { s.tim with entryCnt := [] } }
    clearBad (clearBad (ctlReset u isAgtWork) 6 0 (2 ^ 64)) 7 0 (2 ^ 64)
  | 5 => clearBad { blkRegs s 0xC00000 0xE00000 with ory := Ory.zero } 11 0 (arrUnit 3 0)
  | 6 => clearBad { blkRegs s 0xE00000 0x1000000 with egr := { Egr.zero with wire := s.egr.wire } } 11 (arrUnit 3 0) (arrUnit 4 0)
  | _ => drcReset s

/-- The bit of a block in RST_BLK_RST. -/
def blkFld (b : Nat) : Fld := ⟨.RST_BLK_RST, b, b⟩

def blkWrite (s : State) (b : Nat) : Out :=
  if !blkDrained s b then .fault .blockNotDrained
  else .next (settleAll ((blkReset s b).setFlag (blkFld b) 0 true))

def execBlockReset (b : Fin 8) (s : State) : Out :=
  if s.rst.aon && !s.flag (blkFld b.val) 0 then blkWrite s b.val else .next s
def execBlockResetDone (b : Fin 8) (s : State) : Out := .next (s.setFlag (blkFld b.val) 0 false)

/-! ## The watchdog (R476) -/

/-- RST_WDT_CFG written while EN = 0: EN starts the count. -/
def wdtStart (s : State) : State := if s.flag F.RST_WDT_CFG_EN 0 && s.rst.wdt == .off then wdtRestart s else s

def wdtKey (s : State) (key : Nat) : State :=
  if !s.flag F.RST_WDT_CFG_EN 0 then s
  else if key % 2 ^ 16 = 0xC1A5 then wdtKick s
  else s.setFlag F.RST_WDT_STS_BADKICK 0 true

def execWdtKick (key : W16) (s : State) : Out := .next (if s.rst.aon then wdtKey s key.toNat else s)

/-- The warning is due: WARN_MS below TIMEOUT_MS, that time left, and not yet raised for this count. -/
def warnDue (s : State) : Bool :=
  let w := s.fld F.RST_WDT_CFG_WARN_MS 0
  decide (w < max 1 (s.fld F.RST_WDT_CFG_TIMEOUT_MS 0)) && !s.flag F.RST_WDT_STS_WARNED 0 &&
  (match wdtLeft s with | some l => decide (l ≤ w * msEdges) | none => false)

def execWdtWarn (edges : Nat) (s : State) : Out :=
  let u := advance s edges
  .next (if u.rst.aon && warnDue u then raiseSrc (u.setFlag F.RST_WDT_STS_WARNED 0 true) 170 0 else u)

def wdtExpire (s : State) : State :=
  let u := { s with rst := { s.rst with wdt := .waiting } }.bump F.RST_WDT_STS_EXPIRED 0 1
  pulse u .wdt (if u.flag F.RST_WDT_CFG_REACH 0 then 2 ^ 8 else 2) 5

def execWdtExpire (edges : Nat) (s : State) : Out :=
  let u := advance s edges
  .next (if u.rst.aon && wdtLeft u == some 0 then wdtExpire u else u)

/-! ## Clocks (R472, R480) -/

/-- What the failure of clock `k` reaches, its cause bit, and the detail of CLK_FAIL. -/
def clkReach (k : Nat) : Nat :=
  if k = 0 then 2 ^ 8 else if k ≤ 2 then 2 ^ 6 else if k = 3 then 2 ^ 2 + 2 ^ 3 else if k = 4 then 2 ^ 5 else if k = 5 then 2 ^ 4
  else if k = 6 then 2 else 2 ^ (32 + (k - 16))
def clkCause (k : Nat) : Nat := if k = 0 then 8 else if k ≤ 2 then 9 else if k = 3 then 10 else 11
def clkDetail (k : Nat) : Nat := clkCause k - 8

/-- Clocks: 0 SYSREF_CLK, 1–2 ETH_REFCLK, 3 PCIE_REFCLK, 4–6 PLL_P, PLL_M, PLL_G, 16 + n PLL_C[n]. -/
def clkExists (s : State) (k : Nat) : Bool := decide (k ≤ 6) || (decide (16 ≤ k) && clusterPresent s (k - 16))

/-- The monitors' report of a clock. -/
def clkReport (s : State) (k : Nat) (ok : Bool) : State :=
  match k with
  | 0 =>
    let u := ((s.setFlag F.RST_CLKMON_STS_SYSREF_OK 0 ok).setReg .RST_PLL_STS 0 (if ok then 7 else 0))
    foldS (presentClusters u) (fun v n => v.setFlag F.RST_CLU_CLK_PLL_LOCK n ok) u
  | 1 => s.setFlag F.RST_CLKMON_STS_ETH0_OK 0 ok
  | 2 => s.setFlag F.RST_CLKMON_STS_ETH1_OK 0 ok
  | 3 => s.setFlag F.RST_CLKMON_STS_PCIE_OK 0 ok
  | 4 => s.setFlag F.RST_PLL_STS_P 0 ok
  | 5 => s.setFlag F.RST_PLL_STS_M 0 ok
  | 6 => s.setFlag F.RST_PLL_STS_G 0 ok
  | _ => s.setFlag F.RST_CLU_CLK_PLL_LOCK (k - 16) ok

def clkCount (s : State) (k : Nat) : State :=
  match k with
  | 0 => s
  | 1 => s.bump F.RST_CLKMON_CNT_ETH0 0 1
  | 2 => s.bump F.RST_CLKMON_CNT_ETH1 0 1
  | 3 => s.bump F.RST_CLKMON_CNT_PCIE 0 1
  | _ => s.bump F.RST_CLKMON_CNT_PLL 0 1

def clkFailure (s : State) (k : Nat) : State :=
  let u := clkCount (clkReport s k false) k
  assertSrc { u with rst := { u.rst with clkFail := some (clkDetail k) } } ⟨.clk k, clkReach k, none⟩ (clkCause k)

def execClockFailure (k : Fin 48) (s : State) : Out :=
  .next (if s.rst.aon && clkExists s k.val && !srcHeld s (.clk k.val) then clkFailure s k.val else s)

/-- The reference has been good for 100 µs and the PLLs that it feeds lock. -/
def execClockRecovery (k : Fin 48) (s : State) : Out :=
  .next (if s.rst.aon && clkExists s k.val then releaseSrcs (clkReport s k.val true) (fun h => h.src == .clk k.val) else s)

/-! ## Thermal logic (R484–R486) -/

/-- A sensor's reading in 0.25 °C, while VALID. -/
def tempOf (s : State) (i : Nat) : Option Int :=
  if s.flag F.RST_TS_VALID i then some (BitVec.ofNat 12 (s.fld F.RST_TS_TEMP i)).toInt else none

def sensors : List Nat := List.range 36
def sensorAt (s : State) (i : Nat) (deg : Int) : Bool := match tempOf s i with | some t => decide (4 * deg ≤ t) | none => false

/-- The valid sensor with the highest reading; the lowest number of equals. -/
def maxSensor (s : State) : Nat :=
  (sensors.foldl (fun (b : Nat × Option Int) i =>
    match tempOf s i, b.2 with
    | some t, some m => if m < t then (i, some t) else b
    | some t, none => (i, some t)
    | none, _ => b) (0, none)).1

/-- THERM_ALARM follows its condition, with the sensor that crossed first. -/
def alarmSync (s : State) : State :=
  let hot := sensors.find? (fun i => sensorAt s i (s.fld F.RST_THERM_CFG_ALARM_C 0))
  let first := match hot with
    | none => none
    | some i => match s.rst.alarm with | some j => some j | none => some i
  let u := { s with rst := { s.rst with alarm := first } }.setFlag F.RST_THERM_STS_ALARM 0 first.isSome
  levelSrc u 171 first.isSome (first.getD 0)

/-- LIMIT of cluster `n` with its THROTTLED. -/
def setLimit (s : State) (n l : Nat) : State :=
  stepBegin ((s.setFld F.RST_CLU_CLK_LIMIT n l).setFlag F.RST_CLU_CLK_THROTTLED n (decide (l < 2))) n

/-- A trip at 125 °C (R486). -/
def tripSync (s : State) : State :=
  if sensors.any (fun i => sensorAt s i 125) then
    let u := (s.setFlag F.RST_THERM_STS_TRIPPED 0 true).setReg .RST_CAUSE 0 (putBit (s.reg .RST_CAUSE 0) 14 true)
    foldS (presentClusters u) (fun v n => setLimit v n 0) u
  else s

/-- The sensors that count for a cluster. -/
def cluSensors (n : Nat) : List Nat := [n, 32, 33, 34, 35]
def cluHot (s : State) (n : Nat) : Bool := (cluSensors n).any (fun i => sensorAt s i (s.fld F.RST_THERM_CFG_THROTTLE_C 0))
def cluCool (s : State) (n : Nat) : Bool :=
  (cluSensors n).all (fun i => !sensorAt s i ((s.fld F.RST_THERM_CFG_THROTTLE_C 0 : Int) - s.fld F.RST_THERM_CFG_HYST_C 0))

def noSince : Nat → Option Nat := fun _ => none

/-- Since when each cluster has been hot, or cool. -/
def heatSync (s : State) : State :=
  foldS (presentClusters s) (fun u n =>
    let h := if cluHot u n then (match mget noSince u.rst.hotAt n with | some e => some e | none => some u.clk) else none
    let c := if cluCool u n then (match mget noSince u.rst.coolAt n with | some e => some e | none => some u.clk) else none
    { u with rst := { u.rst with hotAt := mset noSince u.rst.hotAt n h, coolAt := mset noSince u.rst.coolAt n c } }) s

def takeTemps (s : State) (ts : List (BitVec 12)) : State :=
  foldS ((ts.take 36).zipIdx) (fun u x => if x.2 < 32 && !clusterPresent u x.2 then u else u.setReg .RST_TS x.2 (2 ^ 12 + x.1.toNat)) s

/-- A sample of the sensors, in order. -/
def thermSample (s : State) (ts : List (BitVec 12)) : State :=
  let u := takeTemps s ts
  settleAll (heatSync (tripSync (alarmSync (u.setFld F.RST_THERM_STS_MAX_SENSOR 0 (maxSensor u)))))

def execThermalSample (ts : List (BitVec 12)) (edges : Nat) (s : State) : Out :=
  let u := advance s edges
  .next (if u.rst.aon then thermSample u ts else u)

/-- 100 µs and 1 ms in PCLK edges. -/
def sinceDue (m : SMap (Option Nat)) (n clk len : Nat) : Bool := match mget noSince m n with | some e => decide (e + len ≤ clk) | none => false

def execThrottleStepDown (n : Fin 32) (edges : Nat) (s : State) : Out :=
  let u := advance s edges
  let l := u.fld F.RST_CLU_CLK_LIMIT n.val
  .next (if u.rst.aon && u.flag F.RST_THERM_CFG_THR_EN 0 && decide (0 < l) && sinceDue u.rst.hotAt n.val u.clk 150000 then
    let v := { u with rst := { u.rst with hotAt := mset noSince u.rst.hotAt n.val (some u.clk) } }
    (setLimit v n.val (l - 1)).bump F.RST_THERM_STS_THROTTLE_CNT 0 1
  else u)

def execThrottleStepUp (n : Fin 32) (edges : Nat) (s : State) : Out :=
  let u := advance s edges
  let l := u.fld F.RST_CLU_CLK_LIMIT n.val
  .next (if u.rst.aon && u.flag F.RST_THERM_CFG_THR_EN 0 && decide (l < 2) && sinceDue u.rst.coolAt n.val u.clk 1500000 then
    setLimit { u with rst := { u.rst with coolAt := mset noSince u.rst.coolAt n.val (some u.clk) } } n.val (l + 1)
  else u)

/-- THR_EN = 0: every LIMIT is 2 (R485). -/
def throttleOff (s : State) : State := if s.flag F.RST_THERM_CFG_THR_EN 0 then s else foldS (presentClusters s) (fun u n => setLimit u n 2) s

end Sys2Proof.Machine
end

