-- ==== Sys2Proof/Machine/Boot.lean ====
section
/-!
DEFINITION. The boot ROM, the signed image and MGT's own registers (R489–R505).
-/

namespace Sys2Proof.Machine

/-! ## The image (R495, R496) -/

/-- The header area, and word `i` of the header in it. -/
def hdrArea : Nat := 0xFFE00
def hdrBytes (s : State) (ofs n : Nat) : List Byte := rdBytes s.mgtMem (hdrArea + ofs) n
def hdrWord (s : State) (i : Nat) : Nat := leNat (hdrBytes s (4 * i) 4)

def imgLen (s : State) : Nat := hdrWord s 2
def imgLoad (s : State) : Nat := hdrWord s 3
def imgEntry (s : State) : Nat := hdrWord s 4

/-- Words 0 and 1 hold MAGIC, FORMAT and HDR_WORDS. -/
def imgMagic (s : State) : Bool := hdrWord s 0 == 0x4D535A31 && hdrWord s 1 == 0x00010080

/-- Words 0–2 are valid (R498). -/
def hdrValid (s : State) : Bool := imgMagic s && imgLen s % 16 == 0 && decide (16 ≤ imgLen s)

/-- The words that must be 0. -/
def imgZeros (s : State) : Bool := (List.range 128).all (fun i =>
  !((6 ≤ i && i ≤ 15) || (40 ≤ i && i ≤ 63) || 88 ≤ i) || hdrWord s i == 0)

def imgRange (s : State) : Bool :=
  decide (imgLoad s + imgLen s ≤ hdrArea) && decide (imgLoad s ≤ imgEntry s) && decide (imgEntry s < imgLoad s + imgLen s) && imgEntry s % 4 == 0

def imgSigned (s : State) : Bool :=
  sigOk (hdrBytes s 64 48) (hdrBytes s 112 48) (hdrBytes s 256 48) (hdrBytes s 304 48) (hdrBytes s 0 256 ++ rdBytes s.mgtMem (imgLoad s) (imgLen s))

/-- The error of the first check that fails, or 0 (R496, R497). -/
def imgCheck (s : State) : Nat :=
  if !(imgMagic s && imgZeros s) then 1
  else if !imgRange s then 2
  else if s.rst.fuse = 0 then 7
  else if !keyFused s.rst.fuse (hdrBytes s 64 48) (hdrBytes s 112 48) then 3
  else if !imgSigned s then 4
  else 0

/-! ## Stages (R498) -/

def romAt (s : State) (k : Nat) : Bool := s.fld F.MGT_BOOT_STS_STAGE 0 == k

/-- The ROM runs on slot 0, which Edsen has not halted. -/
def romRuns (s : State) : Bool := mgtUp s && ((thrOf s 0x2000).st == .run || (thrOf s 0x2000).st == .ready)

def romErr (s : State) (e : Nat) : State := s.setFld F.MGT_BOOT_STS_ERR 0 e

/-- The ROM goes on to the next copy, or falls back to the host. -/
def nextCopy (s : State) : State :=
  if s.flag F.MGT_BOOT_STS_COPY 0 then romStage (s.setFlag F.MGT_BOOT_STS_FELLBACK 0 true) 2
  else romStage (s.setFlag F.MGT_BOOT_STS_COPY 0 true) 1

def mgtWrite (s : State) (a : Nat) (bs : List Byte) : State := { s with mgtMem := wrBytes s.mgtMem a bs }

/-- Bytes `ofs` to `ofs + n − 1` of what the flash returned; 0 beyond its end. -/
def flashBytes (bs : List Byte) (ofs n : Nat) : List Byte := (List.range n).map (fun i => bs.getD (ofs + i) 0)

/-- A copy has been read: its header to the header area, and with a valid header its payload to LOAD. A payload that would not lie below the
header area is left to the check of its range. -/
def spiLoaded (s : State) (bs : List Byte) : State :=
  let u := mgtWrite s hdrArea (flashBytes bs 0 512)
  if !hdrValid u then nextCopy (romErr u 1)
  else romStage (if imgLoad u + imgLen u ≤ hdrArea then mgtWrite u (imgLoad u) (flashBytes bs 512 (imgLen u)) else u) 3

/-- `bs` is what the flash holds from the first byte of the copy named by COPY. -/
def execSpiLoadComplete (bs : List Byte) (s : State) : Out := .next (if romRuns s && romAt s 1 then spiLoaded s bs else s)

def execSpiFlashTimeout (s : State) : Out := .next (if romRuns s && romAt s 1 then nextCopy (romErr s 5) else s)

def hostGo (s : State) : State := if romRuns s && romAt s 2 then romStage s 3 else s
def execHostGo (s : State) : Out := .next (hostGo s)

/-- What the ROM's own instructions leave in the registers of slot 0 is free. -/
def romLeaves (s : State) (x : Thread) : Thread :=
  let v := fun k => Config.value (s.fresh + k)
  let y := (List.range 31).foldl (fun (z : Thread) r => gSet z (r + 1) ((v r).setWidth 32)) x
  { y with a0 := v 31, a1 := v 32, flags := BitVec.ofNat 1024 ((List.range 16).foldl (fun a k => a + (v (33 + k)).toNat * 2 ^ (64 * k)) 0) }

/-- The image is accepted: VERSION is copied, the ROM goes out of reach and slot 0 jumps to ENTRY (R498). -/
def enterFw (s : State) : State :=
  let u := (s.setReg .MGT_FW_VERSION 0 (hdrWord s 5)).setFlag F.PIO_SPI_CTL_ROM_OWN 0 false
  let v := setThr u 0x2000 { romLeaves u (thrOf u 0x2000) with st := .run, pc := BitVec.ofNat 32 (imgEntry u) }
  romStage { v with fresh := v.fresh + 49 } 4

/-- The next source after an image that was not accepted. -/
def nextSource (s : State) : State :=
  if s.fld F.MGT_BOOT_STS_MODE 0 = 0 && !s.flag F.MGT_BOOT_STS_FELLBACK 0 then nextCopy s else romStage s 2

def execImageVerifyComplete (s : State) : Out :=
  .next (if romRuns s && romAt s 3 then
    (if imgCheck s = 0 then enterFw s else nextSource (romErr s (imgCheck s)))
  else s)

def execRomWdtKick (s : State) : Out :=
  .next (if romRuns s && decide (s.fld F.MGT_BOOT_STS_STAGE 0 ≤ 3) then wdtKick s else s)

/-! ## Faults and slots of MGT (R493, R494) -/

/-- A write of 1 to MGT_FAULT_DONE by MGT slot `t`. -/
def mgtFaultDone (s : State) (t : Nat) : State := setThr s t { thrOf s t with inFault := false }
def execMgtFaultDone (t : Fin 8) (s : State) : Out := .next (if mgtUp s then mgtFaultDone s (0x2000 + t.val) else s)

/-- The operation OP on slot `i`, or its refusal. -/
def mgtThrctl (s : State) (i op : Nat) (pc : W32) (sev : Nat) : State :=
  let t := 0x2000 + i
  let no := s.setFlag F.MGT_STS_THRCTL_REJECT 0 true
  let off := (thrOf s t).st == .dormant
  if op = 0 then s
  else settleAll (
    if op = 5 then thrReset s t
    else if op = 6 then (if off then startThr s t (BitVec.ofNat 32 (pc.toNat / 4 * 4)) true else no)
    else if op = 7 then (if off then no else setEv s t (BitVec.ofNat 16 (sev % 256 * 256)))
    else no)

def execMgtThrctlStart (i : Fin 8) (pc : W32) (s : State) : Out := .next (if mgtUp s then mgtThrctl s i.val 6 pc 0 else s)
def execMgtThrctlReset (i : Fin 8) (s : State) : Out := .next (if mgtUp s then mgtThrctl s i.val 5 0 0 else s)
def execMgtThrctlSignal (i : Fin 8) (sev : Byte) (s : State) : Out := .next (if mgtUp s then mgtThrctl s i.val 7 0 sev.toNat else s)

/-! ## The memory window (R499, R501, R505) -/

/-- The window serves the access. -/
def winAllowed (s : State) (wr : Bool) : Bool :=
  if romAt s 2 then true
  else if wr then !romAt s 3 && s.fld F.MGT_CFG_HOST_MEM 0 == 2
  else s.fld F.MGT_CFG_HOST_MEM 0 != 0

/-- An access of 4 or 8 bytes at offset `ofs` of the window, naturally aligned (R550). -/
def winAccess (s : State) (ofs n : Nat) (wr : Option W64) : State :=
  if ofs % n ≠ 0 then { s with rdata := 0 }
  else if !winAllowed s wr.isSome then { s.setFlag F.MGT_BOOT_STS_WIN_REJECT 0 true with rdata := 0 }
  else
    let a := s.fld F.MGT_MEMWIN_BASE_PAGE 0 * 2 ^ 16 + ofs
    match wr with
    | some v => mgtWrite s a (leBytes n v.toNat)
    | none => { s with rdata := BitVec.ofNat 64 (leNat (rdBytes s.mgtMem a n)) }

def execMgtMemwinAccess (ofs : W16) (wide : Bool) (wr : Option W64) (s : State) : Out :=
  .next (if mgtUp s then winAccess s ofs.toNat (if wide then 8 else 4) wr else { s with rdata := 0 })

end Sys2Proof.Machine
end

