-- ==== Sys2Proof/Machine/Branch.lean ====
section
/-!
DEFINITION. Bit variables (R300, R301, R309, R492) and control transfer (R308).
-/

namespace Sys2Proof.Machine

/-! ## Bit variables -/

/-- The key of a cluster-shared bit. -/
def sbitKey (t b : Nat) : Nat := 4096 * cluOf t + (b - 4096)

/-- An address at which thread `t` has a bit to read, and one at which it has a bit to write (R300, R492). -/
def bitReadable (t b : Nat) : Bool := decide (b < (if isMgt t then 1024 else 1280)) || (!isMgt t && decide (4096 ≤ b) && decide (b < 8192))
def bitWritable (t b : Nat) : Bool := decide (b < 1024) || (!isMgt t && decide (4096 ≤ b) && decide (b < 8192))

/-- The bit at `b` read: its value and the state after it, or a fault BADBIT, or ECC of the thread block's word. -/
def bitRead (s : State) (t b : Nat) (k : State → Bool → Res) : Res :=
  if !bitReadable t b then .fault s cBadBit b
  else if b < 1024 then k s ((thrOf s t).flags.getLsbD b)
  else if b < 1280 then
    match placeRead s t (.bank (thrBlk t + 32 + 4 * ((b - 1024) / 32))) 4 with
    | (_, some a, u) => .fault u cEcc a
    | (bs, none, u) => k u (bitOf (leNat bs) (b % 32))
  else k s (mget noBool s.gar.sbits (sbitKey t b))

/-- A writable bit written. -/
def bitWrite (s : State) (t b : Nat) (v : Bool) : State :=
  if b < 1024 then setThr s t (setFlagBit (thrOf s t) b v)
  else { s with gar := { s.gar with sbits := mset noBool s.gar.sbits (sbitKey t b) v } }

/-- The bit that an instruction of format BT names. -/
def btAddr (x : Thread) (f : FmtBT) : Nat := if f.idx then (f.bit.toNat + (gv x f.r).toNat) % 8192 else f.bit.toNat

/-- Registers that a bit operation reads for its address. -/
def btReads (f : FmtBT) : List Nat := if f.idx then [f.r.toNat] else []

/-- A field which must be 0 is not: R counts as unused without IDX, and the unused bits [15:13]. -/
def btBad (f : FmtBT) : Bool := f.zero != 0 || (!f.idx && f.r != 0)

/-- C = bit and Z = NOT bit, after any write. -/
def bitFlags (s : State) (t : Nat) (old : Bool) : State := setThr s t (setFlagBit (setFlagBit (thrOf s t) 0 old) 2 !old)

/-- A bit operation that writes: `g` of the old bit, with the flags of the old bit where `fl`. -/
def bitRow (fn : Nat) (g : Bool → Bool) (fl : Bool) (t : BitVec 14) (f : FmtBT) (s : State) : Out :=
  issueAt t.toNat (wordBT 0x1D fn f) (btReads f) [] id (fun u =>
    let b := btAddr (thrOf u t.toNat) f
    if btBad f then .fault u cIllegal (wordBT 0x1D fn f).toNat
    else if !bitWritable t.toNat b then .fault u cBadBit b
    else bitRead u t.toNat b (fun v old =>
      let w := bitWrite v t.toNat b (g old)
      .done (if fl then bitFlags w t.toNat old else w) [])) s

def execBset := bitRow 0 (fun _ => true) false
def execBclr := bitRow 1 (fun _ => false) false
def execBnot := bitRow 2 (fun b => !b) false

/-- `btst` reads any readable bit. -/
def execBtst (t : BitVec 14) (f : FmtBT) (s : State) : Out :=
  issueAt t.toNat (wordBT 0x1D 3 f) (btReads f) [] id (fun u =>
    if btBad f then .fault u cIllegal (wordBT 0x1D 3 f).toNat
    else bitRead u t.toNat (btAddr (thrOf u t.toNat) f) (fun v old => .done (bitFlags v t.toNat old) [])) s

def execBtas := bitRow 4 (fun _ => true) true
def execBtac := bitRow 5 (fun _ => false) true

/-- `bput` and `bget` use R as their register: IDX must be 0. -/
def execBput (t : BitVec 14) (f : FmtBT) (s : State) : Out :=
  issueAt t.toNat (wordBT 0x1D 6 f) [f.r.toNat] [] id (fun u =>
    if f.idx || f.zero != 0 then .fault u cIllegal (wordBT 0x1D 6 f).toNat
    else if !bitWritable t.toNat f.bit.toNat then .fault u cBadBit f.bit.toNat
    else .done (bitWrite u t.toNat f.bit.toNat ((gv (thrOf u t.toNat) f.r).getLsbD 0)) []) s

def execBget (t : BitVec 14) (f : FmtBT) (s : State) : Out :=
  issueAt t.toNat (wordBT 0x1D 7 f) [] [f.r.toNat] id (fun u =>
    if f.idx || f.zero != 0 then .fault u cIllegal (wordBT 0x1D 7 f).toNat
    else bitRead u t.toNat f.bit.toNat (fun v old =>
      doneThr v t.toNat (gSet (thrOf v t.toNat) f.r.toNat (BitVec.ofNat 32 (b2n old))))) s

/-! ## Control transfer (R308) -/

/-- A target `off` words from the instruction. -/
def target {n : Nat} (pc : W32) (off : BitVec n) : W32 := pc + 4 * off.signExtend 32

/-- A transfer to `p`, or ALIGN. -/
def jumpTo (s : State) (p : W32) : Res := if p.toNat % 4 ≠ 0 then .fault s cAlign p.toNat else .jump s p

def branchRow (cond : Nat) (g : W32 → W32 → Bool) (t : BitVec 14) (f : FmtBR) (s : State) : Out :=
  issueAt t.toNat (wordBR 0x18 cond f) [f.ra.toNat, f.rb.toNat] [] id (fun u =>
    let x := thrOf u t.toNat
    if g (gv x f.ra) (gv x f.rb) then jumpTo u (target x.pc f.off) else .done u []) s

def execBeq := branchRow 0 (fun a b => a == b)
def execBne := branchRow 1 (fun a b => a != b)
def execBlt := branchRow 2 (fun a b => decide (a.toInt < b.toInt))
def execBge := branchRow 3 (fun a b => decide (b.toInt ≤ a.toInt))
def execBltu := branchRow 4 (fun a b => decide (a.toNat < b.toNat))
def execBgeu := branchRow 5 (fun a b => decide (b.toNat ≤ a.toNat))

/-- A branch on a bit that equals SENSE. -/
def branchBit (sense : Bool) (t : BitVec 14) (f : FmtBB) (s : State) : Out :=
  issueAt t.toNat (wordBB 0x19 sense f) [] [] id (fun u =>
    bitRead u t.toNat f.bit.toNat (fun v b =>
      if b == sense then jumpTo v (target (thrOf v t.toNat).pc f.off) else .done v [])) s

def execBbS := branchBit true
def execBbC := branchBit false

def execJmp (t : BitVec 14) (f : FmtJ) (s : State) : Out :=
  issueAt t.toNat (wordJ 0x1A f) [] [] id (fun u => jumpTo u (target (thrOf u t.toNat).pc f.off)) s

/-- A transfer that leaves pc + 4 in a register. -/
def linkTo (s : State) (t rd : Nat) (p : W32) : Res :=
  if p.toNat % 4 ≠ 0 then .fault s cAlign p.toNat
  else .jump (setThr s t (gSet (thrOf s t) rd ((thrOf s t).pc + 4))) p

def execCall (t : BitVec 14) (f : FmtJ) (s : State) : Out :=
  issueAt t.toNat (wordJ 0x1B f) [] [31] id (fun u => linkTo u t.toNat 31 (target (thrOf u t.toNat).pc f.off)) s

def execJr (t : BitVec 14) (f : FmtR) (s : State) : Out :=
  issueAt t.toNat (wordR 0x1C 0 f) [f.ra.toNat] [] id (fun u =>
    if f.rd ≠ 0 ∨ f.rb ≠ 0 ∨ f.sh ≠ 0 then .fault u cIllegal (wordR 0x1C 0 f).toNat
    else jumpTo u (gv (thrOf u t.toNat) f.ra)) s

def execJalr (t : BitVec 14) (f : FmtR) (s : State) : Out :=
  issueAt t.toNat (wordR 0x1C 1 f) [f.ra.toNat] [f.rd.toNat] id (fun u =>
    if f.rb ≠ 0 ∨ f.sh ≠ 0 then .fault u cIllegal (wordR 0x1C 1 f).toNat
    else linkTo u t.toNat f.rd.toNat (gv (thrOf u t.toNat) f.ra)) s

end Sys2Proof.Machine
end

