-- ==== Sys2Proof/Machine/CairnCmd.lean ====
section
/-!
DEFINITION. Cairn's commands: pools (R124, R125), the cluster sweep (R133), class 5 control commands (R134) and the peak register
(R552).
-/

namespace Sys2Proof.Machine

/-! ## Pools (R124–R126) -/

def poolLive (s : State) (k : Nat) : Bool := s.flag F.CRN_POOL_CFG_EN k || !s.flag F.CRN_POOL_STS_DRAINED k

/-- Pool `k` shares a cell with another live pool (R137). -/
def poolOverlaps (s : State) (k : Nat) : Bool :=
  (List.range 64).any (fun j => j ≠ k && poolLive s j && s.fld F.CRN_POOL_CFG_SPACE j == s.fld F.CRN_POOL_CFG_SPACE k &&
    decide (s.fld F.CRN_POOL_CFG_BASE j < s.fld F.CRN_POOL_CFG_BASE k + s.fld F.CRN_POOL_SIZE_SIZE k) &&
    decide (s.fld F.CRN_POOL_CFG_BASE k < s.fld F.CRN_POOL_CFG_BASE j + s.fld F.CRN_POOL_SIZE_SIZE j))

/-- EN set: refused with SIZE 0, and for a SPACE 1 pool without the DRAM area (R126); a pool that is draining goes on (R25, R124). -/
def poolEnable (s : State) (k : Nat) : Out :=
  if s.flag F.CRN_POOL_CFG_EN k then .next s
  else if s.fld F.CRN_POOL_SIZE_SIZE k = 0 || (s.flag F.CRN_POOL_CFG_SPACE k && !s.flag F.CRN_DRAM_CFG_EN 0) then
    .next (s.setFlag F.CRN_POOL_STS_REJECT k true)
  else if !s.flag F.CRN_POOL_STS_DRAINED k then .next (s.setFlag F.CRN_POOL_CFG_EN k true)
  else if poolOverlaps s k then .fault .cairnAreas
  else .next (((s.setFlag F.CRN_POOL_CFG_EN k true).setFlag F.CRN_POOL_STS_DRAINED k false).setFld F.CRN_POOL_STS_FREE k (s.fld F.CRN_POOL_SIZE_SIZE k))

/-- A stopped pool whose cells have all come back is drained (R125). -/
def poolDrain (s : State) (k : Nat) : State :=
  if !s.flag F.CRN_POOL_CFG_EN k && s.fld F.CRN_POOL_STS_FREE k == s.fld F.CRN_POOL_SIZE_SIZE k then s.setFlag F.CRN_POOL_STS_DRAINED k true else s

def poolDisable (s : State) (k : Nat) : State :=
  if s.flag F.CRN_POOL_CFG_EN k then poolDrain (s.setFlag F.CRN_POOL_CFG_EN k false) k else s

def execPoolEnable (k : Fin 64) (s : State) : Out := if pktUp s then poolEnable s k.val else .next s
def execPoolDisable (k : Fin 64) (s : State) : Out := .next (if pktUp s then poolDisable s k.val else s)

/-! ## The sweep after a cluster reset (R133) -/

def execChainSweep (n : Fin 32) (s : State) : Out :=
  .next (if pktUp s && mget noBool s.crn.sweep n.val then
    let u := foldS (ownedBy s (32 + n.val)) (fun u h => unref (disown u h) h) s
    linePauses ({ u with crn := { u.crn with sweep := mset noBool u.crn.sweep n.val false } }.setFlag F.CRN_CLU_STS_RECLAIM_BUSY n.val false)
  else s)

/-! ## Class 5 commands (R134) -/

/-- CELL_ALLOC. -/
def cellAlloc (c : Ctl) (s : State) : CtlRes × State :=
  let r := bits (bodyWord c 0) 8 0
  let n := bits (bodyWord c 1) 6 0
  if r < 128 || n = 0 || 80 < n then (.done stRange [], s)
  else
    match requestCells s r n with
    | (none, u) => (.done stNoBuf [], u)
    | (some cells, u) =>
      let (h, v) := newChain (writeCells u 3 cells 0 (List.replicate (128 * n) 0)) cells (128 * n) false none
      (.done stOk [handleOf h], v)

/-- CHAIN_FREE: a free of a head that is free already also counts DOUBLE_FREE (R123). -/
def chainFree (c : Ctl) (s : State) : CtlRes × State :=
  let w := bodyWord c 0
  if handleGood s w then
    let ref := match chainAt s (w / 8) with | some ch => ch.refs - 1 | none => 0
    (.done stOk [ref], unref s (w / 8))
  else
    let u := noteBadHandle s w
    (.done stBadHandle [], if doubleFree s w then u.bump F.CRN_ERR_DOUBLE_FREE 0 1 else u)

/-- CELL_READ: poisoned bytes are written as read, with DMAERR (R447). -/
def cellRead (c : Ctl) (s : State) (fn : Nat) : CtlRes × State :=
  let w := bodyWord c 0
  let ofs := bits (bodyWord c 1) 13 0
  let len := bits (bodyWord c 2) 13 0
  if len = 0 || 10240 < len then (.done stRange [], s)
  else if !handleGood s w then (.done stBadHandle [], noteBadHandle s w)
  else
    match chainAt s (w / 8) with
    | none => (.done stBadHandle [], s)
    | some ch =>
      if ch.len ≤ ofs then (.done stRange [], s)
      else
        let n := min len (ch.len - ofs)
        let (u, bad) := probeChain s ch 5 ofs n
        (.done (if bad.isEmpty then stOk else stDmaErr) [n], hostWrite u fn (bodyDword c 3) (chainBytes u ch ofs n))

def execCellAlloc (c : Ctl) (s : State) : Out := .next (linePauses (ctlExec s c 0x0501 (fun u _ => cellAlloc c u)))
def execChainFree (c : Ctl) (s : State) : Out := .next (linePauses (ctlExec s c 0x0502 (fun u _ => chainFree c u)))
def execCellRead (c : Ctl) (s : State) : Out := .next (ctlExec s c 0x0503 (fun u fn => cellRead c u fn))

/-! ## CRN_REQ_PEAK (R552) -/

/-- The value read, and the register restarted from USED. -/
def peakRead (s : State) (r : Nat) : Nat × State := (s.fld F.CRN_REQ_PEAK_PEAK r, s.setFld F.CRN_REQ_PEAK_PEAK r (s.fld F.CRN_REQ_STS_USED r))

def execCrnReqPeakRead (r : BitVec 9) (s : State) : Out :=
  if pktUp s then
    let (v, u) := peakRead s r.toNat
    .next { u with rdata := BitVec.ofNat 64 v }
  else .next { s with rdata := 0 }

end Sys2Proof.Machine
end

