-- ==== Sys2Proof/Machine/Cells.lean ====
section
/-!
DEFINITION. Cell operations (R121, R123, R131, R132, R316–R319) and DMA (R329, R330, R414), which act when they issue and answer when
they complete (R336).
-/

namespace Sys2Proof.Machine

/-! ## What a completion brings -/

/-- Bytes that land at a local address, with their poison (R447, R450). -/
def landLocal (s : State) (t a : Nat) (bs : List Byte) (ps : List Bool) : State :=
  match localOf t a bs.length with
  | some (.bank b) => bankPoison (bankWrite s (coreOf t) b bs) (coreOf t) b ps
  | some p => placeWrite s t p bs
  | none => s

/-- Bytes of no stated value. -/
def freeBytes (s : State) (n : Nat) : List Byte × State :=
  let r := (List.range ((n + 7) / 8)).foldl (fun (x : List Byte × State) _ =>
    let d := drawValue x.2; (x.1 ++ leBytes 8 d.1.toNat, d.2)) ([], s)
  (r.1.take n, r.2)

/-- A request of thread `t` leaves the list of those in progress. -/
def dropAcc (x : Thread) (a : CellReq) : Thread := { x with acc := x.acc.erase a }

/-- Request `a` of thread `t` has completed, with its data landed: the thread that waits for it goes on; one in FAULT keeps the result
until it is resumed; a request that no thread waits for ends. -/
def accFinish (s : State) (t : Nat) (a : CellReq) : State :=
  let x := thrOf s t
  if !a.live then setThr s t (dropAcc x a)
  else if faulted x then setThr s t { x with acc := x.acc.map (fun b => if b = a then { b with done := true } else b) }
  else endWaitNext s t (accWrite (dropAcc x a) a)

/-- The first request of a kind that has not completed. -/
def nextAcc (x : Thread) (dma : Bool) : Option CellReq := x.acc.find? (fun a => !a.done && !a.stuck && a.xfer.isSome == dma)

/-- A request accepted, and its thread's wait. -/
def accept (s : State) (t : Nat) (a : CellReq) (w : Wait) : Res :=
  .wait (setThr s t { thrOf s t with acc := (thrOf s t).acc ++ [a] }) w

/-- A cell operation's answer: bytes for a local address, the value of gD, and Z. -/
def cellAnswer (dst : W32) (data : List Byte) (poison : List Bool) (rd : Nat) (val : W32) (ok : Bool) : CellReq :=
  ⟨dst, data, poison, none, rd, val, ok, true, false, false⟩

def execCellOpComplete (t : BitVec 14) (s : State) : Out :=
  .next (if !thrUp s t.toNat then s else
    match nextAcc (thrOf s t.toNat) false with
    | some a => settleAll (accFinish (landLocal s t.toNat a.dst.toNat a.data a.poison) t.toNat a)
    | none => s)

/-! ## Cell instructions -/

/-- The check of a handle (R123): the chain, or BADCELL with the failure counted. -/
def withChain (s : State) (h : W32) (k : Nat → Chain → Res) : Res :=
  if handleGood s h.toNat then
    match chainAt s (h.toNat / 8) with
    | some ch => k (h.toNat / 8) ch
    | none => .fault (noteBadHandle s h.toNat) cBadCell h.toNat
  else .fault (noteBadHandle s h.toNat) cBadCell h.toNat

/-- Fields of the cell transfer word, and its check. -/
def xwOfs (w : W32) : Nat := bits w.toNat 29 16
def xwLen (w : W32) : Nat := bits w.toNat 7 0 + 1
def xwBad (w : W32) : Bool := bits w.toNat 31 30 != 0 || bits w.toNat 15 8 != 0 || decide (10240 < xwOfs w + xwLen w)

/-- `cld`: bytes of the chain as they stand; those at or beyond its capacity read 0. -/
def execCld (t : BitVec 14) (f : FmtU) (s : State) : Out :=
  issueAt t.toNat (wordU 0x21 0 f) [f.ra.toNat, f.rb.toNat, f.rc.toNat] [] id (fun u =>
    let x := thrOf u t.toNat
    let w := gv x f.rc
    let a := gv x f.rb
    if isMgt t.toNat then .fault u cIllegal (wordU 0x21 0 f).toNat
    else if (localOf t.toNat a.toNat (xwLen w)).isNone then .fault u cBadAddr a.toNat
    else if xwBad w then .fault u cBadArg w.toNat
    else withChain u (gv x f.ra) (fun _ ch =>
      let (v, bad) := probeChain u ch 2 (xwOfs w) (xwLen w)
      let ps := (List.range (xwLen w)).map (fun i => bad.contains ((ch.ofs + xwOfs w + i) / 16))
      accept v t.toNat (cellAnswer a (chainBytes v ch (xwOfs w) (xwLen w)) ps f.rd.toNat 0 true) .cell)) s

/-- New cells linked behind the last one of chain `h`, and of the chains that it stands before (R392). The fuel bounds the nesting. -/
def extendFrom : Nat → State → Nat → List Nat → State
  | 0, s, _, _ => s
  | f + 1, s, h, cells =>
    match chainAt s h with
    | none => s
    | some ch =>
      let s1 := setChain s h (some { ch with cells := ch.cells ++ cells, own := if ch.behind.isNone then ch.own + cells.length else ch.own })
      match ch.behind with
      | some b => extendFrom f s1 b cells
      | none => foldS (ch.cells.drop (ch.cells.length - 1) ++ cells) linkWrite s1

/-- A store to a chain clears its CARRY (R455). -/
def carryOff (s : State) (h : Nat) : State :=
  match chainAt s h with
  | some c => setChain s h (some { c with carry := false })
  | none => s

/-- `cst` of bytes at packet offset `ofs` of chain `h` (R317): the status and the state after it. -/
def cellStore (s : State) (n h : Nat) (ch : Chain) (ofs : Nat) (bs : List Byte) : Nat × State :=
  let top := ch.ofs + ofs + bs.length
  let need := cellsFor top - ch.cells.length
  if 80 < cellsFor top then (tsNobuf, s)
  else
    let r := chainLinks s ch 2 (min (cellsFor top) ch.cells.length - 1)
    let fin := fun (u : State) (cs : List Nat) =>
      let ok := match r.2.broken with | some b => cs.take b | none => cs
      (0, carryOff (writeCells u 5 ok (ch.ofs + ofs) bs) h)
    if need = 0 then fin r.1 ch.cells
    else
      match requestCells r.1 (clusterReq r.1 n) need with
      | (none, u) => (tsNobuf, u)
      | (some cells, u) => fin (extendFrom (u.crn.chains.length + 1) u h cells) (ch.cells ++ cells)

def execCst (t : BitVec 14) (f : FmtU) (s : State) : Out :=
  issueAt t.toNat (wordU 0x21 1 f) [f.ra.toNat, f.rb.toNat, f.rc.toNat] [] id (fun u =>
    let x := thrOf u t.toNat
    let w := gv x f.rc
    let a := (gv x f.rb).toNat
    if isMgt t.toNat then .fault u cIllegal (wordU 0x21 1 f).toNat
    else if (localOf t.toNat a (xwLen w)).isNone then .fault u cBadAddr a
    else if xwBad w then .fault u cBadArg w.toNat
    else withChain u (gv x f.ra) (fun h ch =>
      localRead u t.toNat a (xwLen w) (fun v bs =>
        let r := cellStore v (cluOf t.toNat) h ch (xwOfs w) bs
        accept r.2 t.toNat (cellAnswer 0 [] [] f.rd.toNat (BitVec.ofNat 32 r.1) (r.1 == 0)) .cell))) s

def execCalloc (t : BitVec 14) (f : FmtU) (s : State) : Out :=
  issueAt t.toNat (wordU 0x21 2 f) [f.ra.toNat] [] id (fun u =>
    let n := (gv (thrOf u t.toNat) f.ra).toNat
    let clu := cluOf t.toNat
    if isMgt t.toNat || f.rb != 0 || f.rc != 0 then .fault u cIllegal (wordU 0x21 2 f).toNat
    else if n = 0 || 80 < n then .fault u cBadArg n
    else
      match requestCells u (clusterReq u clu) n with
      | (none, v) => accept v t.toNat (cellAnswer 0 [] [] f.rd.toNat (BitVec.ofNat 32 nullHandle) false) .cell
      | (some cells, v) =>
        let r := newChain v cells (128 * n) false (some clu)
        accept r.2 t.toNat (cellAnswer 0 [] [] f.rd.toNat (BitVec.ofNat 32 (handleOf r.1)) true) .cell) s

def execCref (t : BitVec 14) (f : FmtU) (s : State) : Out :=
  issueAt t.toNat (wordU 0x21 3 f) [f.ra.toNat] [] id (fun u =>
    if isMgt t.toNat || f.rb != 0 || f.rc != 0 then .fault u cIllegal (wordU 0x21 3 f).toNat
    else withChain u (gv (thrOf u t.toNat) f.ra) (fun h _ =>
      match addRef u h with
      | some v => accept v t.toNat (cellAnswer 0 [] [] f.rd.toNat 0 true) .cell
      | none => accept u t.toNat (cellAnswer 0 [] [] f.rd.toNat (BitVec.ofNat 32 tsRefSat) false) .cell)) s

/-- `cfree`: a free of a head that is free already also counts DOUBLE_FREE (R123). -/
def execCfree (t : BitVec 14) (f : FmtU) (s : State) : Out :=
  issueAt t.toNat (wordU 0x21 4 f) [f.ra.toNat] [] id (fun u =>
    let h := gv (thrOf u t.toNat) f.ra
    if isMgt t.toNat || f.rd != 0 || f.rb != 0 || f.rc != 0 then .fault u cIllegal (wordU 0x21 4 f).toNat
    else if doubleFree u h.toNat then
      .fault ((noteBadHandle u h.toNat).bump F.CRN_ERR_DOUBLE_FREE 0 1) cBadCell h.toNat
    else withChain u h (fun c _ => .done (settleAll (unref u c)) [])) s

/-! ## DMA -/

/-- A function refuses the transfer: absent, in FLR, in D3hot or without Bus Master Enable (R330). -/
def fnRefuses (s : State) (f : Nat) : Bool := !(fnExists s f && (fnOf s f).bme && !(fnOf s f).d3 && !(fnOf s f).flr)

/-- The transfer lies within the thread DMA window, which does not limit MGT (R414). -/
def inWindow (s : State) (t a n : Nat) : Bool :=
  isMgt t || (decide (s.reg .DRC_DMAWIN_BASE 0 ≤ a) && decide (a + n ≤ s.reg .DRC_DMAWIN_BASE 0 + s.reg .DRC_DMAWIN_SIZE 0))

/-- The DRAM areas of Agate, Cairn and Orrery that are in use, as (address, bytes) (R126, R166, R239, R246). -/
def clientAreas (s : State) : List (Nat × Nat) :=
  (List.range 64).flatMap (fun t => if tblOn s t then tblAreas s t else []) ++
  (if s.flag F.CRN_DRAM_CFG_EN 0 then
    let n := spaceCells s
    [(s.fld F.CRN_DRAM_BASE_BASE 0 * 2 ^ 30, 128 * n), (s.fld F.CRN_DRAM_LINK_LINK_BASE 0 * 2 ^ 20, 8 * n)] else []) ++
  (List.range 4096).flatMap (fun q => if s.flag F.ORY_Q_CFG_EN q && spillSize s q != 0 then [(spillAddr s q 0, 72 * spillSize s q)] else []) ++
  (if s.flag F.ORY_DLY_CTL_EN 0 then [(dlyAddr s 0, 320 * 2 ^ 20)] else [])
where
  /-- Cells of the DRAM pool area. -/
  spaceCells (s : State) : Nat := 2 ^ min 27 (s.fld F.CRN_DRAM_CFG_CELLS_LOG2 0)

/-- The transfer runs into such an area (R12, R330). -/
def inAreas (s : State) (a n : Nat) : Bool := (clientAreas s).any (overlap (a, n))

/-- A transfer and its answer. -/
def dmaAnswer (dst : W32) (data : List Byte) (ps : List Bool) (x : Nat × Bool × Option Nat × Nat) (rd status : Nat) : CellReq :=
  ⟨dst, data, ps, some x, rd, BitVec.ofNat 32 status, status == 0, true, false, false⟩

/-- A descriptor that has passed its checks. A transfer to DRAM or to host memory takes its bytes when it issues; one from DRAM reads
when it issues, and one from host memory brings its bytes when it completes. -/
def dmaRun (s : State) (t rd : Nat) (a : Nat) (out : Bool) (fn : Option Nat) (n : Nat) (loc : W32) : Res :=
  let x := (a, out, fn, n)
  let no := fun (u : State) => accept u t (dmaAnswer loc [] [] x rd tsDmaErr) .dma
  let refused := match fn with | some f => fnRefuses s f | none => !drcReady s
  if refused then no s
  else if out then
    match localOf t loc.toNat n with
    | none => .fault s cBadAddr loc.toNat
    | some p =>
      match placeRead s t p n with
      | (_, some _, u) => no u
      | (bs, none, u) =>
        let v := match fn with | some f => hostWrite u f a bs | none => dramWrite u a bs (if isMgt t then 6 else 5)
        accept v t (dmaAnswer loc [] [] x rd 0) .dma
  else
    match fn with
    | some _ => accept s t (dmaAnswer loc [] [] x rd 0) .dma
    | none =>
      let r := dramRead s a n (if isMgt t then 6 else 5)
      accept r.2.2 t (dmaAnswer loc r.1 r.2.1 x rd 0) .dma

def execDma (t : BitVec 14) (f : FmtU) (s : State) : Out :=
  let w := wordU 0x26 0 f
  issueAt t.toNat w [f.ra.toNat] [] id (fun u =>
    let d := (gv (thrOf u t.toNat) f.ra).toNat
    if f.rb ≠ 0 ∨ f.rc ≠ 0 then .fault u cIllegal w.toNat
    else localRead u t.toNat d 16 (fun v bs =>
      let a := leNat (bs.take 8)
      let c := leNat ((bs.drop 8).take 4)
      let loc := BitVec.ofNat 32 (leNat (bs.drop 12))
      let host := bitOf c 30
      let n := bits c 11 0 + 1
      if host && !isS v t.toNat then .fault v cPriv w.toNat
      else if (localOf t.toNat loc.toNat n).isNone then .fault v cBadAddr loc.toNat
      else if !host && !inWindow v t.toNat a n then .fault v cBadAddr a
      else if bits c 29 21 ≠ 0 then .fault v cBadArg c
      else if !host && bitOf c 31 && drcReady v && inAreas v a n then .bad .dmaIntoClientArea
      else dmaRun v t.toNat f.rd.toNat a (bitOf c 31) (if host then some (bits c 20 12) else none) n loc)) s

/-- The transfer completes, with the bytes that host memory has answered, or a failed read: the local bytes are then undefined (R330). -/
def execDmaComplete (t : BitVec 14) (data : List Byte) (err : Bool) (s : State) : Out :=
  .next (if !thrUp s t.toNat then s else
    match nextAcc (thrOf s t.toNat) true with
    | none => s
    | some a =>
      let hostRead := match a.xfer with | some (_, out, some _, _) => !out && a.ok | _ => false
      let n := match a.xfer with | some (_, _, _, n) => n | none => 0
      if !hostRead then settleAll (accFinish (landLocal s t.toNat a.dst.toNat a.data a.poison) t.toNat a)
      else if err then
        let (bs, u) := freeBytes s n
        let b := { a with val := BitVec.ofNat 32 tsDmaErr, ok := false }
        let x := thrOf u t.toNat
        let v := setThr u t.toNat { x with acc := x.acc.map (fun c => if c = a then b else c) }
        settleAll (accFinish (landLocal v t.toNat a.dst.toNat bs []) t.toNat b)
      else settleAll (accFinish (landLocal s t.toNat a.dst.toNat ((data ++ List.replicate n 0).take n) []) t.toNat a))

end Sys2Proof.Machine
end

