-- ==== Sys2Proof/Machine/Channels.lean ====
section
/-!
DEFINITION. Channels and staging by thread code (R283–R287, R326).
-/

namespace Sys2Proof.Machine

/-! ## Messages -/

/-- Word `i` of a staging area. -/
def stageWord (x : Thread) (i : Nat) : W32 := BitVec.ofNat 32 (bits x.stage.toNat (32 * i + 31) (32 * i))
def setStage (x : Thread) (i : Nat) (v : W32) : Thread := { x with stage := BitVec.ofNat 256 (setBits x.stage.toNat (32 * i + 31) (32 * i) v.toNat) }

/-- A channel takes sends (R286). -/
def chanTakes (s : State) (c : Nat) : Bool := clUp s (c / 64) && chanEn s c

/-- A message committed to channel `c`: to its own cluster's at once, to another cluster's on its way (R283, R285). -/
def chanCommit (s : State) (t c : Nat) (ws : List W32) : State :=
  if c / 64 = cluOf t then setChan s c (chanOf s c ++ [⟨t, ws⟩])
  else { s with gar := { s.gar with transit := s.gar.transit ++ [(c, ⟨t, ws⟩)] } }

/-- Threads blocked in a send to channel `c`, in the order in which they reached it, with their register and message; those of a parked
cluster stand back until it runs (R285, R293). -/
def blockedSend (s : State) (c : Nat) : List (Nat × Nat × List W32) :=
  s.gar.chq.filterMap (fun t => match (thrOf s t).wait with
    | .send rd ch ws => if ch = c && (thrOf s t).st == .stall && thrUp s t && !parked s (cluOf t) then some (t, rd, ws) else none
    | _ => none)

/-- A blocked sender commits if channel `c` has room, and goes on. -/
def sendGo (s : State) (c : Nat) (e : Nat × Nat × List W32) : State :=
  if chanTakes s c && chanRoom s c then
    let u := chanCommit s e.1 c e.2.2
    endWaitNext u e.1 (setStatus (thrOf u e.1) e.2.1 0 0)
  else s

/-- Senders that blocked before a new one reached channel `c` commit before it (R285, R294). -/
def serveSenders (s : State) (c : Nat) : State := foldS (blockedSend s c) (fun u e => sendGo u c e) s

/-- The oldest message of channel `c` taken by thread `t` into local memory at `a`, if there is one: its length and the state. -/
def chanTake (s : State) (t c a : Nat) : Option (Nat × State) :=
  match chanOf s c with
  | [] => none
  | m :: r =>
    let u := setChan s c r
    let v := match localOf t a (4 * m.words.length) with
      | some p => placeWrite u t p (m.words.flatMap (fun w => leBytes 4 w.toNat))
      | none => u
    some (m.words.length, chanDrain v c)

/-- Threads blocked in a receive from channel `c`, in the order in which they reached it, with their register and address. -/
def blockedRecv (s : State) (c : Nat) : List (Nat × Nat × W32) :=
  s.gar.chq.filterMap (fun t => match (thrOf s t).wait with
    | .recv rd a ch => if ch = c && (thrOf s t).st == .stall && thrUp s t && !parked s (cluOf t) then some (t, rd, a) else none
    | _ => none)

/-- A blocked receiver takes the oldest message of channel `c`, if there is one, and goes on. -/
def recvGo (s : State) (c : Nat) (e : Nat × Nat × W32) : State :=
  match chanTake s e.1 c e.2.2.toNat with
  | some (n, u) => endWaitNext u e.1 (setStatus (thrOf u e.1) e.2.1 0 n)
  | none => s

/-- The last message of a stopped channel has gone: who still waits for one gets CHOFF (R287). -/
def recvEnd (s : State) (c : Nat) : State := if chanEn s c then s else receiversOff s c

/-- Receivers that blocked before a new one reached channel `c` take messages before it (R286). -/
def serveReceivers (s : State) (c : Nat) : State := recvEnd (foldS (blockedRecv s c) (fun u e => recvGo u c e) s) c

/-! ## Sends -/

def swLen (w : W32) : Nat := bits w.toNat 18 16 + 1
def swChan (w : W32) : Nat := bits w.toNat 10 0
def swBad (w : W32) : Bool := bits w.toNat 31 19 != 0 || bits w.toNat 15 11 != 0

def sendRow (fn : Nat) (nb : Bool) (t : BitVec 14) (f : FmtU) (s : State) : Out :=
  issueAt t.toNat (wordU 0x24 fn f) [f.ra.toNat] [f.rd.toNat] id (fun u =>
    let x := thrOf u t.toNat
    let a := gv x f.ra
    let ws := (List.range (swLen a)).map (stageWord x)
    if isMgt t.toNat || f.rb != 0 || f.rc != 0 then .fault u cIllegal (wordU 0x24 fn f).toNat
    else if swBad a then .fault u cBadArg a.toNat
    else if !chanTakes u (swChan a) then doneStatus (noteChoff u t.toNat) t.toNat f.rd.toNat tsChoff
    else
      let v := serveSenders u (swChan a)
      if chanRoom v (swChan a) then doneStatus (chanCommit v t.toNat (swChan a) ws) t.toNat f.rd.toNat 0
      else if nb then doneStatus v t.toNat f.rd.toNat tsFull
      else .wait v (.send f.rd.toNat (swChan a) ws)) s

def execChsend := sendRow 0 false
def execChsendNb := sendRow 1 true

/-- A blocked sender commits to a channel that has room, if it is the first of those that reached the channel (R294). -/
def execChsendUnblock (t : BitVec 14) (s : State) : Out :=
  .next (match (thrOf s t.toNat).wait with
    | .send _ c _ => match (blockedSend s c).head? with
      | some e => if e.1 = t.toNat then settleAll (sendGo s c e) else s
      | none => s
    | _ => s)

/-! ## Receives -/

/-- A receive that has taken a message of `n` words. -/
def tookStatus (s : State) (t rd n : Nat) : Res := .done (settleAll (setThr s t (setStatus (thrOf s t) rd 0 n))) []

def recvRow (fn : Nat) (nb : Bool) (t : BitVec 14) (f : FmtU) (s : State) : Out :=
  issueAt t.toNat (wordU 0x24 fn f) [f.ra.toNat, f.rb.toNat] [f.rd.toNat] id (fun u =>
    let x := thrOf u t.toNat
    let a := gv x f.ra
    let b := gv x f.rb
    let c := 64 * cluOf t.toNat + b.toNat % 64
    if isMgt t.toNat || f.rc != 0 then .fault u cIllegal (wordU 0x24 fn f).toNat
    else if (localOf t.toNat a.toNat 32).isNone then .fault u cBadAddr a.toNat
    else if 64 ≤ b.toNat then .fault u cBadArg b.toNat
    else
      let v := serveReceivers u c
      match chanTake v t.toNat c a.toNat with
      | some (n, w) => tookStatus w t.toNat f.rd.toNat n
      | none =>
        if !chanEn v c then doneStatus v t.toNat f.rd.toNat tsChoff
        else if nb then doneStatus v t.toNat f.rd.toNat tsEmpty
        else .wait v (.recv f.rd.toNat a c)) s

def execChrecv := recvRow 2 false
def execChrecvNb := recvRow 3 true

/-- A blocked receiver takes the oldest message, if it is the first of those that reached the channel (R286). -/
def execChrecvUnblock (t : BitVec 14) (s : State) : Out :=
  .next (match (thrOf s t.toNat).wait with
    | .recv _ _ c => match (blockedRecv s c).head? with
      | some e => if e.1 = t.toNat then settleAll (recvEnd (recvGo s c e) c) else s
      | none => s
    | _ => s)

/-! ## Staging and the watch mask -/

def execStw (t : BitVec 14) (f : FmtUI) (s : State) : Out :=
  issueAt t.toNat (wordUI 0x24 4 f) [f.ra.toNat] [] id (fun u =>
    let x := thrOf u t.toNat
    if isMgt t.toNat || f.rd != 0 || decide (8 ≤ f.imm.toNat) then .fault u cIllegal (wordUI 0x24 4 f).toNat
    else doneThr u t.toNat (setStage x f.imm.toNat (gv x f.ra))) s

def execStgm (t : BitVec 14) (f : FmtUI) (s : State) : Out :=
  issueAt t.toNat (wordUI 0x24 5 f) [f.ra.toNat] [] id (fun u =>
    let a := (gv (thrOf u t.toNat) f.ra).toNat
    let n := f.imm.toNat
    if isMgt t.toNat || f.rd != 0 || decide (16 ≤ n) then .fault u cIllegal (wordUI 0x24 5 f).toNat
    else if (localOf t.toNat a (4 * n)).isNone then .fault u cBadAddr a
    else if n = 0 || 8 < n then .fault u cBadArg n
    else localRead u t.toNat a (4 * n) (fun v bs =>
      doneThr v t.toNat ((List.range n).foldl (fun y i => setStage y i (BitVec.ofNat 32 (leNat ((bs.drop (4 * i)).take 4)))) (thrOf v t.toNat)))) s

def execStgr (t : BitVec 14) (f : FmtUI) (s : State) : Out :=
  issueAt t.toNat (wordUI 0x24 6 f) [] [f.rd.toNat] id (fun u =>
    let x := thrOf u t.toNat
    if isMgt t.toNat || f.ra != 0 || decide (8 ≤ f.imm.toNat) then .fault u cIllegal (wordUI 0x24 6 f).toNat
    else doneThr u t.toNat (gSet x f.rd.toNat (stageWord x f.imm.toNat))) s

def execChwatch (t : BitVec 14) (f : FmtU) (s : State) : Out :=
  issueAt t.toNat (wordU 0x24 7 f) [f.ra.toNat, f.rb.toNat] [] id (fun u =>
    let x := thrOf u t.toNat
    if isMgt t.toNat || f.rd != 0 || f.rc != 0 then .fault u cIllegal (wordU 0x24 7 f).toNat
    else .done (settleAll (setThr u t.toNat { x with watch := BitVec.ofNat 64 ((gv x f.ra).toNat + 2 ^ 32 * (gv x f.rb).toNat) })) []) s

end Sys2Proof.Machine
end

