-- ==== Sys2Proof/Machine/CpxInstr.lean ====
section
/-!
DEFINITION. Coprocessor instructions: their checks at issue and the commands they send (R331, R340–R348, R351–R356).
-/

namespace Sys2Proof.Machine

/-! ## Checks (R334, R340, R341, R347) -/

/-- The thread may name the lane: it holds it, or a LOCK of its own is queued. -/
def ownsLane (s : State) (t u l : Nat) : Bool :=
  (laneOf s (cluOf t) u l).holder == some (t % 256) || lockQueued (cpxQ s (cluOf t) u) l (t % 256)

/-- What a command is checked for when it arrives: that it needs the lane, that it is a LOCK, that it is for S level alone, and the last
register it writes. -/
structure CpxNeed where
  own : Bool
  lock : Bool
  slevel : Bool
  last : Nat
deriving DecidableEq, Repr

/-- The reason of R347, if there is one. -/
def cpxReason (s : State) (t u l : Nat) (k : CpxNeed) : Option Nat :=
  if k.own && !ownsLane s t u l then some 1
  else if k.lock && ownsLane s t u l then some 2
  else if !isS s t && (bitOf (s.fld F.CPX_SLANE_S_ONLY (2 * cluOf t + u)) l || k.slevel) then some 3
  else if 15 < k.last then some 4
  else none

/-- The unit serves the thread's level (R340). -/
def cpxEnabled (s : State) (t u : Nat) : Bool :=
  let i := 2 * cluOf t + u
  s.flag F.CPX_CFG_EN i && (if isS s t then s.flag F.CPX_CFG_S_EN i else s.flag F.CPX_CFG_U_EN i)

/-- The checks of a coprocessor instruction on unit `u`, lane `l`, in order; `bad` is a field or COP that makes it ILLEGAL, `adr` a local
address of 16 bytes, and `cop` what the fault's detail shows. -/
def cpxCheck (s : State) (t : Nat) (w : W32) (u l cop : Nat) (bad : Bool) (adr : Option Nat) (need : CpxNeed) (k : Res) : Res :=
  let far := match adr with | some a => (localOf t a 16).isNone | none => false
  if isMgt t || bad then .fault s cIllegal w.toNat
  else if far then .fault s cBadAddr (adr.getD 0)
  else if !unitPresent s u then .fault s cNoCpx w.toNat
  else if !cpxEnabled s t u then .fault s cCpxOff w.toNat
  else
    match cpxReason s t u l need with
    | some r => .fault (cpxCount s (cluOf t) u 2 0) cCpxFlt (r * 2 ^ 24 + u * 2 ^ 16 + l * 2 ^ 12 + cop)
    | none => k

/-! ## Sending (R343, R346) -/

/-- A command takes a free entry of its unit's queue. A LOCK that a holder or an earlier LOCK keeps waiting is counted. -/
def cpxSend (s : State) (n u : Nat) (c : CpxCmd) : Nat × State :=
  let (g, s1) := freeTag s (cpxQ s n u)
  let d := { c with tag := g }
  let s2 := setCpxQ s1 n u (cpxQ s1 n u ++ [d])
  (g, if lockWaits s2 n u (cpxQ s2 n u) d then cpxCount s2 n u 3 0 else s2)

/-- The command sent and what follows, or a wait for an entry; `count` says that the wait is a `cpop`'s, counted once however often it
wakes and finds no entry (R364). -/
def cpxIssue (s : State) (n u : Nat) (c : CpxCmd) (count : Bool) (k : Nat → State → Res) : Res :=
  if cpxRoom s n u c then
    match cpxSend s n u c with
    | (g, v) => k g v
  else .wait (if count && !(thrOf s (256 * n + c.thr)).requeued then cpxCount s n u 6 0 else s) (.cpq u c)

/-- A command of an instruction that takes a parity error is squashed (R335). -/
def cpxSquashNote (t u : Nat) (s : State) : State := cpxCount s (cluOf t) u 1 0

def unitNo (b : Bool) : Nat := if b then 1 else 0

/-! ## cpop -/

/-- An operation: its COP, which units have it, the register fields it uses, what it needs. -/
structure CpopSpec where
  cop : Nat
  /-- CPX-C and CPX-H have it. -/
  inC : Bool
  inH : Bool
  useD : Bool
  useA : Bool
  useB : Bool
  own : Bool
  slevel : Bool
  /-- Registers written from cD onward. -/
  span : Nat
deriving DecidableEq, Repr

/-- A field of the format that the operation does not use is not 0, or its unit does not have it. -/
def cpopBad (p : CpopSpec) (f : FmtX1) : Bool :=
  (if f.unit then !p.inH else !p.inC) || (!p.useD && f.cd != 0) || (!p.useA && f.ca != 0) || (!p.useB && f.cb != 0)

def cpopRow (p : CpopSpec) (t : BitVec 14) (f : FmtX1) (s : State) : Out :=
  issueAt t.toNat (wordX1 0x27 p.cop f) [] [] id (fun v =>
    let u := unitNo f.unit
    let n := cluOf t.toNat
    let need : CpxNeed := ⟨p.own, !p.own, p.slevel, f.cd.toNat + p.span - 1⟩
    let c : CpxCmd := ⟨0, f.lane.toNat, t.toNat % 256, p.cop, f.cd.toNat, f.ca.toNat, f.cb.toNat, none, false, true⟩
    cpxCheck v t.toNat (wordX1 0x27 p.cop f) u f.lane.toNat p.cop (cpopBad p f) none need
      (cpxIssue v n u c true (fun _ w => .done w []))) s

def execCpxLock := cpopRow ⟨0x00, true, true, true, false, false, false, false, 1⟩
def execCpxUnlock := cpopRow ⟨0x01, true, true, false, false, false, true, false, 0⟩
def execCpxClr := cpopRow ⟨0x02, true, true, false, false, false, true, false, 0⟩
def execLstat := cpopRow ⟨0x03, true, true, true, false, false, true, false, 1⟩
def execCpxMov := cpopRow ⟨0x04, true, true, true, true, false, true, false, 1⟩
def execCpxXor := cpopRow ⟨0x05, true, true, true, true, true, true, false, 1⟩

def execGcmInit := cpopRow ⟨0x10, true, false, false, true, true, true, false, 0⟩
def execGcmAad := cpopRow ⟨0x11, true, false, false, true, false, true, false, 0⟩
def execGcmAadp := cpopRow ⟨0x12, true, false, false, true, true, true, false, 0⟩
def execGcmEnc := cpopRow ⟨0x13, true, false, true, true, false, true, false, 1⟩
def execGcmEncp := cpopRow ⟨0x14, true, false, true, true, true, true, false, 1⟩
def execGcmDec := cpopRow ⟨0x15, true, false, true, true, false, true, false, 1⟩
def execGcmDecp := cpopRow ⟨0x16, true, false, true, true, true, true, false, 1⟩
def execGcmTag := cpopRow ⟨0x17, true, false, true, false, false, true, false, 1⟩
def execGcmVerify := cpopRow ⟨0x18, true, false, true, true, true, true, false, 1⟩
def execCmacInit := cpopRow ⟨0x20, true, false, false, true, false, true, false, 0⟩
def execCmacBlk := cpopRow ⟨0x21, true, false, false, true, false, true, false, 0⟩
def execCmacLast := cpopRow ⟨0x22, true, false, true, true, true, true, false, 1⟩
def execKeyld := cpopRow ⟨0x30, true, false, true, true, true, true, true, 0⟩
def execKeyclr := cpopRow ⟨0x31, true, false, true, false, false, true, true, 0⟩

def execSha256Init := cpopRow ⟨0x40, false, true, false, false, false, true, false, 0⟩
def execSha384Init := cpopRow ⟨0x41, false, true, false, false, false, true, false, 0⟩
def execShaUpd := cpopRow ⟨0x42, false, true, false, true, false, true, false, 0⟩
def execShaUpdp := cpopRow ⟨0x43, false, true, false, true, true, true, false, 0⟩
def execSha256Final := cpopRow ⟨0x44, false, true, true, false, false, true, false, 2⟩
def execSha384Final := cpopRow ⟨0x45, false, true, true, false, false, true, false, 3⟩
def execCrc32cInit := cpopRow ⟨0x50, false, true, false, false, false, true, false, 0⟩
def execCrc64Init := cpopRow ⟨0x51, false, true, false, false, false, true, false, 0⟩
def execCrcUpd := cpopRow ⟨0x52, false, true, false, true, false, true, false, 0⟩
def execCrcUpdp := cpopRow ⟨0x53, false, true, false, true, true, true, false, 0⟩
def execCrcFinal := cpopRow ⟨0x54, false, true, true, false, false, true, false, 1⟩
def execCrcSeed := cpopRow ⟨0x55, false, true, false, true, false, true, false, 0⟩

/-! ## Moves and cpwait (R331, R356) -/

/-- Moves need the lane and show COP 0x7F in a fault's detail. -/
def moveNeed : CpxNeed := ⟨true, false, false, 0⟩

/-- A move's command: kind 0 mtc, 1 mfc, 2 lcq, 3 scq. -/
def moveCmd (t : Nat) (l c : BitVec 4) (kind w : Nat) (adr : W32) (data : W128) (poisoned : Bool) : CpxCmd :=
  ⟨0, l.toNat, t % 256, 0x7F, c.toNat, 0, 0, some (kind, w, adr, data), poisoned, kind == 0 || kind == 2⟩

def execMtc (t : BitVec 14) (f : FmtX2) (s : State) : Out :=
  issueAt t.toNat (wordX2 0x27 false f) [f.g.toNat] [] (cpxSquashNote t.toNat (unitNo f.unit)) (fun v =>
    let u := unitNo f.unit
    let d : W128 := (gv (thrOf v t.toNat) f.g).setWidth 128
    cpxCheck v t.toNat (wordX2 0x27 false f) u f.lane.toNat 0x7F (f.zero != 0) none moveNeed
      (cpxIssue v (cluOf t.toNat) u (moveCmd t.toNat f.lane f.c 0 f.w.toNat 0 d false) false (fun _ w => .done w []))) s

def execMfc (t : BitVec 14) (f : FmtX2) (s : State) : Out :=
  issueAt t.toNat (wordX2 0x27 true f) [] [] id (fun v =>
    let u := unitNo f.unit
    let r : W32 := f.g.setWidth 32
    cpxCheck v t.toNat (wordX2 0x27 true f) u f.lane.toNat 0x7F (f.zero != 0) none moveNeed
      (cpxIssue v (cluOf t.toNat) u (moveCmd t.toNat f.lane f.c 1 f.w.toNat r 0 false) false (fun g w => .wait w (.cpr u g)))) s

/-- `lcq` of a poisoned word sends its command with the mark of it (R448). -/
def execLcq (t : BitVec 14) (f : FmtX3) (s : State) : Out :=
  issueAt t.toNat (wordX3 0x27 false f) [f.g.toNat] [] (cpxSquashNote t.toNat (unitNo f.unit)) (fun v =>
    let u := unitNo f.unit
    let a := (gv (thrOf v t.toNat) f.g).toNat
    let n := cluOf t.toNat
    cpxCheck v t.toNat (wordX3 0x27 false f) u f.lane.toNat 0x7F (f.mid != 0 || f.zero != 0) (some a) moveNeed
      (if cpxRoom v n u (moveCmd t.toNat f.lane f.c 2 0 0 0 false) then
        match placeRead v t.toNat ((localOf t.toNat a 16).getD (.bank 0)) 16 with
        | (bs, p, w) => .done (cpxSend w n u (moveCmd t.toNat f.lane f.c 2 0 0 (bytesReg bs) p.isSome)).2 []
      else .wait v (.cpq u (moveCmd t.toNat f.lane f.c 2 0 0 0 false)))) s

def execScq (t : BitVec 14) (f : FmtX3) (s : State) : Out :=
  issueAt t.toNat (wordX3 0x27 true f) [f.g.toNat] [] (cpxSquashNote t.toNat (unitNo f.unit)) (fun v =>
    let u := unitNo f.unit
    let a := gv (thrOf v t.toNat) f.g
    cpxCheck v t.toNat (wordX3 0x27 true f) u f.lane.toNat 0x7F (f.mid != 0 || f.zero != 0) (some a.toNat) moveNeed
      (cpxIssue v (cluOf t.toNat) u (moveCmd t.toNat f.lane f.c 3 0 a 0 false) false (fun g w => .wait w (.cpr u g)))) s

/-- `cpwait` may name any lane (R341). -/
def execCpwait (t : BitVec 14) (f : FmtX4) (s : State) : Out :=
  issueAt t.toNat (wordX4 0x27 f) [] [] id (fun v =>
    let u := unitNo f.unit
    let busy := (laneCmds (cpxQ v (cluOf t.toNat) u) f.lane.toNat).any (fun c => c.thr == t.toNat % 256 && c.confirmed)
    cpxCheck v t.toNat (wordX4 0x27 f) u f.lane.toNat 0 (f.mid != 0 || f.zero != 0) none ⟨false, false, false, 0⟩
      (if busy then .wait v (.cpw u f.lane.toNat) else .done v [])) s

end Sys2Proof.Machine
end

