-- ==== Sys2Proof/Machine/Debug.lean ====
section
/-!
DEFINITION. Edsen (R507–R526): the TAP's instructions, the session, unlocking, thread control and the debug reset requests. DBGACC, which
reaches every register, stands with the register bus.
-/

namespace Sys2Proof.Machine

/-! ## The TAP (R507, R535) -/

def unlocked (s : State) : Bool := s.flag F.DBG_LOCK_UNLOCKED 0

/-- Boundary scan: the levels at the cells are captured and shifted out while new contents are shifted in. -/
def scanCells (s : State) (ir : BitVec 6) (levels new : BitVec 169) : State :=
  { s with dbg := { s.dbg with ir := ir, scan := levels, cells := new } }

def tapBypass (s : State) : State := { s with dbg := { s.dbg with ir := 0x3F } }

/-- EXTEST while Edsen is unlocked: the output and control cells drive the pins; otherwise BYPASS. -/
def execTapExtest (levels new : BitVec 169) (s : State) : Out :=
  .next (if !s.rst.aon then s else if unlocked s then scanCells s 0x00 levels new else tapBypass s)
def execTapSamplePreload (levels new : BitVec 169) (s : State) : Out := .next (if s.rst.aon then scanCells s 0x01 levels new else s)
def execTapBypass (s : State) : Out := .next (if s.rst.aon then tapBypass s else s)
def execTapReset (s : State) : Out := .next (tapBypass s)

/-- The boundary cells drive the pins. -/
def extestDrives (s : State) : Bool := s.dbg.ir == 0x00 && unlocked s

/-! ## The session (R509) -/

/-- OWNER codes: 1 JTAG, 2 PF1. -/
def pathCode (jtag : Bool) : Nat := if jtag then 1 else 2

def dbgReject (s : State) : State := s.setFlag F.DBG_SESSION_REJECT 0 true

def claimSession (s : State) (jtag : Bool) : State :=
  if s.fld F.DBG_SESSION_OWNER 0 = 0 then s.setFld F.DBG_SESSION_OWNER 0 (pathCode jtag) else s
def releaseSession (s : State) (jtag : Bool) : State :=
  if s.fld F.DBG_SESSION_OWNER 0 = pathCode jtag then s.setFld F.DBG_SESSION_OWNER 0 0 else s

def execDbgClaim (jtag : Bool) (s : State) : Out := .next (if s.rst.aon then claimSession s jtag else s)
def execDbgRelease (jtag : Bool) (s : State) : Out := .next (if s.rst.aon then releaseSession s jtag else s)

/-- A write by a path to a register that scope bit `b` covers, or to one that is reached while Edsen is locked (R509–R511). -/
def dbgWrite (s : State) (jtag : Bool) (b : Option Nat) (f : State → State) : State :=
  if s.fld F.DBG_SESSION_OWNER 0 ≠ 0 && s.fld F.DBG_SESSION_OWNER 0 ≠ pathCode jtag then dbgReject s
  else match b with
    | none => f s
    | some k => if !unlocked s then s else if dbgScope s k then f s else dbgReject s

def dbgRow (s : State) (jtag : Bool) (b : Option Nat) (f : State → State) : Out := .next (if s.rst.aon then dbgWrite s jtag b f else s)

/-! ## Unlocking (R511) -/

/-- Seconds in PCLK edges. -/
def secEdges : Nat := 1500000000

def chalGo (s : State) : State :=
  if s.dbg.lockout.isSome then dbgReject s
  else
    let c := Config.random s.fresh
    foldS (List.range 8) (fun u j => u.setReg .DBG_CHAL j (bits c.toNat (32 * j + 31) (32 * j)))
      { s with fresh := s.fresh + 1, dbg := { s.dbg with chal := some (c, s.clk) } }

def execChalGo (jtag : Bool) (s : State) : Out := dbgRow s jtag none chalGo

/-- The challenge while it is good: issued at most 10 s ago and not used. -/
def goodChal (s : State) : Option (BitVec 256) :=
  match s.dbg.chal with
  | some (c, e) => if s.clk ≤ e + 10 * secEdges then some c else none
  | none => none

def verifyGo (s : State) : State :=
  if s.flag F.DBG_LOCK_BUSY 0 then s
  else
    let ws := (List.range 64).map (fun j => BitVec.ofNat 32 (s.reg .DBG_TOKEN j))
    { s with dbg := { s.dbg with verify := some (ws, goodChal s), chal := none } }.setFlag F.DBG_LOCK_BUSY 0 true

def execVerifyGo (jtag : Bool) (s : State) : Out := dbgRow s jtag none verifyGo

/-- Word `i` of a token, and the bytes of words `i` to `i + n − 1`. -/
def tokWord (ws : List W32) (i : Nat) : Nat := (ws.getD i 0).toNat
def tokBytes (ws : List W32) (i n : Nat) : List Byte := (List.range n).flatMap (fun k => leBytes 4 (tokWord ws (i + k)))

/-- The words and bits of a token that must be 0. -/
def tokZeros (ws : List W32) : Bool :=
  decide (tokWord ws 0 < 8) && (List.range 64).all (fun i => !((1 ≤ i && i ≤ 3) || 52 ≤ i) || tokWord ws i == 0)

/-- The message that the key holder signs. -/
def tokMsg (s : State) (ws : List W32) (c : BitVec 256) : List Byte :=
  leBytes 32 c.toNat ++ leBytes 8 (s.reg .GLB_ASSIGNED_ID 0) ++ leBytes 4 (tokWord ws 0)

def tokenOk (s : State) (ws : List W32) (c : BitVec 256) : Bool :=
  tokZeros ws && keyFused s.rst.fuse (tokBytes ws 4 12) (tokBytes ws 16 12) &&
  sigOk (tokBytes ws 4 12) (tokBytes ws 16 12) (tokBytes ws 28 12) (tokBytes ws 40 12) (tokMsg s ws c)

def tokenFail (s : State) : State :=
  let u := (s.setFlag F.DBG_LOCK_FAIL 0 true).bump F.DBG_LOCK_FAILS 0 1
  dbgEvent { u with dbg := { u.dbg with lockout := some (u.clk + secEdges) } } 7 0

def tokenPass (s : State) (ws : List W32) : State :=
  (s.setFlag F.DBG_LOCK_UNLOCKED 0 true).setFld F.DBG_LOCK_SCOPE 0 (tokWord ws 0)

/-- The verification that runs comes to its end. -/
def tokenDone (s : State) : State :=
  match s.dbg.verify with
  | none => s
  | some (ws, ch) =>
    let u := { s with dbg := { s.dbg with verify := none } }.setFlag F.DBG_LOCK_BUSY 0 false
    match ch with
    | some c => if tokenOk u ws c then tokenPass u ws else tokenFail u
    | none => tokenFail u

def execTokenVerifyDone (s : State) : Out := .next (tokenDone s)

def execChallengeLockoutEnd (edges : Nat) (s : State) : Out :=
  let u := advance s edges
  .next (match u.dbg.lockout with
    | some e => if e ≤ u.clk then { u with dbg := { u.dbg with lockout := none } } else u
    | none => u)

def execRelock (jtag : Bool) (s : State) : Out := dbgRow s jtag none relock

/-! ## Thread control (R513–R516, R525) -/

/-- The threads that TID and SCOPE name; 3 acts as 0. A number that no thread has names none. -/
def namedThreads (s : State) (tid scope : Nat) : List Nat :=
  if !thrExists s tid then []
  else if scope % 3 = 0 then [tid]
  else if isMgt tid then (List.range 8).map (0x2000 + ·)
  else if scope = 1 then (List.range 32).map (tid / 32 * 32 + ·)
  else (List.range 256).map (tid / 256 * 256 + ·)

/-- An operation of DBG_THR_CTL refused. -/
def thrRefused (s : State) : State := s.setFlag F.DBG_THR_STS_REJECT 0 true

def isHalted (s : State) (t : Nat) : Bool := (thrOf s t).halt.isSome

def dbgHaltOne (s : State) (t : Nat) : State := if (thrOf s t).st = .dormant then thrRefused s else halt s t 0
def dbgResumeOne (s : State) (t : Nat) : State :=
  if isHalted s t || (thrOf s t).stepping then resumeThr s t false else thrRefused s
def dbgStepOne (s : State) (t : Nat) : State := if isHalted s t then resumeThr s t true else thrRefused s
def dbgDiscardOne (s : State) (t : Nat) : State := if isHalted s t then setThr s t { thrOf s t with stage := 0 } else thrRefused s
def dbgResetOne (s : State) (t : Nat) : State := if isSupv s t then thrRefused s else thrReset s t

/-- One operation on every thread named; none named refuses it. -/
def thrOp (s : State) (tid scope : Nat) (f : State → Nat → State) : State :=
  let u := { s with dbg := { s.dbg with named := tid } }
  let ts := namedThreads u tid scope
  if ts.isEmpty then thrRefused u else settleAll (foldS ts f u)

/-- A write of DBG_THR_CTL. -/
def thrCtl (s : State) (jtag : Bool) (op scope tid : Nat) : State :=
  if op = 0 then dbgWrite s jtag (some 0) (fun u => { u with dbg := { u.dbg with named := tid } })
  else if op = 1 then dbgWrite s jtag (some 0) (fun u => thrOp u tid scope dbgHaltOne)
  else if op = 2 then dbgWrite s jtag (some 0) (fun u => thrOp u tid scope dbgResumeOne)
  else if op = 3 then dbgWrite s jtag (some 0) (fun u => thrOp u tid scope dbgStepOne)
  else if op = 4 then dbgWrite s jtag (some 0) (fun u => thrOp u tid scope dbgDiscardOne)
  else if op = 5 then dbgWrite s jtag (some 2) (fun u => thrOp u tid scope dbgResetOne)
  else dbgWrite s jtag (some 0) thrRefused

def thrRow (jtag : Bool) (op : Nat) (scope : BitVec 2) (tid : BitVec 14) (s : State) : Out :=
  .next (if s.rst.aon then thrCtl s jtag op scope.toNat tid.toNat else s)

def execDbgHalt (jtag : Bool) (scope : BitVec 2) (tid : BitVec 14) (s : State) : Out := thrRow jtag 1 scope tid s
def execDbgResume (jtag : Bool) (scope : BitVec 2) (tid : BitVec 14) (s : State) : Out := thrRow jtag 2 scope tid s
def execDbgStep (jtag : Bool) (scope : BitVec 2) (tid : BitVec 14) (s : State) : Out := thrRow jtag 3 scope tid s
def execDiscardStage (jtag : Bool) (scope : BitVec 2) (tid : BitVec 14) (s : State) : Out := thrRow jtag 4 scope tid s
def execDbgThreadReset (jtag : Bool) (scope : BitVec 2) (tid : BitVec 14) (s : State) : Out := thrRow jtag 5 scope tid s

/-! ## Registers of a halted thread (R516) -/

/-- Word `r` of DBG_THR_REG. -/
def dbgThrReg (s : State) (r : Nat) : Nat :=
  let t := s.dbg.named
  let x := thrOf s t
  if x.halt.isNone then 0
  else if r < 32 then (gGet x r).toNat
  else if r = 32 then x.a0.toNat % 2 ^ 32
  else if r = 33 then x.a0.toNat / 2 ^ 32
  else if r = 34 then x.a1.toNat % 2 ^ 32
  else if r = 35 then x.a1.toNat / 2 ^ 32
  else if r = 36 then x.pc.toNat
  else if r = 37 then bits x.flags.toNat 31 0
  else if r ≤ 45 then (if isMgt t then 0 else bits x.stage.toNat (32 * (r - 38) + 31) (32 * (r - 38)))
  else bits x.flags.toNat (32 * (r - 45) + 31) (32 * (r - 45))

/-- A write of word `r`: staging words and g0 keep their values. -/
def dbgThrRegWrite (s : State) (r v : Nat) : State :=
  let t := s.dbg.named
  let x := thrOf s t
  let acc := fun (a : W64) (hi : Bool) => BitVec.ofNat 64 (if hi then setBits a.toNat 63 32 v else setBits a.toNat 31 0 v)
  if x.halt.isNone then s
  else if r < 32 then rfWrite (setThr s t (gSet x r (BitVec.ofNat 32 v))) t r
  else if r = 32 then setThr s t { x with a0 := acc x.a0 false }
  else if r = 33 then setThr s t { x with a0 := acc x.a0 true }
  else if r = 34 then setThr s t { x with a1 := acc x.a1 false }
  else if r = 35 then setThr s t { x with a1 := acc x.a1 true }
  else if r = 36 then setThr s t { x with pc := BitVec.ofNat 32 (v / 4 * 4) }
  else if r = 37 then setThr s t { x with flags := BitVec.ofNat 1024 (setBits x.flags.toNat 31 0 v) }
  else if r ≤ 45 then s
  else setThr s t { x with flags := BitVec.ofNat 1024 (setBits x.flags.toNat (32 * (r - 45) + 31) (32 * (r - 45)) v) }

/-! ## Debug reset requests (R525) -/

/-- The domains that the bits of DBG_RST and DBG_RST_CL request. -/
def dbgBits (s : State) (rst cl : Nat) : Nat :=
  b2n (bitOf rst 31) * 2 ^ 8 + b2n (bitOf rst 30) * 2 + (cl % 2 ^ 32 &&& (presentMask s).toNat) * 2 ^ 32

/-- New bits assert and bits that have gone release, each with a hold of its own. -/
def dbgReset (s : State) (rst cl : Nat) : State :=
  let old := dbgBits s (s.reg .DBG_RST 0) (s.reg .DBG_RST_CL 0)
  let new := dbgBits s rst cl
  let add := (reqBits new).filter (fun b => !bitOf old b)
  let u := (s.setReg .DBG_RST 0 (rst / 2 ^ 30 * 2 ^ 30)).setReg .DBG_RST_CL 0 (cl &&& (presentMask s).toNat)
  let v := if add.isEmpty then u else
    let w := assertSrc u ⟨.dbg, add.foldl (fun r b => r + 2 ^ b) 0, none⟩ 7
    { w with rst := { w.rst with holds := u.rst.holds ++ add.map (fun b => (⟨.dbg, 2 ^ b, none⟩ : RstHold)) } }
  releaseSrcs v (fun h => h.src == RstSrc.dbg && (reqBits old).any (fun b => h.req == 2 ^ b && !bitOf new b))

def execDebugResetRequest (jtag : Bool) (rst cl : W32) (s : State) : Out :=
  dbgRow s jtag (some 2) (fun u => dbgReset u rst.toNat cl.toNat)

end Sys2Proof.Machine
end

