-- ==== Sys2Proof/Machine/EventInstr.lean ====
section
/-!
DEFINITION. Events, timers and network time by thread code (R271–R273, R328, R492).
-/

namespace Sys2Proof.Machine

/-- A wait with a mask: it returns the bits that are set at once, or stalls (R272). -/
def waitOn (s : State) (t rd : Nat) (timer : Bool) (m : W16) : Res :=
  let x := thrOf s t
  let got := evBits s t &&& m
  if m = 0 || got ≠ 0 then doneThr s t (gSet { x with ev := x.ev &&& ~~~got } rd (got.setWidth 32))
  else .wait s (.ev timer rd m)

def execWait (t : BitVec 14) (f : FmtU) (s : State) : Out :=
  issueAt t.toNat (wordU 0x25 0 f) [f.ra.toNat] [f.rd.toNat] id (fun u =>
    if f.rb ≠ 0 ∨ f.rc ≠ 0 then .fault u cIllegal (wordU 0x25 0 f).toNat
    else waitOn u t.toNat f.rd.toNat false ((gv (thrOf u t.toNat) f.ra).setWidth 16)) s

/-- The compare armed for an instant (R273). -/
def armCompare (s : State) (t : Nat) (v : W64) : State := setThr s t { thrOf s t with tcmp := some v }

def execWaitt (t : BitVec 14) (f : FmtU) (s : State) : Out :=
  issueAt t.toNat (wordU 0x25 1 f) [f.ra.toNat, f.ra.toNat + 1, f.rb.toNat] [f.rd.toNat] id (fun u =>
    let x := thrOf u t.toNat
    let b := gv x f.rb
    if f.rc != 0 || !pairOk f.ra then .fault u cIllegal (wordU 0x25 1 f).toNat
    else waitOn (armCompare u t.toNat (gPair x f.ra.toNat)) t.toNat f.rd.toNat true (b.setWidth 16 ||| 1)) s

def execTarm (t : BitVec 14) (f : FmtU) (s : State) : Out :=
  issueAt t.toNat (wordU 0x25 2 f) [f.ra.toNat, f.ra.toNat + 1] [] id (fun u =>
    if f.rd != 0 || f.rb != 0 || f.rc != 0 || !pairOk f.ra then .fault u cIllegal (wordU 0x25 2 f).toNat
    else .done (armCompare u t.toNat (gPair (thrOf u t.toNat) f.ra.toNat)) []) s

def execTdis (t : BitVec 14) (f : FmtU) (s : State) : Out :=
  issueAt t.toNat (wordU 0x25 3 f) [] [] id (fun u =>
    if f.rd ≠ 0 ∨ f.ra ≠ 0 ∨ f.rb ≠ 0 ∨ f.rc ≠ 0 then .fault u cIllegal (wordU 0x25 3 f).toNat
    else doneThr u t.toNat { thrOf u t.toNat with tcmp := none }) s

/-- `sev`: software event bits of a packet thread set; a target in an absent cluster, or DORMANT, is ignored (R294). -/
def sendEv (s : State) (i : Nat) (m : Nat) : State := if clUp s (cluOf i) then setEv s i (BitVec.ofNat 16 (m * 256)) else s

def execSev (t : BitVec 14) (f : FmtU) (s : State) : Out :=
  issueAt t.toNat (wordU 0x25 4 f) [f.ra.toNat, f.rb.toNat] [] id (fun u =>
    let a := gv (thrOf u t.toNat) f.ra
    let b := gv (thrOf u t.toNat) f.rb
    if f.rd ≠ 0 ∨ f.rc ≠ 0 then .fault u cIllegal (wordU 0x25 4 f).toNat
    else .done (settleAll (sendEv u (a.toNat % 8192) (b.toNat % 256))) []) s

def execRdnt (t : BitVec 14) (f : FmtU) (s : State) : Out :=
  issueAt t.toNat (wordU 0x25 5 f) [] [f.rd.toNat, f.rd.toNat + 1] id (fun u =>
    if f.ra != 0 || f.rb != 0 || f.rc != 0 || !pairOk f.rd then .fault u cIllegal (wordU 0x25 5 f).toNat
    else doneThr u t.toNat (gSetPair (thrOf u t.toNat) f.rd.toNat (BitVec.ofNat 64 (nt64 u)))) s

end Sys2Proof.Machine
end

