-- ==== Sys2Proof/Machine/Items.lean ====
section
/-!
DEFINITION. Work items in threads: `get`, enqueues, emits, `drop`, `aend`, `dly` and `wfrm` (R218, R222, R227–R233, R238, R241, R247,
R320–R324, R391–R393).
-/

namespace Sys2Proof.Machine

/-! ## Operands -/

/-- Fields of a queue-and-domain word, and its check. -/
def qdQueue (w : W32) : Nat := bits w.toNat 11 0
def qdDom (w : W32) : Nat := bits w.toNat 29 16
def qdBad (w : W32) : Bool := bits w.toNat 31 30 != 0 || bits w.toNat 15 12 != 0

/-- The current item read from the thread block (R320). -/
def readItem (s : State) (t : Nat) (k : State → Item → Res) : Res :=
  localRead s t (thrBlk t) 64 (fun u bs => k u (itemOfBytes bs))

/-- The item's HANDLE passes R123 or is the null handle; else BADCELL. -/
def itemHandle (s : State) (it : Item) (k : State → Res) : Res :=
  let h := itemWord it 0
  if h = nullHandle || handleGood s h then k s else .fault (noteBadHandle s h) cBadCell h

def holdsItem (s : State) (t : Nat) : Bool := (thrOf s t).item.isSome

/-- The chain of an item that passes on leaves its cluster's ownership (R132). -/
def passOn (s : State) (it : Item) : State := if itemWord it 0 = nullHandle then s else disown s (itemWord it 0 / 8)

/-! ## get (R222) -/

def execGet (t : BitVec 14) (f : FmtUI) (s : State) : Out :=
  issueAt t.toNat (wordUI 0x22 0 f) [] [] id (fun u =>
    let w := (wordUI 0x22 0 f).toNat
    if isMgt t.toNat || f.rd != 0 || f.ra != 0 || decide (64 ≤ f.imm.toNat) then .fault u cIllegal w
    else if holdsItem u t.toNat then .fault u cItem w
    else .wait { u with ory := { u.ory with gets := u.ory.gets ++ [(t.toNat, f.imm.toNat)] } } (.get f.imm.toNat)) s

/-! ## Enqueues (R230, R238, R241) -/

/-- A disposing enqueue of a LATE item acts as a drop, and is counted LATE. -/
def lateEnq (s : State) (t : Nat) (h : Held) (it : Item) : State :=
  let s1 := traceOry (traceThr s t 2 (thrOf s t).pc.toNat 0) 4 h.domain h.queue none t
  releaseItem (oryDom (unrefHandle s1 (itemWord it 0)) h.domain 1 (itLen it)) t

/-- An enqueue by thread `t`, of its current item or a derived one: the status and the state after it. -/
def thrEnq (s : State) (t : Nat) (qd flow : W32) (derived : Bool) (it : Item) : Nat × State :=
  let held := match (thrOf s t).item with
    | some h => if derived then none else h.tag
    | none => none
  match enqueue s false (qdQueue qd) (qdDom qd) flow it held t with
  | (.ok _ _, u) =>
    let v := passOn u it
    (0, if derived then v else releaseItem (traceThr v t 2 (thrOf v t).pc.toNat (qdQueue qd)) t)
  | (.qoff, u) => (tsQoff, u)
  | (.full, u) => (tsFull, u)

/-- Whether a blocking enqueue by thread `t` need not wait. -/
def thrEnqReady (s : State) (t : Nat) (qd : W32) (derived : Bool) : Bool :=
  enqReady s (qdQueue qd) (match (thrOf s t).item with
    | some h => if derived then none else h.tag
    | none => none)

/-- A status word, with what follows the unit's act. -/
def endStatus (r : Nat × State) (t rd : Nat) : Res := doneStatus r.2 t rd r.1

/-- The enqueue proper: blocking, or refused XOFF. -/
def enqAct (s : State) (t rd : Nat) (qd flow : W32) (nb derived : Bool) (it : Item) : Res :=
  let late := match (thrOf s t).item with | some h => if !derived && h.late then some h else none | none => none
  match late with
  | some h => endStatus (0, lateEnq s t h it) t rd
  | none =>
    if nb then
      let q := qdQueue qd
      let off := !s.flag F.ORY_CTL_EN 0 || !s.flag F.ORY_Q_CFG_EN q
      if !off && queueXoff s q then doneStatus s t rd tsXoff
      else endStatus (thrEnq s t qd flow derived it) t rd
    else if thrEnqReady s t qd derived then endStatus (thrEnq s t qd flow derived it) t rd
    else .wait s (.enq rd qd flow (derived, it))

/-- `enq` and `enq.nb`. -/
def enqRow (fn : Nat) (nb : Bool) (t : BitVec 14) (f : FmtU) (s : State) : Out :=
  issueAt t.toNat (wordU 0x22 fn f) [f.ra.toNat, f.rb.toNat] [f.rd.toNat] id (fun u =>
    let x := thrOf u t.toNat
    let w := (wordU 0x22 fn f).toNat
    if isMgt t.toNat || f.rc != 0 then .fault u cIllegal w
    else if qdBad (gv x f.ra) then .fault u cBadArg (gv x f.ra).toNat
    else if !holdsItem u t.toNat then .fault u cNoItem w
    else readItem u t.toNat (fun v it => itemHandle v it (fun v =>
      enqAct v t.toNat f.rd.toNat (gv x f.ra) (gv x f.rb) nb false it))) s

/-- `enqd` and `enqd.nb`. -/
def enqdRow (fn : Nat) (nb : Bool) (t : BitVec 14) (f : FmtU) (s : State) : Out :=
  issueAt t.toNat (wordU 0x22 fn f) [f.ra.toNat, f.rb.toNat, f.rc.toNat] [f.rd.toNat] id (fun u =>
    let x := thrOf u t.toNat
    let a := (gv x f.rc).toNat
    if isMgt t.toNat then .fault u cIllegal (wordU 0x22 fn f).toNat
    else if (localOf t.toNat a 64).isNone then .fault u cBadAddr a
    else if qdBad (gv x f.ra) then .fault u cBadArg (gv x f.ra).toNat
    else localRead u t.toNat a 64 (fun v bs =>
      let it := itemOfBytes bs
      if !itForm it then .fault v cBadItem a
      else itemHandle v it (fun v => enqAct v t.toNat f.rd.toNat (gv x f.ra) (gv x f.rb) nb true it))) s

def execEnqInstruction := enqRow 1 false
def execEnqNb := enqRow 2 true
def execEnqd := enqdRow 3 false
def execEnqdNb := enqdRow 4 true

/-- A blocked enqueue whose queue can take it, or refuses it QOFF, completes. -/
def execEnqUnblock (t : BitVec 14) (s : State) : Out :=
  .next (match (thrOf s t.toNat).wait with
    | .enq rd qd flow (derived, it) =>
      if thrUp s t.toNat && (thrOf s t.toNat).st == .stall && thrEnqReady s t.toNat qd derived then
        let r := thrEnq s t.toNat qd flow derived it
        settleAll (endWaitNext r.2 t.toNat (setStatus (thrOf r.2 t.toNat) rd r.1 0))
      else s
    | _ => s)

/-! ## Emits (R227, R228, R241, R391–R393) -/

/-- Fields of the write-back control word, and its check (R391). -/
def wbTsop (w : W32) : Nat := bits w.toNat 31 30
def wbNew (w : W32) : Nat := bits w.toNat 28 20
def wbOld (w : W32) : Nat := bits w.toNat 19 11
def wbBad (w : W32) : Bool := wbTsop w == 3 || decide (256 < wbNew w) || decide (256 < wbOld w) || bits w.toNat 2 0 != 0

/-- An emit of this item would be its 17th or a later one (R228). -/
def overEmits (h : Held) : Bool := decide (16 ≤ h.emits)

/-- A counter of the item's domain, or of the device for an untagged item (R258). -/
def emitRefused (s : State) (h : Held) (k dev len : Nat) : State := if h.tag.isSome then oryDom s h.domain k len else oryDev s dev len

/-- The item of a final emit is disposed of. -/
def finalDone (s : State) (t : Nat) (h : Held) (dest : Nat) : State :=
  let u := traceThr s t 2 (thrOf s t).pc.toNat dest
  releaseItem (match h.tag with | some g => tagDone u g | none => u) t

/-- A final emit that is not made: the chain's reference goes and the item is disposed of. -/
def finalDrop (s : State) (t : Nat) (h : Held) (it : Item) (dest : Nat) : State := finalDone (unrefHandle s (itemWord it 0)) t h dest

/-- The packet goes through write-back to the gate. -/
def emitOut (s : State) (t : Nat) (h : Held) (dest : Nat) (wb : W32) (hdr : List Byte) (it : Item) : State :=
  let e : Option Nat → Emit := fun hd => ⟨dest, hd, it, wbTsop wb, bitOf wb.toNat 29, bits wb.toNat 10 3, h.queue, h.domain, t⟩
  if itemWord it 0 = nullHandle then gateEmit s h.tag (e none)
  else
    let u := passOn s it
    match writeBack u (clusterReq u (cluOf t)) dest (itemWord it 0 / 8) hdr (wbOld wb) with
    | (some hd, v) => gateEmit v h.tag (e (some hd))
    | (none, v) => v

/-- An emit of item `it` by thread `t`, final or not: the status and the state after it. -/
def emitRun (s : State) (t : Nat) (h : Held) (final : Bool) (dest : Nat) (wb : W32) (hdr : List Byte) (it : Item) : Nat × State :=
  if h.late then
    let u := oryDom s h.domain 1 (itLen it)
    (tsLate, if final then finalDrop u t h it dest else u)
  else if overEmits h then
    let u := emitRefused s h 5 1 (itLen it)
    (tsReplOver, if final then finalDrop u t h it dest else u)
  else if final then (0, finalDone (emitOut s t h dest wb hdr it) t h dest)
  else
    let more := fun (u : State) => setThr u t { thrOf u t with item := (thrOf u t).item.map (fun i => { i with emits := i.emits + 1 }) }
    if itemWord it 0 = nullHandle then (0, more (emitOut s t h dest wb hdr it))
    else
      match addRef s (itemWord it 0 / 8) with
      | some u => (0, more (emitOut u t h dest wb hdr it))
      | none => (tsRefSat, emitRefused s h 6 2 (itLen it))

/-- An emit needs a gate record and there is none. -/
def emitWaits (s : State) (h : Held) (final : Bool) (it : Item) : Bool :=
  !h.late && !overEmits h && gateFull s h.tag &&
  (final || itemWord it 0 = nullHandle || (match chainAt s (itemWord it 0 / 8) with | some ch => decide (ch.refs < 255) | none => false))

/-- `emit` and `emitk`: header-buffer bytes are copied at issue. -/
def emitRow (fn : Nat) (final : Bool) (t : BitVec 14) (f : FmtU) (s : State) : Out :=
  issueAt t.toNat (wordU 0x22 fn f) [f.ra.toNat, f.rb.toNat] [f.rd.toNat] id (fun u =>
    let x := thrOf u t.toNat
    let a := gv x f.ra
    let b := gv x f.rb
    let w := (wordU 0x22 fn f).toNat
    if isMgt t.toNat || f.rc != 0 then .fault u cIllegal w
    else if 16384 ≤ a.toNat then .fault u cBadArg a.toNat
    else if wbBad b then .fault u cBadArg b.toNat
    else
      match x.item with
      | none => .fault u cNoItem w
      | some h =>
        readItem u t.toNat (fun v it => itemHandle v it (fun v =>
          localRead v t.toNat (hdrBuf t.toNat) (wbNew b) (fun v hdr =>
            if emitWaits v h final it then .wait v (.gate f.rd.toNat a b (final, hdr, it))
            else endStatus (emitRun v t.toNat h final a.toNat b hdr it) t.toNat f.rd.toNat)))) s

def execEmit := emitRow 5 true
def execEmitk := emitRow 6 false

/-- A gate record has freed, or the tag has become the head: the emit that waits completes. -/
def execGateRecordWaitEnd (t : BitVec 14) (s : State) : Out :=
  .next (match (thrOf s t.toNat).wait, (thrOf s t.toNat).item with
    | .gate rd a b (final, hdr, it), some h =>
      if thrUp s t.toNat && (thrOf s t.toNat).st == .stall && !emitWaits s h final it then
        let r := emitRun s t.toNat h final a.toNat b hdr it
        settleAll (endWaitNext r.2 t.toNat (setStatus (thrOf r.2 t.toNat) rd r.1 0))
      else s
    | _, _ => s)

/-! ## drop, aend and wfrm -/

/-- An instruction on the current item without operands. -/
def itemRow (fn : Nat) (k : State → Item → Res) (t : BitVec 14) (f : FmtU) (s : State) : Out :=
  issueAt t.toNat (wordU 0x22 fn f) [] [] id (fun u =>
    let w := (wordU 0x22 fn f).toNat
    if isMgt t.toNat || f.rd != 0 || f.ra != 0 || f.rb != 0 || f.rc != 0 then .fault u cIllegal w
    else if !holdsItem u t.toNat then .fault u cNoItem w
    else readItem u t.toNat k) s

def execDrop (t : BitVec 14) (f : FmtU) (s : State) : Out :=
  itemRow 7 (fun u it => itemHandle u it (fun v => .done (settleAll (dropHeld v t.toNat)) [])) t f s

/-- `aend` does not read the item. -/
def execAend (t : BitVec 14) (f : FmtU) (s : State) : Out :=
  issueAt t.toNat (wordU 0x22 8 f) [] [] id (fun u =>
    let w := (wordU 0x22 8 f).toNat
    if isMgt t.toNat || f.rd != 0 || f.ra != 0 || f.rb != 0 || f.rc != 0 then .fault u cIllegal w
    else if !holdsItem u t.toNat then .fault u cNoItem w
    else .done (settleAll (releaseCtx u t.toNat)) []) s

/-- The item in thread form (R324). -/
def threadForm (it : Item) : Item :=
  if itForm it then it
  else
    let w1 := itemWord it 1
    let w3 := itemWord it 3
    let kind := bits w1 18 17
    let i1 := setItemWord it 3 (if kind ≠ 0 then w3 else 0)
    let i2 := setItemWord i1 4 (if kind = 0 then w3 else 0)
    let i3 := setItemWord i2 5 (if itHostSide it then itemWord it 15 % 2 ^ 16 else 0)
    setItemWord i3 1 (putBit (setBits w1 31 30 0) 29 true)

def execWfrm (t : BitVec 14) (f : FmtU) (s : State) : Out :=
  itemRow 10 (fun u it => .done (if itForm it then u else
    foldS [1, 3, 4, 5] (fun v i =>
      bankWrite v (coreOf t.toNat) (thrBlk t.toNat + 4 * i) (leBytes 4 (itemWord (threadForm it) i))) u) []) t f s

/-! ## dly (R247, R323) -/

/-- An insert of a delayed item by a thread: the status and the state after it. -/
def thrDly (s : State) (w0 : Nat) (flow : W32) (due : Nat) (it : Item) : Nat × State :=
  match dlyRefusal s (bits w0 15 12) with
  | some true => (tsQoff, s)
  | some false => (tsFull, s)
  | none => (0, passOn (dlyInsert s (bits w0 15 12) due (bits w0 11 0) (bits w0 29 16) flow it).2 it)

def execDly (t : BitVec 14) (f : FmtU) (s : State) : Out :=
  issueAt t.toNat (wordU 0x22 9 f) [f.ra.toNat] [f.rd.toNat] id (fun u =>
    let a := (gv (thrOf u t.toNat) f.ra).toNat
    if isMgt t.toNat || f.rb != 0 || f.rc != 0 then .fault u cIllegal (wordU 0x22 9 f).toNat
    else localRead u t.toNat a 80 (fun v bs =>
      let w0 := leNat (bs.take 4)
      let it := itemOfBytes (bs.drop 16)
      if bits w0 31 30 ≠ 0 then .fault v cBadArg w0
      else if !itForm it then .fault v cBadItem (a + 16)
      else itemHandle v it (fun v =>
        endStatus (thrDly v w0 (BitVec.ofNat 32 (leNat ((bs.drop 4).take 4))) (leNat ((bs.drop 8).take 8)) it) t.toNat f.rd.toNat))) s

end Sys2Proof.Machine
end

