-- ==== Sys2Proof/Machine/Orrery.lean ====
section
/-!
DEFINITION. Orrery's own steps: dispatch (R223), refill (R239), the hold limit (R240, R241), queue and list disables (R221, R250,
R256, R257), delay ticks (R248) and the class 3 control commands (R251–R253).
-/

namespace Sys2Proof.Machine

/-! ## Dispatch and refill -/

/-- A dispatch decision for group `g` (R223). -/
def execDispatch (g : Fin 64) (edges : Nat) (s : State) : Out :=
  let u := advance s edges
  .next (if pktUp u then settleAll (dispatchOne u g.val) else u)

def execSpillRefill (s : State) : Out := .next (if pktUp s then settleAll (refillOne s) else s)

/-! ## Held tags (R240, R241) -/

/-- The skip of a tag: the hold is over, the head advances, and the item is LATE. -/
def tagSkip (s : State) (d t : Nat) (x : Tag) : State :=
  let q := match x.holder with
    | some h => (match (thrOf s h).item with | some i => i.queue | none => 0)
    | none => 0
  let s := traceOry s 3 d q (some t) (x.holder.getD 0)
  let u := match x.holder with
    | some h =>
      let y := thrOf s h
      setThr s h { y with item := y.item.map (fun i => { i with late := true, tag := none }) }
    | none => s
  raiseSrc (oryDom (tagDone u t) d 3 0) 160 d

/-- The head tag of domain `d` has been held for HOLD_LIMIT (R240). -/
def skipDue (s : State) (x : Tag) : Bool :=
  let lim := s.fld F.ORY_DOM_CFG_HOLD_LIMIT 0
  lim ≠ 0xFFFFFFFF && (match x.heldFrom with | some e => decide (max 1 (lim * 2 ^ 32) ≤ s.tim.elapsed - e) | none => false)

def execTagSkip (d : BitVec 14) (edges : Nat) (s : State) : Out :=
  let u := advance s edges
  .next (match (domTags u d.toNat).head? with
    | some t => (match tagOf u t with
      | some x => if pktUp u && skipDue u x then settleAll (tagSkip u d.toNat t x) else u
      | none => u)
    | none => u)

/-! ## Queue enables and purges (R217, R221) -/

def qDrain (s : State) (q : Nat) : State := if qDrained s q then s.setFlag F.ORY_Q_STS_DRAINED q true else s

def qEnable (s : State) (q : Nat) : State :=
  if s.flag F.ORY_Q_CFG_EN q then s
  else if s.flag F.ORY_Q_STS_PURGE_BUSY q || qType s q == 3 then s.setFlag F.ORY_Q_STS_REJECT q true
  else (s.setFlag F.ORY_Q_CFG_EN q true).setFlag F.ORY_Q_STS_DRAINED q false

def qDisable (s : State) (q : Nat) : State :=
  if s.flag F.ORY_Q_CFG_EN q then qDrain (s.setFlag F.ORY_Q_CFG_EN q false) q else s

def qPurge (s : State) (q : Nat) : State :=
  if s.flag F.ORY_Q_CFG_EN q then s.setFlag F.ORY_Q_STS_REJECT q true else s.setFlag F.ORY_Q_STS_PURGE_BUSY q true

def execQueueDisable (q : BitVec 12) (s : State) : Out := .next (if pktUp s then settleAll (qDisable s q.toNat) else s)
def execPurge (q : BitVec 12) (s : State) : Out := .next (if pktUp s then qPurge s q.toNat else s)

/-- The purge of a queue ends. -/
def purgeEnd (s : State) (q : Nat) : State := settleAll (qDrain ((qEval s q).setFlag F.ORY_Q_STS_PURGE_BUSY q false) q)

/-- The purge has dropped its last item: the items that are left go here, together. -/
def execPurgeComplete (q : BitVec 12) (s : State) : Out :=
  .next (if pktUp s && s.flag F.ORY_Q_STS_PURGE_BUSY q.toNat then purgeEnd (purgeAll s q.toNat) q.toNat else s)

/-- A running purge drops one item at a PCLK edge (R221; log entry 6). -/
def purgeEdge (s : State) (q : Nat) : State :=
  if !s.flag F.ORY_Q_STS_PURGE_BUSY q then s
  else
    let u := qEval (purgeOne s q) q
    if qDepth u q = 0 then purgeEnd u q else settleAll u

/-- One PCLK edge passes with no command: time advances, and purges go on. -/
def idleEdge (s : State) : State :=
  let u := advance s 1
  if pktUp u then foldS (regsOf u .ORY_Q_STS) purgeEdge u else u

/-! ## Membership and the whole block (R242, R257) -/

/-- A bit of an absent cluster is unchecked (R7, R255). -/
def membersWrite (s : State) (g : Nat) (v : W32) : Out :=
  if (List.range 32).any (fun n => v.getLsbD n && !clusterPresent s n) then .fault .absentMember
  else .next (s.setReg .ORY_GRP_MEMBERS g v.toNat)

def execGroupMembershipWrite (g : Fin 64) (v : W32) (s : State) : Out := if pktUp s then membersWrite s g.val v else .next s

def oryDrain (s : State) : State := if oryDrained s then s.setFlag F.ORY_STS_DRAINED 0 true else s
def oryDisable (s : State) : State := if s.flag F.ORY_CTL_EN 0 then oryDrain (s.setFlag F.ORY_CTL_EN 0 false) else s
def execOrreryDisable (s : State) : Out := .next (if pktUp s then settleAll (oryDisable s) else s)

/-! ## Delay lists (R247–R250, R256) -/

def dlyDrain (s : State) (l : Nat) : State :=
  if !s.flag F.ORY_DLY_L_CFG_EN l && dlyPending s l == 0 then s.setFlag F.ORY_DLY_L_STS_DRAINED l true else s

/-- A tick of list `l`: what is due is released in order. -/
def execDelayTick (l : Fin 16) (edges : Nat) (s : State) : Out :=
  let u := advance s edges
  .next (if pktUp u then settleAll (dlyDrain (foldS (dlyDue u l.val) dlyRelease u) l.val) else u)

def dlyDisable (s : State) (l : Nat) : State :=
  if s.flag F.ORY_DLY_L_CFG_EN l then dlyDrain (s.setFlag F.ORY_DLY_L_CFG_EN l false) l else s
def execDelayListDisable (l : Fin 16) (s : State) : Out := .next (if pktUp s then dlyDisable s l.val else s)

/-- A pending item lost as the area is disabled: it is read back, and its chain reference goes where the read is good (R256). -/
def dlyLose (s : State) (x : DlyItem) : State :=
  let r := dramRead s (dlyAddr s x.place) 80 4
  let u := dlyLost r.2.2 x
  let v := { u with ory := { u.ory with delayed := u.ory.delayed.filter (fun y => y.place != x.place) } }
  if r.2.1.any id then v else unrefHandle v (itemWord x.it.item 0)

def dlyAreaDisable (s : State) : State :=
  if s.flag F.ORY_DLY_CTL_EN 0 then
    foldS (List.range 16) dlyDrain (foldS s.ory.delayed dlyLose (s.setFlag F.ORY_DLY_CTL_EN 0 false))
  else s
def dlyAreaEnable (s : State) : State :=
  if s.flag F.ORY_DLY_CTL_EN 0 then s
  else if drcReady s then s.setFlag F.ORY_DLY_CTL_EN 0 true else s.setFlag F.ORY_DLY_CTL_REJECT 0 true

def execDelayAreaDisable (s : State) : Out := .next (if pktUp s then settleAll (dlyAreaDisable s) else s)

/-! ## Class 3 commands (R251–R253) -/

/-- A chain that a control ring passes on leaves its cluster's ownership (R132, R218, R247). -/
def passHandle (s : State) (it : Item) : State := if itemWord it 0 = nullHandle then s else disown s (itemWord it 0 / 8)

/-- The checks of the item, and the command's effect. -/
def class3 (it : Item) (s : State) (f : State → CtlRes × State) : CtlRes × State :=
  if !itForm it then (.done stRange [], s)
  else if itemWord it 0 ≠ nullHandle && !handleGood s (itemWord it 0) then (.done stBadHandle [], noteBadHandle s (itemWord it 0))
  else f s

def ctlEnq (c : Ctl) (it : Item) (s : State) : CtlRes × State :=
  class3 it s (fun u =>
    match enqueue u false (bits (bodyWord c 0) 11 0) (bits (bodyWord c 0) 29 16) (c.body.getD 1 0) it none 0 with
    | (.ok tag _, v) => (.done stOk [match tag with | some t => 2 ^ 31 + t | none => 0], passHandle v it)
    | (.qoff, v) => (.done stQoff [], v)
    | (.full, v) => (.done stFull [], v))

def ctlDlyInsert (c : Ctl) (it : Item) (s : State) : CtlRes × State :=
  class3 it s (fun u =>
    let l := bits (bodyWord c 0) 15 12
    match dlyRefusal u l with
    | some true => (.done stQoff [], u)
    | some false => (.done stFull [], u)
    | none =>
      let (tick, v) := dlyInsert u l (bodyDword c 2) (bits (bodyWord c 0) 11 0) (bits (bodyWord c 0) 29 16) (c.body.getD 1 0) it
      (.done stOk [0, tick % 2 ^ 32, tick / 2 ^ 32], passHandle v it))

/-- `it` is the item that Orrery reads at ADDR. -/
def execEnq (c : Ctl) (it : Item) (s : State) : Out := .next (settleAll (ctlExec s c 0x0301 (fun u _ => ctlEnq c it u)))
def execDlyInsert (c : Ctl) (it : Item) (s : State) : Out := .next (settleAll (ctlExec s c 0x0302 (fun u _ => ctlDlyInsert c it u)))

end Sys2Proof.Machine
end

