-- ==== Sys2Proof/Machine/Pio.lean ====
section
/-!
DEFINITION. PIO (R490, R532, R534, R536, R547): GPIO levels and the SPI and I2C1 controllers. I2C0, which reads registers, stands with the
register bus.
-/

namespace Sys2Proof.Machine

/-! ## GPIO (R532, R536) -/

/-- Time-compare unit `k` as it drives a pin: while PKT is in reset the pin holds its last level. -/
def unitLevel (s : State) (k : Nat) : Bool := if pktUp s then (tcmpOf s k).high else s.pio.tcmpHeld.getLsbD k

/-- The level of GPIO[b]: driven by what FN selects, or as it comes from outside. -/
def gpioLevel (s : State) (b : Nat) : Bool :=
  let f := bits (s.reg .PIO_GPIO_FN (b / 8)) (4 * (b % 8) + 2) (4 * (b % 8))
  if 1 ≤ f && f ≤ 4 then unitLevel s (f - 1)
  else if bitOf (s.reg .PIO_GPIO_OE 0) b then bitOf (s.reg .PIO_GPIO_OUT 0) b
  else s.pio.gpioIn.getLsbD b

def gpioIn (s : State) : Nat := (List.range 32).foldl (fun v b => v + b2n (gpioLevel s b) * 2 ^ b) 0

/-! ## Transfers -/

/-- The first `n` bytes of a data buffer of registers, and bytes put into one. -/
def bufBytes (s : State) (r : RegName) (n : Nat) : List Byte := (List.range n).map (fun i => BitVec.ofNat 8 (s.reg r (i / 4) / 2 ^ (8 * (i % 4))))
def bufPut (s : State) (r : RegName) (bs : List Byte) : State :=
  foldS bs.zipIdx (fun u x => u.setReg r (x.2 / 4) (setBits (u.reg r (x.2 / 4)) (8 * (x.2 % 4) + 7) (8 * (x.2 % 4)) x.1.toNat)) s

/-- The SPI and I2C engines run: their clock comes from PLL_G, which MGT's reset leaves running. -/
def spiLen (ctl : Nat) : Nat := min 64 (bits ctl 6 0)
def i2cLen (ctl : Nat) : Nat := min 32 (bits ctl 5 0)

/-- GO with the other fields of `ctl`: a transfer starts with what ADDR and DATA hold. -/
def spiGo (s : State) (ctl : Nat) : State :=
  if s.flag F.PIO_SPI_CTL_ROM_OWN 0 || s.flag F.PIO_SPI_CTL_BUSY 0 then s
  else
    let c := setBits ctl 31 29 0
    let u := s.setReg .PIO_SPI_CTL 0 (c + 2 ^ 30)
    let out := if bitOf c 25 then [] else bufBytes u .PIO_SPI_DATA (spiLen c)
    { u with pio := { u.pio with spi := some ⟨BitVec.ofNat 32 c, BitVec.ofNat 32 (u.reg .PIO_SPI_ADDR 0), out⟩ } }

def execSpiTransfer (ctl : W32) (s : State) : Out := .next (if s.rst.aon then spiGo s ctl.toNat else s)

/-- A transfer ends; a read puts the bytes that came in into DATA. -/
def spiDone (s : State) (x : Xfer) (bs : List Byte) : State :=
  let u := { s with pio := { s.pio with spi := none, spiSent := x :: s.pio.spiSent } }.setFlag F.PIO_SPI_CTL_BUSY 0 false
  if x.ctl.getLsbD 25 then bufPut u .PIO_SPI_DATA (flashBytes bs 0 (spiLen x.ctl.toNat)) else u

def execSpiTransferDone (bs : List Byte) (s : State) : Out :=
  .next (match s.pio.spi with | some x => spiDone s x bs | none => s)

def i2c1Go (s : State) (ctl : Nat) : State :=
  if s.flag F.PIO_I2C1_CTL_BUSY 0 then s
  else
    let c := setBits (setBits (setBits ctl 31 29 0) 25 14 0) 6 6 0
    let u := s.setReg .PIO_I2C1_CTL 0 (c + 2 ^ 30 + b2n (s.flag F.PIO_I2C1_CTL_NACK 0 && !bitOf ctl 29) * 2 ^ 29)
    let out := if bitOf c 27 then [] else bufBytes u .PIO_I2C1_DATA (i2cLen c)
    { u with pio := { u.pio with i2c1 := some ⟨BitVec.ofNat 32 c, 0, out⟩ } }

def execI2c1Transfer (ctl : W32) (s : State) : Out := .next (if s.rst.aon then i2c1Go s ctl.toNat else s)

/-- The transfer ends: with the target's bytes, or without its acknowledgement, when a read brings none. -/
def i2c1Done (s : State) (x : Xfer) (ack : Bool) (bs : List Byte) : State :=
  let u := { s with pio := { s.pio with i2c1 := none, i2c1Sent := x :: s.pio.i2c1Sent } }.setFlag F.PIO_I2C1_CTL_BUSY 0 false
  if !ack then u.setFlag F.PIO_I2C1_CTL_NACK 0 true
  else if x.ctl.getLsbD 27 then bufPut u .PIO_I2C1_DATA (flashBytes bs 0 (i2cLen x.ctl.toNat)) else u

def execI2c1TransferDone (ack : Bool) (bs : List Byte) (s : State) : Out :=
  .next (match s.pio.i2c1 with | some x => i2c1Done s x ack bs | none => s)

end Sys2Proof.Machine
end

