-- ==== Sys2Proof/Machine/UnitCmd.lean ====
section
/-!
DEFINITION. The coprocessors' commits and controls (R345, R350, R351, R353, R358) and Flint's host commands and forced release (R373,
R377).
-/

namespace Sys2Proof.Machine

/-! ## Coprocessors -/

/-- Unit `u` of cluster `n` is there and its clock runs (R361, R362). -/
def cpxLive (s : State) (n u : Nat) : Bool := clUp s n && unitPresent s u

/-- The next command of a lane takes effect (R350); a parked cluster's commands wait (R361). -/
def execCpxCommit (n : Fin 32) (u : Fin 2) (l : Fin 16) (s : State) : Out :=
  .next (if cpxLive s n.val u.val && !parked s n.val then settleAll (cpxCommit s n.val u.val l.val) else s)

def laneClrErr (s : State) (n u l : Nat) : State := setLane s n u l { laneOf s n u l with err := false }

/-- A write of CPX[u]_LANE[l]_CTL.OP. -/
def laneCtl (s : State) (n u l op : Nat) : State :=
  if op = 1 then settleAll (laneFree s n u l) else if op = 2 then laneClrErr s n u l else s

def execLaneFree (n : Fin 32) (u : Fin 2) (l : Fin 16) (s : State) : Out :=
  .next (if cpxLive s n.val u.val then laneCtl s n.val u.val l.val 1 else s)
def execLaneClrErr (n : Fin 32) (u : Fin 2) (l : Fin 16) (s : State) : Out :=
  .next (if cpxLive s n.val u.val then laneCtl s n.val u.val l.val 2 else s)

/-- Key word `j` of slot `k` written and not yet committed. -/
def kbufKey (n k j : Nat) : Nat := 8 * (512 * n + k) + j
def keyWord (s : State) (n k j : Nat) (w : W32) : State := { s with cpx := { s.cpx with kbuf := mset noW32 s.cpx.kbuf (kbufKey n k j) w } }

/-- The written words become the slot's key as one change; words not written are 0, and VALID = 0 clears the slot. -/
def keyCommit (s : State) (n k : Nat) (valid k256 : Bool) : State :=
  let key := (List.range 8).flatMap (fun j => leBytes 4 (mget noW32 s.cpx.kbuf (kbufKey n k j)).toNat)
  let u := { s with cpx := { s.cpx with kbuf := mkeep (fun i => i / 8 != 512 * n + k) s.cpx.kbuf } }
  setSlot u n k (if valid then ⟨key, true, k256⟩ else ⟨[], false, false⟩)

def execKeySlotCommit (n : Fin 32) (k : Fin 512) (valid k256 : Bool) (s : State) : Out :=
  .next (if cpxLive s n.val 0 then keyCommit s n.val k.val valid k256 else s)

def cpxOff (s : State) (n u : Nat) : State := if s.flag F.CPX_CFG_EN (2 * n + u) then settleAll (cpxDisable s n u) else s
def cpxOn (s : State) (n u : Nat) : State :=
  if s.flag F.CPX_CFG_EN (2 * n + u) then s else (s.setFlag F.CPX_CFG_EN (2 * n + u) true).setFlag F.CPX_STS_DRAINED (2 * n + u) false

def execCpxDisable (n : Fin 32) (u : Fin 2) (s : State) : Out := .next (if cpxLive s n.val u.val then cpxOff s n.val u.val else s)

/-! ## Flint: forced release and class 4 commands -/

/-- `w` is the word written to FLT_FORCE. -/
def execFlintForceRelease (w : W32) (s : State) : Out := .next (if pktUp s then settleAll (fltForceWrite s w.toNat) else s)

/-- A thread status as a host status code. -/
def fltStatus (st : Nat) : Nat :=
  if st = tsAbandoned then stAcqAbandoned else if st = tsBusy then stBusy else if st = tsDenied then stDenied
  else if st = tsNotHeld then stNotFound else stOk

/-- A class 4 command whose words are in range. -/
def fltRow (c : Ctl) (op : Nat) (s : State) (ok : Bool) (f : State → Nat → Nat × State) : Out :=
  .next (settleAll (ctlExec s c op (fun u fn =>
    if !ok then (.done stRange [], u)
    else
      let (st, v) := f u (ownerOfFn fn)
      (.done (fltStatus st) [], settleAll v))))

/-- The lock, the semaphore and the count that a body names; a body word with other bits set is out of range. -/
def lockIn (c : Ctl) : Bool := decide (bodyWord c 0 < 4096)
def semIn (c : Ctl) : Bool := decide (bodyWord c 0 < 512) && decide (0 < bodyWord c 1) && decide (bodyWord c 1 < 2 ^ 16)

def execFltLockTry (c : Ctl) (s : State) : Out := fltRow c 0x0401 s (lockIn c) (fun u o => let r := lockTry u (bodyWord c 0) o; (r.1, r.2.2))
def execFltLockRel (c : Ctl) (s : State) : Out := fltRow c 0x0402 s (lockIn c) (fun u o => lockRel u (bodyWord c 0) o)
def execFltSemTry (c : Ctl) (s : State) : Out := fltRow c 0x0403 s (semIn c) (fun u o => semTry u (bodyWord c 0) o (bodyWord c 1))
def execFltSemRel (c : Ctl) (s : State) : Out := fltRow c 0x0404 s (semIn c) (fun u o => semRel u (bodyWord c 0) o (bodyWord c 1))

/-- FLT_QUERY: the registers of a lock or a semaphore as they read. -/
def execFltQuery (c : Ctl) (s : State) : Out :=
  .next (ctlExec s c 0x0405 (fun u _ =>
    let w := bodyWord c 0
    let n := w % 2 ^ 31
    if bitOf w 31 then
      (if n < 512 then (.done stOk [semCfgWord u n, semStsWord u n], u) else (.done stRange [], u))
    else if n < 4096 then (.done stOk [lockWord u n, 0], u) else (.done stRange [], u)))

end Sys2Proof.Machine
end

