-- ==== Sys2Proof/Machine/RegView.lean ====
section
/-!
DEFINITION. What a register shows to a read: stored contents, with the fields that report the state of a unit worked out from it.
-/

namespace Sys2Proof.Machine

/-- Field `f` of the word `w` replaced. -/
def putFld (w : Nat) (f : Fld) (v : Nat) : Nat := setBits w f.hi f.lo v
def putFlag (w : Nat) (f : Fld) (b : Bool) : Nat := putFld w f (b2n b)

/-- At the PCLK edge of a domain's release its status fields read their Reset values (R10). -/
def justUp (s : State) (d : Nat) : Bool := mget noNat s.rst.upAt d = s.clk + 1

/-! ## Identity (R1–R6, R31) -/

def variantCode (s : State) : Nat := match s.variant with | .a1600 => 0 | .n1600 => 1 | .l1200 => 2

def glbId (s : State) : Nat :=
  putFld (putFld (s.reg .GLB_ID 0) F.GLB_ID_VARIANT (variantCode s)) ⟨.GLB_ID, 7, 0⟩ s.stepping.toNat

def glbFeat0 (s : State) : Nat :=
  let w := putFlag (s.reg .GLB_FEAT0 0) F.GLB_FEAT0_CPX_C (unitPresent s 0)
  if s.variant = .l1200 then putFld (putFld (putFld w F.GLB_FEAT0_DRC_PRESENT 0x0F) F.GLB_FEAT0_QUAD_PRESENT 0x7) F.GLB_FEAT0_P800_23 0 else w

def glbFeat1 (s : State) : Nat :=
  let w := s.reg .GLB_FEAT1 0
  if s.variant = .l1200 then putFld (putFld (putFld w F.GLB_FEAT1_THREADS 6144) F.GLB_FEAT1_CORES 192) F.GLB_FEAT1_CLUSTERS 24 else w

def glbFeat2 (s : State) : Nat :=
  let w := s.reg .GLB_FEAT2 0
  if s.variant = .l1200 then putFld w F.GLB_FEAT2_LINE_LANES 12 else w

/-! ## Threads (R270, R289) -/

def stCode : ThrSt → Nat
  | .dormant => 0
  | .ready => 1
  | .run => 2
  | .stall => 3
  | .fault => 4
  | .debug => 5

def waitCode : Wait → Nat
  | .none => 0
  | .slot _ => 1
  | .slots _ => 1
  | .cell => 2
  | .dma => 3
  | .cpq _ _ => 4
  | .cpr _ _ => 4
  | .cpw _ _ => 4
  | .recv _ _ _ => 5
  | .send _ _ _ => 6
  | .flint _ _ _ _ => 7
  | .granted _ _ => 7
  | .get _ => 8
  | .ev false _ _ => 9
  | .ev true _ _ => 10
  | .enq _ _ _ _ => 11
  | .gate _ _ _ _ => 12
  | .fetch => 13
  | .rport _ _ _ => 0

/-- The thread waits: in STALL, or halted out of it. -/
def waits (x : Thread) : Bool := x.st == .stall || (match x.halt with | some h => h.prev == .stall | none => false)
def waitNow (x : Thread) : Nat := if waits x then waitCode x.wait else 0

def thrStsWord (s : State) (t : Nat) : Nat :=
  let x := thrOf s t
  let b := fun (i : Nat) (p : Bool) => b2n p * 2 ^ i
  stCode x.st * 2 ^ 29 + b 28 (isS s t && !justUp s (32 + cluOf t)) + waitNow x * 2 ^ 24 + b 23 x.item.isSome +
  b 22 (match x.item with | some h => h.tag.isSome | none => false) + b 21 (match x.item with | some h => h.ctx.isSome | none => false) +
  b 20 x.tcmp.isSome + b 19 (outstanding s t) + b 18 (internal s t) + b 17 (match x.item with | some h => h.late | none => false)

def thrEvWord (s : State) (t : Nat) : Nat :=
  let x := thrOf s t
  let mask := match x.wait with | .ev _ _ m => if waits x then m.toNat else 0 | _ => 0
  mask * 2 ^ 16 + (evBits s t).toNat

def mgtThrSts (s : State) (t : Nat) : Nat :=
  let x := thrOf s t
  stCode x.st * 2 ^ 29 + b2n x.inFault * 2 ^ 28 + waitNow x * 2 ^ 24

/-! ## Coprocessor units (R339, R346) -/

def cpxStsWord (s : State) (n u : Nat) : Nat :=
  let q := cpxQ s n u
  putFld (putFld (s.reg .CPX_STS (2 * n + u)) F.CPX_STS_WAITING (cpxHeldBack s n u q).length) F.CPX_STS_QUSED q.length

def cpxLaneWord (s : State) (n u l : Nat) : Nat :=
  let x := laneOf s n u l
  let q := cpxQ s n u
  b2n x.holder.isSome * 2 ^ 31 + b2n x.abandoned * 2 ^ 30 + b2n x.err * 2 ^ 29 +
  ((q.filter (fun c => c.lane == l && isLock c && lockWaits s n u q c)).length) * 2 ^ 16 + x.holder.getD 0 % 256

/-! ## Orrery and egress -/

def domStsWord (s : State) (d : Nat) : Nat :=
  let l := domTags s d
  let head := match l with | t :: _ => tagOf s t | [] => none
  b2n (match head with | some x => !x.done | none => false) * 2 ^ 31 +
  b2n (match head with | some x => x.heldFrom.isSome | none => false) * 2 ^ 30 + l.length

/-- The port starts nothing (R79, R396). -/
def portClosed (s : State) (p : Nat) : Bool :=
  if p < 16 then !portUp s p
  else if p = 17 then bpcRecirc s
  else false

def portStsWord (s : State) (p : Nat) : Nat :=
  b2n (portClosed s p && !justUp s dPkt) * 2 ^ 31 +
  (if p < 16 then (List.range 8).foldl (fun v i => v + b2n (pausedNow s p i) * 2 ^ (16 + i)) 0 else 0) +
  (if p < 16 then pfLevel s p else 0xFFFF)

/-- EN = 0 and the queue holds nothing (R385). -/
def egrQDrained (s : State) (e : Nat) : Bool := !s.flag F.EGR_Q_CFG_EN e && (egrQ s e).isEmpty

def egrQSts (s : State) (e : Nat) : Nat :=
  let w := s.reg .EGR_Q_STS e
  putFld (putFlag (putFlag w F.EGR_Q_STS_HELD (mget noBool s.egr.held e)) F.EGR_Q_STS_DRAINED (egrQDrained s e)) F.EGR_Q_STS_PKTS (egrQ s e).length

/-! ## Interrupts -/

def stalledCount (s : State) : Nat := ((List.range 1023).filter (fun i => deliverable s i && (routeChoice s i).isNone)).length

def sumWord (s : State) (t j : Nat) : Nat :=
  (List.range 32).foldl (fun v b => v + b2n (outAt s (32 * j + b) == some t) * 2 ^ b) 0

/-! ## Debug -/

def dbgThrSts (s : State) : Nat :=
  let x := thrOf s s.dbg.named
  let w := s.reg .DBG_THR_STS 0
  let r := match x.halt with | some h => h.reason | none => 0
  putFlag (putFld (putFlag w F.DBG_THR_STS_DEBUG x.halt.isSome) F.DBG_THR_STS_REASON r) F.DBG_THR_STS_STEPPING x.stepping

/-! ## The whole map -/

/-- A function's status: PRESENT while it exists and its link is up (R88, R554). -/
def fnWord (s : State) (f : Nat) : Nat :=
  let x := fnOf s f
  if fnExists s f && !justUp s dPkt then
    b2n (linkUp s (fnLink f)) * 2 ^ 31 + b2n x.d3 * 2 ^ 30 + b2n x.flr * 2 ^ 29 + b2n x.bme * 2 ^ 28
  else 0

/-- A link's status; the link's own fields read 0 while a source holds its HOST domain. -/
def linkWord (s : State) (h : Nat) : Nat :=
  if justUp s dPkt then 0
  else putFlag (if isHeld s (dHost h) then 0 else s.reg .HIF_LINK_STS h) F.HIF_LINK_STS_PERST (srcHeld s (.perst h))

/-- A requester's status (R128): AT_HARD follows USED and HARD. -/
def reqStsWord (s : State) (r : Nat) : Nat :=
  putFlag (s.reg .CRN_REQ_STS r) F.CRN_REQ_STS_AT_HARD (!justUp s dPkt && decide (s.fld F.CRN_REQ_HARD_HARD r ≤ s.fld F.CRN_REQ_STS_USED r))

/-- What a read of register `r`, instance `i` finds: its stored contents, with status worked out from the state. -/
def regView (s : State) (r : RegName) (i : Nat) : Nat :=
  let w := s.reg r i
  match r with
  | .GLB_ID => glbId s
  | .GLB_FEAT0 => glbFeat0 s
  | .GLB_FEAT1 => glbFeat1 s
  | .GLB_FEAT2 => glbFeat2 s
  | .GLB_CLUSTER_PRESENT => (presentMask s).toNat
  | .DBG_ID => glbId s
  | .DBG_ID_ASSIGNED => s.reg .GLB_ASSIGNED_ID 0
  | .RST_SWRST => swHeld s % 2 ^ 32
  | .RST_SWRST_CLR => swHeld s % 2 ^ 32
  | .RST_SWRST_CL => swHeld s / 2 ^ 32
  | .RST_SWRST_CL_CLR => swHeld s / 2 ^ 32
  | .RST_WDT_STS => putFld w F.RST_WDT_STS_REMAIN_MS (match wdtLeft s with | some l => min 65535 (l / msEdges) | none => 0)
  | .RST_CLU_CLK => putFlag w F.RST_CLU_CLK_STEP_BUSY (mget noNat s.rst.stepTo i != 0 || stepWanted s i != s.fld F.RST_CLU_CLK_STEP_CUR i)
  | .TIM_NT => nt64 s
  | .ICU_PEND_CLR => s.reg .ICU_PEND_SET i
  | .ICU_MASK_SET => s.reg .ICU_MASK_SET i &&& listedMask i
  | .ICU_MASK_CLR => s.reg .ICU_MASK_SET i &&& listedMask i
  | .ICU_STS => stalledCount s
  | .ICU_TGT_STS => b2n (tgtAvail s i) * 2 ^ 31 + (outSet s i).length
  | .ICU_TGT_SUM => sumWord s (i / 32) (i % 32)
  | .ICU_CLAIM => 1023
  | .HIF_LINK_CFG => putFlag w F.HIF_LINK_CFG_BIFUR_PEND (s.flag F.HIF_LINK_CFG_BIFUR 0 != s.hif.bifur)
  | .HIF_LINK_STS => linkWord s i
  | .HIF_FN => fnWord s i
  | .LPT_STS => putFld w F.LPT_STS_XOFF (xoffMask s i)
  | .LPT_QUAD_STS =>
    putFlag (putFlag w F.LPT_QUAD_STS_REFCLK_OK (quadClk s i && !justUp s dLine)) F.LPT_QUAD_STS_PLL_LOCK (quadPll s i)
  | .CRN_REQ_STS => reqStsWord s i
  | .CRN_CLU_STS => putFld w F.CRN_CLU_STS_OWNED ((ownedBy s i).length + (ownedBy s (32 + i)).length)
  | .AGT_TBL_STS => putFlag w F.AGT_TBL_STS_CURSOR (cursorOpen s i)
  | .ORY_SLOTS_FREE => slotsFree s
  | .ORY_TAGS_FREE => tagsFree s
  | .ORY_POOL_STS => b2n (tagBp s) * 2 + b2n (slotBp s)
  | .ORY_GATE_STS => gateUsed s
  | .ORY_DLY_STS => s.ory.delayed.length
  | .ORY_CLU_STS => b2n (cluDrained s i) * 2 ^ 31 + b2n (cluMember s i) * 2 ^ 30 + cluHeld s i
  | .ORY_BPC_STS => b2n (bpcAsserted s i)
  | .ORY_DLY_L_STS => putFld w F.ORY_DLY_L_STS_PENDING (dlyPending s i)
  | .ORY_Q_STS => putFlag w F.ORY_Q_STS_SPILLING (!(spillQ s i).isEmpty)
  | .ORY_Q_DEPTH => qDepth s i
  | .ORY_Q_SDEPTH => (spillQ s i).length
  | .ORY_DOM_STS => domStsWord s i
  | .EGR_PORT_STS => portStsWord s i
  | .EGR_PORT_QUEUED => portQueued s i
  | .EGR_Q_STS => egrQSts s i
  | .EGR_Q_DEPTH => queuedBytes (egrQ s i)
  | .FLT_STS => putFld (putFld w F.FLT_STS_HREC_USED (hrecUsed s)) F.FLT_STS_REG_USED s.flt.regs.length
  | .FLT_SEM_CFG => semCfgWord s i
  | .FLT_SEM_STS => semStsWord s i
  | .FLT_LOCK => lockWord s i
  | .DRC_STS =>
    putFld (putFlag (putFlag w F.DRC_STS_READY (s.flag F.DRC_CTL_EN 0)) F.DRC_STS_PLL_LOCK (s.flag F.RST_PLL_STS_M 0 && !justUp s dMem))
      F.DRC_STS_CAPACITY (if justUp s dMem then 0 else drcCapacity s)
  | .DRC_PORT_STS => portPending s i
  | .DRC_CH_STS => putFlag w F.DRC_CH_STS_ACTIVE (chanInSet s i && s.flag F.DRC_CTL_DRAM_RESET_N 0)
  | .MGT_THR_STS => mgtThrSts s (0x2000 + i)
  | .MGT_THR_PC => if (thrOf s (0x2000 + i)).inFault then w else (thrOf s (0x2000 + i)).pc.toNat
  | .MGT_THR_FAULT => (thrOf s (0x2000 + i)).cause * 2 ^ 24
  | .MGT_THR_DETAIL => (thrOf s (0x2000 + i)).detail.toNat
  | .DBG_THR_STS => dbgThrSts s
  | .DBG_THR_PC => (thrOf s s.dbg.named).pc.toNat
  | .DBG_THR_REG => dbgThrReg s i
  | .PIO_GPIO_SET => s.reg .PIO_GPIO_OUT 0
  | .PIO_GPIO_CLR => s.reg .PIO_GPIO_OUT 0
  | .PIO_GPIO_IN => gpioIn s
  | .GCL_CTL => putFlag w F.GCL_CTL_START false
  | .GCL_STS => putFld w F.GCL_STS_FQ_COUNT (faultqOf s i).length
  | .GCL_WG_STS =>
    let ms := wgMembers s (i / 8) (i % 8)
    putFld (putFlag w F.GCL_WG_STS_COUNTING (wgCond s (i / 8) (i % 8))) F.GCL_WG_STS_INTERNAL ((ms.filter (internal s)).length)
  | .GCL_CH_STS => putFld w F.GCL_CH_STS_COUNT (chanOf s i).length
  | .GCL_THR_STS => thrStsWord s i
  | .GCL_THR_PC => (thrOf s i).pc.toNat
  | .GCL_THR_EV => thrEvWord s i
  | .GCL_THR_FAULT => (thrOf s i).cause * 2 ^ 24
  | .GCL_THR_DETAIL => (thrOf s i).detail.toNat
  | .CPX_STS => cpxStsWord s (i / 2) (i % 2)
  | .CPX_LANE_STS => cpxLaneWord s (i / 32) (i / 16 % 2) (i % 16)
  | .CPX_KEY_CTL => b2n (slotOf s (i / 512) (i % 512)).valid * 2 ^ 31 + b2n (slotOf s (i / 512) (i % 512)).k256 * 2 ^ 30
  | _ => w

/-! ## Presence and reset (R4, R7, R468) -/

/-- The cluster that an instance of a register of a cluster or of a per-cluster array belongs to. -/
def regCluster (r : RegName) (i : Nat) : Option Nat :=
  match r with
  | .RST_CLU_CLK => some i
  | .CRN_CLU_CFG => some i
  | .CRN_CLU_STS => some i
  | .ORY_CLU_STS => some i
  | .DBG_TRC_CFG => some i
  | .DBG_TRC_STS => some i
  | .DBG_CORE_BP => if i / 4 < 256 then some (i / 32) else none
  | .DBG_CORE_BPC => if i / 4 < 256 then some (i / 32) else none
  | .DBG_CORE_WP => if i / 2 < 256 then some (i / 16) else none
  | .DBG_CORE_WPC => if i / 2 < 256 then some (i / 16) else none
  | .ICU_CLAIM => if i / 1024 < 32 then some (i / 1024) else none
  | .ICU_TGT_CFG => if i < 32 then some i else none
  | .ICU_TGT_STS => if i < 32 then some i else none
  | .ICU_TGT_SUM => if i / 32 < 32 then some (i / 32) else none
  | _ => if (regDesc r).dom = .cl then some (cluOfReg r i) else none

/-- Line lane or port that an instance belongs to; it is absent with its quad (R3). -/
def regLane (r : RegName) (i : Nat) : Option Nat :=
  if 0x600000 ≤ (regDesc r).base && decide ((regDesc r).base < 0x800000) then
    (if r = .LPT_QUAD_CFG ∨ r = .LPT_QUAD_STS then some (4 * i) else some i)
  else if 0xF00000 ≤ (regDesc r).base && decide ((regDesc r).base < 0x1000000) then some i
  else if r = .EGR_PORT_CFG ∨ r = .EGR_PORT_SHAPE ∨ r = .EGR_PORT_STS ∨ r = .EGR_PORT_QUEUED then (if i < 16 then some i else none)
  else if r = .TIM_TXTS ∨ r = .TIM_TXTS_META ∨ r = .TIM_TXTS_LOST then some i
  else none

/-- The coprocessor unit that an instance belongs to. -/
def regUnit (r : RegName) (i : Nat) : Option Nat :=
  match r with
  | .CPX_CFG => some (i % 2)
  | .CPX_STS => some (i % 2)
  | .CPX_SLANE => some (i % 2)
  | .CPX_LANE_STS => some (i / 16 % 2)
  | .CPX_LANE_CTL => some (i / 16 % 2)
  | .CPX_KEY_KEY => some 0
  | .CPX_KEY_CTL => some 0
  | _ => none

def regChannel (r : RegName) (i : Nat) : Option Nat :=
  if r = .DRC_CH_STS ∨ r = .DRC_CH_ECC ∨ r = .DRC_CH_ECC_THR ∨ r = .DRC_CH_ECC_ADDR then some i
  else if r = .DRC_CH_DLY then some (i / 160) else none

def optAll {α : Type} (o : Option α) (p : α → Bool) : Bool := match o with | some x => p x | none => true

def regPresent (s : State) (r : RegName) (i : Nat) : Bool :=
  optAll (regCluster r i) (clusterPresent s) && optAll (regLane r i) (lanePresent s) && optAll (regUnit r i) (unitPresent s) &&
  optAll (regChannel r i) (channelPresent s)

/-- The register's domain is out of reset. -/
def regUp (s : State) (r : RegName) (i : Nat) : Bool :=
  s.rst.aon &&
  (match (regDesc r).dom with
   | .aonPor => true
   | .aon => true
   | .pkt => pktUp s
   | .line => lineUp s
   | .mem => memUp s
   | .mgt => mgtUp s
   | .cl => clUp s (cluOfReg r i))

/-- The scope bit that covers a register of Edsen (R510, R511): 0 HALT, 2 RST; none for what always responds. -/
def dbgCover (r : RegName) : Option Nat :=
  if 0x1300000 ≤ (regDesc r).base && decide ((regDesc r).base < 0x1400000) then
    (if r = .DBG_ID ∨ r = .DBG_ID_ASSIGNED ∨ r = .DBG_SESSION ∨ r = .DBG_LOCK ∨ r = .DBG_CHAL ∨ r = .DBG_TOKEN then none
     else if r = .DBG_RST ∨ r = .DBG_RST_CL then some 2 else some 0)
  else none

/-- Accesses reach the register. -/
def regLive (s : State) (r : RegName) (i : Nat) : Bool := regPresent s r i && regUp s r i

/-- The register answers a read. -/
def regShown (s : State) (r : RegName) (i : Nat) : Bool := regLive s r i && optAll (dbgCover r) (dbgScope s)

/-- Bits that a read shows: those of the fields that are not write-only. -/
def readable (r : RegName) : Nat :=
  (regDesc r).rows.foldl (fun m x => if x.acc = .wo then m else setBits m x.fld.hi x.fld.lo (2 ^ (x.fld.hi + 1 - x.fld.lo) - 1)) 0

/-- The word that a read of a live register gives. -/
def regRead (s : State) (r : RegName) (i : Nat) : Nat := if regShown s r i then regView s r i &&& readable r else 0

end Sys2Proof.Machine
end

