-- ==== Sys2Proof/Machine/RegWrite.lean ====
section
/-!
DEFINITION. Writes of registers: by the access codes of their fields (R8, R9), and by what a field's own rule says a write does.
-/

namespace Sys2Proof.Machine

/-- Who makes an access: PF1 of a host link, an MGT slot through its register port, an S-level thread in its cluster control space, or
the JTAG path. -/
inductive Req where
  | host (h : Fin 2)
  | mgt (slot : Fin 8)
  | thread (t : Nat)
  | jtag
deriving DecidableEq, Repr

/-- A write of one register: the bits that the access covers, and their values. -/
structure Wr where
  mask : Nat
  v : Nat
deriving DecidableEq, Repr

def fldMask (f : Fld) : Nat := (2 ^ (f.hi + 1 - f.lo) - 1) * 2 ^ f.lo

/-- The write covers the field. -/
def Wr.hits (w : Wr) (f : Fld) : Bool := w.mask &&& fldMask f != 0
/-- The value that the write gives a field. -/
def Wr.val (w : Wr) (f : Fld) : Nat := bits (w.v &&& w.mask) f.hi f.lo
def Wr.sets (w : Wr) (f : Fld) : Bool := w.hits f && w.val f != 0
def Wr.clears (w : Wr) (f : Fld) : Bool := w.hits f && w.val f == 0

/-! ## By access code (R8) -/

/-- What a field's access code makes of the word `cur`. -/
def accWriteWord (cur : Nat) (w : Wr) (x : FldRow) : Nat :=
  let m := w.mask &&& fldMask x.fld
  match x.acc with
  | .rw => (cur - (cur &&& m)) ||| (w.v &&& m)
  | .w1c => cur - (cur &&& (w.v &&& m))
  | .w1s => cur ||| (w.v &&& m)
  | _ => cur

/-- The register's contents after the write, with the fields of `hold` left as they are. -/
def newWord (s : State) (r : RegName) (i : Nat) (w : Wr) (hold : List Fld) : Nat :=
  (regDesc r).rows.foldl (fun cur x => if hold.contains x.fld then cur else accWriteWord cur w x) (s.reg r i)

def wrReg (s : State) (r : RegName) (i : Nat) (w : Wr) (hold : List Fld) : State := s.setReg r i (newWord s r i w hold)

/-- The write changes one of the fields. A write that leaves a guarded field as it is counts as no write to it (log entry 25). -/
def changes (s : State) (r : RegName) (i : Nat) (w : Wr) (fs : List Fld) : Bool :=
  fs.any (fun f => bits (newWord s r i w []) f.hi f.lo != s.fld f i)

/-- Guarded fields are written while `ok` holds; otherwise a write that would change them leaves them and sets `rej`. -/
def guarded (s : State) (r : RegName) (i : Nat) (w : Wr) (hold fs : List Fld) (ok : Bool) (rej : Fld) (ri : Nat) : State :=
  if ok || !changes s r i w fs then wrReg s r i w hold else (wrReg s r i w (hold ++ fs)).setFlag rej ri true

/-- A write that covers an enable turns it on or off. -/
def enBit (w : Wr) (f : Fld) (s : State) (on off : State → State) : State :=
  if w.sets f then on s else if w.clears f then off s else s

/-! ## Time (02) -/

def wTimCtl (s : State) (w : Wr) : State :=
  let ref := w.sets F.TIM_CTL_REF_SEL && !s.flag F.TIM_CTL_REF_SEL 0
  let u := wrReg s .TIM_CTL 0 w []
  let u1 := if ref then { u with tim := { u.tim with holdPps := u.tim.elapsed } } else u
  let u2 := if w.sets F.TIM_CTL_HOLD_REQ then enterHold u1 0 else u1
  if w.sets F.TIM_CTL_HOLD_EXIT then exitHold u2 else u2

def wHoldTimeout (s : State) (w : Wr) : State :=
  let u := wrReg s .TIM_HOLD_TIMEOUT 0 w []
  { u with tim := { u.tim with holdIncr := u.tim.elapsed, holdPps := u.tim.elapsed } }

/-- TIM_ADJ_CTL (R39–R41). MODE is stored even where GO is refused (DESIGN CHOICE, log entry 55). -/
def wAdjCtl (s : State) (w : Wr) : State :=
  let u := wrReg s .TIM_ADJ_CTL 0 w []
  let v := if w.sets F.TIM_ADJ_CTL_GO then
      (match u.fld F.TIM_ADJ_CTL_MODE 0 with
       | 0 => adjJump u false
       | 1 => adjJump u true
       | 2 => adjSlew u
       | _ => u.setFlag F.TIM_STS_ADJ_REJECT 0 true)
    else u
  if w.sets F.TIM_ADJ_CTL_ABORT then adjAbort v else v

/-- PPS_OUT starts at the next multiple of 10^9 ns; clearing EN ends a pulse at once (R51). -/
def wPpsOut (s : State) (w : Wr) : State :=
  let was := s.flag F.TIM_PPS_OUT_CFG_EN 0
  let u := wrReg s .TIM_PPS_OUT_CFG 0 w []
  let now := u.flag F.TIM_PPS_OUT_CFG_EN 0
  if now && !was then { u with tim := { u.tim with ppsNext := (nt64 u / 1000000000 + 1) * 1000000000 } }
  else if was && !now then { u with tim := { u.tim with ppsHigh := false } } else u

def wTcmpAt (s : State) (k : Nat) (w : Wr) : State :=
  let u := wrReg s .TIM_TCMP_AT k w []
  setTcmp u k { tcmpOf u k with pulsed := false }

/-! ## Reset, clocks and integrity (17, 18) -/

/-- Block resets in bit order. -/
def wBlkRst (s : State) (w : Wr) : Out :=
  ((List.range 8).filter (fun b => w.sets (blkFld b))).foldl (fun (o : Out) b =>
    match o with
    | .next u => if u.flag (blkFld b) 0 then .next u else blkWrite u b
    | x => x) (.next s)

def wThermCfg (s : State) (w : Wr) : State := settleAll (heatSync (alarmSync (throttleOff (wrReg s .RST_THERM_CFG 0 w []))))

/-! ## Host interface (04) -/

def wFnSts (s : State) (fromMgt : Bool) (w : Wr) : State :=
  if !fromMgt then s
  else
    let one := fun (u : State) (h : Nat) =>
      let f := readyFld h
      if w.clears f then u.setFlag f 0 false else if w.sets f then u.setFlag f 0 true else u
    one (one s 0) 1

/-- A field of a ring that R116 fixes while EN = 1. -/
def wRing (s : State) (k : Fin 5) (r : RegName) (i : Nat) (w : Wr) (fs : List Fld) : Out :=
  if s.flag (ringFlds k).en i && changes s r i w fs then .fault .ringMisuse else .next (wrReg s r i w [])

/-- CFG of a ring: a refused EN leaves the whole register as it was (R92). -/
def wRingCfg (s : State) (k : Fin 5) (i : Nat) (w : Wr) : Out :=
  let g := ringFlds k
  if s.flag g.en i && changes s g.cfg i w [g.size, g.fn, g.local_] then .fault .ringMisuse
  else
    let u := wrReg s g.cfg i w [g.en]
    if w.sets g.en && !s.flag g.en i then
      let v := ringEnable u k i
      .next (if v.flag g.en i then v else if hasReject k then s.setFlag g.reject i true else s)
    else .next (if w.clears g.en then ringDisable u k i else u)

def wCqMod (s : State) (r : RegName) (c : Nat) (w : Wr) : State := cqModerate (wrReg s r c w []) c

/-! ## Line ports (03) -/

def wLptCfg (s : State) (p : Nat) (w : Wr) : State :=
  let u := wrReg s .LPT_CFG p w [F.LPT_CFG_EN, F.LPT_CFG_PHY_EN]
  let v := enBit w F.LPT_CFG_PHY_EN u (phySet · p) (phyClear · p none)
  linePauses (enBit w F.LPT_CFG_EN v (portSet · p) (portClear · p none))

/-- Tap fields are training's own while it runs, taps are clamped, and a polarity change costs alignment (R75, R76). The field MAIN holds and
reads back the clamped value (DESIGN CHOICE, log entry 56). -/
def wTxeq (s : State) (l : Nat) (w : Wr) : State :=
  let taps := [F.LPT_LANE_TXEQ_PRE2, F.LPT_LANE_TXEQ_PRE1, F.LPT_LANE_TXEQ_MAIN, F.LPT_LANE_TXEQ_POST1]
  let port := portOfLane s l
  let trains := match port with | some p => linkSt s p == 2 && (portOf s p).anMode == 0 | none => false
  let pol := changes s .LPT_LANE_TXEQ l w [F.LPT_LANE_TXEQ_INV_TX, F.LPT_LANE_TXEQ_INV_RX]
  let u := wrReg s .LPT_LANE_TXEQ l w (if trains then taps else [])
  let f := fun (x : Fld) => BitVec.ofNat 6 (u.fld x l)
  let v := if trains then u else
    putTaps u l (clampTaps (f F.LPT_LANE_TXEQ_PRE2) (f F.LPT_LANE_TXEQ_PRE1) (f F.LPT_LANE_TXEQ_MAIN) (f F.LPT_LANE_TXEQ_POST1))
  match port with
  | some p => if pol && linkSt v p == 4 then signalLoss v p none else v
  | none => v

def wEyeCtl (s : State) (l : Nat) (w : Wr) : State :=
  let u := wrReg s .LPT_LANE_EYE_CTL l w []
  if w.sets F.LPT_LANE_EYE_CTL_GO && !u.flag F.LPT_LANE_EYE_CTL_BUSY l then eyeGo u l else u

def wPrbsCtl (s : State) (l : Nat) (w : Wr) : State :=
  let g := w.val F.LPT_LANE_PRBS_CTL_GEN_EN != 0
  let c := w.val F.LPT_LANE_PRBS_CTL_CHK_EN != 0
  if w.hits F.LPT_LANE_PRBS_CTL_GEN_EN then
    if (g || c) && !prbsOk s l then s.setFlag F.LPT_LANE_PRBS_CTL_REJECT l true
    else prbsWrite (wrReg s .LPT_LANE_PRBS_CTL l w [F.LPT_LANE_PRBS_CTL_GEN_EN, F.LPT_LANE_PRBS_CTL_CHK_EN]) l g c
  else wrReg s .LPT_LANE_PRBS_CTL l w []

/-! ## Cairn (05) -/

/-- The DRAM area is fixed while a SPACE 1 pool is not drained (R137). -/
def wDramArea (s : State) (r : RegName) (w : Wr) : Out :=
  if newWord s r 0 w [] != s.reg r 0 && (List.range 64).any (fun k => s.flag F.CRN_POOL_CFG_SPACE k && poolLive s k) then .fault .cairnAreas
  else .next (wrReg s r 0 w [])

/-- CFG of a pool (R124): a change of SPACE or BASE while it is in use is refused with the write, but a write that clears EN does that. -/
def wPoolCfg (s : State) (k : Nat) (w : Wr) : Out :=
  if poolLive s k && changes s .CRN_POOL_CFG k w [F.CRN_POOL_CFG_SPACE, F.CRN_POOL_CFG_BASE] then
    .next ((if w.clears F.CRN_POOL_CFG_EN then poolDisable s k else s).setFlag F.CRN_POOL_STS_REJECT k true)
  else
    let u := wrReg s .CRN_POOL_CFG k w [F.CRN_POOL_CFG_EN]
    if w.sets F.CRN_POOL_CFG_EN then poolEnable u k else .next (if w.clears F.CRN_POOL_CFG_EN then poolDisable u k else u)

/-! ## Parser (06) -/

/-- Requests made in one write switch together (R159). -/
def wPrsCtl (s : State) (w : Wr) : State :=
  let g := w.sets F.PRS_CTL_GRAPH_REQ
  let c := w.sets F.PRS_CTL_CLS_REQ
  let both := g && c && !s.flag F.PRS_CTL_GRAPH_REQ 0 && !s.flag F.PRS_CTL_CLS_REQ 0
  let u := if g then graphReq s else s
  let v := if c then clsReq u else u
  let x := if both then { v with prs := { v.prs with joint := true } } else v
  linePauses (enBit w F.PRS_CTL_EN x prsEnable (fun y => if y.flag F.PRS_CTL_EN 0 then prsDisable y else y))

/-! ## Agate (07) -/

def wAgtCtl (s : State) (w : Wr) : State :=
  let u := if w.sets F.AGT_CTL_FC_FLUSH then s.setFlag F.AGT_CTL_FC_FLUSH 0 true else s
  enBit w F.AGT_CTL_EN u (fun x => (x.setFlag F.AGT_CTL_EN 0 true).setFlag F.AGT_STS_DRAINED 0 false) agtDisable

/-- Layout fields are fixed while a table is in use (R169). -/
def wTblLayout (s : State) (r : RegName) (t : Nat) (w : Wr) (fs : List Fld) : State :=
  guarded s r t w [] fs (!tblOn s t) F.AGT_TBL_STS_REJECT t

def layoutFlds : List Fld :=
  [F.AGT_TBL_CFG_TYPE, F.AGT_TBL_CFG_LOC, F.AGT_TBL_CFG_CNT_EN, F.AGT_TBL_CFG_V6, F.AGT_TBL_CFG_ENTRY_BYTES, F.AGT_TBL_CFG_KEY_LEN]

def wTblCfg (s : State) (t : Nat) (w : Wr) : Out :=
  let age := s.flag F.AGT_TBL_CFG_AGE_EN t
  let u := guarded s .AGT_TBL_CFG t w [F.AGT_TBL_CFG_EN] layoutFlds (!tblOn s t) F.AGT_TBL_STS_REJECT t
  let u1 := if s.flag F.AGT_TBL_CFG_FC_EN t && !u.flag F.AGT_TBL_CFG_FC_EN t then fcEnClear u t else u
  let u2 := if u1.flag F.AGT_TBL_CFG_AGE_EN t && !age then ageRestart u1 t
    else if age && !u1.flag F.AGT_TBL_CFG_AGE_EN t then { u1 with agt := { u1.agt with agePos := mset noPos u1.agt.agePos t none } } else u1
  if w.sets F.AGT_TBL_CFG_EN then tblEnable u2 t else .next (if w.clears F.AGT_TBL_CFG_EN then tblDisable u2 t else u2)

/-- PERIOD_MS applies from the next pass; a scanner that was stopped starts a period (R199). -/
def wTblAge (s : State) (t : Nat) (w : Wr) : State :=
  let u := wrReg s .AGT_TBL_AGE t w []
  if s.fld F.AGT_TBL_AGE_PERIOD_MS t = 0 then ageRestart u t else u

/-! ## Orrery (09) -/

def wOryCtl (s : State) (w : Wr) : State :=
  settleAll (enBit w F.ORY_CTL_EN s (fun x => (x.setFlag F.ORY_CTL_EN 0 true).setFlag F.ORY_STS_DRAINED 0 false) oryDisable)

def wDlyCtl (s : State) (w : Wr) : State :=
  settleAll (enBit w F.ORY_DLY_CTL_EN (wrReg s .ORY_DLY_CTL 0 w [F.ORY_DLY_CTL_EN]) dlyAreaEnable dlyAreaDisable)

def wDlyList (s : State) (l : Nat) (w : Wr) : State :=
  let ok := !s.flag F.ORY_DLY_L_CFG_EN l && s.flag F.ORY_DLY_L_STS_DRAINED l
  let u := guarded s .ORY_DLY_L_CFG l w [F.ORY_DLY_L_CFG_EN] [F.ORY_DLY_L_CFG_TICK_LOG2] ok F.ORY_DLY_L_STS_REJECT l
  enBit w F.ORY_DLY_L_CFG_EN u (fun x => (x.setFlag F.ORY_DLY_L_CFG_EN l true).setFlag F.ORY_DLY_L_STS_DRAINED l false) (dlyDisable · l)

/-- The fields that R220 fixes may be written. -/
def qFree (s : State) (q : Nat) : Bool := !s.flag F.ORY_Q_CFG_EN q && s.flag F.ORY_Q_STS_DRAINED q

def wOryQCfg (s : State) (q : Nat) (w : Wr) : State :=
  let u := guarded s .ORY_Q_CFG q w [F.ORY_Q_CFG_EN] [F.ORY_Q_CFG_TYPE, F.ORY_Q_CFG_INHERIT, F.ORY_Q_CFG_POLICY] (qFree s q) F.ORY_Q_STS_REJECT q
  settleAll (enBit w F.ORY_Q_CFG_EN u (qEnable · q) (qDisable · q))

def wOrySpill (s : State) (r : RegName) (q : Nat) (w : Wr) (f : Fld) : State := guarded s r q w [] [f] (qFree s q) F.ORY_Q_STS_REJECT q

/-! ## Clusters (10) and coprocessors (12) -/

def wGclCtl (s : State) (n : Nat) (w : Wr) : State :=
  let u := if w.sets F.GCL_CTL_IC_INV then icInv s n else s
  if w.sets F.GCL_CTL_START then clusterStart u n else u

def wGclSupv (s : State) (n : Nat) (w : Wr) : State :=
  let u := wrReg s .GCL_SUPV n w [F.GCL_SUPV_TID]
  if changes s .GCL_SUPV n w [F.GCL_SUPV_TID] then supvWrite u n (w.val F.GCL_SUPV_TID) else u

/-- One 8-byte write (R279, R550). -/
def whole (w : Wr) : Bool := w.mask == 2 ^ 64 - 1
def wGclThrctl (s : State) (n : Nat) (w : Wr) : State :=
  if whole w then
    thrctl s n (w.val F.GCL_THRCTL_TID) (w.val F.GCL_THRCTL_OP) (BitVec.ofNat 32 (w.val F.GCL_THRCTL_PC)) (w.val F.GCL_THRCTL_SEV)
  else s
def wMgtThrctl (s : State) (w : Wr) : State :=
  if whole w then
    mgtThrctl s (w.val F.MGT_THRCTL_SLOT) (w.val F.MGT_THRCTL_OP) (BitVec.ofNat 32 (w.val F.MGT_THRCTL_PC)) (w.val F.MGT_THRCTL_SEV)
  else s

/-! ## Egress (14) -/

/-- Egress as a whole is drained (R385). -/
def egrDrain (s : State) : State :=
  if !s.flag F.EGR_CTL_EN 0 && (s.egr.queues.all (fun e => e.2.isEmpty)) then s.setFlag F.EGR_STS_DRAINED 0 true else s

def wEgrCtl (s : State) (w : Wr) : State :=
  enBit w F.EGR_CTL_EN s (fun x => (x.setFlag F.EGR_CTL_EN 0 true).setFlag F.EGR_STS_DRAINED 0 false) (fun x => egrDrain (x.setFlag F.EGR_CTL_EN 0 false))

def wEgrQ (s : State) (r : RegName) (e : Nat) (w : Wr) (fs : List Fld) : State := guarded s r e w [] fs (egrQDrained s e) F.EGR_Q_STS_REJECT e

/-- Every queue of the group holds no packet, and the port is one of R383. -/
def wEgrGrp (s : State) (g : Nat) (w : Wr) : State :=
  let empty := s.egr.queues.all (fun e => e.2.isEmpty || egrGroup s e.1 != g)
  let port := bits (newWord s .EGR_GRP_CFG g w []) F.EGR_GRP_CFG_PORT.hi F.EGR_GRP_CFG_PORT.lo
  guarded s .EGR_GRP_CFG g w [] [F.EGR_GRP_CFG_PORT, F.EGR_GRP_CFG_PRI] (empty && decide (port ≤ 17)) F.EGR_GRP_CFG_REJECT g

/-- A shape takes effect on the bucket as it stands now (R389). -/
def wShape (s : State) (r : RegName) (i key : Nat) (w : Wr) : State := wrReg (bucketTake s key (s.reg r i) 0) r i w []

def merIdle (s : State) (p : Nat) : Bool := s.fld F.MER_STS_STATE p == 0

def wMerCfg (s : State) (p : Nat) (w : Wr) : State :=
  let u := guarded s .MER_CFG p w [F.MER_CFG_EN] [F.MER_CFG_MODE, F.MER_CFG_GAP_GUARD] (merIdle s p) F.MER_STS_REJECT p
  enBit w F.MER_CFG_EN u (merEnable · p) (merDisable · p)

def wMerGuard (s : State) (r : RegName) (p : Nat) (w : Wr) (f : Fld) : State := guarded s r p w [] [f] (merIdle s p) F.MER_STS_REJECT p

/-- NSLOTS of the shadow set (R29, R403). -/
def wNslots (s : State) (p : Nat) (w : Wr) : State :=
  if s.flag F.MER_CTL_SW_REQ p then (if w.hits F.MER_NSLOTS_SHADOW then s.setFlag F.MER_STS_SHADOW_BUSY p true else s)
  else wrReg s .MER_NSLOTS p w []

/-! ## DDR5 controller (15) -/

def wDrcLocked (s : State) (r : RegName) (i : Nat) (w : Wr) : State :=
  if s.flag F.DRC_CTL_EN 0 then drcReject s else wrReg s r i w []

def wDrcCtl (s : State) (w : Wr) : State :=
  let u := enBit w F.DRC_CTL_DRAM_RESET_N s (·.setFlag F.DRC_CTL_DRAM_RESET_N 0 true)
    (fun x => if x.flag F.DRC_CTL_DRAM_RESET_N 0 then dramLose x else x)
  let v := enBit w F.DRC_CTL_EN u drcEnable drcDisable
  if w.sets F.DRC_CTL_INIT_GO then initGo v else v

def wMrw (s : State) (w : Wr) : State :=
  let u := wrReg s .DRC_MRW 0 w [F.DRC_MRW_GO]
  let f := fun (x : Fld) => u.fld x 0
  if w.sets F.DRC_MRW_GO then mrwGo u (f F.DRC_MRW_OP) (f F.DRC_MRW_CH) (f F.DRC_MRW_SUB) (f F.DRC_MRW_RANK) (f F.DRC_MRW_ADDR) (f F.DRC_MRW_DATA) else u

def wTrn (s : State) (w : Wr) : State :=
  let u := wrReg s .DRC_TRN_CTL 0 w [F.DRC_TRN_CTL_GO]
  let f := fun (x : Fld) => u.fld x 0
  if w.sets F.DRC_TRN_CTL_GO then
    trnGo u (f F.DRC_TRN_CTL_STEP) (f F.DRC_TRN_CTL_CH) (f F.DRC_TRN_CTL_SUB) (f F.DRC_TRN_CTL_RANK) (f F.DRC_TRN_CTL_SWEEP_LO) (f F.DRC_TRN_CTL_SWEEP_HI)
  else u

/-! ## Interrupt controller (16) -/

def wTgtCfg (s : State) (t : Nat) (w : Wr) : State :=
  let u := wrReg s .ICU_TGT_CFG t w (if t < 33 then [F.ICU_TGT_CFG_VECTOR, F.ICU_TGT_CFG_FN] else [])
  let v := if t = 32 && icuSaved u then { u with icu := { u.icu with retEn := u.flag F.ICU_TGT_CFG_EN 32 } } else u
  settleAll (icuSync v)

/-! ## Edsen (20) and PIO (21) -/

def wSession (s : State) (jtag : Bool) (w : Wr) : State :=
  let u := wrReg s .DBG_SESSION 0 w [F.DBG_SESSION_CLAIM, F.DBG_SESSION_RELEASE]
  let v := if w.sets F.DBG_SESSION_CLAIM then claimSession u jtag else u
  if w.sets F.DBG_SESSION_RELEASE then releaseSession v jtag else v

def wLock (s : State) (jtag : Bool) (w : Wr) : State :=
  dbgWrite s jtag none (fun x =>
    let u := wrReg x .DBG_LOCK 0 w [F.DBG_LOCK_CHAL_GO, F.DBG_LOCK_VERIFY_GO]
    let v := if w.sets F.DBG_LOCK_CHAL_GO then chalGo u else u
    let y := if w.sets F.DBG_LOCK_VERIFY_GO then verifyGo v else v
    if w.sets F.DBG_LOCK_RELOCK then relock y else y)

/-- EN of a trace buffer set anew: recording starts from an empty buffer. -/
def wTrace (s : State) (r : RegName) (i : Nat) (w : Wr) (en stopped ptr : Fld) : State :=
  let u := wrReg s r i w []
  if w.sets en && !s.flag en i then (u.setFlag stopped i false).setFld ptr i 0 else u

/-- Writes of Edsen's registers, each in its scope (R509–R511). -/
def wDbg (s : State) (jtag : Bool) (r : RegName) (i : Nat) (w : Wr) : State :=
  match r with
  | .DBG_SESSION => wSession s jtag w
  | .DBG_LOCK => wLock s jtag w
  | .DBG_TOKEN => dbgWrite s jtag none (fun u => u.setReg .DBG_TOKEN i (w.v &&& w.mask))
  | .DBG_THR_CTL => thrCtl s jtag (w.val F.DBG_THR_CTL_OP) (w.val F.DBG_THR_CTL_SCOPE) (w.val F.DBG_THR_CTL_TID)
  | .DBG_THR_REG => dbgWrite s jtag (some 0) (fun u => dbgThrRegWrite u i (w.v &&& w.mask))
  | .DBG_RST => dbgWrite s jtag (some 2) (fun u => dbgReset u (w.v &&& w.mask) (u.reg .DBG_RST_CL 0))
  | .DBG_RST_CL => dbgWrite s jtag (some 2) (fun u => dbgReset u (u.reg .DBG_RST 0) (w.v &&& w.mask))
  | .DBG_TRC_CFG => dbgWrite s jtag (some 0) (fun u => wTrace u r i w F.DBG_TRC_CFG_EN F.DBG_TRC_STS_STOPPED F.DBG_TRC_STS_WPTR)
  | .DBG_MTRC_CFG => dbgWrite s jtag (some 0) (fun u => wTrace u r i w F.DBG_MTRC_CFG_EN F.DBG_MTRC_STS_STOPPED F.DBG_MTRC_STS_WPTR)
  | .DBG_OTRC_CFG =>
    dbgWrite s jtag (some 0) (fun u =>
      let x := wrReg u r i w []
      if w.sets F.DBG_OTRC_CFG_EN && !u.flag F.DBG_OTRC_CFG_EN 0 then x.setFld F.DBG_OTRC_STS_WPTR 0 0 else x)
  | .DBG_CTL => holdSync (dbgWrite s jtag (some 0) (fun u => wrReg u r i w []))
  | .DBG_CHAL => dbgWrite s jtag none id
  | .DBG_ID => dbgWrite s jtag none id
  | .DBG_ID_ASSIGNED => dbgWrite s jtag none id
  | _ => dbgWrite s jtag (some 0) (fun u => wrReg u r i w [])

def romOwns (s : State) : Bool := s.flag F.PIO_SPI_CTL_ROM_OWN 0

def wSpiCtl (s : State) (w : Wr) : State :=
  if romOwns s then s
  else if w.sets F.PIO_SPI_CTL_GO then spiGo s (newWord s .PIO_SPI_CTL 0 w []) else wrReg s .PIO_SPI_CTL 0 w []

/-- NACK clears where the write puts a 1. -/
def wI2cCtl (s : State) (w : Wr) : State :=
  if w.sets F.PIO_I2C1_CTL_GO then i2c1Go s (putFlag (newWord s .PIO_I2C1_CTL 0 w []) F.PIO_I2C1_CTL_NACK (w.sets F.PIO_I2C1_CTL_NACK))
  else wrReg s .PIO_I2C1_CTL 0 w []

/-! ## The whole map -/

def isJtag : Req → Bool
  | .jtag => true
  | _ => false
def isMgtReq : Req → Bool
  | .mgt _ => true
  | _ => false

/-- A write of register `r`, instance `i`, which accesses reach. -/
def regWrite (q : Req) (r : RegName) (i : Nat) (w : Wr) (s : State) : Out :=
  let word := w.v &&& w.mask
  match r with
  | .TIM_CTL => .next (wTimCtl s w)
  | .TIM_HOLD_TIMEOUT => .next (wHoldTimeout s w)
  | .TIM_INCR => execTimIncrWrite (BitVec.ofNat 32 word) s
  | .TIM_ADJ_CTL => .next (wAdjCtl s w)
  | .TIM_PPS_OUT_CFG => .next (wPpsOut s w)
  | .TIM_TCMP_AT => .next (wTcmpAt s i w)
  | .TIM_EPOCH_CTL => .next (enBit w F.TIM_EPOCH_CTL_ARM s epochArm epochDisarm)
  | .TIM_EPOCH_AT => .next (epochAtWrite s (newWord s r 0 w []))
  | .RST_SWRST => swRequest s word 0
  | .RST_SWRST_CL => swRequest s 0 word
  | .RST_SWRST_CLR => .next (swRelease s word 0)
  | .RST_SWRST_CL_CLR => .next (swRelease s 0 word)
  | .RST_BLK_RST => wBlkRst s w
  | .RST_WDT_CFG => .next (if s.flag F.RST_WDT_CFG_EN 0 then s else wdtStart (wrReg s r i w []))
  | .RST_WDT_KICK => .next (wdtKey s word)
  | .RST_THERM_CFG => .next (wThermCfg s w)
  | .RST_EINJ_CTL => .next (let u := wrReg s r i w [F.RST_EINJ_CTL_ARM]; if w.sets F.RST_EINJ_CTL_ARM then einjArm u else u)
  | .HIF_LINK_CFG => .next (wrReg s r i w (if q = .host 1 then [F.HIF_LINK_CFG_PF1_HL1_ACC] else []))
  | .HIF_FN_STS => .next (wFnSts s (isMgtReq q) w)
  | .HIF_TXR_BASE => wRing s 0 r i w [F.HIF_TXR_BASE_ADDR]
  | .HIF_TXR_CFG => wRingCfg s 0 i w
  | .HIF_TXR_CFG2 => wRing s 0 r i w [F.HIF_TXR_CFG2_CQ, F.HIF_TXR_CFG2_REQ]
  | .HIF_RXR_BASE => wRing s 1 r i w [F.HIF_RXR_BASE_ADDR]
  | .HIF_RXR_CFG => wRingCfg s 1 i w
  | .HIF_RXR_CFG2 => wRing s 1 r i w [F.HIF_RXR_CFG2_CQ]
  | .HIF_CQ_BASE => wRing s 2 r i w [F.HIF_CQ_BASE_ADDR]
  | .HIF_CQ_CFG => wRingCfg s 2 i w
  | .HIF_CQ_CFG2 => .next (wCqMod s r i w)
  | .HIF_CQ_CFG3 => .next (wCqMod s r i w)
  | .HIF_CTR_BASE => wRing s 3 r i w [F.HIF_CTR_BASE_ADDR]
  | .HIF_CTR_CFG => wRingCfg s 3 i w
  | .HIF_EVR_BASE => wRing s 4 r i w [F.HIF_EVR_BASE_ADDR]
  | .HIF_EVR_CFG => wRingCfg s 4 i w
  | .LPT_QUAD_CFG => .next (if w.hits F.LPT_QUAD_CFG_MODE then quadWrite s i (w.val F.LPT_QUAD_CFG_MODE) else s)
  | .LPT_CFG => .next (wLptCfg s i w)
  | .LPT_LANE_TXEQ => .next (wTxeq s i w)
  | .LPT_LANE_EYE_CTL => .next (wEyeCtl s i w)
  | .LPT_LANE_PRBS_CTL => .next (wPrbsCtl s i w)
  | .CRN_DRAM_CFG => wDramArea s r w
  | .CRN_DRAM_BASE => wDramArea s r w
  | .CRN_DRAM_LINK => wDramArea s r w
  | .CRN_POOL_CFG => wPoolCfg s i w
  | .CRN_REQ_XOFF => .next (linePauses (reqEnter (wrReg s r i w []) i))
  | .CRN_POOL_SIZE => .next (guarded s r i w [] [F.CRN_POOL_SIZE_SIZE] (!poolLive s i) F.CRN_POOL_STS_REJECT i)
  | .PRS_CTL => .next (wPrsCtl s w)
  | .AGT_CTL => .next (wAgtCtl s w)
  | .AGT_TBL_CFG => wTblCfg s i w
  | .AGT_TBL_SIZE => .next (wTblLayout s r i w [F.AGT_TBL_SIZE_SIZE])
  | .AGT_TBL_OBLK => .next (wTblLayout s r i w [F.AGT_TBL_OBLK_NBLK, F.AGT_TBL_OBLK_FIRST])
  | .AGT_TBL_DBASE => .next (wTblLayout s r i w [F.AGT_TBL_DBASE_DBASE])
  | .AGT_TBL_CBASE => .next (wTblLayout s r i w [F.AGT_TBL_CBASE_CBASE])
  | .AGT_TBL_HB => .next (wTblLayout s r i w [F.AGT_TBL_HB_HB_BASE])
  | .AGT_TBL_AGE => .next (wTblAge s i w)
  | .ORY_CTL => .next (wOryCtl s w)
  | .ORY_SLOT_XOFF => .next (settleAll (wrReg s r i w []))
  | .ORY_TAG_XOFF => .next (settleAll (wrReg s r i w []))
  | .ORY_BPC_LINE => .next (settleAll (wrReg s r i w []))
  | .ORY_BPC_SRC => .next (settleAll (wrReg s r i w []))
  | .ORY_BPC_CFG => .next (settleAll (wrReg s r i w []))
  | .ORY_DLY_CTL => .next (wDlyCtl s w)
  | .ORY_GRP_MEMBERS => membersWrite s i (BitVec.ofNat 32 word)
  | .ORY_DLY_L_CFG => .next (wDlyList s i w)
  | .ORY_Q_CFG => .next (wOryQCfg s i w)
  | .ORY_Q_SPILL => .next (wOrySpill s r i w F.ORY_Q_SPILL_SPILL_BASE)
  | .ORY_Q_SPILL_CFG => .next (wOrySpill s r i w F.ORY_Q_SPILL_CFG_SPILL_LOG2)
  | .ORY_Q_CTL => .next (if w.sets F.ORY_Q_CTL_PURGE then qPurge s i else s)
  | .GCL_CTL => .next (wGclCtl s i w)
  | .GCL_SUPV => .next (wGclSupv s i w)
  | .GCL_WG_MEMBERS => .next (wgMaskWrite s (i / 64) (i / 8 % 8) (i % 8) word)
  | .GCL_CH_CFG => .next (enBit w F.GCL_CH_CFG_EN s (chanEnable · i) (chanDisable · i))
  | .GCL_THRCTL => .next (wGclThrctl s i w)
  | .CPX_CFG => .next (enBit w F.CPX_CFG_EN (wrReg s r i w [F.CPX_CFG_EN]) (cpxOn · (i / 2) (i % 2)) (cpxOff · (i / 2) (i % 2)))
  | .CPX_LANE_CTL => .next (laneCtl s (i / 32) (i / 16 % 2) (i % 16) (w.val F.CPX_LANE_CTL_OP))
  | .CPX_KEY_KEY => .next (keyWord s (i / 4096) (i / 8 % 512) (i % 8) (BitVec.ofNat 32 word))
  | .CPX_KEY_CTL => .next (keyCommit s (i / 512) (i % 512) (w.sets F.CPX_KEY_CTL_VALID) (w.sets F.CPX_KEY_CTL_K256))
  | .RST_CLU_CLK => .next (stepBegin (wrReg s r i w []) i)
  | .FLT_FORCE => .next (settleAll (fltForceWrite s word))
  | .FLT_SEM_CFG => .next (settleAll (semGrant (wrReg s r i w []) i))
  | .EGR_CTL => .next (wEgrCtl s w)
  | .EGR_PORT_SHAPE => .next (wShape s r i (portKey i) w)
  | .EGR_GRP_SHAPE => .next (wShape s r i (groupKey i) w)
  | .EGR_Q_SHAPE => .next (wShape s r i (queueKey i) w)
  | .EGR_GRP_CFG => .next (wEgrGrp s i w)
  | .EGR_Q_CFG => .next (wEgrQ s r i w [F.EGR_Q_CFG_KIND, F.EGR_Q_CFG_GROUP])
  | .EGR_Q_DEST => .next (wEgrQ s r i w [F.EGR_Q_DEST_DEST])
  | .MER_CFG => .next (wMerCfg s i w)
  | .MER_CTL => .next (if w.sets F.MER_CTL_SW_REQ then merSwReq s i else s)
  | .MER_ANCHOR => .next (wMerGuard s r i w F.MER_ANCHOR_NT)
  | .MER_SYNC => .next (wMerGuard s r i w F.MER_SYNC_DELAY)
  | .MER_PREROLL => .next (wMerGuard s r i w F.MER_PREROLL_NS)
  | .MER_NSLOTS => .next (wNslots s i w)
  | .DRC_CFG => .next (wDrcLocked s r i w)
  | .DRC_CH_DLY => .next (wDrcLocked s r i w)
  | .DRC_CTL => .next (wDrcCtl s w)
  | .DRC_RT_CFG => .next (panicSync (wrReg s r i w []))
  | .DRC_PORT_CFG => .next (enterAll (wrReg s r i w []))
  | .DRC_MRW => .next (wMrw s w)
  | .DRC_TRN_CTL => .next (wTrn s w)
  | .ICU_PEND_SET => .next (pendSet s i word)
  | .ICU_PEND_CLR => .next (pendClr s i word)
  | .ICU_MASK_SET => .next (maskSet s i word)
  | .ICU_MASK_CLR => .next (maskClr s i word)
  | .ICU_ROUTE => .next (if isListed i then settleAll (icuSync (wrReg s r i w [])) else s)
  | .ICU_TGT_CFG => .next (wTgtCfg s i w)
  | .MGT_BOOT_CTL => .next (if w.sets F.MGT_BOOT_CTL_HOST_GO then hostGo s else s)
  | .MGT_CFG => .next (if isMgtReq q then wrReg s r i w [] else s)
  | .MGT_FAULT_DONE => .next (match q with | .mgt k => if w.sets F.MGT_FAULT_DONE_DONE then mgtFaultDone s (0x2000 + k.val) else s | _ => s)
  | .MGT_THRCTL => .next (wMgtThrctl s w)
  | .PIO_GPIO_SET => .next (s.setReg .PIO_GPIO_OUT 0 (s.reg .PIO_GPIO_OUT 0 ||| word))
  | .PIO_GPIO_CLR => .next (s.setReg .PIO_GPIO_OUT 0 (s.reg .PIO_GPIO_OUT 0 - (s.reg .PIO_GPIO_OUT 0 &&& word)))
  | .PIO_SPI_CTL => .next (wSpiCtl s w)
  | .PIO_SPI_ADDR => .next (if romOwns s then s else wrReg s r i w [])
  | .PIO_SPI_DATA => .next (if romOwns s then s else wrReg s r i w [])
  | .PIO_I2C1_CTL => .next (wI2cCtl s w)
  | _ =>
    if 0x1300000 ≤ (regDesc r).base && decide ((regDesc r).base < 0x1400000) then .next (wDbg s (isJtag q) r i w)
    else .next (wrReg s r i w [])

end Sys2Proof.Machine
end

