-- ==== Sys2Proof/Machine/RegBus.lean ====
section
/-!
DEFINITION. Accesses to the register space: PF1 BAR0 of a host, MGT's register port, a cluster's control space, JTAG's DBGACC and
I2C0 (R7, R33, R87, R265, R444, R468, R491, R508, R534, R548–R551), with the windows of PRS, MER, DBG, GCL and MGT; and the drain of a
resource (R24, R25).
-/

namespace Sys2Proof.Machine

/-! ## Where a register lies (R548, R549) -/

/-- The flat index of an offset in a replicated register, and what is left of the offset. -/
def locate : List (Nat × Nat) → Nat → Nat → Option (Nat × Nat)
  | [], rel, i => some (i, rel)
  | (n, stride) :: ds, rel, i => if rel / stride < n then locate ds (rel % stride) (i * n + rel / stride) else none

/-- The instance of register `r` whose 4 bytes lie at `a`, and whether they are its upper half. -/
def regMatch (a : Nat) (r : RegName) : Option (RegName × Nat × Bool) :=
  let d := regDesc r
  if a < d.base then none
  else
    match locate d.dims (a - d.base) 0 with
    | some (i, 0) => some (r, i, false)
    | some (i, 4) => if d.w64 then some (r, i, true) else none
    | _ => none

/-- The register at a 4-byte-aligned offset of PF1 BAR0; where two are given one offset the earlier in the map is meant. -/
def regAt (a : Nat) : Option (RegName × Nat × Bool) := regNames.findSome? (regMatch a)

/-! ## Reads (R8, R443, R550) -/

def setRdata (s : State) (v : Nat) : State := { s with rdata := BitVec.ofNat 64 v }

/-- The clear-on-read fields among the bits of `mask` cleared. -/
def clearRc (s : State) (r : RegName) (i mask : Nat) : State :=
  (regDesc r).rows.foldl (fun u x => if x.acc = .rc && fldMask x.fld &&& mask != 0 then u.setFld x.fld i 0 else u) s

/-- A read of the bits `mask` of a register: 32 bits of it, or all of a 64-bit one. What it gives stands in rdata. -/
def regReadAcc (s : State) (r : RegName) (i mask : Nat) : State :=
  if !regShown s r i then setRdata s 0
  else
    match r with
    | .ICU_CLAIM => claimRead s (i / 1024) (i % 1024)
    | .GCL_FAULTQ_POP => faultqPop s i
    | .TIM_TXTS_META => let x := popTxts s i; setRdata x.2 x.1
    | .DRC_CH_ECC => eccRead s i
    | .CRN_REQ_PEAK => let x := peakRead s i; setRdata x.2 x.1
    | .TIM_NT =>
      if mask = 2 ^ 32 - 1 then (let x := readNtLow s; setRdata x.2 x.1)
      else if mask = 2 ^ 64 - 1 then setRdata (readNtLow s).2 (nt64 s)
      else
        let hi := match s.tim.ntHi with | some h => h.toNat | none => nt64 s / 2 ^ 32
        setRdata { s with tim := { s.tim with ntHi := none } } hi
    | _ =>
      let v := regRead s r i &&& mask
      clearRc (setRdata s (if mask % 2 = 1 then v else v / 2 ^ 32)) r i mask

/-! ## Windows -/

/-- The offset belongs to a structure of the parser's windows. -/
def inPrsWin (o : Nat) : Bool :=
  [(0x10000, 0x14000), (0x14000, 0x14048), (0x30000, 0x30200), (0x30200, 0x30300), (0x30300, 0x30400), (0x30400, 0x3040C), (0x30440, 0x30484),
   (0x40000, 0x50000), (0x60000, 0x80000)].any (fun w => decide (w.1 ≤ o) && decide (o < w.2))

/-- Bits that word `i` of a parse-graph node has fields for (R142). -/
def nodeMask (i : Nat) : Nat :=
  if i = 0 then 0xFF8001FF else if i = 1 then 0xFFE0FFFF else if i = 2 then 0xFFFFF9FF else if i = 3 then 0xFFFFC000
  else if i < 12 then 0xFFFFFFFF else if i < 14 then 0x1FF7FDFF else if i = 14 then 0x0007FDFF else 0

/-- Bits that word `i` of an action has fields for (R150). -/
def actionMask (i : Nat) : Nat := if i = 0 then 0xFFFFF000 else if i = 1 then 0xFFFE3FFF else 0xBFF0BFF0

/-- Bits that word `i` of a rule entry has fields for (R149). -/
def ruleMask (i : Nat) : Nat :=
  if i = 0 then 0xFFFFFFF0 else if i < 3 then 0xC0FFC0FF else if i < 7 then 0xFFFFFFFF else if i < 10 then actionMask (i - 7) else 0

/-- Bits that a window word has fields for: fields that a format shows as 0 are reserved (R8, R142, R149, R150, PRS_RANGE, PRS_GRP, PRS_IND). -/
def prsWinMask (o : Nat) : Nat :=
  if 0x10000 ≤ o && decide (o < 0x14000) then nodeMask (o / 4 % 16)
  else if 0x14000 ≤ o && decide (o < 0x14048) then 0x1FF
  else if 0x30000 ≤ o && decide (o < 0x30200) then (if o % 8 = 0 then 0x80001FFF else 0xFFFFFFFF)
  else if 0x30300 ≤ o && decide (o < 0x30400) then 0x7FFF000F
  else if 0x30400 ≤ o && decide (o < 0x3040C) then actionMask (o / 4 % 4)
  else if 0x40000 ≤ o && decide (o < 0x50000) then ruleMask (o / 4 % 16)
  else if 0x60000 ≤ o then 0x03FFFFFF
  else 0xFFFFFFFF

/-- A 4-byte access to a window of PRS at block offset `rel`: the shadow below 0x8_0000, the active copy above (R27, R29, R159). -/
def prsWin (s : State) (rel : Nat) (wr : Option Nat) : State :=
  let o := rel % 0x80000
  let act := if inGraphSet o then graphCopy s else clsCopy s
  let req := if inGraphSet o then F.PRS_CTL_GRAPH_REQ else F.PRS_CTL_CLS_REQ
  match wr with
  | none => setRdata s (prsWord s (if rel < 0x80000 then 1 - act else act) o)
  | some v =>
    if 0x80000 ≤ rel then s
    else if s.flag req 0 then s.setFlag F.PRS_STS_SHADOW_BUSY 0 true
    else
      let c := 1 - act
      noteWrite { s with prs := { s.prs with win := mset noW32 s.prs.win (2 ^ 20 * c + o) (BitVec.ofNat 32 (v &&& prsWinMask o)) } }
        8 0 (prsUnit c o) (o / 4) true

/-- A 4-byte access to a slot table of port `p` at calendar offset `rel` (R397, R403). -/
def merWin (s : State) (p rel : Nat) (wr : Option Nat) : State :=
  let o := rel % 0x4000
  let act := merActive s p
  let k := fun c => slotCell p c (o / 8) (o / 4 % 2)
  if 0x2000 ≤ o then (if wr.isNone then setRdata s 0 else s)
  else
    match wr with
    | none => setRdata s (slotWord s p (if rel < 0xC000 then 1 - act else act) (o / 8) (o / 4 % 2))
    | some v =>
      if 0xC000 ≤ rel then s
      else if s.flag F.MER_CTL_SW_REQ p then s.setFlag F.MER_STS_SHADOW_BUSY p true
      else { s with egr := { s.egr with slots := mset noW32 s.egr.slots (k (1 - act)) (BitVec.ofNat 32 v) } }

/-- A word of a trace buffer. -/
def traceWord (s : State) (buf o : Nat) : Nat :=
  bits (mget noRec s.dbg.trace (4096 * buf + o / 16)).toNat (32 * (o / 4 % 4) + 31) (32 * (o / 4 % 4))

/-- Plain memory read by a host or by Edsen, recorded for the cluster as the scrubber's reads are: check words as for any reader (R446, R448).
What an uncorrectable error returns is a free value. -/
def placeShown (s : State) (t : Nat) (p : Place) (size : Nat) : State :=
  match placeRead s t p size with
  | (bs, none, u) => setRdata u (leNat bs)
  | (_, some _, u) => let (v, w) := drawValue u; setRdata w (v.toNat % 2 ^ (8 * size))

/-- A 4-byte access to a window of Edsen at block offset `rel` (R521–R524). -/
def dbgWin (s : State) (jtag : Bool) (rel : Nat) (wr : Option Nat) : State :=
  let core := s.fld F.DBG_LMEM_SEL_CORE 0
  let live := clUp s (core / 8)
  match wr with
  | none =>
    if !dbgScope s 0 then setRdata s 0
    else if rel < 0x50000 then setRdata s (traceWord s (s.fld F.DBG_TRC_WIN_CLUSTER 0) (rel - 0x40000))
    else if rel < 0x60000 then setRdata s (traceWord s 33 (rel - 0x50000))
    else if rel < 0x80000 then (if live then placeShown s (32 * core) (.bank (rel - 0x60000)) 4 else setRdata s 0)
    else setRdata s (traceWord s 32 (rel - 0x80000))
  | some v =>
    dbgWrite s jtag (some 0) (fun u => if 0x60000 ≤ rel && decide (rel < 0x80000) && live then bankWrite u core (rel - 0x60000) (leBytes 4 v) else u)

/-- The windows that take 4-byte accesses alone. -/
inductive Win where
  | prs (rel : Nat)
  | mer (p rel : Nat)
  | dbg (rel : Nat)
deriving DecidableEq, Repr

def winAt (a : Nat) : Option Win :=
  if 0x900000 ≤ a && decide (a < 0xA00000) then (if inPrsWin ((a - 0x900000) % 0x80000) then some (.prs (a - 0x900000)) else none)
  else if 0xF00000 ≤ a && decide (a < 0x1000000) then
    (if 0x8000 ≤ a % 0x10000 then some (.mer ((a - 0xF00000) / 0x10000) (a % 0x10000)) else none)
  else if 0x1340000 ≤ a && decide (a < 0x1384000) then some (.dbg (a - 0x1300000))
  else none

def winAcc (s : State) (jtag : Bool) (w : Win) (wr : Option Nat) : State :=
  let off := if wr.isNone then setRdata s 0 else s
  match w with
  | .prs rel => if pktUp s then prsWin s rel wr else off
  | .mer p rel => if pktUp s && lanePresent s p then merWin s p rel wr else off
  | .dbg rel => if s.rst.aon then dbgWin s jtag rel wr else off

/-- The shared memory of cluster `n` in its window. -/
def sharedAcc (s : State) (n ofs size : Nat) (wr : Option Nat) : State :=
  if !clUp s n then (if wr.isNone then setRdata s 0 else s)
  else
    match wr with
    | none => placeShown s (256 * n) (.shared ofs) size
    | some v => sharedWrite s n ofs (leBytes size v)

/-! ## One access -/

/-- A naturally aligned 4-byte access. -/
def acc4 (q : Req) (a : Nat) (wr : Option Nat) (s : State) : Out :=
  match winAt a with
  | some w => .next (winAcc s (isJtag q) w wr)
  | none =>
    match regAt a with
    | none => .next (if wr.isNone then setRdata s 0 else s)
    | some (r, i, hi) =>
      let sh := if hi then 32 else 0
      match wr with
      | none => .next (regReadAcc s r i ((2 ^ 32 - 1) * 2 ^ sh))
      | some v => if regLive s r i then regWrite q r i ⟨(2 ^ 32 - 1) * 2 ^ sh, v % 2 ^ 32 * 2 ^ sh⟩ s else .next s

/-- The 32-bit register at an address. -/
def isReg32 (a : Nat) : Bool := match regAt a with | some (r, _, _) => !(regDesc r).w64 | none => false

/-- The address is a claim register of a target that answers reads: PKT is out of reset, and the target's cluster present (R4, R7, R443). -/
def claimShown (s : State) (a : Nat) : Bool :=
  match regAt (a / 4 * 4) with
  | some (.ICU_CLAIM, i, _) => regShown s .ICU_CLAIM i
  | _ => false

/-- What an access of a width that reaches nothing reads. -/
def accNone (s : State) (a : Nat) (wr : Option Nat) : State := if wr.isNone then setRdata s (if claimShown s a then 1023 else 0) else s

/-- A naturally aligned 8-byte access. -/
def acc8 (q : Req) (a : Nat) (wr : Option Nat) (s : State) : Out :=
  match winAt a with
  | some _ => .next (accNone s a wr)
  | none =>
    match regAt a with
    | some (.ICU_CLAIM, _, _) => .next (accNone s a wr)
    | some (r, i, _) =>
      if (regDesc r).w64 then
        match wr with
        | none => .next (regReadAcc s r i (2 ^ 64 - 1))
        | some v => if regLive s r i then regWrite q r i ⟨2 ^ 64 - 1, v % 2 ^ 64⟩ s else .next s
      else if isReg32 (a + 4) then
        match acc4 q a (wr.map (· % 2 ^ 32)) s with
        | .next u =>
          match acc4 q (a + 4) (wr.map (· / 2 ^ 32)) u with
          | .next v => .next (if wr.isNone then setRdata v (u.rdata.toNat % 2 ^ 32 + 2 ^ 32 * (v.rdata.toNat % 2 ^ 32)) else v)
          | x => x
        | x => x
      else .next (accNone s a wr)
    | none => .next (accNone s a wr)

/-- An access of `size` bytes at offset `a` of PF1 BAR0 by requester `q`: a write of `wr`, or a read into rdata. -/
def busAcc (q : Req) (a size : Nat) (wr : Option Nat) (s : State) : Out :=
  if !((size = 4 || size = 8) && a % size == 0) then .next (accNone s a wr)
  else if 0x1210000 ≤ a && decide (a < 0x1220000) then
    .next (if mgtUp s then winAccess s (a - 0x1210000) size (wr.map (BitVec.ofNat 64)) else if wr.isNone then setRdata s 0 else s)
  else if 0x4000000 ≤ a && decide (a < 0xC000000) && decide (0x200000 ≤ a % 0x400000) && decide (a % 0x400000 < 0x300000) then
    .next (sharedAcc s ((a - 0x4000000) / 0x400000) (a % 0x400000 - 0x200000) size wr)
  else if size = 4 then acc4 q a wr s else acc8 q a wr s

/-! ## Hosts (R87, R551) -/

/-- PF1 of link `h` reaches BAR0. -/
def pf1Up (s : State) (h : Nat) : Bool := s.rst.aon && linkUp s h && fnExists s (256 * h + 1) && !(fnOf s (256 * h + 1)).d3

/-- Words of a function's MSI-X table: 16 bytes for each vector. -/
def tableWords (f : Nat) : Nat := if f % 256 = 0 then 8192 else 256

def vectorAcc (s : State) (f k : Nat) (wr : Option W32) : State :=
  let x := fnOf s f
  if !(fnUp s f && decide (k < tableWords f)) then (if wr.isNone then setRdata s 0 else s)
  else
    match wr with
    | none => setRdata s (mget vtabReset x.vtab k).toNat
    | some v => setFn s f { x with vtab := mset vtabReset x.vtab k (if k % 4 = 3 then v &&& 1 else if k % 4 = 0 then v &&& ~~~3 else v) }

def pbaRead (s : State) (f k : Nat) : State :=
  if fnUp s f && decide (k < tableWords f / 128) then
    setRdata s ((List.range 32).foldl (fun v b => v + b2n (mget noBool (fnOf s f).pba (32 * k + b)) * 2 ^ b) 0)
  else setRdata s 0

/-! ## Configuration space (R85, R87, R88; log entry 50) -/

/-- A capability of a function: those of R85, of which SR-IOV is PF0's alone (R88). -/
def hasCap (f : Nat) (c : PciCap) : Bool :=
  match c with
  | .msix => true
  | .sriov => f % 256 == 0
  | .ari => true
  | .aer => true
  | .flr => true
  | .margining => true
  | .msi => false
  | .ats => false
  | .pri => false
  | .pasid => false
  | .tph => false
  | .ptm => false
  | .ide => false
  | .l1Substates => false
  | .serialNumber => false

/-- What a read of configuration space gives: payloads of 512 bytes as code 2, and PF0's SR-IOV numbers. -/
def cfgRead (s : State) (f : Nat) (r : CfgReg) : Nat :=
  match r with
  | .capability c => b2n (hasCap f c)
  | .maxPayload => 2
  | .devctl => if f % 256 ≤ 1 then (fnOf s f).devctl.toNat else 0
  | .aer => (fnOf s f).aer.toNat
  | .totalVfs => if f % 256 = 0 then totalVfs s else 0
  | .firstVfOffset => if f % 256 = 0 then 2 else 0
  | .vfStride => if f % 256 = 0 then 1 else 0

/-- A write: Device Control of PF0 and PF1 takes it (the FLR bit has a row of its own), and a 1 clears an error's bit. -/
def cfgWrite (s : State) (f : Nat) (r : CfgReg) (v : W32) : State :=
  let x := fnOf s f
  match r with
  | .devctl => if f % 256 ≤ 1 then setFn s f { x with devctl := BitVec.ofNat 16 v.toNat &&& 0x7FFF } else s
  | .aer => setFn s f { x with aer := x.aer &&& ~~~v }
  | _ => s

def configAcc (s : State) (f : Nat) (r : CfgReg) (wr : Option W32) : State :=
  if !fnUp s f then (if wr.isNone then setRdata s 0 else s)
  else match wr with
    | none => setRdata s (cfgRead s f r)
    | some v => cfgWrite s f r v

/-- A request that a function refuses is reported as an unsupported request: bit 20 of AER's uncorrectable error status (R87). -/
def unsupported (s : State) (f : Nat) : State := setFn s f { fnOf s f with aer := (fnOf s f).aer ||| 0x100000 }

/-! ## Doorbell and MSI-X BARs (R89, R93) -/

/-- What lies at an offset of such a BAR. -/
inductive BarPart where
  | page
  | table (byte : Nat)
  | pba (byte : Nat)
  | empty
deriving DecidableEq, Repr

/-- The bases of table and PBA, and the bytes of doorbell pages. -/
def barLayout (f : Nat) : Nat × Nat × Nat :=
  if f % 256 = 0 then (0x10000, 0x80000, 0x90000) else if f % 256 = 1 then (0x1000, 0x8000, 0xC000) else (0x1000, 0x2000, 0x3000)

def barPart (f ofs : Nat) : BarPart :=
  let (pages, tab, pba) := barLayout f
  if ofs < pages then .page
  else if tab ≤ ofs && decide (ofs < tab + 4 * tableWords f) then .table (ofs - tab)
  else if pba ≤ ofs && decide (ofs < pba + tableWords f / 32) then .pba (ofs - pba)
  else .empty

/-- An 8-byte access as its two words. -/
def twice (s : State) (f : State → Nat → Option W32 → State) (k : Nat) (wr : Option W64) : State :=
  let a := f s k (wr.map (BitVec.ofNat 32 ·.toNat))
  let b := f a (k + 1) (wr.map (fun v => BitVec.ofNat 32 (v.toNat / 2 ^ 32)))
  if wr.isNone then setRdata b (a.rdata.toNat % 2 ^ 32 + 2 ^ 32 * b.rdata.toNat) else b

/-- An aligned access of 4 or 8 bytes to a table of words. -/
def wordsAcc (s : State) (f : State → Nat → Option W32 → State) (byte size : Nat) (wr : Option W64) : State :=
  if size = 4 && byte % 4 == 0 then f s (byte / 4) (wr.map (BitVec.ofNat 32 ·.toNat))
  else if size = 8 && byte % 8 == 0 then twice s f (byte / 4) wr
  else if wr.isNone then setRdata s 0 else s

/-- An access of `size` bytes at `ofs`: a write to a doorbell page is a doorbell, and offsets that hold nothing read 0. A read of a doorbell
page gives 0 (log entry 50). -/
def execBar (f : BitVec 9) (ofs size : Nat) (wr : Option W64) (s : State) : Out :=
  if !fnUp s f.toNat then .next (if wr.isNone then setRdata s 0 else s)
  else
    match barPart f.toNat ofs, wr with
    | .page, some v => doorbellWrite f v (size = 8 && ofs % 8 == 0) s
    | .table b, _ => .next (wordsAcc s (fun u k w => vectorAcc u f.toNat k w) b size wr)
    | .pba b, none => .next (wordsAcc s (fun u k _ => pbaRead u f.toNat k) b size none)
    | _, none => .next (setRdata s 0)
    | _, _ => .next s

def execRegisterWrite (x : RegAcc) (s : State) : Out :=
  match x with
  | .config f r wr => .next (configAcc s f.toNat r wr)
  | .bar f ofs size wr => execBar f ofs.toNat size wr s
  | .pf1 h a size wr =>
    if !pf1Up s h.val then .next (if wr.isNone then setRdata s 0 else s)
    else if wr.isSome && h == 1 && !s.flag F.HIF_LINK_CFG_PF1_HL1_ACC 0 then .next (unsupported s 257)
    else busAcc (.host h) a.toNat size (wr.map (·.toNat)) s
  | .vector f k wr => .next (vectorAcc s f.toNat k.toNat wr)
  | .pba f k => .next (pbaRead s f.toNat k.toNat)

/-! ## Cluster control space (R265, R444) -/

/-- An access of `size` bytes by thread `t` at offset `ofs` from 0x0020_0000. -/
def ctlAcc (t ofs size : Nat) (wr : Option Nat) (s : State) : Out :=
  let n := cluOf t
  let off := if wr.isNone then setRdata s 0 else s
  if 0x8000 ≤ ofs && decide (ofs < 0xA000) then
    .next (
      if !isSupv s t || !pktUp s then off
      else if 0x9000 ≤ ofs then
        (if wr.isSome then s else if size = 4 then claimRead s n ((ofs - 0x9000) / 4) else setRdata s 1023)
      else if ofs < 0x8080 then
        (if wr.isSome then s
         else if size = 4 then setRdata s (sumWord s n ((ofs - 0x8000) / 4))
         else if size = 8 then setRdata s (sumWord s n ((ofs - 0x8000) / 4) + 2 ^ 32 * sumWord s n ((ofs - 0x8000) / 4 + 1))
         else off)
      else if ofs = 0x8800 && size = 4 then (match wr with | some v => settleAll (swSet s v) | none => off)
      else off)
  else busAcc (.thread t) (0x4000000 + 0x400000 * n + ofs) size wr s

/-! ## JTAG (R508) and I2C0 (R534) -/

/-- Update-DR of DBGACC with the 96 bits shifted in. -/
def execDbgacc (w : BitVec 96) (s : State) : Out :=
  if !s.rst.aon then .next s
  else
    let v := w.toNat
    let a := bits v 91 64
    let s0 := { s with dbg := { s.dbg with ir := 0x20 } }
    let answer := fun (u : State) (denied : Bool) (d : Nat) =>
      { u with dbg := { u.dbg with acc := BitVec.ofNat 96 (2 ^ 95 + b2n denied * 2 ^ 94 + d % 2 ^ 64) } }
    if !(0x1300000 ≤ a && decide (a < 0x1400000)) && !dbgScope s0 1 then .next (answer s0 true 0)
    else
      let wr := if bitOf v 95 then some (bits v 63 0) else none
      match busAcc .jtag a (if bitOf v 94 then 8 else 4) wr s0 with
      | .next u => .next (answer u false (if wr.isNone then u.rdata.toNat else 0))
      | x => x

/-- The words that a controller reads from offset `a`, one after another. -/
def i2cReads : Nat → State → Nat → List Byte → State
  | 0, s, _, bs => { s with pio := { s.pio with i2c0 := bs } }
  | n + 1, s, a, bs =>
    let u := if a ≤ 0x100FFF then
        (match regAt a with
         | some (r, i, hi) => regReadAcc s r i ((2 ^ 32 - 1) * 2 ^ (if hi then 32 else 0))
         | none => setRdata s 0)
      else setRdata s 0
    i2cReads n u (a + 4) (bs ++ leBytes 4 u.rdata.toNat)

/-- A transaction that writes an offset and reads `n` words. -/
def execI2c0Transaction (ofs : W32) (n : Nat) (s : State) : Out :=
  .next (if s.rst.aon && s.flag F.PIO_I2C0_CFG_EN 0 then i2cReads n s (ofs.toNat / 4 * 4) [] else s)

/-! ## MGT's loads through the register port (R491) -/

/-- The load of thread `t` returns, at the bytes of its OP: the register or accumulator is written, and watchpoints see the access. -/
def portLoadDone (s : State) (t op rd : Nat) (a : W32) : State :=
  let x := thrOf s t
  if x.st = .dormant then s
  else
    let y := loadInto x op rd s.rdata.toNat
    let u := endWait (foldS (loadWrites op rd) (fun v r => rfWrite v t r) s) t { y with pc := y.pc + 4 }
    let (hit, v) := watch u t x.pc.toNat [⟨a.toNat + 0x40000000, accBytes op, false⟩]
    settleAll (match hit with
      | some act => haltMatch v t 3 act
      | none => v)

/-- The load of slot `k` returns. -/
def execRegisterPortLoadComplete (k : Fin 8) (s : State) : Out :=
  let t := 0x2000 + k.val
  match (thrOf s t).wait with
  | .rport op rd a =>
    match busAcc (.mgt k) a.toNat (accBytes op) none s with
    | .next u => .next (portLoadDone u t op rd a)
    | x => x
  | _ => .next s

/-! ## DRAINED (R24, R25) -/

/-- A resource whose enable has been cleared and which holds no accepted work gets its DRAINED bit. -/
def drainOne (s : State) : Resource → State
  | .port p => if lpt s p && !s.flag F.LPT_CFG_EN p then portDrain s p else s
  | .ring k i => if pktUp s && decide (i.toNat < (ringFlds k).count) then ringDrain s k i.toNat else s
  | .pool k => if pktUp s then poolDrain s k else s
  | .parser => if pktUp s && !s.flag F.PRS_CTL_EN 0 && s.prs.waiting.isEmpty then s.setFlag F.PRS_STS_DRAINED 0 true else s
  | .agate => if pktUp s then agtDrain s else s
  | .table t => if pktUp s then tblDrain s t else s
  | .orrery => if pktUp s && !s.flag F.ORY_CTL_EN 0 then oryDrain s else s
  | .queue q => if pktUp s then qDrain s q.toNat else s
  | .delayList l => if pktUp s then dlyDrain s l else s
  | .egress => if pktUp s then egrDrain s else s
  | .egressQueue _ => s
  | .cpx n u => if cpxLive s n u then cpxDrain s n u else s
  | .channel n c => if clUp s n then chanDrain s (64 * n.val + c.val) else s
  | .drc => if memUp s then drcDrain s else s
  | .cluster _ => s

def execResourceDrainComplete (r : Resource) (s : State) : Out := .next (drainOne s r)

end Sys2Proof.Machine
end

