-- ==== Sys2Proof/Machine/LoadStore.lean ====
section
/-!
DEFINITION. Loads and stores (R265, R269, R302, R306, R307, R491).
-/

namespace Sys2Proof.Machine

/-- A register access made on the way from `s`: what it comes to, with the rest of the instruction. No register access is refused. -/
def onBus (s : State) (o : Out) (k : State → Res) : Res :=
  match o with
  | .next u => k u
  | .fault r => .bad r
  | .refused _ => k s

/-- MGT slot of a thread. -/
def slotFin (t : Nat) : Fin 8 := ⟨t % 8, Nat.mod_lt _ (by decide)⟩

/-- A load of this OP from `ea`: the number read goes to `loadInto`. A load through MGT's register port is a long stall. -/
def loadAt (t op rd ea : Nat) (s : State) : Res :=
  let n := accBytes op
  let fin := fun (u : State) (v : Nat) => Res.done (setThr u t (loadInto (thrOf u t) op rd v)) [⟨ea, n, false⟩]
  match accFault s t ea n false with
  | some c => .fault s c ea
  | none =>
    match placeOf t ea n with
    | none => .fault s cBadAddr ea
    | some (.ctl o) => onBus s (ctlAcc t o n none s) (fun u => fin u u.rdata.toNat)
    | some (.port o) => .wait s (.rport op rd (BitVec.ofNat 32 o))
    | some (.rom _) => fin (romRead s n).2 (romRead s n).1
    | some p =>
      match placeRead s t p n with
      | (_, some a, u) => .fault u cEcc a
      | (bs, none, u) => fin u (leNat bs)

/-- A store of bytes at `ea`. The boot ROM takes none. -/
def storeAt (t ea : Nat) (bs : List Byte) (s : State) : Res :=
  let n := bs.length
  let ts : List Touch := [⟨ea, n, true⟩]
  match accFault s t ea n true with
  | some c => .fault s c ea
  | none =>
    match placeOf t ea n with
    | none => .fault s cBadAddr ea
    | some (.ctl o) => onBus s (ctlAcc t o n (some (leNat bs)) s) (fun u => .done u ts)
    | some (.port o) => onBus s (busAcc (.mgt (slotFin t)) o n (some (leNat bs)) s) (fun u => .done u ts)
    | some p => .done (placeWrite s t p bs) ts

/-- A load; `bad` says that a field which must be 0 is not. -/
def loadRow (op : Nat) (bad : FmtI → Bool) (t : BitVec 14) (f : FmtI) (s : State) : Out :=
  issueAt t.toNat (wordI op f) (f.ra.toNat :: (if op = 0x16 then [f.rd.toNat] else [])) (loadWrites op f.rd.toNat) id (fun u =>
    if bad f then .fault u cIllegal (wordI op f).toNat
    else loadAt t.toNat op f.rd.toNat (effAddr (thrOf u t.toNat) f) u) s

/-- A store. -/
def storeRow (op : Nat) (bad : FmtI → Bool) (t : BitVec 14) (f : FmtI) (s : State) : Out :=
  issueAt t.toNat (wordI op f) (f.ra.toNat :: (if op = 0x15 then [] else [f.rd.toNat])) [] id (fun u =>
    if bad f then .fault u cIllegal (wordI op f).toNat
    else storeAt t.toNat (effAddr (thrOf u t.toNat) f) (storeBytes (thrOf u t.toNat) op f.rd.toNat) u) s

def noBad : FmtI → Bool := fun _ => false

/-- `lda` and `sta`: RD[4:1] must be 0. -/
def badAcc : FmtI → Bool := fun f => decide (2 ≤ f.rd.toNat)

def execLdB := loadRow 0x08 noBad
def execLdBs := loadRow 0x09 noBad
def execLdH := loadRow 0x0A noBad
def execLdHs := loadRow 0x0B noBad
def execLdW := loadRow 0x0C noBad
def execLdnH := loadRow 0x0D noBad
def execLdnW := loadRow 0x0E noBad
def execLda := loadRow 0x0F badAcc
def execStB := storeRow 0x10 noBad
def execStH := storeRow 0x11 noBad
def execStW := storeRow 0x12 noBad
def execStnH := storeRow 0x13 noBad
def execStnW := storeRow 0x14 noBad
def execSta := storeRow 0x15 badAcc
def execCsld := loadRow 0x16 noBad

end Sys2Proof.Machine
end

