-- ==== Sys2Proof/Machine/Locks.lean ====
section
/-!
DEFINITION. Flint by thread code (R325, R366–R378).
-/

namespace Sys2Proof.Machine

/-- A Flint instruction on number gA, of the given limit; `rb` says that gB is an operand too, and `force` that gA[31] is FORCE. -/
def fltRowT (fn top : Nat) (rb force : Bool) (act : State → Nat → Nat → W32 → Res) (bad : W32 → W32 → Option Nat) (t : BitVec 14) (f : FmtU)
    (s : State) : Out :=
  issueAt t.toNat (wordU 0x23 fn f) (f.ra.toNat :: (if rb then [f.rb.toNat] else [])) [f.rd.toNat] id (fun u =>
    let x := thrOf u t.toNat
    let a := gv x f.ra
    let b := gv x f.rb
    let w := (wordU 0x23 fn f).toNat
    if f.rc != 0 || (!rb && f.rb != 0) then .fault u cIllegal w
    else if force && a.getLsbD 31 && !isSupv u t.toNat then .fault u cPriv w
    else if top ≤ (if force then a.toNat % 2 ^ 31 else a.toNat) then .fault u cBadArg a.toNat
    else
      match bad a b with
      | some d => .fault u cBadArg d
      | none => act u t.toNat f.rd.toNat (if force then a else b)) s

def noArg : W32 → W32 → Option Nat := fun _ _ => none

/-- The number in gA. -/
def fltNum (s : State) (t : Nat) (f : FmtU) : Nat := (gv (thrOf s t) f.ra).toNat % 2 ^ 31
def fltCount (s : State) (t : Nat) (f : FmtU) : Nat := (gv (thrOf s t) f.rb).toNat

/-- A semaphore count is 1–65,535. -/
def countArg : W32 → W32 → Option Nat := fun _ b => if b.toNat = 0 || 65536 ≤ b.toNat then some b.toNat else none

/-- With FORCE gB[31:8] must be 0; otherwise gB is a count. -/
def relArg : W32 → W32 → Option Nat := fun a b => if a.getLsbD 31 then (if 256 ≤ b.toNat then some b.toNat else none) else countArg a b

/-- A status word with HELD_BEFORE (R368). -/
def lockStatus (s : State) (t rd status : Nat) (before : Bool) : Res :=
  .done (settleAll (setThr s t (setStatus (thrOf s t) rd status (b2n before)))) []

/-- A blocking acquire of a lock joins its queue. -/
def lockWait (s : State) (t rd k : Nat) : Res :=
  .wait (setLock s k { lockOf s k with queue := (lockOf s k).queue ++ [ownerOfThr t] }) (.flint rd false k 1)

def semWait (s : State) (t rd k n : Nat) : Res :=
  .wait (setSem s k { semOf s k with queue := (semOf s k).queue ++ [(ownerOfThr t, n)] }) (.flint rd true k n)

def execFla (t : BitVec 14) (f : FmtU) (s : State) : Out :=
  fltRowT 0 4096 false false (fun u t rd _ =>
    let k := fltNum u t f
    match lockTry u k (ownerOfThr t) with
    | (st, before, v) => if st = tsBusy then lockWait v t rd k else lockStatus v t rd st before) noArg t f s

def execFlt (t : BitVec 14) (f : FmtU) (s : State) : Out :=
  fltRowT 1 4096 false false (fun u t rd _ =>
    match lockTry u (fltNum u t f) (ownerOfThr t) with
    | (st, before, v) => lockStatus v t rd st before) noArg t f s

/-- A forced release by the supervisor of a holding of `o`, a thread of its own cluster (R373). -/
def supvForce (s : State) (t rd : Nat) (sem : Bool) (num : Nat) (o : Option Nat) : Res :=
  match o with
  | some h =>
    if h < 2 ^ 13 && cluOf h == cluOf t then
      match fltForce s sem num h with
      | (true, v) => doneStatus v t rd 0
      | (false, v) => doneStatus v t rd tsNotHeld
    else doneStatus s t rd tsNotHeld
  | none => doneStatus s t rd tsNotHeld

def execFlr (t : BitVec 14) (f : FmtU) (s : State) : Out :=
  fltRowT 2 4096 false true (fun u t rd a =>
    let k := fltNum u t f
    if a.getLsbD 31 then supvForce u t rd false k (lockOf u k).owner
    else
      match lockRel u k (ownerOfThr t) with
      | (st, v) => doneStatus v t rd st) noArg t f s

def execFsa (t : BitVec 14) (f : FmtU) (s : State) : Out :=
  fltRowT 3 512 true false (fun u t rd _ =>
    match semTry u (fltNum u t f) (ownerOfThr t) (fltCount u t f) with
    | (st, v) => if st = tsBusy then semWait v t rd (fltNum u t f) (fltCount u t f) else doneStatus v t rd st) countArg t f s

def execFst (t : BitVec 14) (f : FmtU) (s : State) : Out :=
  fltRowT 4 512 true false (fun u t rd _ =>
    match semTry u (fltNum u t f) (ownerOfThr t) (fltCount u t f) with
    | (st, v) => doneStatus v t rd st) countArg t f s

def execFsr (t : BitVec 14) (f : FmtU) (s : State) : Out :=
  fltRowT 5 512 true true (fun u t rd a =>
    let k := fltNum u t f
    let n := fltCount u t f
    if a.getLsbD 31 then supvForce u t rd true k (some (256 * cluOf t + n))
    else
      match semRel u k (ownerOfThr t) n with
      | (st, v) => doneStatus v t rd st) relArg t f s

def execFwr (t : BitVec 14) (f : FmtU) (s : State) : Out :=
  fltRowT 6 4096 false false (fun u t rd _ =>
    match fltRegister u (fltNum u t f) (ownerOfThr t) with
    | (st, v) => doneStatus v t rd st) noArg t f s

def execFwc (t : BitVec 14) (f : FmtU) (s : State) : Out :=
  fltRowT 7 4096 false false (fun u t rd _ =>
    match fltCancel u (fltNum u t f) (ownerOfThr t) with
    | (st, v) => doneStatus v t rd st) noArg t f s

end Sys2Proof.Machine
end

