-- ==== Sys2Proof/Machine/Lookup.lean ====
section
/-!
DEFINITION. Lookups by thread code (R180, R183, R194, R315).
-/

namespace Sys2Proof.Machine

/-- Fields of the lookup control word. -/
def lcSlot (w : W32) : Nat := bits w.toNat 15 14
def lcLen (w : W32) : Nat := bits w.toNat 13 8 + 1

/-- SRCPORT of a learn request: the source of the thread's current item (R194). -/
def srcPort (s : State) (t : Nat) : W16 := BitVec.ofNat 16 (itKind (curItem s t) * 256 + itSrc (curItem s t))

/-- Slot `i` pends (R183). -/
def setPend (s : State) (t i : Nat) : State := setThr s t { thrOf s t with pend := BitVec.ofNat 4 (putBit (thrOf s t).pend.toNat i true) }

/-- The lookup that control word `w` and the key bytes make. -/
def lookupOf (s : State) (t : Nat) (w : W32) (key : List Byte) : Lkp :=
  let tb := bits w.toNat 5 0
  ⟨tb, key, lcSlot w, bitOf w.toNat 16, bits w.toNat 31 18, bitOf w.toNat 17, srcPort s t, !tblLive s tb, some (.thread t), false⟩

/-- A lookup issues, or waits while its slot pends; `k` says what follows its issue. -/
def lookupRow (fn : Nat) (k : State → Nat → Res) (t : BitVec 14) (f : FmtU) (s : State) : Out :=
  issueAt t.toNat (wordU 0x20 fn f) [f.ra.toNat, f.rb.toNat] [] id (fun u =>
    let x := thrOf u t.toNat
    let a := (gv x f.ra).toNat
    let w := gv x f.rb
    if isMgt t.toNat || f.rd != 0 || f.rc != 0 then .fault u cIllegal (wordU 0x20 fn f).toNat
    else if (localOf t.toNat a (lcLen w)).isNone then .fault u cBadAddr a
    else if bits w.toNat 7 6 ≠ 0 then .fault u cBadArg w.toNat
    else if x.pend.getLsbD (lcSlot w) then .wait u (.slot (lcSlot w))
    else localRead u t.toNat a (lcLen w) (fun v key => k (setPend (agtAccept v (lookupOf v t.toNat w key)) t.toNat (lcSlot w)) (lcSlot w))) s

def execLkp := lookupRow 0 (fun u _ => .done u [])
def execLkpw := lookupRow 1 (fun u i => .wait u (.slots (2 ^ i)))

def execLkw (t : BitVec 14) (f : FmtUI) (s : State) : Out :=
  issueAt t.toNat (wordUI 0x20 2 f) [] [] id (fun u =>
    let m := f.imm.toNat % 16
    if isMgt t.toNat || f.rd != 0 || f.ra != 0 || decide (16 ≤ f.imm.toNat) then .fault u cIllegal (wordUI 0x20 2 f).toNat
    else if (thrOf u t.toNat).pend.toNat &&& m = 0 then .done u []
    else .wait u (.slots m)) s

end Sys2Proof.Machine
end

