-- ==== Sys2Proof/Machine/Mac.lean ====
section
/-!
DEFINITION. Multiply-accumulate (R310), accumulator operations (R311) and CRC steps (R312).
-/

namespace Sys2Proof.Machine

/-! ## macd (R310) -/

def macSize (f : FmtMD) : Nat := if f.ty.toNat < 2 then 2 else 4

/-- An operand of `size` bytes by TYPE: 0 u16, 1 s16, 2 u32, 3 s32. -/
def macExt (ty v : Nat) : Int :=
  if ty = 1 then (BitVec.ofNat 16 v).toInt else if ty = 3 then (BitVec.ofNat 32 v).toInt else v

def macSigned (ty : Nat) : Bool := ty % 2 == 1
def macLo (ty : Nat) : Int := if macSigned ty then -2 ^ 63 else 0
def macHi (ty : Nat) : Int := if macSigned ty then 2 ^ 63 - 1 else 2 ^ 64 - 1

/-- The accumulator as a number of the TYPE's range. -/
def macVal (ty : Nat) (a : W64) : Int := if macSigned ty then a.toInt else a.toNat

/-- The sum clamped to the range, or modulo 2^64. -/
def macFit (f : FmtMD) (sum : Int) : W64 :=
  let ty := f.ty.toNat
  BitVec.ofInt 64 (if f.sat then (if sum < macLo ty then macLo ty else if macHi ty < sum then macHi ty else sum) else sum)

/-- A pointer moved on by its step. -/
def macStep (x : Thread) (r : BitVec 5) (st : BitVec 6) (size : Nat) : Thread :=
  gSet x r.toNat (gv x r + st.signExtend 32 * BitVec.ofNat 32 size)

/-- The accumulation, V and the pointers, from the operands read. -/
def macApply (x : Thread) (f : FmtMD) (a b : Nat) : Thread :=
  let ty := f.ty.toNat
  let n := b2n f.acc
  let sum := macVal ty (accGet x n) + macExt ty a * macExt ty b
  let y := setFlagBit (accSet x n (macFit f sum)) 1 (decide (sum < macLo ty) || decide (macHi ty < sum))
  macStep (macStep y f.px f.sx (macSize f)) f.py f.sy (macSize f)

def execMacd (t : BitVec 14) (f : FmtMD) (s : State) : Out :=
  issueAt t.toNat (wordMD 0x1E f) [f.px.toNat, f.py.toNat] [f.px.toNat, f.py.toNat] id (fun u =>
    let x := thrOf u t.toNat
    let a := (gv x f.px).toNat
    let b := (gv x f.py).toNat
    let n := macSize f
    if (localOf t.toNat a n).isSome && (localOf t.toNat b n).isNone then .fault u cBadAddr b
    else localRead u t.toNat a n (fun v p => localRead v t.toNat b n (fun w q =>
      .done (setThr w t.toNat (macApply (thrOf w t.toNat) f (leNat p) (leNat q))) [⟨a, n, false⟩, ⟨b, n, false⟩]))) s

/-! ## Accumulators (R311) -/

/-- An operation on an accumulator; `bad` says that a field which must be 0 is not. -/
def accRow (fn : Nat) (f : FmtR) (rds wrs : List Nat) (bad : Bool) (g : Thread → Thread) (t : BitVec 14) (s : State) : Out :=
  issueAt t.toNat (wordR 0x1F fn f) rds wrs id (fun u =>
    if bad then .fault u cIllegal (wordR 0x1F fn f).toNat else doneThr u t.toNat (g (thrOf u t.toNat))) s

/-- aN named by the low bit of a field. -/
def accNo (r : BitVec 5) : Nat := r.toNat % 2
def accFieldBad (r : BitVec 5) : Bool := decide (2 ≤ r.toNat)

def execMac (t : BitVec 14) (f : FmtR) (s : State) : Out :=
  accRow 0 f [f.ra.toNat, f.rb.toNat] [] (accFieldBad f.rd || f.sh != 0) (fun x =>
    accSet x (accNo f.rd) (BitVec.ofInt 64 ((accGet x (accNo f.rd)).toInt + (gv x f.ra).toInt * (gv x f.rb).toInt))) t s

def execMacu (t : BitVec 14) (f : FmtR) (s : State) : Out :=
  accRow 1 f [f.ra.toNat, f.rb.toNat] [] (accFieldBad f.rd || f.sh != 0) (fun x =>
    accSet x (accNo f.rd) (BitVec.ofNat 64 ((accGet x (accNo f.rd)).toNat + (gv x f.ra).toNat * (gv x f.rb).toNat))) t s

def execMfa (t : BitVec 14) (f : FmtR) (s : State) : Out :=
  accRow 2 f [] [f.rd.toNat] (f.ra != 0 || accFieldBad f.rb || accFieldBad f.sh) (fun x =>
    gSet x f.rd.toNat (BitVec.ofNat 32 ((accGet x (accNo f.rb)).toNat / 2 ^ (32 * accNo f.sh)))) t s

def execMta (t : BitVec 14) (f : FmtR) (s : State) : Out :=
  accRow 3 f [f.ra.toNat] [] (accFieldBad f.rd || f.rb != 0 || accFieldBad f.sh) (fun x =>
    let h := accNo f.sh
    accSet x (accNo f.rd) (BitVec.ofNat 64 (setBits (accGet x (accNo f.rd)).toNat (32 * h + 31) (32 * h) (gv x f.ra).toNat))) t s

def execClra (t : BitVec 14) (f : FmtR) (s : State) : Out :=
  accRow 4 f [] [] (accFieldBad f.rd || f.ra != 0 || f.rb != 0 || f.sh != 0) (fun x => accSet x (accNo f.rd) 0) t s

/-! ## CRC steps (R312) -/

/-- The low `n` bytes of gA, most significant first, into gD. -/
def crcRow (fn n : Nat) (t : BitVec 14) (f : FmtR) (s : State) : Out :=
  issueAt t.toNat (wordR 0x29 fn f) [f.ra.toNat, f.rd.toNat] [f.rd.toNat] id (fun u =>
    let x := thrOf u t.toNat
    if f.rb ≠ 0 ∨ f.sh ≠ 0 then .fault u cIllegal (wordR 0x29 fn f).toNat
    else doneThr u t.toNat (gSet x f.rd.toNat (BitVec.ofNat 32 (crc32cRun (gv x f.rd).toNat (beBytes n (gv x f.ra).toNat))))) s

def execCrcb := crcRow 0 1
def execCrch := crcRow 1 2
def execCrcw := crcRow 2 4

end Sys2Proof.Machine
end

