-- ==== Sys2Proof/Machine/SysInstr.lean ====
section
/-!
DEFINITION. System instructions (R296, R332, R333, R492, R519).
-/

namespace Sys2Proof.Machine

/-- Feature word `i` as thread `t` reads it. -/
def featWord (s : State) (t i : Nat) : Nat :=
  if i = 0 then 0x01 * 2 ^ 24 + b2n (isS s t) * 2 ^ 4 + 2 ^ 3 + b2n (unitPresent s 1) * 2 ^ 2 + b2n (unitPresent s 0) * 2 + 1
  else if i = 1 then 64 * 2 ^ 24 + 64 * 2 ^ 16 + 16 * 2 ^ 8 + 16
  else if i = 2 then 64 * 2 ^ 24 + 16 * 2 ^ 16 + 8 * 2 ^ 8 + 8
  else if i = 3 then 4 * 2 ^ 24 + 256 * 2 ^ 12 + 4092
  else if i = 4 then (if isMgt t then 0 else s.fld F.RST_CLU_CLK_STEP_CUR (cluOf t))
  else if i = 5 then (presentMask s).toNat
  else if i = 6 then 80 * 2 ^ 8 + 16
  else 0

def execFeat (t : BitVec 14) (f : FmtUI) (s : State) : Out :=
  issueAt t.toNat (wordUI 0x28 0 f) [] [f.rd.toNat] id (fun u =>
    if f.ra != 0 || decide (8 ≤ f.imm.toNat) then .fault u cIllegal (wordUI 0x28 0 f).toNat
    else doneThr u t.toNat (gSet (thrOf u t.toNat) f.rd.toNat (BitVec.ofNat 32 (featWord u t.toNat f.imm.toNat)))) s

def execCnt (t : BitVec 14) (f : FmtU) (s : State) : Out :=
  issueAt t.toNat (wordU 0x28 1 f) [f.ra.toNat, f.rb.toNat] [] id (fun u =>
    let a := (gv (thrOf u t.toNat) f.ra).toNat
    let b := (gv (thrOf u t.toNat) f.rb).toNat
    if isMgt t.toNat || f.rd != 0 || f.rc != 0 then .fault u cIllegal (wordU 0x28 1 f).toNat
    else if 4091 < a then .fault u cBadArg a
    else .done (count u (393216 + 4096 * cluOf t.toNat + a) 1 b) []) s

def execRdtid (t : BitVec 14) (f : FmtU) (s : State) : Out :=
  issueAt t.toNat (wordU 0x28 2 f) [] [f.rd.toNat] id (fun u =>
    if f.ra ≠ 0 ∨ f.rb ≠ 0 ∨ f.rc ≠ 0 then .fault u cIllegal (wordU 0x28 2 f).toNat
    else doneThr u t.toNat (gSet (thrOf u t.toNat) f.rd.toNat (t.setWidth 32))) s

def execTrap (t : BitVec 14) (f : FmtUI) (s : State) : Out :=
  issueAt t.toNat (wordUI 0x28 3 f) [] [] id (fun u =>
    if f.rd ≠ 0 ∨ f.ra ≠ 0 then .fault u cIllegal (wordUI 0x28 3 f).toNat
    else .fault u cTrap f.imm.toNat) s

/-- `brk`: Edsen takes it with BRK_EN and scope HALT. -/
def execBrk (t : BitVec 14) (f : FmtU) (s : State) : Out :=
  issueAt t.toNat (wordU 0x28 4 f) [] [] id (fun u =>
    if f.rd ≠ 0 ∨ f.ra ≠ 0 ∨ f.rb ≠ 0 ∨ f.rc ≠ 0 then .fault u cIllegal (wordU 0x28 4 f).toNat
    else if u.flag F.DBG_CTL_BRK_EN 0 && dbgScope u 0 then .brk u
    else .fault u cBrk 0) s

end Sys2Proof.Machine
end

