-- ==== Sys2Proof/Machine/Dispatch.lean ====
section
/-!
DEFINITION. One arm per command: each calls the command's meaning.
-/

namespace Sys2Proof.Machine

def exec (i : Instr) (s : State) : Host.Outcome State Fault Refusal :=
  match i with
  | .registerWrite x => Sys2Proof.Machine.execRegisterWrite x s
  | .resourceDrainComplete r => Sys2Proof.Machine.execResourceDrainComplete r s
  | .timIncrWrite v => Sys2Proof.Machine.execTimIncrWrite v s
  | .timNtLowRead => Sys2Proof.Machine.execTimNtLowRead s
  | .adjSet => Sys2Proof.Machine.execAdjSet s
  | .adjStep => Sys2Proof.Machine.execAdjStep s
  | .adjSlew => Sys2Proof.Machine.execAdjSlew s
  | .adjAbort => Sys2Proof.Machine.execAdjAbort s
  | .setStepApply => Sys2Proof.Machine.execSetStepApply s
  | .slewComplete => Sys2Proof.Machine.execSlewComplete s
  | .holdReq => Sys2Proof.Machine.execHoldReq s
  | .holdExit => Sys2Proof.Machine.execHoldExit s
  | .holdTimeoutIncr edges => Sys2Proof.Machine.execHoldTimeoutIncr edges s
  | .holdTimeoutPps edges => Sys2Proof.Machine.execHoldTimeoutPps edges s
  | .ppsInEdge highNs => Sys2Proof.Machine.execPpsInEdge highNs s
  | .calSyncInEdge highNs => Sys2Proof.Machine.execCalSyncInEdge highNs s
  | .ppsOutPulse edges => Sys2Proof.Machine.execPpsOutPulse edges s
  | .ppsOutPulseEnd edges => Sys2Proof.Machine.execPpsOutPulseEnd edges s
  | .timeCompareFire k edges => Sys2Proof.Machine.execTimeCompareFire k edges s
  | .timeComparePulseEnd k edges => Sys2Proof.Machine.execTimeComparePulseEnd k edges s
  | .txtsMetaRead p => Sys2Proof.Machine.execTxtsMetaRead p s
  | .epochArm => Sys2Proof.Machine.execEpochArm s
  | .epochDisarm => Sys2Proof.Machine.execEpochDisarm s
  | .epochAtWrite v => Sys2Proof.Machine.execEpochAtWrite v s
  | .epochFlip edges => Sys2Proof.Machine.execEpochFlip edges s
  | .cntDump c => Sys2Proof.Machine.execCntDump c s
  | .cntDumpComplete k index => Sys2Proof.Machine.execCntDumpComplete k index s
  | .rxFrame p frame corr syms bad => Sys2Proof.Machine.execRxFrame p frame corr syms bad s
  | .pauseRefresh p edges => Sys2Proof.Machine.execPauseRefresh p edges s
  | .frameTxComplete p edges => Sys2Proof.Machine.execFrameTxComplete p edges s
  | .phyEnSet p => Sys2Proof.Machine.execPhyEnSet p s
  | .phyEnClear p part => Sys2Proof.Machine.execPhyEnClear p part s
  | .portEnSet p => Sys2Proof.Machine.execPortEnSet p s
  | .portEnClear p part => Sys2Proof.Machine.execPortEnClear p part s
  | .signalDetect p => Sys2Proof.Machine.execSignalDetect p s
  | .trainComplete p taps => Sys2Proof.Machine.execTrainComplete p taps s
  | .trainTimeout p edges => Sys2Proof.Machine.execTrainTimeout p edges s
  | .alignDone p => Sys2Proof.Machine.execAlignDone p s
  | .signalLoss p part => Sys2Proof.Machine.execSignalLoss p part s
  | .linkFault p remote part => Sys2Proof.Machine.execLinkFault p remote part s
  | .linkFaultClear p => Sys2Proof.Machine.execLinkFaultClear p s
  | .quadModeWrite q m => Sys2Proof.Machine.execQuadModeWrite q m s
  | .eyeMeasureGo l => Sys2Proof.Machine.execEyeMeasureGo l s
  | .eyeMeasureDone l upper middle lower => Sys2Proof.Machine.execEyeMeasureDone l upper middle lower s
  | .prbsEnable l gen chk => Sys2Proof.Machine.execPrbsEnable l gen chk s
  | .prbsCheckerLock l errors => Sys2Proof.Machine.execPrbsCheckerLock l errors s
  | .doorbellTx f ring index formed => Sys2Proof.Machine.execDoorbellTx f ring index formed s
  | .doorbellRx f ring index formed => Sys2Proof.Machine.execDoorbellRx f ring index formed s
  | .doorbellCq f ring index arm formed => Sys2Proof.Machine.execDoorbellCq f ring index arm formed s
  | .doorbellControl f ring index formed => Sys2Proof.Machine.execDoorbellControl f ring index formed s
  | .doorbellEventLog f ring index arm formed => Sys2Proof.Machine.execDoorbellEventLog f ring index arm formed s
  | .ringEnable k idx => Sys2Proof.Machine.execRingEnable k idx s
  | .ringDisable k idx => Sys2Proof.Machine.execRingDisable k idx s
  | .txPacketFetch idx x => Sys2Proof.Machine.execTxPacketFetch idx x s
  | .txPacketComplete idx => Sys2Proof.Machine.execTxPacketComplete idx s
  | .dmaReadError k idx x => Sys2Proof.Machine.execDmaReadError k idx x s
  | .rxPacketDeliver e descs => Sys2Proof.Machine.execRxPacketDeliver e descs s
  | .cqModerationTimeout c edges => Sys2Proof.Machine.execCqModerationTimeout c edges s
  | .msixPendingSend f v => Sys2Proof.Machine.execMsixPendingSend f v s
  | .nop c op => Sys2Proof.Machine.execNop c op s
  | .pf0ReadyWrite h v fromMgt => Sys2Proof.Machine.execPf0ReadyWrite h v fromMgt s
  | .functionLevelReset f => Sys2Proof.Machine.execFunctionLevelReset f s
  | .flrComplete f => Sys2Proof.Machine.execFlrComplete f s
  | .vfDisable h => Sys2Proof.Machine.execVfDisable h s
  | .vfEnable h n => Sys2Proof.Machine.execVfEnable h n s
  | .busMasterEnableChange f v => Sys2Proof.Machine.execBusMasterEnableChange f v s
  | .d3hotChange f v => Sys2Proof.Machine.execD3hotChange f v s
  | .pcieLinkUp h speed width flit => Sys2Proof.Machine.execPcieLinkUp h speed width flit s
  | .pcieLinkDown h => Sys2Proof.Machine.execPcieLinkDown h s
  | .cellAlloc c => Sys2Proof.Machine.execCellAlloc c s
  | .chainFree c => Sys2Proof.Machine.execChainFree c s
  | .cellRead c => Sys2Proof.Machine.execCellRead c s
  | .poolEnable k => Sys2Proof.Machine.execPoolEnable k s
  | .poolDisable k => Sys2Proof.Machine.execPoolDisable k s
  | .chainSweep n => Sys2Proof.Machine.execChainSweep n s
  | .crnReqPeakRead r => Sys2Proof.Machine.execCrnReqPeakRead r s
  | .parsePacket => Sys2Proof.Machine.execParsePacket s
  | .parserEnable => Sys2Proof.Machine.execParserEnable s
  | .parserDisable => Sys2Proof.Machine.execParserDisable s
  | .graphReq => Sys2Proof.Machine.execGraphReq s
  | .clsReq => Sys2Proof.Machine.execClsReq s
  | .graphSwitch => Sys2Proof.Machine.execGraphSwitch s
  | .classifierSwitch => Sys2Proof.Machine.execClassifierSwitch s
  | .lookupComplete j => Sys2Proof.Machine.execLookupComplete j s
  | .tableEnable t => Sys2Proof.Machine.execTableEnable t s
  | .tableInitComplete t => Sys2Proof.Machine.execTableInitComplete t s
  | .tableDisable t => Sys2Proof.Machine.execTableDisable t s
  | .fcFlush => Sys2Proof.Machine.execFcFlush s
  | .fcFlushDone => Sys2Proof.Machine.execFcFlushDone s
  | .fcInvalidateTableDone t => Sys2Proof.Machine.execFcInvalidateTableDone t s
  | .learnRequest => Sys2Proof.Machine.execLearnRequest s
  | .moveWindowClose t key edges => Sys2Proof.Machine.execMoveWindowClose t key edges s
  | .ageingPassStart t edges => Sys2Proof.Machine.execAgeingPassStart t edges s
  | .ageingVisit x => Sys2Proof.Machine.execAgeingVisit x s
  | .tblInsert c img => Sys2Proof.Machine.execTblInsert c img s
  | .tblUpdate c img => Sys2Proof.Machine.execTblUpdate c img s
  | .tblDelete c img => Sys2Proof.Machine.execTblDelete c img s
  | .tblSearch c img => Sys2Proof.Machine.execTblSearch c img s
  | .tblNext c => Sys2Proof.Machine.execTblNext c s
  | .tblFlush c => Sys2Proof.Machine.execTblFlush c s
  | .flushVisit t => Sys2Proof.Machine.execFlushVisit t s
  | .tblFlushComplete t => Sys2Proof.Machine.execTblFlushComplete t s
  | .tblCursorClose c => Sys2Proof.Machine.execTblCursorClose c s
  | .tblLocClear c => Sys2Proof.Machine.execTblLocClear c s
  | .cursorTimeout t edges => Sys2Proof.Machine.execCursorTimeout t edges s
  | .dispatch g edges => Sys2Proof.Machine.execDispatch g edges s
  | .spillRefill => Sys2Proof.Machine.execSpillRefill s
  | .tagSkip d edges => Sys2Proof.Machine.execTagSkip d edges s
  | .queueDisable q => Sys2Proof.Machine.execQueueDisable q s
  | .purge q => Sys2Proof.Machine.execPurge q s
  | .purgeComplete q => Sys2Proof.Machine.execPurgeComplete q s
  | .groupMembershipWrite g v => Sys2Proof.Machine.execGroupMembershipWrite g v s
  | .orreryDisable => Sys2Proof.Machine.execOrreryDisable s
  | .delayTick l edges => Sys2Proof.Machine.execDelayTick l edges s
  | .delayListDisable l => Sys2Proof.Machine.execDelayListDisable l s
  | .delayAreaDisable => Sys2Proof.Machine.execDelayAreaDisable s
  | .enq c it => Sys2Proof.Machine.execEnq c it s
  | .dlyInsert c it => Sys2Proof.Machine.execDlyInsert c it s
  | .enqUnblock t => Sys2Proof.Machine.execEnqUnblock t s
  | .gateRecordWaitEnd t => Sys2Proof.Machine.execGateRecordWaitEnd t s
  | .add t f => Sys2Proof.Machine.execAdd t f s
  | .sub t f => Sys2Proof.Machine.execSub t f s
  | .and t f => Sys2Proof.Machine.execAnd t f s
  | .or t f => Sys2Proof.Machine.execOr t f s
  | .xor t f => Sys2Proof.Machine.execXor t f s
  | .shl t f => Sys2Proof.Machine.execShl t f s
  | .shr t f => Sys2Proof.Machine.execShr t f s
  | .sar t f => Sys2Proof.Machine.execSar t f s
  | .rol t f => Sys2Proof.Machine.execRol t f s
  | .ror t f => Sys2Proof.Machine.execRor t f s
  | .mul t f => Sys2Proof.Machine.execMul t f s
  | .mulhu t f => Sys2Proof.Machine.execMulhu t f s
  | .mulhs t f => Sys2Proof.Machine.execMulhs t f s
  | .min t f => Sys2Proof.Machine.execMin t f s
  | .max t f => Sys2Proof.Machine.execMax t f s
  | .minu t f => Sys2Proof.Machine.execMinu t f s
  | .maxu t f => Sys2Proof.Machine.execMaxu t f s
  | .slt t f => Sys2Proof.Machine.execSlt t f s
  | .sltu t f => Sys2Proof.Machine.execSltu t f s
  | .clz t f => Sys2Proof.Machine.execClz t f s
  | .popc t f => Sys2Proof.Machine.execPopc t f s
  | .bswap t f => Sys2Proof.Machine.execBswap t f s
  | .csum t f => Sys2Proof.Machine.execCsum t f s
  | .csumf t f => Sys2Proof.Machine.execCsumf t f s
  | .ext t f => Sys2Proof.Machine.execExt t f s
  | .ins t f => Sys2Proof.Machine.execIns t f s
  | .addc t f => Sys2Proof.Machine.execAddc t f s
  | .subb t f => Sys2Proof.Machine.execSubb t f s
  | .sel t f => Sys2Proof.Machine.execSel t f s
  | .addi t f => Sys2Proof.Machine.execAddi t f s
  | .andi t f => Sys2Proof.Machine.execAndi t f s
  | .ori t f => Sys2Proof.Machine.execOri t f s
  | .xori t f => Sys2Proof.Machine.execXori t f s
  | .lui t f => Sys2Proof.Machine.execLui t f s
  | .shi t f => Sys2Proof.Machine.execShi t f s
  | .cmpi t f => Sys2Proof.Machine.execCmpi t f s
  | .ldB t f => Sys2Proof.Machine.execLdB t f s
  | .ldBs t f => Sys2Proof.Machine.execLdBs t f s
  | .ldH t f => Sys2Proof.Machine.execLdH t f s
  | .ldHs t f => Sys2Proof.Machine.execLdHs t f s
  | .ldW t f => Sys2Proof.Machine.execLdW t f s
  | .ldnH t f => Sys2Proof.Machine.execLdnH t f s
  | .ldnW t f => Sys2Proof.Machine.execLdnW t f s
  | .lda t f => Sys2Proof.Machine.execLda t f s
  | .stB t f => Sys2Proof.Machine.execStB t f s
  | .stH t f => Sys2Proof.Machine.execStH t f s
  | .stW t f => Sys2Proof.Machine.execStW t f s
  | .stnH t f => Sys2Proof.Machine.execStnH t f s
  | .stnW t f => Sys2Proof.Machine.execStnW t f s
  | .sta t f => Sys2Proof.Machine.execSta t f s
  | .csld t f => Sys2Proof.Machine.execCsld t f s
  | .beq t f => Sys2Proof.Machine.execBeq t f s
  | .bne t f => Sys2Proof.Machine.execBne t f s
  | .blt t f => Sys2Proof.Machine.execBlt t f s
  | .bge t f => Sys2Proof.Machine.execBge t f s
  | .bltu t f => Sys2Proof.Machine.execBltu t f s
  | .bgeu t f => Sys2Proof.Machine.execBgeu t f s
  | .bbS t f => Sys2Proof.Machine.execBbS t f s
  | .bbC t f => Sys2Proof.Machine.execBbC t f s
  | .jmp t f => Sys2Proof.Machine.execJmp t f s
  | .call t f => Sys2Proof.Machine.execCall t f s
  | .jr t f => Sys2Proof.Machine.execJr t f s
  | .jalr t f => Sys2Proof.Machine.execJalr t f s
  | .bset t f => Sys2Proof.Machine.execBset t f s
  | .bclr t f => Sys2Proof.Machine.execBclr t f s
  | .bnot t f => Sys2Proof.Machine.execBnot t f s
  | .btst t f => Sys2Proof.Machine.execBtst t f s
  | .btas t f => Sys2Proof.Machine.execBtas t f s
  | .btac t f => Sys2Proof.Machine.execBtac t f s
  | .bput t f => Sys2Proof.Machine.execBput t f s
  | .bget t f => Sys2Proof.Machine.execBget t f s
  | .macd t f => Sys2Proof.Machine.execMacd t f s
  | .mac t f => Sys2Proof.Machine.execMac t f s
  | .macu t f => Sys2Proof.Machine.execMacu t f s
  | .mfa t f => Sys2Proof.Machine.execMfa t f s
  | .mta t f => Sys2Proof.Machine.execMta t f s
  | .clra t f => Sys2Proof.Machine.execClra t f s
  | .crcb t f => Sys2Proof.Machine.execCrcb t f s
  | .crch t f => Sys2Proof.Machine.execCrch t f s
  | .crcw t f => Sys2Proof.Machine.execCrcw t f s
  | .lkp t f => Sys2Proof.Machine.execLkp t f s
  | .lkpw t f => Sys2Proof.Machine.execLkpw t f s
  | .lkw t f => Sys2Proof.Machine.execLkw t f s
  | .cld t f => Sys2Proof.Machine.execCld t f s
  | .cst t f => Sys2Proof.Machine.execCst t f s
  | .calloc t f => Sys2Proof.Machine.execCalloc t f s
  | .cref t f => Sys2Proof.Machine.execCref t f s
  | .cfree t f => Sys2Proof.Machine.execCfree t f s
  | .cellOpComplete t => Sys2Proof.Machine.execCellOpComplete t s
  | .get t f => Sys2Proof.Machine.execGet t f s
  | .enqInstruction t f => Sys2Proof.Machine.execEnqInstruction t f s
  | .enqNb t f => Sys2Proof.Machine.execEnqNb t f s
  | .enqd t f => Sys2Proof.Machine.execEnqd t f s
  | .enqdNb t f => Sys2Proof.Machine.execEnqdNb t f s
  | .emit t f => Sys2Proof.Machine.execEmit t f s
  | .emitk t f => Sys2Proof.Machine.execEmitk t f s
  | .drop t f => Sys2Proof.Machine.execDrop t f s
  | .aend t f => Sys2Proof.Machine.execAend t f s
  | .dly t f => Sys2Proof.Machine.execDly t f s
  | .wfrm t f => Sys2Proof.Machine.execWfrm t f s
  | .fla t f => Sys2Proof.Machine.execFla t f s
  | .flt t f => Sys2Proof.Machine.execFlt t f s
  | .flr t f => Sys2Proof.Machine.execFlr t f s
  | .fsa t f => Sys2Proof.Machine.execFsa t f s
  | .fst t f => Sys2Proof.Machine.execFst t f s
  | .fsr t f => Sys2Proof.Machine.execFsr t f s
  | .fwr t f => Sys2Proof.Machine.execFwr t f s
  | .fwc t f => Sys2Proof.Machine.execFwc t f s
  | .chsend t f => Sys2Proof.Machine.execChsend t f s
  | .chsendNb t f => Sys2Proof.Machine.execChsendNb t f s
  | .chrecv t f => Sys2Proof.Machine.execChrecv t f s
  | .chrecvNb t f => Sys2Proof.Machine.execChrecvNb t f s
  | .chsendUnblock t => Sys2Proof.Machine.execChsendUnblock t s
  | .chrecvUnblock t => Sys2Proof.Machine.execChrecvUnblock t s
  | .stw t f => Sys2Proof.Machine.execStw t f s
  | .stgm t f => Sys2Proof.Machine.execStgm t f s
  | .stgr t f => Sys2Proof.Machine.execStgr t f s
  | .chwatch t f => Sys2Proof.Machine.execChwatch t f s
  | .wait t f => Sys2Proof.Machine.execWait t f s
  | .waitt t f => Sys2Proof.Machine.execWaitt t f s
  | .tarm t f => Sys2Proof.Machine.execTarm t f s
  | .tdis t f => Sys2Proof.Machine.execTdis t f s
  | .sev t f => Sys2Proof.Machine.execSev t f s
  | .rdnt t f => Sys2Proof.Machine.execRdnt t f s
  | .timerCompareFire t edges => Sys2Proof.Machine.execTimerCompareFire t edges s
  | .dma t f => Sys2Proof.Machine.execDma t f s
  | .dmaComplete t data err => Sys2Proof.Machine.execDmaComplete t data err s
  | .mtc t f => Sys2Proof.Machine.execMtc t f s
  | .mfc t f => Sys2Proof.Machine.execMfc t f s
  | .lcq t f => Sys2Proof.Machine.execLcq t f s
  | .scq t f => Sys2Proof.Machine.execScq t f s
  | .cpwait t f => Sys2Proof.Machine.execCpwait t f s
  | .cpxCommit n u l => Sys2Proof.Machine.execCpxCommit n u l s
  | .cpxLock t f => Sys2Proof.Machine.execCpxLock t f s
  | .cpxUnlock t f => Sys2Proof.Machine.execCpxUnlock t f s
  | .cpxClr t f => Sys2Proof.Machine.execCpxClr t f s
  | .lstat t f => Sys2Proof.Machine.execLstat t f s
  | .cpxMov t f => Sys2Proof.Machine.execCpxMov t f s
  | .cpxXor t f => Sys2Proof.Machine.execCpxXor t f s
  | .gcmInit t f => Sys2Proof.Machine.execGcmInit t f s
  | .gcmAad t f => Sys2Proof.Machine.execGcmAad t f s
  | .gcmAadp t f => Sys2Proof.Machine.execGcmAadp t f s
  | .gcmEnc t f => Sys2Proof.Machine.execGcmEnc t f s
  | .gcmEncp t f => Sys2Proof.Machine.execGcmEncp t f s
  | .gcmDec t f => Sys2Proof.Machine.execGcmDec t f s
  | .gcmDecp t f => Sys2Proof.Machine.execGcmDecp t f s
  | .gcmTag t f => Sys2Proof.Machine.execGcmTag t f s
  | .gcmVerify t f => Sys2Proof.Machine.execGcmVerify t f s
  | .cmacInit t f => Sys2Proof.Machine.execCmacInit t f s
  | .cmacBlk t f => Sys2Proof.Machine.execCmacBlk t f s
  | .cmacLast t f => Sys2Proof.Machine.execCmacLast t f s
  | .keyld t f => Sys2Proof.Machine.execKeyld t f s
  | .keyclr t f => Sys2Proof.Machine.execKeyclr t f s
  | .sha256Init t f => Sys2Proof.Machine.execSha256Init t f s
  | .sha384Init t f => Sys2Proof.Machine.execSha384Init t f s
  | .shaUpd t f => Sys2Proof.Machine.execShaUpd t f s
  | .shaUpdp t f => Sys2Proof.Machine.execShaUpdp t f s
  | .sha256Final t f => Sys2Proof.Machine.execSha256Final t f s
  | .sha384Final t f => Sys2Proof.Machine.execSha384Final t f s
  | .crc32cInit t f => Sys2Proof.Machine.execCrc32cInit t f s
  | .crc64Init t f => Sys2Proof.Machine.execCrc64Init t f s
  | .crcUpd t f => Sys2Proof.Machine.execCrcUpd t f s
  | .crcUpdp t f => Sys2Proof.Machine.execCrcUpdp t f s
  | .crcFinal t f => Sys2Proof.Machine.execCrcFinal t f s
  | .crcSeed t f => Sys2Proof.Machine.execCrcSeed t f s
  | .feat t f => Sys2Proof.Machine.execFeat t f s
  | .cnt t f => Sys2Proof.Machine.execCnt t f s
  | .rdtid t f => Sys2Proof.Machine.execRdtid t f s
  | .trap t f => Sys2Proof.Machine.execTrap t f s
  | .brk t f => Sys2Proof.Machine.execBrk t f s
  | .icacheMissFill t => Sys2Proof.Machine.execIcacheMissFill t s
  | .icInv n => Sys2Proof.Machine.execIcInv n s
  | .icInvDone n => Sys2Proof.Machine.execIcInvDone n s
  | .clusterStart n => Sys2Proof.Machine.execClusterStart n s
  | .budgetExpire t edges => Sys2Proof.Machine.execBudgetExpire t edges s
  | .faultqPop n => Sys2Proof.Machine.execFaultqPop n s
  | .thrctlResume n idx => Sys2Proof.Machine.execThrctlResume n idx s
  | .thrctlSkip n idx => Sys2Proof.Machine.execThrctlSkip n idx s
  | .thrctlRedirect n idx pc => Sys2Proof.Machine.execThrctlRedirect n idx pc s
  | .thrctlDrop n idx => Sys2Proof.Machine.execThrctlDrop n idx s
  | .thrctlReset n idx => Sys2Proof.Machine.execThrctlReset n idx s
  | .thrctlStart n idx pc => Sys2Proof.Machine.execThrctlStart n idx pc s
  | .thrctlSignal n idx sev => Sys2Proof.Machine.execThrctlSignal n idx sev s
  | .supervisorChange n idx => Sys2Proof.Machine.execSupervisorChange n idx s
  | .channelDisable n c => Sys2Proof.Machine.execChannelDisable n c s
  | .deadlockDetect n w edges => Sys2Proof.Machine.execDeadlockDetect n w edges s
  | .frequencyStep n => Sys2Proof.Machine.execFrequencyStep n s
  | .clusterPark n => Sys2Proof.Machine.execClusterPark n s
  | .clusterUnpark n => Sys2Proof.Machine.execClusterUnpark n s
  | .laneFree n u l => Sys2Proof.Machine.execLaneFree n u l s
  | .laneClrErr n u l => Sys2Proof.Machine.execLaneClrErr n u l s
  | .keySlotCommit n k valid k256 => Sys2Proof.Machine.execKeySlotCommit n k valid k256 s
  | .cpxDisable n u => Sys2Proof.Machine.execCpxDisable n u s
  | .flintForceRelease w => Sys2Proof.Machine.execFlintForceRelease w s
  | .fltLockTry c => Sys2Proof.Machine.execFltLockTry c s
  | .fltLockRel c => Sys2Proof.Machine.execFltLockRel c s
  | .fltSemTry c => Sys2Proof.Machine.execFltSemTry c s
  | .fltSemRel c => Sys2Proof.Machine.execFltSemRel c s
  | .fltQuery c => Sys2Proof.Machine.execFltQuery c s
  | .egressStart p edges enters => Sys2Proof.Machine.execEgressStart p edges enters s
  | .pauseExpire p idx edges => Sys2Proof.Machine.execPauseExpire p idx edges s
  | .periodStart p edges => Sys2Proof.Machine.execPeriodStart p edges s
  | .slotBoundary p edges => Sys2Proof.Machine.execSlotBoundary p edges s
  | .prerollStart p edges => Sys2Proof.Machine.execPrerollStart p edges s
  | .swReq p => Sys2Proof.Machine.execSwReq p s
  | .calendarEnable p => Sys2Proof.Machine.execCalendarEnable p s
  | .calendarDisable p => Sys2Proof.Machine.execCalendarDisable p s
  | .calendarStop p edges => Sys2Proof.Machine.execCalendarStop p edges s
  | .dramRequest k burst wr line edges => Sys2Proof.Machine.execDramRequest k burst wr line edges s
  | .dramReadComplete c x => Sys2Proof.Machine.execDramReadComplete c x s
  | .dramWriteDrain c edges => Sys2Proof.Machine.execDramWriteDrain c edges s
  | .dramRefresh x => Sys2Proof.Machine.execDramRefresh x s
  | .mr4Poll c x => Sys2Proof.Machine.execMr4Poll c x s
  | .dramScrubRead => Sys2Proof.Machine.execDramScrubRead s
  | .modeRegisterWrite ch sub rank addr data => Sys2Proof.Machine.execModeRegisterWrite ch sub rank addr data s
  | .modeRegisterRead ch sub rank addr data => Sys2Proof.Machine.execModeRegisterRead ch sub rank addr data s
  | .rcdWrite ch sub rank addr data => Sys2Proof.Machine.execRcdWrite ch sub rank addr data s
  | .rcdRead ch sub rank addr data => Sys2Proof.Machine.execRcdRead ch sub rank addr data s
  | .mrwComplete v => Sys2Proof.Machine.execMrwComplete v s
  | .csTraining ch sub rank lo hi => Sys2Proof.Machine.execCsTraining ch sub rank lo hi s
  | .caTraining ch sub rank lo hi => Sys2Proof.Machine.execCaTraining ch sub rank lo hi s
  | .writeLevelling ch sub rank lo hi => Sys2Proof.Machine.execWriteLevelling ch sub rank lo hi s
  | .readStrobeGating ch sub rank lo hi => Sys2Proof.Machine.execReadStrobeGating ch sub rank lo hi s
  | .readDataEye ch sub rank lo hi => Sys2Proof.Machine.execReadDataEye ch sub rank lo hi s
  | .writeDataEye ch sub rank lo hi => Sys2Proof.Machine.execWriteDataEye ch sub rank lo hi s
  | .dqReferenceVoltage ch sub rank lo hi => Sys2Proof.Machine.execDqReferenceVoltage ch sub rank lo hi s
  | .caReferenceVoltage ch sub rank lo hi => Sys2Proof.Machine.execCaReferenceVoltage ch sub rank lo hi s
  | .trainingStepDone res => Sys2Proof.Machine.execTrainingStepDone res s
  | .initGo => Sys2Proof.Machine.execInitGo s
  | .initDone => Sys2Proof.Machine.execInitDone s
  | .drcEnable => Sys2Proof.Machine.execDrcEnable s
  | .drcDisable => Sys2Proof.Machine.execDrcDisable s
  | .drcEccRead c => Sys2Proof.Machine.execDrcEccRead c s
  | .drcEccAddrRead c => Sys2Proof.Machine.execDrcEccAddrRead c s
  | .icuRouteChoice idx => Sys2Proof.Machine.execIcuRouteChoice idx s
  | .icuDeliveryComplete idx => Sys2Proof.Machine.execIcuDeliveryComplete idx s
  | .icuClaim t idx => Sys2Proof.Machine.execIcuClaim t idx s
  | .icuPendSet j w => Sys2Proof.Machine.execIcuPendSet j w s
  | .icuPendClr j w => Sys2Proof.Machine.execIcuPendClr j w s
  | .icuMaskSet j w => Sys2Proof.Machine.execIcuMaskSet j w s
  | .icuMaskClr j w => Sys2Proof.Machine.execIcuMaskClr j w s
  | .swSet n w => Sys2Proof.Machine.execSwSet n w s
  | .mgtSleep => Sys2Proof.Machine.execMgtSleep s
  | .mgtWake edges => Sys2Proof.Machine.execMgtWake edges s
  | .nocBeatResend h again => Sys2Proof.Machine.execNocBeatResend h again s
  | .nocStuck h => Sys2Proof.Machine.execNocStuck h s
  | .onchipScrubRead => Sys2Proof.Machine.execOnchipScrubRead s
  | .einjArm target bts cluster mtch addr => Sys2Proof.Machine.execEinjArm target bts cluster mtch addr s
  | .powerOn cold strap => Sys2Proof.Machine.execPowerOn cold strap s
  | .brownOut => Sys2Proof.Machine.execBrownOut s
  | .resetNAssert => Sys2Proof.Machine.execResetNAssert s
  | .resetNRelease => Sys2Proof.Machine.execResetNRelease s
  | .perstAssert h => Sys2Proof.Machine.execPerstAssert h s
  | .perstRelease h => Sys2Proof.Machine.execPerstRelease h s
  | .softwareResetRequest w cl => Sys2Proof.Machine.execSoftwareResetRequest w cl s
  | .softwareResetRelease w cl => Sys2Proof.Machine.execSoftwareResetRelease w cl s
  | .resetPulseEnd edges => Sys2Proof.Machine.execResetPulseEnd edges s
  | .domainRelease edges => Sys2Proof.Machine.execDomainRelease edges s
  | .blockReset b => Sys2Proof.Machine.execBlockReset b s
  | .blockResetDone b => Sys2Proof.Machine.execBlockResetDone b s
  | .wdtKick key => Sys2Proof.Machine.execWdtKick key s
  | .wdtWarn edges => Sys2Proof.Machine.execWdtWarn edges s
  | .wdtExpire edges => Sys2Proof.Machine.execWdtExpire edges s
  | .clockFailure k => Sys2Proof.Machine.execClockFailure k s
  | .clockRecovery k => Sys2Proof.Machine.execClockRecovery k s
  | .thermalSample ts edges => Sys2Proof.Machine.execThermalSample ts edges s
  | .throttleStepDown n edges => Sys2Proof.Machine.execThrottleStepDown n edges s
  | .throttleStepUp n edges => Sys2Proof.Machine.execThrottleStepUp n edges s
  | .spiLoadComplete bs => Sys2Proof.Machine.execSpiLoadComplete bs s
  | .spiFlashTimeout => Sys2Proof.Machine.execSpiFlashTimeout s
  | .hostGo => Sys2Proof.Machine.execHostGo s
  | .imageVerifyComplete => Sys2Proof.Machine.execImageVerifyComplete s
  | .romWdtKick => Sys2Proof.Machine.execRomWdtKick s
  | .mgtFaultDone t => Sys2Proof.Machine.execMgtFaultDone t s
  | .mgtThrctlStart idx pc => Sys2Proof.Machine.execMgtThrctlStart idx pc s
  | .mgtThrctlReset idx => Sys2Proof.Machine.execMgtThrctlReset idx s
  | .mgtThrctlSignal idx sev => Sys2Proof.Machine.execMgtThrctlSignal idx sev s
  | .mgtMemwinAccess ofs wide wr => Sys2Proof.Machine.execMgtMemwinAccess ofs wide wr s
  | .tapExtest levels new => Sys2Proof.Machine.execTapExtest levels new s
  | .tapSamplePreload levels new => Sys2Proof.Machine.execTapSamplePreload levels new s
  | .tapBypass => Sys2Proof.Machine.execTapBypass s
  | .dbgacc w => Sys2Proof.Machine.execDbgacc w s
  | .dbgClaim jtag => Sys2Proof.Machine.execDbgClaim jtag s
  | .dbgRelease jtag => Sys2Proof.Machine.execDbgRelease jtag s
  | .chalGo jtag => Sys2Proof.Machine.execChalGo jtag s
  | .verifyGo jtag => Sys2Proof.Machine.execVerifyGo jtag s
  | .tokenVerifyDone => Sys2Proof.Machine.execTokenVerifyDone s
  | .challengeLockoutEnd edges => Sys2Proof.Machine.execChallengeLockoutEnd edges s
  | .relock jtag => Sys2Proof.Machine.execRelock jtag s
  | .dbgHalt jtag scope tid => Sys2Proof.Machine.execDbgHalt jtag scope tid s
  | .dbgResume jtag scope tid => Sys2Proof.Machine.execDbgResume jtag scope tid s
  | .dbgStep jtag scope tid => Sys2Proof.Machine.execDbgStep jtag scope tid s
  | .discardStage jtag scope tid => Sys2Proof.Machine.execDiscardStage jtag scope tid s
  | .dbgThreadReset jtag scope tid => Sys2Proof.Machine.execDbgThreadReset jtag scope tid s
  | .debugResetRequest jtag rst cl => Sys2Proof.Machine.execDebugResetRequest jtag rst cl s
  | .spiTransfer ctl => Sys2Proof.Machine.execSpiTransfer ctl s
  | .spiTransferDone bs => Sys2Proof.Machine.execSpiTransferDone bs s
  | .i2c1Transfer ctl => Sys2Proof.Machine.execI2c1Transfer ctl s
  | .i2c1TransferDone ack bs => Sys2Proof.Machine.execI2c1TransferDone ack bs s
  | .i2c0Transaction ofs n => Sys2Proof.Machine.execI2c0Transaction ofs n s
  | .registerPortLoadComplete k => Sys2Proof.Machine.execRegisterPortLoadComplete k s
  | .channelMessageArrival n c idx => Sys2Proof.Machine.execChannelMessageArrival n c idx s
  | .msixEnableChange f en mask => Sys2Proof.Machine.execMsixEnableChange f en mask s
  | .tapReset => Sys2Proof.Machine.execTapReset s

end Sys2Proof.Machine
end

