-- ==== Sys2Proof/Machine/Encoding.lean ====
section
/-!
DEFINITION. The words of the Garnet instructions (R303–R333): the thread and the word of a row, and the row of a word.
-/

namespace Sys2Proof.Machine

/-! ## Fields of a word (R303) -/

def decR (w : W32) : FmtR := ⟨w.extractLsb' 21 5, w.extractLsb' 16 5, w.extractLsb' 11 5, w.extractLsb' 0 5⟩
def decI (w : W32) : FmtI := ⟨w.extractLsb' 21 5, w.extractLsb' 16 5, w.extractLsb' 0 16⟩
def decU (w : W32) : FmtU := ⟨w.extractLsb' 21 5, w.extractLsb' 16 5, w.extractLsb' 11 5, w.extractLsb' 6 5⟩
def decUI (w : W32) : FmtUI := ⟨w.extractLsb' 21 5, w.extractLsb' 16 5, w.extractLsb' 6 10⟩
def decBR (w : W32) : FmtBR := ⟨w.extractLsb' 21 5, w.extractLsb' 16 5, w.extractLsb' 0 13⟩
def decBB (w : W32) : FmtBB := ⟨w.extractLsb' 12 13, w.extractLsb' 0 12⟩
def decJ (w : W32) : FmtJ := ⟨w.extractLsb' 0 26⟩
def decBT (w : W32) : FmtBT := ⟨w.extractLsb' 17 5, w.getLsbD 16, w.extractLsb' 13 3, w.extractLsb' 0 13⟩
def decMD (w : W32) : FmtMD :=
  ⟨w.extractLsb' 21 5, w.extractLsb' 16 5, w.getLsbD 15, w.extractLsb' 13 2, w.getLsbD 12, w.extractLsb' 6 6, w.extractLsb' 0 6⟩
def decX1 (w : W32) : FmtX1 := ⟨w.getLsbD 25, w.extractLsb' 21 4, w.extractLsb' 17 4, w.extractLsb' 13 4, w.extractLsb' 9 4⟩
def decX2 (w : W32) : FmtX2 := ⟨w.getLsbD 25, w.extractLsb' 21 4, w.extractLsb' 17 4, w.extractLsb' 12 5, w.extractLsb' 10 2, w.extractLsb' 0 7⟩
def decX3 (w : W32) : FmtX3 := ⟨w.getLsbD 25, w.extractLsb' 21 4, w.extractLsb' 17 4, w.extractLsb' 12 5, w.extractLsb' 9 3, w.extractLsb' 0 6⟩
def decX4 (w : W32) : FmtX4 := ⟨w.getLsbD 25, w.extractLsb' 21 4, w.extractLsb' 9 12, w.extractLsb' 0 7⟩

/-! ## The row of a word (R304) -/

/-- OP 0x00 by FN (R305). -/
def decAlu (t : BitVec 14) (w : W32) : Option Instr :=
  match (w.extractLsb' 5 6).toNat with
  | 0 => some (.add t (decR w))
  | 1 => some (.sub t (decR w))
  | 2 => some (.and t (decR w))
  | 3 => some (.or t (decR w))
  | 4 => some (.xor t (decR w))
  | 5 => some (.shl t (decR w))
  | 6 => some (.shr t (decR w))
  | 7 => some (.sar t (decR w))
  | 8 => some (.rol t (decR w))
  | 9 => some (.ror t (decR w))
  | 10 => some (.mul t (decR w))
  | 11 => some (.mulhu t (decR w))
  | 12 => some (.mulhs t (decR w))
  | 13 => some (.min t (decR w))
  | 14 => some (.max t (decR w))
  | 15 => some (.minu t (decR w))
  | 16 => some (.maxu t (decR w))
  | 18 => some (.slt t (decR w))
  | 19 => some (.sltu t (decR w))
  | 20 => some (.clz t (decR w))
  | 21 => some (.popc t (decR w))
  | 22 => some (.bswap t (decR w))
  | 23 => some (.csum t (decR w))
  | 24 => some (.csumf t (decR w))
  | 25 => some (.ext t (decR w))
  | 26 => some (.ins t (decR w))
  | 27 => some (.addc t (decR w))
  | 28 => some (.subb t (decR w))
  | 29 => some (.sel t (decR w))
  | _ => none

/-- OP 0x18 by COND (R308). -/
def decBranch (t : BitVec 14) (w : W32) : Option Instr :=
  match (w.extractLsb' 13 3).toNat with
  | 0 => some (.beq t (decBR w))
  | 1 => some (.bne t (decBR w))
  | 2 => some (.blt t (decBR w))
  | 3 => some (.bge t (decBR w))
  | 4 => some (.bltu t (decBR w))
  | 5 => some (.bgeu t (decBR w))
  | _ => none

/-- OP 0x1C by FN (R308). -/
def decJumpReg (t : BitVec 14) (w : W32) : Option Instr :=
  match (w.extractLsb' 5 6).toNat with
  | 0 => some (.jr t (decR w))
  | 1 => some (.jalr t (decR w))
  | _ => none

/-- OP 0x1D by FN (R309). -/
def decBit (t : BitVec 14) (w : W32) : Option Instr :=
  match (w.extractLsb' 22 4).toNat with
  | 0 => some (.bset t (decBT w))
  | 1 => some (.bclr t (decBT w))
  | 2 => some (.bnot t (decBT w))
  | 3 => some (.btst t (decBT w))
  | 4 => some (.btas t (decBT w))
  | 5 => some (.btac t (decBT w))
  | 6 => some (.bput t (decBT w))
  | 7 => some (.bget t (decBT w))
  | _ => none

/-- OP 0x1F by FN (R311). -/
def decAcc (t : BitVec 14) (w : W32) : Option Instr :=
  match (w.extractLsb' 5 6).toNat with
  | 0 => some (.mac t (decR w))
  | 1 => some (.macu t (decR w))
  | 2 => some (.mfa t (decR w))
  | 3 => some (.mta t (decR w))
  | 4 => some (.clra t (decR w))
  | _ => none

/-- OP 0x20 by FN (R313). -/
def decLookup (t : BitVec 14) (w : W32) : Option Instr :=
  match (w.extractLsb' 0 6).toNat with
  | 0 => some (.lkp t (decU w))
  | 1 => some (.lkpw t (decU w))
  | 2 => some (.lkw t (decUI w))
  | _ => none

/-- OP 0x21 by FN. -/
def decCell (t : BitVec 14) (w : W32) : Option Instr :=
  match (w.extractLsb' 0 6).toNat with
  | 0 => some (.cld t (decU w))
  | 1 => some (.cst t (decU w))
  | 2 => some (.calloc t (decU w))
  | 3 => some (.cref t (decU w))
  | 4 => some (.cfree t (decU w))
  | _ => none

/-- OP 0x22 by FN. -/
def decItem (t : BitVec 14) (w : W32) : Option Instr :=
  match (w.extractLsb' 0 6).toNat with
  | 0 => some (.get t (decUI w))
  | 1 => some (.enqInstruction t (decU w))
  | 2 => some (.enqNb t (decU w))
  | 3 => some (.enqd t (decU w))
  | 4 => some (.enqdNb t (decU w))
  | 5 => some (.emit t (decU w))
  | 6 => some (.emitk t (decU w))
  | 7 => some (.drop t (decU w))
  | 8 => some (.aend t (decU w))
  | 9 => some (.dly t (decU w))
  | 10 => some (.wfrm t (decU w))
  | _ => none

/-- OP 0x23 by FN. -/
def decFlint (t : BitVec 14) (w : W32) : Option Instr :=
  match (w.extractLsb' 0 6).toNat with
  | 0 => some (.fla t (decU w))
  | 1 => some (.flt t (decU w))
  | 2 => some (.flr t (decU w))
  | 3 => some (.fsa t (decU w))
  | 4 => some (.fst t (decU w))
  | 5 => some (.fsr t (decU w))
  | 6 => some (.fwr t (decU w))
  | 7 => some (.fwc t (decU w))
  | _ => none

/-- OP 0x24 by FN. -/
def decChannel (t : BitVec 14) (w : W32) : Option Instr :=
  match (w.extractLsb' 0 6).toNat with
  | 0 => some (.chsend t (decU w))
  | 1 => some (.chsendNb t (decU w))
  | 2 => some (.chrecv t (decU w))
  | 3 => some (.chrecvNb t (decU w))
  | 4 => some (.stw t (decUI w))
  | 5 => some (.stgm t (decUI w))
  | 6 => some (.stgr t (decUI w))
  | 7 => some (.chwatch t (decU w))
  | _ => none

/-- OP 0x25 by FN. -/
def decEvent (t : BitVec 14) (w : W32) : Option Instr :=
  match (w.extractLsb' 0 6).toNat with
  | 0 => some (.wait t (decU w))
  | 1 => some (.waitt t (decU w))
  | 2 => some (.tarm t (decU w))
  | 3 => some (.tdis t (decU w))
  | 4 => some (.sev t (decU w))
  | 5 => some (.rdnt t (decU w))
  | _ => none

/-- OP 0x26 by FN (R329). -/
def decDma (t : BitVec 14) (w : W32) : Option Instr :=
  match (w.extractLsb' 0 6).toNat with
  | 0 => some (.dma t (decU w))
  | _ => none

/-- OP 0x28 by FN. -/
def decSys (t : BitVec 14) (w : W32) : Option Instr :=
  match (w.extractLsb' 0 6).toNat with
  | 0 => some (.feat t (decUI w))
  | 1 => some (.cnt t (decU w))
  | 2 => some (.rdtid t (decU w))
  | 3 => some (.trap t (decUI w))
  | 4 => some (.brk t (decU w))
  | _ => none

/-- OP 0x29 by FN (R312). -/
def decCrc (t : BitVec 14) (w : W32) : Option Instr :=
  match (w.extractLsb' 5 6).toNat with
  | 0 => some (.crcb t (decR w))
  | 1 => some (.crch t (decR w))
  | 2 => some (.crcw t (decR w))
  | _ => none

/-- `cpop` by COP (R351, R352, R355). -/
def decCpop (t : BitVec 14) (w : W32) : Option Instr :=
  match (w.extractLsb' 0 7).toNat with
  | 0x00 => some (.cpxLock t (decX1 w))
  | 0x01 => some (.cpxUnlock t (decX1 w))
  | 0x02 => some (.cpxClr t (decX1 w))
  | 0x03 => some (.lstat t (decX1 w))
  | 0x04 => some (.cpxMov t (decX1 w))
  | 0x05 => some (.cpxXor t (decX1 w))
  | 0x10 => some (.gcmInit t (decX1 w))
  | 0x11 => some (.gcmAad t (decX1 w))
  | 0x12 => some (.gcmAadp t (decX1 w))
  | 0x13 => some (.gcmEnc t (decX1 w))
  | 0x14 => some (.gcmEncp t (decX1 w))
  | 0x15 => some (.gcmDec t (decX1 w))
  | 0x16 => some (.gcmDecp t (decX1 w))
  | 0x17 => some (.gcmTag t (decX1 w))
  | 0x18 => some (.gcmVerify t (decX1 w))
  | 0x20 => some (.cmacInit t (decX1 w))
  | 0x21 => some (.cmacBlk t (decX1 w))
  | 0x22 => some (.cmacLast t (decX1 w))
  | 0x30 => some (.keyld t (decX1 w))
  | 0x31 => some (.keyclr t (decX1 w))
  | 0x40 => some (.sha256Init t (decX1 w))
  | 0x41 => some (.sha384Init t (decX1 w))
  | 0x42 => some (.shaUpd t (decX1 w))
  | 0x43 => some (.shaUpdp t (decX1 w))
  | 0x44 => some (.sha256Final t (decX1 w))
  | 0x45 => some (.sha384Final t (decX1 w))
  | 0x50 => some (.crc32cInit t (decX1 w))
  | 0x51 => some (.crc64Init t (decX1 w))
  | 0x52 => some (.crcUpd t (decX1 w))
  | 0x53 => some (.crcUpdp t (decX1 w))
  | 0x54 => some (.crcFinal t (decX1 w))
  | 0x55 => some (.crcSeed t (decX1 w))
  | _ => none

/-- OP 0x27 by KIND in [8:7] and, for moves, their direction bit (R331). -/
def decCpx (t : BitVec 14) (w : W32) : Option Instr :=
  match (w.extractLsb' 7 2).toNat with
  | 0 => decCpop t w
  | 1 => some (if w.getLsbD 9 then .mfc t (decX2 w) else .mtc t (decX2 w))
  | 2 => some (if w.getLsbD 6 then .scq t (decX3 w) else .lcq t (decX3 w))
  | _ => some (.cpwait t (decX4 w))

/-- The row that thread `t` runs on word `w`. -/
def isaDecode (t : BitVec 14) (w : W32) : Option Instr :=
  match (w.extractLsb' 26 6).toNat with
  | 0x00 => decAlu t w
  | 0x01 => some (.addi t (decI w))
  | 0x02 => some (.andi t (decI w))
  | 0x03 => some (.ori t (decI w))
  | 0x04 => some (.xori t (decI w))
  | 0x05 => some (.lui t (decI w))
  | 0x06 => some (.shi t (decI w))
  | 0x07 => some (.cmpi t (decI w))
  | 0x08 => some (.ldB t (decI w))
  | 0x09 => some (.ldBs t (decI w))
  | 0x0A => some (.ldH t (decI w))
  | 0x0B => some (.ldHs t (decI w))
  | 0x0C => some (.ldW t (decI w))
  | 0x0D => some (.ldnH t (decI w))
  | 0x0E => some (.ldnW t (decI w))
  | 0x0F => some (.lda t (decI w))
  | 0x10 => some (.stB t (decI w))
  | 0x11 => some (.stH t (decI w))
  | 0x12 => some (.stW t (decI w))
  | 0x13 => some (.stnH t (decI w))
  | 0x14 => some (.stnW t (decI w))
  | 0x15 => some (.sta t (decI w))
  | 0x16 => some (.csld t (decI w))
  | 0x18 => decBranch t w
  | 0x19 => some (if w.getLsbD 25 then .bbS t (decBB w) else .bbC t (decBB w))
  | 0x1A => some (.jmp t (decJ w))
  | 0x1B => some (.call t (decJ w))
  | 0x1C => decJumpReg t w
  | 0x1D => decBit t w
  | 0x1E => some (.macd t (decMD w))
  | 0x1F => decAcc t w
  | 0x20 => decLookup t w
  | 0x21 => decCell t w
  | 0x22 => decItem t w
  | 0x23 => decFlint t w
  | 0x24 => decChannel t w
  | 0x25 => decEvent t w
  | 0x26 => decDma t w
  | 0x27 => decCpx t w
  | 0x28 => decSys t w
  | 0x29 => decCrc t w
  | _ => none

/-! ## The word of a row -/

/-- The thread that a row is for and the word that it runs on; none for a row that is no instruction. -/
def isaWord : Instr → Option (BitVec 14 × W32)
  | .registerWrite .. => none
  | .resourceDrainComplete .. => none
  | .timIncrWrite .. => none
  | .timNtLowRead => none
  | .adjSet => none
  | .adjStep => none
  | .adjSlew => none
  | .adjAbort => none
  | .setStepApply => none
  | .slewComplete => none
  | .holdReq => none
  | .holdExit => none
  | .holdTimeoutIncr .. => none
  | .holdTimeoutPps .. => none
  | .ppsInEdge .. => none
  | .calSyncInEdge .. => none
  | .ppsOutPulse .. => none
  | .ppsOutPulseEnd .. => none
  | .timeCompareFire .. => none
  | .timeComparePulseEnd .. => none
  | .txtsMetaRead .. => none
  | .epochArm => none
  | .epochDisarm => none
  | .epochAtWrite .. => none
  | .epochFlip .. => none
  | .cntDump .. => none
  | .cntDumpComplete .. => none
  | .rxFrame .. => none
  | .pauseRefresh .. => none
  | .frameTxComplete .. => none
  | .phyEnSet .. => none
  | .phyEnClear .. => none
  | .portEnSet .. => none
  | .portEnClear .. => none
  | .signalDetect .. => none
  | .trainComplete .. => none
  | .trainTimeout .. => none
  | .alignDone .. => none
  | .signalLoss .. => none
  | .linkFault .. => none
  | .linkFaultClear .. => none
  | .quadModeWrite .. => none
  | .eyeMeasureGo .. => none
  | .eyeMeasureDone .. => none
  | .prbsEnable .. => none
  | .prbsCheckerLock .. => none
  | .doorbellTx .. => none
  | .doorbellRx .. => none
  | .doorbellCq .. => none
  | .doorbellControl .. => none
  | .doorbellEventLog .. => none
  | .ringEnable .. => none
  | .ringDisable .. => none
  | .txPacketFetch .. => none
  | .txPacketComplete .. => none
  | .dmaReadError .. => none
  | .rxPacketDeliver .. => none
  | .cqModerationTimeout .. => none
  | .msixPendingSend .. => none
  | .nop .. => none
  | .pf0ReadyWrite .. => none
  | .functionLevelReset .. => none
  | .flrComplete .. => none
  | .vfDisable .. => none
  | .vfEnable .. => none
  | .busMasterEnableChange .. => none
  | .d3hotChange .. => none
  | .pcieLinkUp .. => none
  | .pcieLinkDown .. => none
  | .cellAlloc .. => none
  | .chainFree .. => none
  | .cellRead .. => none
  | .poolEnable .. => none
  | .poolDisable .. => none
  | .chainSweep .. => none
  | .crnReqPeakRead .. => none
  | .parsePacket => none
  | .parserEnable => none
  | .parserDisable => none
  | .graphReq => none
  | .clsReq => none
  | .graphSwitch => none
  | .classifierSwitch => none
  | .lookupComplete .. => none
  | .tableEnable .. => none
  | .tableInitComplete .. => none
  | .tableDisable .. => none
  | .fcFlush => none
  | .fcFlushDone => none
  | .fcInvalidateTableDone .. => none
  | .learnRequest => none
  | .moveWindowClose .. => none
  | .ageingPassStart .. => none
  | .ageingVisit .. => none
  | .tblInsert .. => none
  | .tblUpdate .. => none
  | .tblDelete .. => none
  | .tblSearch .. => none
  | .tblNext .. => none
  | .tblFlush .. => none
  | .flushVisit .. => none
  | .tblFlushComplete .. => none
  | .tblCursorClose .. => none
  | .tblLocClear .. => none
  | .cursorTimeout .. => none
  | .dispatch .. => none
  | .spillRefill => none
  | .tagSkip .. => none
  | .queueDisable .. => none
  | .purge .. => none
  | .purgeComplete .. => none
  | .groupMembershipWrite .. => none
  | .orreryDisable => none
  | .delayTick .. => none
  | .delayListDisable .. => none
  | .delayAreaDisable => none
  | .enq .. => none
  | .dlyInsert .. => none
  | .enqUnblock .. => none
  | .gateRecordWaitEnd .. => none
  | .add t f => some (t, wordR 0x00 0 f)
  | .sub t f => some (t, wordR 0x00 1 f)
  | .and t f => some (t, wordR 0x00 2 f)
  | .or t f => some (t, wordR 0x00 3 f)
  | .xor t f => some (t, wordR 0x00 4 f)
  | .shl t f => some (t, wordR 0x00 5 f)
  | .shr t f => some (t, wordR 0x00 6 f)
  | .sar t f => some (t, wordR 0x00 7 f)
  | .rol t f => some (t, wordR 0x00 8 f)
  | .ror t f => some (t, wordR 0x00 9 f)
  | .mul t f => some (t, wordR 0x00 10 f)
  | .mulhu t f => some (t, wordR 0x00 11 f)
  | .mulhs t f => some (t, wordR 0x00 12 f)
  | .min t f => some (t, wordR 0x00 13 f)
  | .max t f => some (t, wordR 0x00 14 f)
  | .minu t f => some (t, wordR 0x00 15 f)
  | .maxu t f => some (t, wordR 0x00 16 f)
  | .slt t f => some (t, wordR 0x00 18 f)
  | .sltu t f => some (t, wordR 0x00 19 f)
  | .clz t f => some (t, wordR 0x00 20 f)
  | .popc t f => some (t, wordR 0x00 21 f)
  | .bswap t f => some (t, wordR 0x00 22 f)
  | .csum t f => some (t, wordR 0x00 23 f)
  | .csumf t f => some (t, wordR 0x00 24 f)
  | .ext t f => some (t, wordR 0x00 25 f)
  | .ins t f => some (t, wordR 0x00 26 f)
  | .addc t f => some (t, wordR 0x00 27 f)
  | .subb t f => some (t, wordR 0x00 28 f)
  | .sel t f => some (t, wordR 0x00 29 f)
  | .addi t f => some (t, wordI 0x01 f)
  | .andi t f => some (t, wordI 0x02 f)
  | .ori t f => some (t, wordI 0x03 f)
  | .xori t f => some (t, wordI 0x04 f)
  | .lui t f => some (t, wordI 0x05 f)
  | .shi t f => some (t, wordI 0x06 f)
  | .cmpi t f => some (t, wordI 0x07 f)
  | .ldB t f => some (t, wordI 0x08 f)
  | .ldBs t f => some (t, wordI 0x09 f)
  | .ldH t f => some (t, wordI 0x0A f)
  | .ldHs t f => some (t, wordI 0x0B f)
  | .ldW t f => some (t, wordI 0x0C f)
  | .ldnH t f => some (t, wordI 0x0D f)
  | .ldnW t f => some (t, wordI 0x0E f)
  | .lda t f => some (t, wordI 0x0F f)
  | .stB t f => some (t, wordI 0x10 f)
  | .stH t f => some (t, wordI 0x11 f)
  | .stW t f => some (t, wordI 0x12 f)
  | .stnH t f => some (t, wordI 0x13 f)
  | .stnW t f => some (t, wordI 0x14 f)
  | .sta t f => some (t, wordI 0x15 f)
  | .csld t f => some (t, wordI 0x16 f)
  | .beq t f => some (t, wordBR 0x18 0 f)
  | .bne t f => some (t, wordBR 0x18 1 f)
  | .blt t f => some (t, wordBR 0x18 2 f)
  | .bge t f => some (t, wordBR 0x18 3 f)
  | .bltu t f => some (t, wordBR 0x18 4 f)
  | .bgeu t f => some (t, wordBR 0x18 5 f)
  | .bbS t f => some (t, wordBB 0x19 true f)
  | .bbC t f => some (t, wordBB 0x19 false f)
  | .jmp t f => some (t, wordJ 0x1A f)
  | .call t f => some (t, wordJ 0x1B f)
  | .jr t f => some (t, wordR 0x1C 0 f)
  | .jalr t f => some (t, wordR 0x1C 1 f)
  | .bset t f => some (t, wordBT 0x1D 0 f)
  | .bclr t f => some (t, wordBT 0x1D 1 f)
  | .bnot t f => some (t, wordBT 0x1D 2 f)
  | .btst t f => some (t, wordBT 0x1D 3 f)
  | .btas t f => some (t, wordBT 0x1D 4 f)
  | .btac t f => some (t, wordBT 0x1D 5 f)
  | .bput t f => some (t, wordBT 0x1D 6 f)
  | .bget t f => some (t, wordBT 0x1D 7 f)
  | .macd t f => some (t, wordMD 0x1E f)
  | .mac t f => some (t, wordR 0x1F 0 f)
  | .macu t f => some (t, wordR 0x1F 1 f)
  | .mfa t f => some (t, wordR 0x1F 2 f)
  | .mta t f => some (t, wordR 0x1F 3 f)
  | .clra t f => some (t, wordR 0x1F 4 f)
  | .crcb t f => some (t, wordR 0x29 0 f)
  | .crch t f => some (t, wordR 0x29 1 f)
  | .crcw t f => some (t, wordR 0x29 2 f)
  | .lkp t f => some (t, wordU 0x20 0 f)
  | .lkpw t f => some (t, wordU 0x20 1 f)
  | .lkw t f => some (t, wordUI 0x20 2 f)
  | .cld t f => some (t, wordU 0x21 0 f)
  | .cst t f => some (t, wordU 0x21 1 f)
  | .calloc t f => some (t, wordU 0x21 2 f)
  | .cref t f => some (t, wordU 0x21 3 f)
  | .cfree t f => some (t, wordU 0x21 4 f)
  | .cellOpComplete .. => none
  | .get t f => some (t, wordUI 0x22 0 f)
  | .enqInstruction t f => some (t, wordU 0x22 1 f)
  | .enqNb t f => some (t, wordU 0x22 2 f)
  | .enqd t f => some (t, wordU 0x22 3 f)
  | .enqdNb t f => some (t, wordU 0x22 4 f)
  | .emit t f => some (t, wordU 0x22 5 f)
  | .emitk t f => some (t, wordU 0x22 6 f)
  | .drop t f => some (t, wordU 0x22 7 f)
  | .aend t f => some (t, wordU 0x22 8 f)
  | .dly t f => some (t, wordU 0x22 9 f)
  | .wfrm t f => some (t, wordU 0x22 10 f)
  | .fla t f => some (t, wordU 0x23 0 f)
  | .flt t f => some (t, wordU 0x23 1 f)
  | .flr t f => some (t, wordU 0x23 2 f)
  | .fsa t f => some (t, wordU 0x23 3 f)
  | .fst t f => some (t, wordU 0x23 4 f)
  | .fsr t f => some (t, wordU 0x23 5 f)
  | .fwr t f => some (t, wordU 0x23 6 f)
  | .fwc t f => some (t, wordU 0x23 7 f)
  | .chsend t f => some (t, wordU 0x24 0 f)
  | .chsendNb t f => some (t, wordU 0x24 1 f)
  | .chrecv t f => some (t, wordU 0x24 2 f)
  | .chrecvNb t f => some (t, wordU 0x24 3 f)
  | .chsendUnblock .. => none
  | .chrecvUnblock .. => none
  | .stw t f => some (t, wordUI 0x24 4 f)
  | .stgm t f => some (t, wordUI 0x24 5 f)
  | .stgr t f => some (t, wordUI 0x24 6 f)
  | .chwatch t f => some (t, wordU 0x24 7 f)
  | .wait t f => some (t, wordU 0x25 0 f)
  | .waitt t f => some (t, wordU 0x25 1 f)
  | .tarm t f => some (t, wordU 0x25 2 f)
  | .tdis t f => some (t, wordU 0x25 3 f)
  | .sev t f => some (t, wordU 0x25 4 f)
  | .rdnt t f => some (t, wordU 0x25 5 f)
  | .timerCompareFire .. => none
  | .dma t f => some (t, wordU 0x26 0 f)
  | .dmaComplete .. => none
  | .mtc t f => some (t, wordX2 0x27 false f)
  | .mfc t f => some (t, wordX2 0x27 true f)
  | .lcq t f => some (t, wordX3 0x27 false f)
  | .scq t f => some (t, wordX3 0x27 true f)
  | .cpwait t f => some (t, wordX4 0x27 f)
  | .cpxCommit .. => none
  | .cpxLock t f => some (t, wordX1 0x27 0x00 f)
  | .cpxUnlock t f => some (t, wordX1 0x27 0x01 f)
  | .cpxClr t f => some (t, wordX1 0x27 0x02 f)
  | .lstat t f => some (t, wordX1 0x27 0x03 f)
  | .cpxMov t f => some (t, wordX1 0x27 0x04 f)
  | .cpxXor t f => some (t, wordX1 0x27 0x05 f)
  | .gcmInit t f => some (t, wordX1 0x27 0x10 f)
  | .gcmAad t f => some (t, wordX1 0x27 0x11 f)
  | .gcmAadp t f => some (t, wordX1 0x27 0x12 f)
  | .gcmEnc t f => some (t, wordX1 0x27 0x13 f)
  | .gcmEncp t f => some (t, wordX1 0x27 0x14 f)
  | .gcmDec t f => some (t, wordX1 0x27 0x15 f)
  | .gcmDecp t f => some (t, wordX1 0x27 0x16 f)
  | .gcmTag t f => some (t, wordX1 0x27 0x17 f)
  | .gcmVerify t f => some (t, wordX1 0x27 0x18 f)
  | .cmacInit t f => some (t, wordX1 0x27 0x20 f)
  | .cmacBlk t f => some (t, wordX1 0x27 0x21 f)
  | .cmacLast t f => some (t, wordX1 0x27 0x22 f)
  | .keyld t f => some (t, wordX1 0x27 0x30 f)
  | .keyclr t f => some (t, wordX1 0x27 0x31 f)
  | .sha256Init t f => some (t, wordX1 0x27 0x40 f)
  | .sha384Init t f => some (t, wordX1 0x27 0x41 f)
  | .shaUpd t f => some (t, wordX1 0x27 0x42 f)
  | .shaUpdp t f => some (t, wordX1 0x27 0x43 f)
  | .sha256Final t f => some (t, wordX1 0x27 0x44 f)
  | .sha384Final t f => some (t, wordX1 0x27 0x45 f)
  | .crc32cInit t f => some (t, wordX1 0x27 0x50 f)
  | .crc64Init t f => some (t, wordX1 0x27 0x51 f)
  | .crcUpd t f => some (t, wordX1 0x27 0x52 f)
  | .crcUpdp t f => some (t, wordX1 0x27 0x53 f)
  | .crcFinal t f => some (t, wordX1 0x27 0x54 f)
  | .crcSeed t f => some (t, wordX1 0x27 0x55 f)
  | .feat t f => some (t, wordUI 0x28 0 f)
  | .cnt t f => some (t, wordU 0x28 1 f)
  | .rdtid t f => some (t, wordU 0x28 2 f)
  | .trap t f => some (t, wordUI 0x28 3 f)
  | .brk t f => some (t, wordU 0x28 4 f)
  | .icacheMissFill .. => none
  | .icInv .. => none
  | .icInvDone .. => none
  | .clusterStart .. => none
  | .budgetExpire .. => none
  | .faultqPop .. => none
  | .thrctlResume .. => none
  | .thrctlSkip .. => none
  | .thrctlRedirect .. => none
  | .thrctlDrop .. => none
  | .thrctlReset .. => none
  | .thrctlStart .. => none
  | .thrctlSignal .. => none
  | .supervisorChange .. => none
  | .channelDisable .. => none
  | .deadlockDetect .. => none
  | .frequencyStep .. => none
  | .clusterPark .. => none
  | .clusterUnpark .. => none
  | .laneFree .. => none
  | .laneClrErr .. => none
  | .keySlotCommit .. => none
  | .cpxDisable .. => none
  | .flintForceRelease .. => none
  | .fltLockTry .. => none
  | .fltLockRel .. => none
  | .fltSemTry .. => none
  | .fltSemRel .. => none
  | .fltQuery .. => none
  | .egressStart .. => none
  | .pauseExpire .. => none
  | .periodStart .. => none
  | .slotBoundary .. => none
  | .prerollStart .. => none
  | .swReq .. => none
  | .calendarEnable .. => none
  | .calendarDisable .. => none
  | .calendarStop .. => none
  | .dramRequest .. => none
  | .dramReadComplete .. => none
  | .dramWriteDrain .. => none
  | .dramRefresh .. => none
  | .mr4Poll .. => none
  | .dramScrubRead .. => none
  | .modeRegisterWrite .. => none
  | .modeRegisterRead .. => none
  | .rcdWrite .. => none
  | .rcdRead .. => none
  | .mrwComplete .. => none
  | .csTraining .. => none
  | .caTraining .. => none
  | .writeLevelling .. => none
  | .readStrobeGating .. => none
  | .readDataEye .. => none
  | .writeDataEye .. => none
  | .dqReferenceVoltage .. => none
  | .caReferenceVoltage .. => none
  | .trainingStepDone .. => none
  | .initGo => none
  | .initDone => none
  | .drcEnable => none
  | .drcDisable => none
  | .drcEccRead .. => none
  | .drcEccAddrRead .. => none
  | .icuRouteChoice .. => none
  | .icuDeliveryComplete .. => none
  | .icuClaim .. => none
  | .icuPendSet .. => none
  | .icuPendClr .. => none
  | .icuMaskSet .. => none
  | .icuMaskClr .. => none
  | .swSet .. => none
  | .mgtSleep => none
  | .mgtWake .. => none
  | .nocBeatResend .. => none
  | .nocStuck .. => none
  | .onchipScrubRead => none
  | .einjArm .. => none
  | .powerOn .. => none
  | .brownOut => none
  | .resetNAssert => none
  | .resetNRelease => none
  | .perstAssert .. => none
  | .perstRelease .. => none
  | .softwareResetRequest .. => none
  | .softwareResetRelease .. => none
  | .resetPulseEnd .. => none
  | .domainRelease .. => none
  | .blockReset .. => none
  | .blockResetDone .. => none
  | .wdtKick .. => none
  | .wdtWarn .. => none
  | .wdtExpire .. => none
  | .clockFailure .. => none
  | .clockRecovery .. => none
  | .thermalSample .. => none
  | .throttleStepDown .. => none
  | .throttleStepUp .. => none
  | .spiLoadComplete .. => none
  | .spiFlashTimeout => none
  | .hostGo => none
  | .imageVerifyComplete => none
  | .romWdtKick => none
  | .mgtFaultDone .. => none
  | .mgtThrctlStart .. => none
  | .mgtThrctlReset .. => none
  | .mgtThrctlSignal .. => none
  | .mgtMemwinAccess .. => none
  | .tapExtest .. => none
  | .tapSamplePreload .. => none
  | .tapBypass => none
  | .dbgacc .. => none
  | .dbgClaim .. => none
  | .dbgRelease .. => none
  | .chalGo .. => none
  | .verifyGo .. => none
  | .tokenVerifyDone => none
  | .challengeLockoutEnd .. => none
  | .relock .. => none
  | .dbgHalt .. => none
  | .dbgResume .. => none
  | .dbgStep .. => none
  | .discardStage .. => none
  | .dbgThreadReset .. => none
  | .debugResetRequest .. => none
  | .spiTransfer .. => none
  | .spiTransferDone .. => none
  | .i2c1Transfer .. => none
  | .i2c1TransferDone .. => none
  | .i2c0Transaction .. => none
  | .registerPortLoadComplete .. => none
  | .channelMessageArrival .. => none
  | .msixEnableChange .. => none
  | .tapReset => none

end Sys2Proof.Machine
end

