-- ==== Sys2Proof/Safety.lean ====
section
/-!
DEFINITION. What the statements speak of: a run that stops at no fault, a command that starts in its control ring, and a thread that
issues one instruction undisturbed.
-/

namespace Sys2Proof.Machine

/-- No step of the first `n` stops. -/
def safeFor : Nat → State → Prop
  | 0, _ => True
  | n + 1, s => ∃ u, step s = .next u ∧ safeFor n u

/-! ## Control rings (R107, R108) -/

/-- The next slot of ring `k` taken. -/
def slotTaken (s : State) (k : Nat) : State :=
  { s with hif := { s.hif with ctlNext := mset noNat s.hif.ctlNext k ((ctrNext s k + 1) % (2 * ctrSize s k)) } }

/-- Command `c` starts in its ring, whose PERM has its class; `u` is the state with the ring's next slot taken. -/
def Starts (s u : State) (c : Ctl) (op : Nat) : Prop :=
  ctrCanStart s c.ring.val c.fence = true ∧ bitOf (s.fld F.HIF_CTR_CFG2_PERM c.ring.val) (op / 256) = true ∧
  u = slotTaken s c.ring.val

/-- The completion of the command that `Starts` starts at `s`, written in state `v`. -/
def ctlEnds (s v : State) (c : Ctl) (op status : Nat) (body : List Nat) : State :=
  ctlComplete v c.ring.val (ctrNext s c.ring.val) (ctlWord0 c.irq c.fence op) c.token (s.fld F.HIF_CTR_CFG_FN c.ring.val) status body

/-- A class 1 command for table `t`, which is live, initialised and of type `ty` (R208). -/
def Class1 (s u : State) (c : Ctl) (op t ty : Nat) : Prop :=
  Starts s u c op ∧ t = cmdTable c ∧ tblLive u t = true ∧ u.flag F.AGT_TBL_STS_INIT t = false ∧ tblType u t = ty

/-! ## Issue (R261–R264, R335, R518) -/

/-- Nothing but the instruction itself happens at thread `t`'s next turn, and the word it fetches is `w`. -/
def Issues (s : State) (t : Nat) (w : W32) : Prop :=
  canTurn s t = true ∧ budgetLate s t = false ∧ fetch s t = .word w ∧ s.integ.bad = [] ∧ s.flag F.RST_EINJ_CTL_ARM 0 = false ∧
  (∀ i < 4, s.flag F.DBG_CORE_BPC_EN (4 * dbgCore t + i) = false) ∧ (∀ j < 2, s.flag F.DBG_CORE_WPC_EN (2 * dbgCore t + j) = false) ∧
  (thrOf s t).stepping = false ∧ (thrOf s t).st ≠ .dormant ∧ mwf noThread s.gar.thr = true ∧ mwf noW32 (thrOf s t).g = true

/-- Thread `t`'s record becomes `x`, and nothing else changes. -/
def Becomes (s u : State) (t : Nat) (x : Thread) : Prop :=
  thrOf u t = x ∧ (∀ i, i ≠ t → thrOf u i = thrOf s i) ∧ u = { s with gar := { s.gar with thr := u.gar.thr } }

/-- The thread that has issued, at its next instruction. -/
def ranOn (x : Thread) (pc : W32) : Thread := { x with st := .run, bpPass := false, requeued := false, pc := pc }

/-- The outcome is a next state in which thread `t` has written `v` to its register `rd` and the given flags, and gone on to pc + 4;
nothing else has changed. A flag given as none keeps its value. -/
def Wrote (s : State) (o : Out) (t : Nat) (rd : BitVec 5) (v : W32) (c ov z n : Option Bool) : Prop :=
  ∃ (u : State) (x : Thread), o = .next u ∧ Becomes s u t x ∧
    x = { ranOn (thrOf s t) ((thrOf s t).pc + 4) with g := x.g, flags := x.flags } ∧
    (∀ r : BitVec 5, gv x r = if r = rd ∧ r ≠ 0 then v else gv (thrOf s t) r) ∧
    (∀ i < 1024, x.flags.getLsbD i = ((match i with | 0 => c | 1 => ov | 2 => z | 3 => n | _ => none).getD ((thrOf s t).flags.getLsbD i)))

/-- The outcome is a next state in which thread `t` has become `x` and nothing else has changed. -/
def Ends (s : State) (o : Out) (t : Nat) (x : Thread) : Prop := ∃ u : State, o = .next u ∧ Becomes s u t x

/-- Thread `t` has gone on to the next instruction with nothing else changed. -/
def Moved (s : State) (o : Out) (t : Nat) : Prop := Ends s o t (ranOn (thrOf s t) ((thrOf s t).pc + 4))

/-- Thread `t` has transferred control to `p` from its turn, which traces may record (R308, R523). -/
def Goes (s : State) (o : Out) (t : Nat) (p : W32) : Prop :=
  o = .next (retire (traceThr (takeTurn s t) t 0 (thrOf s t).pc.toNat p.toNat) t p [])

/-- The instruction has retired with the effects in `v`; then it has also written register `rd`. -/
def Ran (o : Out) (t : Nat) (v : State) : Prop := o = .next (retire v t ((thrOf v t).pc + 4) [])
def RanTo (o : Out) (t rd : Nat) (v : State) : Prop := o = .next (retire (rfWrite v t rd) t ((thrOf v t).pc + 4) [])

/-- Thread `t` waits, with the effects in `v`. -/
def Waits (o : Out) (t : Nat) (v : State) (w : Wait) : Prop := o = .next (settleAll (stall v t w))

/-- The instruction has faulted at its turn. -/
def Faults (s : State) (o : Out) (t cause detail : Nat) : Prop := o = .next (thrFault (takeTurn s t) t cause detail)

/-- State `v` with a status word in register `rd` of thread `t`, Z set for OK (R313). -/
def told (v : State) (t rd status val : Nat) : State :=
  settleAll (setThr v t (setFlagBit (gSet (thrOf v t) rd (BitVec.ofNat 32 (status + 256 * val))) 2 (decide (status = 0))))

/-- The instruction tells its status, with the effects in `v`. -/
def Told (o : Out) (v : State) (t rd status val : Nat) : Prop := RanTo o t rd (told v t rd status val)

/-- The thread waits for request `a`, with the effects in `v`. -/
def Asks (o : Out) (v : State) (t : Nat) (a : CellReq) (w : Wait) : Prop :=
  Waits o t (setThr v t { thrOf v t with acc := (thrOf v t).acc ++ [a] }) w

/-! ## Shapes of instructions -/

/-- The bytes of a place of plain memory. -/
def memRead (s : State) (t : Nat) (p : Place) (n : Nat) : Option (List Byte) :=
  match p with
  | .bank a => some (rdBytes s.gar.lmem (bankKey (coreOf t) a) n)
  | .shared o => some (rdBytes s.gar.smem (sharedKey (cluOf t) o) n)
  | .mgt a => some (rdBytes s.mgtMem a n)
  | _ => none

/-- The state with bytes written at a place of plain memory. -/
def memWrite (s : State) (t : Nat) (p : Place) (bs : List Byte) : Option State :=
  match p with
  | .bank a => some { s with gar := { s.gar with lmem := wrBytes s.gar.lmem (bankKey (coreOf t) a) bs } }
  | .shared o => some { s with gar := { s.gar with smem := wrBytes s.gar.smem (sharedKey (cluOf t) o) bs } }
  | .mgt a => some { s with mgtMem := wrBytes s.mgtMem a bs }
  | _ => none

/-- The load or store of format I may access its `n` bytes at place `p` of plain memory. -/
def Reaches (s : State) (t : Nat) (f : FmtI) (n : Nat) (store : Bool) (p : Place) : Prop :=
  accFault (takeTurn s t) t (effAddr (thrOf s t) f) n store = none ∧ placeOf t (effAddr (thrOf s t) f) n = some p

/-- The local operand of `n` bytes at `a` is `bs`. -/
def LocalIs (s : State) (t a n : Nat) (bs : List Byte) : Prop := ∃ p, localOf t a n = some p ∧ memRead s t p n = some bs

/-- Instruction `i` of OP 0x00 with `fn` writes `r C gA gB` to gD with the given flags; with SH other than 0 it faults ILLEGAL. -/
def AluRuns (i : BitVec 14 → FmtR → Instr) (fn : Nat) (r : Bool → W32 → W32 → W32) (c ov z n : Bool → W32 → W32 → Option Bool) : Prop :=
  ∀ (s : State) (t : BitVec 14) (f : FmtR) (k : Bool) (a b : W32), Issues s t.toNat (wordR 0x00 fn f) →
    k = (thrOf s t.toNat).flags.getLsbD 0 → a = gv (thrOf s t.toNat) f.ra → b = gv (thrOf s t.toNat) f.rb →
    (f.sh = 0 → Wrote s (exec (i t f) s) t.toNat f.rd (r k a b) (c k a b) (ov k a b) (z k a b) (n k a b)) ∧
    (f.sh ≠ 0 → Faults s (exec (i t f) s) t.toNat cIllegal (wordR 0x00 fn f).toNat)

/-- One with operand gA alone: RB must be 0 too. -/
def AluRuns1 (i : BitVec 14 → FmtR → Instr) (fn : Nat) (r : W32 → W32) (z : W32 → Option Bool) : Prop :=
  ∀ (s : State) (t : BitVec 14) (f : FmtR) (a : W32), Issues s t.toNat (wordR 0x00 fn f) → a = gv (thrOf s t.toNat) f.ra →
    (f.rb = 0 → f.sh = 0 → Wrote s (exec (i t f) s) t.toNat f.rd (r a) none none (z a) none) ∧
    (f.rb ≠ 0 ∨ f.sh ≠ 0 → Faults s (exec (i t f) s) t.toNat cIllegal (wordR 0x00 fn f).toNat)

/-- Instruction `i` of format I writes `r gA IMM16` to gD. -/
def ImmRuns (i : BitVec 14 → FmtI → Instr) (op : Nat) (r : W32 → BitVec 16 → W32) (c ov z n : W32 → BitVec 16 → Option Bool) : Prop :=
  ∀ (s : State) (t : BitVec 14) (f : FmtI) (a : W32), Issues s t.toNat (wordI op f) → a = gv (thrOf s t.toNat) f.ra →
    Wrote s (exec (i t f) s) t.toNat f.rd (r a f.imm) (c a f.imm) (ov a f.imm) (z a f.imm) (n a f.imm)

/-- A load of `n` bytes writes what `r` makes of them, with gD's old value, to gD. -/
def LoadRuns (i : BitVec 14 → FmtI → Instr) (op n : Nat) (r : W32 → List Byte → W32) : Prop :=
  ∀ (s : State) (t : BitVec 14) (f : FmtI) (p : Place) (bs : List Byte), Issues s t.toNat (wordI op f) →
    Reaches s t.toNat f n false p → memRead s t.toNat p n = some bs →
    Wrote s (exec (i t f) s) t.toNat f.rd (r (gv (thrOf s t.toNat) f.rd) bs) none none none none

/-- A store of `bs gD` writes those bytes at its address and nothing else. -/
def StoreRuns (i : BitVec 14 → FmtI → Instr) (op n : Nat) (bs : W32 → List Byte) : Prop :=
  ∀ (s v : State) (t : BitVec 14) (f : FmtI) (p : Place), Issues s t.toNat (wordI op f) →
    Reaches s t.toNat f n true p → memWrite s t.toNat p (bs (gv (thrOf s t.toNat) f.rd)) = some v →
    exec (i t f) s = .next (setThr v t.toNat (ranOn (thrOf s t.toNat) ((thrOf s t.toNat).pc + 4)))

/-- A branch goes to its target when `g gA gB` holds, and on otherwise. -/
def BranchRuns (i : BitVec 14 → FmtBR → Instr) (cond : Nat) (g : W32 → W32 → Prop) : Prop :=
  ∀ (s : State) (t : BitVec 14) (f : FmtBR) (p : W32), Issues s t.toNat (wordBR 0x18 cond f) →
    p = (thrOf s t.toNat).pc + 4 * f.off.signExtend 32 →
    (g (gv (thrOf s t.toNat) f.ra) (gv (thrOf s t.toNat) f.rb) → p.toNat % 4 = 0 → Goes s (exec (i t f) s) t.toNat p) ∧
    (g (gv (thrOf s t.toNat) f.ra) (gv (thrOf s t.toNat) f.rb) → p.toNat % 4 ≠ 0 → Faults s (exec (i t f) s) t.toNat cAlign p.toNat) ∧
    (¬ g (gv (thrOf s t.toNat) f.ra) (gv (thrOf s t.toNat) f.rb) → Moved s (exec (i t f) s) t.toNat)

/-- The bit variable at address `b` of thread `t` is `v` (R300, R301, R492). -/
def BitIs (s : State) (t b : Nat) (v : Bool) : Prop :=
  (b < 1024 ∧ v = (thrOf s t).flags.getLsbD b) ∨
  (1024 ≤ b ∧ b < 1280 ∧ isMgt t = false ∧
    v = bitOf (leNat (rdBytes s.gar.lmem (bankKey (coreOf t) (thrBlk t + 32 + 4 * ((b - 1024) / 32))) 4)) (b % 32)) ∨
  (4096 ≤ b ∧ b < 8192 ∧ isMgt t = false ∧ v = mget noBool s.gar.sbits (sbitKey t b))

/-- A bit operation with `fn` on a bit that is `v`: a flag bit or a cluster-shared bit becomes `g v`, and with `fl` C and Z follow `v`. -/
def BitRuns (i : BitVec 14 → FmtBT → Instr) (fn : Nat) (g : Bool → Bool) (fl : Bool) : Prop :=
  ∀ (s : State) (t : BitVec 14) (f : FmtBT) (b : Nat) (v : Bool) (x : Thread), Issues s t.toNat (wordBT 0x1D fn f) → f.zero = 0 →
    (f.idx = false → f.r = 0) → b = (if f.idx then (f.bit.toNat + (gv (thrOf s t.toNat) f.r).toNat) % 8192 else f.bit.toNat) →
    BitIs s t.toNat b v → x = ranOn (thrOf s t.toNat) ((thrOf s t.toNat).pc + 4) →
    (b < 1024 → Ends s (exec (i t f) s) t.toNat (if fl then setFlagBit (setFlagBit (setFlagBit x b (g v)) 0 v) 2 !v else setFlagBit x b (g v))) ∧
    (4096 ≤ b → isMgt t.toNat = false → ∃ u : State, exec (i t f) s = .next u ∧
      thrOf u t.toNat = (if fl then setFlagBit (setFlagBit x 0 v) 2 !v else x) ∧ (∀ j, j ≠ t.toNat → thrOf u j = thrOf s j) ∧
      u = { s with gar := { s.gar with thr := u.gar.thr, sbits := mset noBool s.gar.sbits (sbitKey t.toNat b) (g v) } })

/-- A coprocessor operation: with its unit there and serving the thread, no reason of R347 against it and an entry of the queue free, its
command is in the queue and the thread goes on; with none free, the thread waits, counted when it first does. -/
def CpopRuns (i : BitVec 14 → FmtX1 → Instr) (p : CpopSpec) : Prop :=
  ∀ (s v : State) (t : BitVec 14) (f : FmtX1) (u n : Nat) (c : CpxCmd), Issues s t.toNat (wordX1 0x27 p.cop f) → v = takeTurn s t.toNat →
    u = unitNo f.unit → n = cluOf t.toNat → isMgt t.toNat = false → cpopBad p f = false → unitPresent s u = true →
    cpxEnabled v t.toNat u = true → cpxReason v t.toNat u f.lane.toNat ⟨p.own, !p.own, p.slevel, f.cd.toNat + p.span - 1⟩ = none →
    c = ⟨0, f.lane.toNat, t.toNat % 256, p.cop, f.cd.toNat, f.ca.toNat, f.cb.toNat, none, false, true⟩ →
    (cpxRoom v n u c = true → Ran (exec (i t f) s) t.toNat (cpxSend v n u c).2) ∧
    (cpxRoom v n u c = false →
      Waits (exec (i t f) s) t.toNat (if (thrOf s t.toNat).requeued then v else cpxCount v n u 6 0) (.cpq u c))

end Sys2Proof.Machine
end

