-- ==== Sys2Proof/Certificates/Slice0/Obligations.lean ====
section
/-!
DEFINITION. The statements about the model.

A statement cites a rule only where its Lean states that rule. Three kinds of clause in these statements rest on the
model and not on a rule of the spec: what a command does in a state in which the event it names does not occur, and the
word an instruction row acts on (log entry 7); a step on an empty queue and the PCLK edges a row carries (log entry 6);
and the free values (log entry 2), of which a statement says only the range the spec gives.
-/

open Sys2Proof Sys2Proof.Machine

/-! ## Sidereal and the epoch counters (02) -/

/-- R35, R41: TIM_INCR is clamped, and a clamp is reported; outside holdover the holdover period restarts.
R39, R40, R41: GO takes the mode and, with nothing running, starts the adjustment; ABORT ends a slew.
R39, R40: a slew runs at a uniform rate, each of its edges to the last fraction the share of its offset that it should have, and ends
with exactly its offset added to what the increments make; a SET or STEP takes effect at its edge. -/
def Obligations.Adjustments : Prop :=
  (∀ (s : State) (v : W32), pktUp s = true → s.flag F.TIM_STS_HOLDOVER 0 = false →
    (0xAA800000 ≤ v.toNat → v.toNat ≤ 0xAAD55556 →
      exec (.timIncrWrite v) s = .next { s.setReg .TIM_INCR 0 v.toNat with tim := { s.tim with holdIncr := s.tim.elapsed } }) ∧
    (v.toNat < 0xAA800000 → exec (.timIncrWrite v) s =
      .next { (s.setReg .TIM_INCR 0 0xAA800000).setFlag F.TIM_STS_INCR_CLAMP 0 true with tim := { s.tim with holdIncr := s.tim.elapsed } }) ∧
    (0xAAD55556 < v.toNat → exec (.timIncrWrite v) s =
      .next { (s.setReg .TIM_INCR 0 0xAAD55556).setFlag F.TIM_STS_INCR_CLAMP 0 true with tim := { s.tim with holdIncr := s.tim.elapsed } })) ∧
  ((∀ s u : State, pktUp s = true → u = s.setFld F.TIM_ADJ_CTL_MODE 0 0 → u.flag F.TIM_STS_ADJ_BUSY 0 = false →
    u.flag F.TIM_STS_HOLDOVER 0 = false →
    exec .adjSet s = .next ({ u with tim := { u.tim with
      adj := some (.jump false (BitVec.ofNat 64 (u.reg .TIM_ADJ_OFFSET 0)) 64) } }.setFlag F.TIM_STS_ADJ_BUSY 0 true)) ∧
  (∀ s u : State, pktUp s = true → u = s.setFld F.TIM_ADJ_CTL_MODE 0 1 → u.flag F.TIM_STS_ADJ_BUSY 0 = false →
    u.flag F.TIM_STS_HOLDOVER 0 = false →
    exec .adjStep s = .next ({ u with tim := { u.tim with
      adj := some (.jump true (BitVec.ofNat 64 (u.reg .TIM_ADJ_OFFSET 0)) 64) } }.setFlag F.TIM_STS_ADJ_BUSY 0 true)) ∧
  (∀ (s u : State) (off : Int), pktUp s = true → u = s.setFld F.TIM_ADJ_CTL_MODE 0 2 → u.flag F.TIM_STS_ADJ_BUSY 0 = false →
    u.flag F.TIM_STS_HOLDOVER 0 = false → off = (BitVec.ofNat 64 (u.reg .TIM_ADJ_OFFSET 0)).toInt →
    off.natAbs * 1024 ≤ u.reg .TIM_ADJ_INTERVAL 0 →
    ∃ n : Nat, 0 < n ∧ (0 < u.reg .TIM_INCR 0 → u.reg .TIM_ADJ_INTERVAL 0 * 2 ^ 32 ≤ n * u.reg .TIM_INCR 0 ∧
        (1 < n → (n - 1) * u.reg .TIM_INCR 0 < u.reg .TIM_ADJ_INTERVAL 0 * 2 ^ 32)) ∧
      exec .adjSlew s = .next ({ u with tim := { u.tim with adj := some (.slew n n off) } }.setFlag F.TIM_STS_ADJ_BUSY 0 true)) ∧
  (∀ s u : State, pktUp s = true → u = s.setFld F.TIM_ADJ_CTL_MODE 0 2 → u.reg .TIM_ADJ_INTERVAL 0 <
      (BitVec.ofNat 64 (u.reg .TIM_ADJ_OFFSET 0)).toInt.natAbs * 1024 →
    exec .adjSlew s = .next (u.setFlag F.TIM_STS_ADJ_REJECT 0 true)) ∧
  (∀ (s : State) (n total : Nat) (off : Int), pktUp s = true → s.tim.adj = some (.slew n total off) →
    exec .adjAbort s = .next { s with tim := { s.tim with adj := some .ending } }) ∧
  (∀ (s : State) (b : Bool) (off : W64) (n : Nat), pktUp s = true → s.tim.adj = some (.jump b off n) → exec .adjAbort s = .next s)) ∧
  ((∀ (s : State) (n total : Nat) (off : Int), pktUp s = true → s.tim.adj = some (.slew n total off) → 0 < total →
    ∃ u, exec .slewComplete s = .next u ∧ u.tim.adj = none ∧ u.clk = s.clk + n ∧
      u.tim.nt = BitVec.ofInt 96 (s.tim.nt.toNat + n * s.reg .TIM_INCR 0 + (off * 2 ^ 32 - slewAt off total (total - n)))) ∧
  (∀ (s : State) (k n total : Nat) (off : Int), pktUp s = true → s.tim.adj = some (.slew n total off) → n ≤ total → k < n →
    (advance s k).tim.adj = some (.slew (n - k) total off) ∧
    (advance s k).tim.nt = BitVec.ofInt 96 (s.tim.nt.toNat + k * s.reg .TIM_INCR 0 +
      (slewAt off total (total - n + k) - slewAt off total (total - n)))) ∧
  (∀ (off : Int) (total k : Nat), 0 < total → slewAt off total k * total ≤ off * 2 ^ 32 * k ∧
    off * 2 ^ 32 * k < (slewAt off total k + 1) * total) ∧
  (∀ (s v : State) (step : Bool) (off : W64) (n : Nat), pktUp s = true → s.tim.adj = some (.jump step off n) →
    v = { s with clk := s.clk + n, tim := { s.tim with
      nt := BitVec.ofInt 96 (s.tim.nt.toNat + n * s.reg .TIM_INCR 0), elapsed := s.tim.elapsed + n * s.reg .TIM_INCR 0 } } →
    ∃ u w, exec .setStepApply s = .next u ∧ w = applyJump v step off ∧ u = { w with tim := { w.tim with seen := u.tim.seen } }))

/-- R45, R46: entering and leaving holdover, by request, by either period, and the restart of both periods.
R49, R50, R51, R550: input edges are stamped and counted, output pulses rise and fall, and the two reads that pop or latch. -/
def Obligations.HoldoverAndTimePins : Prop :=
  ((∀ s : State, pktUp s = true → s.flag F.TIM_STS_HOLDOVER 0 = false →
    exec .holdReq s = .next (raiseSrc ((s.setFlag F.TIM_STS_HOLDOVER 0 true).setFld F.TIM_STS_HOLD_CAUSE 0 0) 32 0)) ∧
  (∀ s u : State, pktUp s = true → s.flag F.TIM_STS_HOLDOVER 0 = true → u = s.setFlag F.TIM_STS_HOLDOVER 0 false →
    exec .holdExit s = .next { u with tim := { u.tim with holdIncr := u.tim.elapsed, holdPps := u.tim.elapsed } }) ∧
  (∀ (s u : State) (n : Nat), u = advance s n → pktUp u = true → u.reg .TIM_HOLD_TIMEOUT 0 ≠ 0 →
    u.reg .TIM_HOLD_TIMEOUT 0 * 1000 * 2 ^ 32 ≤ u.tim.elapsed - u.tim.holdIncr → u.flag F.TIM_STS_HOLDOVER 0 = false →
    exec (.holdTimeoutIncr n) s = .next (raiseSrc ((u.setFlag F.TIM_STS_HOLDOVER 0 true).setFld F.TIM_STS_HOLD_CAUSE 0 1) 32 1)) ∧
  (∀ (s u : State) (n : Nat), u = advance s n → pktUp u = true → u.flag F.TIM_CTL_REF_SEL 0 = true → u.reg .TIM_HOLD_TIMEOUT 0 ≠ 0 →
    u.reg .TIM_HOLD_TIMEOUT 0 * 1000 * 2 ^ 32 ≤ u.tim.elapsed - u.tim.holdPps → u.flag F.TIM_STS_HOLDOVER 0 = false →
    exec (.holdTimeoutPps n) s = .next (raiseSrc ((u.setFlag F.TIM_STS_HOLDOVER 0 true).setFld F.TIM_STS_HOLD_CAUSE 0 2) 32 2))) ∧
  ((∀ (s u : State) (w : Nat), pktUp s = true → 100 ≤ w → u = (s.setReg .TIM_PPS_IN_TS 0 (nt64 s)).wrapAdd F.TIM_INPUT_CNT_PPS 0 1 →
    exec (.ppsInEdge w) s = .next { u with tim := { u.tim with holdPps := u.tim.elapsed } }) ∧
  (∀ (s : State) (w : Nat), w < 100 → exec (.ppsInEdge w) s = .next s ∧ exec (.calSyncInEdge w) s = .next s) ∧
  (∀ (s u : State) (w : Nat), pktUp s = true → 100 ≤ w → u = (s.setReg .TIM_CSI_TS 0 (nt64 s)).wrapAdd F.TIM_INPUT_CNT_CSI 0 1 →
    exec (.calSyncInEdge w) s = .next (foldS (List.range 16) merAnchor u)) ∧
  (∀ (s u : State) (n : Nat), u = advance s n → pktUp u = true → u.flag F.TIM_PPS_OUT_CFG_EN 0 = true → u.tim.ppsNext ≤ nt64 u →
    ∃ v : State, exec (.ppsOutPulse n) s = .next v ∧ v = { u with tim := v.tim } ∧
      v.tim = { u.tim with ppsHigh := true, ppsEnd := v.tim.ppsEnd, ppsNext := (nt64 u / 1000000000 + 1) * 1000000000 } ∧
      v.tim.ppsEnd = u.tim.elapsed + clamp 1 999999 (u.fld F.TIM_PPS_OUT_CFG_WIDTH 0) * 1000 * 2 ^ 32) ∧
  (∀ (s u : State) (n : Nat), u = advance s n → pktUp u = true → u.tim.ppsHigh = true → u.tim.ppsEnd ≤ u.tim.elapsed →
    exec (.ppsOutPulseEnd n) s = .next { u with tim := { u.tim with ppsHigh := false } }) ∧
  (∀ (s u : State) (k : Fin 4) (n : Nat), u = advance s n → pktUp u = true → u.flag F.TIM_TCMP_CFG_EN k = true →
    u.reg .TIM_TCMP_AT k ≤ nt64 u → (tcmpOf u k).pulsed = false → u.flag F.TIM_TCMP_CFG_PERIODIC k = false →
    exec (.timeCompareFire k n) s = .next (raiseSrc ((setTcmp u k ⟨true, u.tim.elapsed + max 1 (u.fld F.TIM_TCMP_CFG_WIDTH k) * 2 ^ 32,
      true⟩).setFlag F.TIM_TCMP_CFG_FIRED k true) (34 + k) 0)) ∧
  (∀ (s u : State) (k : Fin 4) (n : Nat), u = advance s n → pktUp u = true → (tcmpOf u k).high = true →
    (tcmpOf u k).endAt ≤ u.tim.elapsed →
    exec (.timeComparePulseEnd k n) s = .next (setTcmp u k { tcmpOf u k with high := false })) ∧
  (∀ s : State, pktUp s = true → exec .timNtLowRead s =
    .next { { s with tim := { s.tim with ntHi := some (BitVec.ofNat 32 (nt64 s / 2 ^ 32)) } }.setReg .TIM_NT_FRAC 0
      (s.tim.nt.toNat % 2 ^ 32) with rdata := BitVec.ofNat 64 (nt64 s % 2 ^ 32) }) ∧
  (∀ (s : State) (p : Fin 16), pktUp s = true → lanePresent s p = true → txtsOf s p = [] →
    exec (.txtsMetaRead p) s = .next { s with rdata := 0 }) ∧
  (∀ (s : State) (p : Fin 16) (x : TxTs) (r : List TxTs), pktUp s = true → lanePresent s p = true → txtsOf s p = x :: r →
    exec (.txtsMetaRead p) s = .next { levelSrc ((setTxts s p r).setReg .TIM_TXTS p x.nt.toNat) (16 + p) (!r.isEmpty) 0 with
      rdata := BitVec.ofNat 64 (2 ^ 31 + x.frac.toNat * 2 ^ 16 + x.cookie.toNat) }))

/-- R54, R55, R61: arming is a request that clears SWITCHED, disarming takes it back, and an instant already past flips at once.
R55, R56: among the edges that a row lets pass, the flip happens at the first at or past its instant, or is deferred there if less than
100 µs have passed since the last one, until they have; with none armed or none due there is none. -/
def Obligations.EpochFlips : Prop :=
  ((∀ s u : State, pktUp s = true → s.flag F.TIM_EPOCH_CTL_ARM 0 = false →
    u = (s.setFlag F.TIM_EPOCH_CTL_ARM 0 true).setFlag F.TIM_EPOCH_STS_SWITCHED 0 false →
    exec .epochArm s = .next { u with tim := { u.tim with flipLate := decide (u.reg .TIM_EPOCH_AT 0 < nt64 u) } }) ∧
  (∀ s : State, pktUp s = true → exec .epochDisarm s =
    .next { s.setFlag F.TIM_EPOCH_CTL_ARM 0 false with tim := { s.tim with flipLate := false } }) ∧
  (∀ (s u : State) (v : W64), pktUp s = true → u = s.setReg .TIM_EPOCH_AT 0 v.toNat →
    exec (.epochAtWrite v) s = .next { u with tim := { u.tim with
      flipLate := u.flag F.TIM_EPOCH_CTL_ARM 0 && decide (v.toNat < nt64 u) } })) ∧
  ((∀ (s : State) (n : Nat), pktUp s = true → flipWanted (advance s n) = false → exec (.epochFlip n) s = .next (advance s n)) ∧
  (∀ (s v : State) (n m : Nat), pktUp s = true → m ≤ n → (∀ k, k ≤ n → (flipWanted (advance s k) = true ↔ m ≤ k)) →
    v = flipDue (advance s m) →
    (flipWanted v = false → exec (.epochFlip n) s = .next (advance v (n - m))) ∧
    (flipWanted v = true → flipSoon (advance v (n - m)) = true → exec (.epochFlip n) s = .next (advance v (n - m))) ∧
    ∀ d, d ≤ n - m → flipWanted v = true → (∀ k, k ≤ n - m → (flipSoon (advance v k) = false ↔ d ≤ k)) →
      exec (.epochFlip n) s = .next (advance (flipDue (advance v d)) (n - m - d))) ∧
  (∀ u : State, flipWanted u = true ↔ u.flag F.TIM_EPOCH_CTL_ARM 0 = true ∧ u.reg .TIM_EPOCH_AT 0 ≤ nt64 u) ∧
  (∀ u : State, u.flag F.TIM_EPOCH_CTL_ARM 0 = true → u.reg .TIM_EPOCH_AT 0 ≤ nt64 u →
    (∀ e, u.tim.flipAt = some e → 100000 * 2 ^ 32 ≤ u.tim.elapsed - e) → u.hif.ctl = [] → u.tim.cnt = [] → u.tim.entryCnt = [] →
    ∃ v : State, flipDue u = raiseSrc v 33 ((u.fld F.TIM_EPOCH_STS_SEQ 0 + 1) % 2 ^ 16) ∧
      v.tim = { u.tim with flipAt := some u.tim.elapsed, prevFlip := BitVec.ofNat 64 (u.reg .TIM_EPOCH_LAST 0), flipLate := false } ∧
      v = { u with tim := v.tim, regs := v.regs }) ∧
  (∀ (u : State) (e : Nat), u.flag F.TIM_EPOCH_CTL_ARM 0 = true → u.reg .TIM_EPOCH_AT 0 ≤ nt64 u → u.tim.flipAt = some e →
    u.tim.elapsed - e < 100000 * 2 ^ 32 →
    flipDue u = { u.setFlag F.TIM_EPOCH_STS_DEFERRED 0 true with tim := { u.tim with flipLate := true } }))

/-- R58–R60: an accepted dump is work of its ring, and it completes with its records, a header and status OK. -/
def Obligations.CounterDump : Prop :=
  (∀ (s u : State) (c : Ctl) (k i : Nat), Starts s u c 0x201 → k = c.ring.val → i = ctrNext s k →
    bits (bodyWord c 0) 7 0 = 0 → bodyWord c 2 ≠ 0 → bodyWord c 2 ≤ 65536 → bodyWord c 1 + bodyWord c 2 ≤ 524288 →
    exec (.cntDump c) s = .next { u with hif := { u.hif with ctl := u.hif.ctl ++ [⟨k, i, ctlWord0 c.irq c.fence 0x0201, c.token,
      s.fld F.HIF_CTR_CFG_FN k, .cntDump 0 (bits (bodyWord c 0) 13 8) (bodyWord c 1) (bodyWord c 2) (BitVec.ofNat 64 (bodyDword c 3)), false⟩] } }) ∧
  (∀ (s : State) (k : Fin 64) (index : BitVec 17) (c : CtlCmd) (sp t f n : Nat) (a : W64), pktUp s = true →
    s.hif.ctl.find? (fun c => c.ring == k.val && c.index == index.toNat && isDump c.work) = some c → c.work = .cntDump sp t f n a →
    exec (.cntDumpComplete k index) s = .next (dumpEnd s c sp t f n a false))

/-! ## Line ports (03) -/

/-- R66, R67, R69, R83: what becomes of a received frame, check by check, in the rule's order. -/
def Obligations.ReceiveChecksInOrder : Prop :=
  ∀ (s : State) (p : Fin 16) (frame : List Byte), pktUp s = true → portFormed s p = true → phyOn s p = true → linkSt s p = 4 →
    (looped s p = true → exec (.rxFrame p frame 0 0 0) s = .next s) ∧
    (looped s p = false →
    (s.flag F.LPT_CFG_EN p = false →
      exec (.rxFrame p frame 0 0 0) s = .next (linePauses (farLoop (count s (32 * p + 7) 1 frame.length) p frame))) ∧
    (∀ bad : Nat, 0 < bad → s.flag F.LPT_CFG_EN p = true →
      ∃ v, exec (.rxFrame p frame 0 0 bad) s = .next (linePauses (farLoop (count v (32 * p + 1) 1 frame.length) p frame)) ∧ v = count s (32 * p + 11) bad 0) ∧
    (s.flag F.LPT_CFG_EN p = true → 4 ≤ frame.length → frame.length < 64 →
      frame.drop (frame.length - 4) = leBytes 4 (ethFcs (frame.take (frame.length - 4))) →
      exec (.rxFrame p frame 0 0 0) s = .next (linePauses (farLoop (count s (32 * p + 2) 1 frame.length) p frame))) ∧
    (s.flag F.LPT_CFG_EN p = true → 64 ≤ frame.length → maxFrame s p < frame.length →
      frame.drop (frame.length - 4) = leBytes 4 (ethFcs (frame.take (frame.length - 4))) →
      exec (.rxFrame p frame 0 0 0) s = .next (linePauses (farLoop (count s (32 * p + 3) 1 frame.length) p frame))) ∧
    (s.flag F.LPT_CFG_EN p = true → 64 ≤ frame.length → frame.length ≤ maxFrame s p → macCtl frame = none →
      frame.drop (frame.length - 4) = leBytes 4 (ethFcs (frame.take (frame.length - 4))) →
      ∃ ts, exec (.rxFrame p frame 0 0 0) s = .next (linePauses (farLoop (rxStore s p frame ts) p frame))) ∧
    (∀ op : Nat, s.flag F.LPT_CFG_EN p = true → 64 ≤ frame.length → frame.length ≤ maxFrame s p → macCtl frame = some op →
      frame.drop (frame.length - 4) = leBytes 4 (ethFcs (frame.take (frame.length - 4))) →
      exec (.rxFrame p frame 0 0 0) s = .next (linePauses (farLoop
        (pauseObey (count s (32 * p + (if op = 1 then 4 else 5)) 1 frame.length) p op frame) p frame))))

/-- R74–R76: the link states, from PHY_EN to UP, and back out of UP.
R70, R74, R80: the port enables, the frame that ends, and the repeated pause frame.
R77, R78, R81: quad modes, the eye monitor and PRBS, with what is refused. -/
def Obligations.LinesAndPorts : Prop :=
  ((∀ (s u v : State) (p : Fin 16), lineUp s = true → lanePresent s p = true → phyOn s p = false →
    u = s.setFlag F.LPT_CFG_PHY_EN p true → portFormed u p = true →
    v = setLanes (setLanes (setLanes u p F.LPT_LANE_PRBS_CTL_GEN_EN false) p F.LPT_LANE_PRBS_CTL_CHK_EN false) p
      F.LPT_LANE_PRBS_CTL_CHK_LOCK false →
    exec (.phyEnSet p) s = .next (setLink (setPort v p { portOf v p with
      loop := v.fld F.LPT_CFG_LOOPBACK p, anMode := v.fld F.LPT_CFG_AN_MODE p }) p 1)) ∧
  (∀ (s u : State) (p : Fin 16), portFormed s p = true → phyOn s p = true → linkSt s p = 1 →
    u = setLink (setLanes s p F.LPT_LANE_ADAPT_SIG_DET true) p 2 →
    exec (.signalDetect p) s = .next (setPort u p { portOf u p with trainAt := u.tim.elapsed })) ∧
  (∀ (s u : State) (p : Fin 16) (taps : List (BitVec 6 × BitVec 6 × BitVec 6 × BitVec 6)), portFormed s p = true → phyOn s p = true →
    linkSt s p = 2 → u = setLanes s p F.LPT_LANE_ADAPT_CDR_LOCK true → (portOf u p).anMode ≠ 0 →
    exec (.trainComplete p taps) s = .next (setLink u p 3)) ∧
  (∀ (s u : State) (p : Fin 16) (n : Nat), u = advance s n → portFormed u p = true → linkSt u p = 2 →
    u.fld F.LPT_LINK_CFG_TRAIN_MS p ≠ 0 →
    u.fld F.LPT_LINK_CFG_TRAIN_MS p * 1000000 * 2 ^ 32 ≤ u.tim.elapsed - (portOf u p).trainAt →
    exec (.trainTimeout p n) s = .next (setLink (u.bump F.LPT_LINK_DOWN_CNT p 1) p 1)) ∧
  (∀ (s : State) (p : Fin 16), portFormed s p = true → phyOn s p = true → linkSt s p = 3 →
    exec (.alignDone p) s = .next (linePauses (txResume (setLink s p 4) p))) ∧
  (∀ (s u : State) (p : Fin 16) (part : Option Nat), portFormed s p = true → linkSt s p = 4 →
    u = txCut (rxCut (s.bump F.LPT_LINK_DOWN_CNT p 1) p part) p →
    exec (.signalLoss p part) s = .next (linePauses (setLink
      (((setLanes (setLanes u p F.LPT_LANE_ADAPT_SIG_DET false) p F.LPT_LANE_ADAPT_CDR_LOCK false).setFlag
        F.LPT_LINK_LOCAL_FAULT p false).setFlag F.LPT_LINK_REMOTE_FAULT p false) p 1))) ∧
  (∀ (s : State) (p : Fin 16) (remote : Bool) (part : Option Nat), portFormed s p = true → linkSt s p = 4 →
    exec (.linkFault p remote part) s = .next (linePauses (setLink (txCut (rxCut
      (s.setFlag (if remote then F.LPT_LINK_REMOTE_FAULT else F.LPT_LINK_LOCAL_FAULT) p true) p part) p) p 5))) ∧
  (∀ (s : State) (p : Fin 16) (remote : Bool) (part : Option Nat), portFormed s p = true → linkSt s p = 5 →
    exec (.linkFault p remote part) s = .next (s.setFlag (if remote then F.LPT_LINK_REMOTE_FAULT else F.LPT_LINK_LOCAL_FAULT) p true)) ∧
  (∀ (s : State) (p : Fin 16), portFormed s p = true → linkSt s p = 5 →
    exec (.linkFaultClear p) s = .next (linePauses (txResume (setLink
      ((s.setFlag F.LPT_LINK_LOCAL_FAULT p false).setFlag F.LPT_LINK_REMOTE_FAULT p false) p 4) p)))) ∧
  ((∀ (s u : State) (p : Fin 16), lineUp s = true → lanePresent s p = true → u = s.setFlag F.LPT_CFG_EN p true →
    (portFormed u p = true → exec (.portEnSet p) s = .next (pauseSync (u.setFlag F.LPT_STS_DRAINED p false) p)) ∧
    (portFormed u p = false → exec (.portEnSet p) s = .next u)) ∧
  (∀ (s u : State) (p : Fin 16) (part : Option Nat), lineUp s = true → lanePresent s p = true → s.flag F.LPT_CFG_EN p = true →
    u = s.setFlag F.LPT_CFG_EN p false → portFormed u p = true →
    exec (.portEnClear p part) s = .next (linePauses (portDrain (pauseSync (portFlush (rxCut u p part) p) p) p))) ∧
  (∀ (s u : State) (p : Fin 16) (part : Option Nat), lineUp s = true → lanePresent s p = true → phyOn s p = true →
    u = s.setFlag F.LPT_CFG_PHY_EN p false → portFormed u p = false →
    exec (.phyEnClear p part) s = .next (linePauses u)) ∧
  (∀ (s u v : State) (p : Fin 16) (part : Option Nat), lineUp s = true → lanePresent s p = true → phyOn s p = true →
    u = s.setFlag F.LPT_CFG_PHY_EN p false → portFormed u p = true →
    v = ((setLanes (setLanes (txCut (rxCut u p part) p) p F.LPT_LANE_ADAPT_SIG_DET false) p F.LPT_LANE_ADAPT_CDR_LOCK false).setFlag
      F.LPT_LINK_LOCAL_FAULT p false).setFlag F.LPT_LINK_REMOTE_FAULT p false → linkSt v p ≠ 0 →
    exec (.phyEnClear p part) s = .next (linePauses (pauseSync (setLink v p 0) p))) ∧
  (∀ (s u : State) (p : Fin 16) (n : Nat), u = advance s n → portFormed u p = true →
    exec (.frameTxComplete p n) s = .next (linePauses (nearLoop (txResume u p) p))) ∧
  (∀ (u : State) (p : Nat) (f : TxFrame), txfOf u p = some f →
    nearLoop u p = (if looped u p then rxFrame (txFinish u p) p f.bytes 0 0 0 else txFinish u p)) ∧
  (∀ (s u : State) (p : Fin 16) (n : Nat), u = advance s n → portUp u p = true → (portOf u p).paused ≠ 0 →
    max 1000 (u.fld F.LPT_FC_REFRESH_NS p) * 2 ^ 32 ≤ u.tim.elapsed - (portOf u p).pauseAt →
    exec (.pauseRefresh p n) s = .next (sendPause u p (u.fld F.LPT_CFG_FC_MODE p == 2) (pauseMask u p) 0))) ∧
  ((∀ (s : State) (q : Fin 4) (m : BitVec 3), lineUp s = true → quadPresent s q = true → 5 ≤ m.toNat →
    exec (.quadModeWrite q m) s = .next (s.setFlag F.LPT_QUAD_STS_MODE_REJECT q true)) ∧
  (∀ (s : State) (q : Fin 4) (m : BitVec 3) (p : Nat), lineUp s = true → quadPresent s q = true → p ∈ quadPorts s q →
    (s.flag F.LPT_CFG_EN p = true ∨ phyOn s p = true ∨ s.flag F.LPT_STS_DRAINED p = false) →
    exec (.quadModeWrite q m) s = .next (s.setFlag F.LPT_QUAD_STS_MODE_REJECT q true)) ∧
  (∀ (s u : State) (q : Fin 4) (m : BitVec 3), lineUp s = true → quadPresent s q = true → m.toNat < 4 → quadIdle s q = true →
    u = quadSync (s.setFld F.LPT_QUAD_CFG_MODE q m.toNat) q → quadPresent u (if q.val % 2 = 0 then q + 1 else q - 1) = true →
    ∀ v : State, v = quadSync u (if q.val % 2 = 0 then q + 1 else q - 1) →
    exec (.quadModeWrite q m) s = .next (foldS ((List.range 16).filter (fun p => portFormed v p && !portFormed s p)) portStart v)) ∧
  (∀ (s : State) (l : Fin 16), lineUp s = true → lanePresent s l = true →
    exec (.eyeMeasureGo l) s = .next (s.setFlag F.LPT_LANE_EYE_CTL_BUSY l true)) ∧
  (∀ (s : State) (l : Fin 16) (a b c : Byte), lineUp s = true → lanePresent s l = true → s.flag F.LPT_LANE_EYE_CTL_BUSY l = true →
    exec (.eyeMeasureDone l a b c) s = .next ((s.setFlag F.LPT_LANE_EYE_CTL_BUSY l false).setReg .LPT_LANE_EYE_RES l
      (a.toNat * 2 ^ 16 + b.toNat * 2 ^ 8 + c.toNat))) ∧
  (∀ (s : State) (l : Fin 16) (gen : Bool), lineUp s = true → lanePresent s l = true → prbsOk s l = true →
    exec (.prbsEnable l gen true) s = .next ((s.setFlag F.LPT_LANE_PRBS_CTL_GEN_EN l gen).setFlag F.LPT_LANE_PRBS_CTL_CHK_EN l true)) ∧
  (∀ s : State, ∀ l : Fin 16, lineUp s = true → lanePresent s l = true →
    exec (.prbsEnable l false false) s = .next (((s.setFlag F.LPT_LANE_PRBS_CTL_GEN_EN l false).setFlag
      F.LPT_LANE_PRBS_CTL_CHK_EN l false).setFlag F.LPT_LANE_PRBS_CTL_CHK_LOCK l false)) ∧
  (∀ (s : State) (l : Fin 16) (gen chk : Bool), lineUp s = true → lanePresent s l = true → (gen || chk) = true → prbsOk s l = false →
    exec (.prbsEnable l gen chk) s = .next (s.setFlag F.LPT_LANE_PRBS_CTL_REJECT l true)) ∧
  (∀ (s u : State) (l : Fin 16) (n : Nat), lineUp s = true → lanePresent s l = true → s.flag F.LPT_LANE_PRBS_CTL_CHK_EN l = true →
    u = (if s.flag F.LPT_LANE_PRBS_CTL_CHK_LOCK l then s else s.setFld F.LPT_LANE_PRBS_ERR_ERRORS l 0) →
    exec (.prbsCheckerLock l n) s = .next ((u.setFlag F.LPT_LANE_PRBS_CTL_CHK_LOCK l true).bump F.LPT_LANE_PRBS_ERR_ERRORS l n)))

/-! ## HIF (04) -/

/-- R93, R94, R105, R106, R116, R452: a doorbell that names an enabled ring of its function moves that ring's index; one that does not is
counted; one whose ring's state proves lost does nothing more.
R24, R91, R92, R117: the enable of a ring of each kind, and its disable when nothing is in flight. -/
def Obligations.RingsAndDoorbells : Prop :=
  ((∀ (s u : State) (f : BitVec 9) (ring : BitVec 13) (ix : BitVec 17) (i : Nat), pageUp s f.toNat = true → (fnOf s f.toNat).flr = false →
    ringFor s 0 f.toNat ring.toNat = some i → u = ringProbe s 0 i → u.flag F.HIF_TXR_CFG_EN i = true →
    prodOk (ringSize (u.fld F.HIF_TXR_CFG_SIZE_LOG2 i)) (u.fld F.HIF_TXR_STS_CONS i) (u.fld F.HIF_TXR_PROD_PROD i) ix.toNat = true →
    exec (.doorbellTx f ring ix true) s = .next (arrWrite (u.setFld F.HIF_TXR_PROD_PROD i ix.toNat) 4 (ringUnit 0 i))) ∧
  (∀ (s u : State) (f : BitVec 9) (ring : BitVec 13) (ix : BitVec 17) (i : Nat), pageUp s f.toNat = true → (fnOf s f.toNat).flr = false →
    ringFor s 1 f.toNat ring.toNat = some i → u = ringProbe s 1 i → u.flag F.HIF_RXR_CFG_EN i = true →
    prodOk (ringSize (u.fld F.HIF_RXR_CFG_SIZE_LOG2 i)) (u.fld F.HIF_RXR_STS_CONS i) (u.fld F.HIF_RXR_PROD_PROD i) ix.toNat = true →
    exec (.doorbellRx f ring ix true) s = .next (arrWrite (u.setFld F.HIF_RXR_PROD_PROD i ix.toNat) 4 (ringUnit 1 i))) ∧
  (∀ (s u : State) (f : BitVec 9) (ring : BitVec 13) (ix : BitVec 17) (i : Nat), pageUp s f.toNat = true → (fnOf s f.toNat).flr = false →
    ringFor s 3 f.toNat ring.toNat = some i → u = ringProbe s 3 i → u.flag F.HIF_CTR_CFG_EN i = true →
    prodOk (ringSize (u.fld F.HIF_CTR_CFG_SIZE_LOG2 i)) (u.fld F.HIF_CTR_STS_CONS i) (u.fld F.HIF_CTR_PROD_PROD i) ix.toNat = true →
    exec (.doorbellControl f ring ix true) s = .next (arrWrite (u.setFld F.HIF_CTR_PROD_PROD i ix.toNat) 4 (ringUnit 3 i))) ∧
  (∀ (s v u : State) (f : BitVec 9) (ring : BitVec 13) (ix : BitVec 17) (c : Nat), pageUp s f.toNat = true →
    (fnOf s f.toNat).flr = false → ringFor s 2 f.toNat ring.toNat = some c → v = ringProbe s 2 c → v.flag F.HIF_CQ_CFG_EN c = true →
    consOk (ringSize (v.fld F.HIF_CQ_CFG_SIZE_LOG2 c)) (v.fld F.HIF_CQ_STS_PROD c) (v.fld F.HIF_CQ_CONS_CONS c) ix.toNat = true →
    u = cqStall (v.setFld F.HIF_CQ_CONS_CONS c ix.toNat) c → mget noList u.hif.unread c = [] →
    exec (.doorbellCq f ring ix false true) s = .next (arrWrite (cqModerate { u with hif := { u.hif with
      unread := mset noList u.hif.unread c [] } } c) 4 (ringUnit 2 c))) ∧
  (∀ (s v u : State) (f : BitVec 9) (ring : BitVec 13) (ix : BitVec 17) (arm : Bool) (e : Nat), pageUp s f.toNat = true →
    (fnOf s f.toNat).flr = false → ringFor s 4 f.toNat ring.toNat = some e → v = ringProbe s 4 e → v.flag F.HIF_EVR_CFG_EN e = true →
    consOk (ringSize (v.fld F.HIF_EVR_CFG_SIZE_LOG2 e)) (v.fld F.HIF_EVR_STS_PROD e) (v.fld F.HIF_EVR_CONS_CONS e) ix.toNat = true →
    u = (if arm then (v.setFld F.HIF_EVR_CONS_CONS e ix.toNat).setFlag F.HIF_EVR_STS_ARMED e true else v.setFld F.HIF_EVR_CONS_CONS e ix.toNat) →
    exec (.doorbellEventLog f ring ix arm true) s = .next (evModerate (arrWrite u 4 (ringUnit 4 e)) e)) ∧
  (∀ (s u : State) (f : BitVec 9) (ring : BitVec 13) (ix : BitVec 17) (i : Nat), pageUp s f.toNat = true → (fnOf s f.toNat).flr = false →
    ringFor s 0 f.toNat ring.toNat = some i → u = ringProbe s 0 i → u.flag F.HIF_TXR_CFG_EN i = false →
    exec (.doorbellTx f ring ix true) s = .next u) ∧
  (∀ (s : State) (f : BitVec 9) (ring : BitVec 13) (ix : BitVec 17), pageUp s f.toNat = true → ringFor s 0 f.toNat ring.toNat = none →
    exec (.doorbellTx f ring ix true) s = .next (count s (512 + 8 * f.toNat + 6) 1 0))) ∧
  ((∀ (s : State) (k : Fin 5) (i : BitVec 12), pktUp s = true → i.toNat < (ringFlds k).count → s.flag (ringFlds k).en i.toNat = false →
    ringRefused s k i.toNat = false → exec (.ringEnable k i) s = .next (ringForget
      ((((s.setFlag (ringFlds k).en i.toNat true).setFld (ringFlds k).prod i.toNat 0).setFld (ringFlds k).cons i.toNat 0).setFlag
        (ringFlds k).drained i.toNat false) k i.toNat)) ∧
  (∀ (s : State) (k : Fin 5) (i : BitVec 12), pktUp s = true → i.toNat < (ringFlds k).count → s.flag (ringFlds k).en i.toNat = false →
    (fnExists s (s.fld (ringFlds k).fn i.toNat) = false ∨ (fnOf s (s.fld (ringFlds k).fn i.toNat)).flr = true) →
    exec (.ringEnable k i) s = .next (if hasReject k then s.setFlag (ringFlds k).reject i.toNat true else s)) ∧
  (∀ (s : State) (i : BitVec 12), pktUp s = true → s.flag F.HIF_TXR_CFG_EN i.toNat = true → s.hif.txDone = [] →
    ∃ u, exec (.ringDisable 0 i) s = .next u ∧ u = ringDrain (s.setFlag F.HIF_TXR_CFG_EN i.toNat false) 0 i.toNat))

/-- R95–R100: a fetched packet is stored and parsed or dropped, and completes in order with its entry.
R101–R103, R110: a packet at hand is delivered or dropped, and a failed read stops its ring. -/
def Obligations.HostPackets : Prop :=
  ((∀ (s u w v : State) (i : BitVec 12) (descs ds : List TxDesc) (heads : List (BitVec 12 × Nat)), pktUp s = true →
    txPacketDescs 16 (descs.take (txWaiting s i.toNat)) = some ds →
    (txCands s).2.all (fun k => k == i.toNat || (headBytes heads k).isSome) = true →
    txChoose s (fun k => if k = i.toNat then txLen ds else (headBytes heads k).getD 0) = some (i.toNat, u) →
    (txGood ds = true → ds.all (fun d => d.len != 0) = true) → w = ringProbe u 0 i.toNat → w.flag F.HIF_TXR_CFG_EN i.toNat = true →
    v = linePauses (txTake w i.toNat ds) →
    exec (.txPacketFetch i ⟨descs, heads⟩) s = .next (if txWaiting v i.toNat = 0 then setTxDeficit v i.toNat 0 else v)) ∧
  (∀ (s u : State) (i : BitVec 12) (d : TxDone), pktUp s = true → s.hif.txDone.find? (·.ring == i.toNat) = some d →
    d.cqe = false → d.status = stOk →
    u = { s with hif := { s.hif with txDone := s.hif.txDone.erase d } }.setFld F.HIF_TXR_STS_CONS i.toNat
      ((s.fld F.HIF_TXR_STS_CONS i.toNat + d.ndesc) % (2 * ringSize (s.fld F.HIF_TXR_CFG_SIZE_LOG2 i.toNat))) →
    exec (.txPacketComplete i) s = .next (ringDrain u 0 i.toNat)) ∧
  (∀ (s u : State) (i : BitVec 12) (d : TxDone) (cons : Nat), pktUp s = true → s.hif.txDone.find? (·.ring == i.toNat) = some d →
    d.status ≠ stOk → cqReady s (s.fld F.HIF_TXR_CFG2_CQ i.toNat) = true →
    cons = (s.fld F.HIF_TXR_STS_CONS i.toNat + d.ndesc) % (2 * ringSize (s.fld F.HIF_TXR_CFG_SIZE_LOG2 i.toNat)) →
    u = { s with hif := { s.hif with txDone := s.hif.txDone.erase d } }.setFld F.HIF_TXR_STS_CONS i.toNat cons →
    exec (.txPacketComplete i) s = .next (ringDrain (cqPush u (s.fld F.HIF_TXR_CFG2_CQ i.toNat)
      [cons, u.fld F.HIF_TXR_CFG_LOCAL i.toNat, d.status, 0, 0, 0, 0, 0]) 0 i.toNat))) ∧
  ((∀ (s v : State) (e : BitVec 14) (descs : List RxDesc) (x : EPkt) (held : Bool) (ch : Chain) (r : Nat), pktUp s = true →
    rxAtHand s e.toNat = some (x, held) → r = s.fld F.EGR_Q_DEST_DEST e.toNat → v = ringProbe s 1 r → chainAt v x.head = some ch →
    r = v.fld F.EGR_Q_DEST_DEST x.queue → descs.all (fun d => decide (64 ≤ d.len.toNat) && decide (d.len.toNat ≤ 16384)) = true →
    v.flag F.HIF_RXR_CFG_EN r = false →
    exec (.rxPacketDeliver e descs) s = .next (linePauses (ringDrain
      (hifCount (rxGone v x held) (v.fld F.HIF_RXR_CFG_FN r) 5 x.len) 1 r))) ∧
  (∀ (s v : State) (e : BitVec 14) (descs use : List RxDesc) (x : EPkt) (held : Bool) (ch : Chain) (r f : Nat), pktUp s = true →
    rxAtHand s e.toNat = some (x, held) → r = s.fld F.EGR_Q_DEST_DEST e.toNat → v = ringProbe s 1 r → chainAt v x.head = some ch →
    r = v.fld F.EGR_Q_DEST_DEST x.queue → f = v.fld F.HIF_RXR_CFG_FN r → v.flag F.HIF_RXR_CFG_EN r = true → fnExists v f = true →
    linkUp v (fnLink f) = true → (fnOf v f).flr = false → fnCanDma v f = true → rxBehind v x held = false →
    cqReady v (v.fld F.HIF_RXR_CFG2_CQ r) = true →
    descs.all (fun d => decide (64 ≤ d.len.toNat) && decide (d.len.toNat ≤ 16384)) = true →
    rxBuffers ((descs.take (ringUsed (ringSz v 1 r) (v.fld F.HIF_RXR_PROD_PROD r) (v.fld F.HIF_RXR_STS_CONS r))).take 16) ch.len = some use →
    ch.carry = false → probeChain v ch 4 0 ch.len = (v, []) →
    exec (.rxPacketDeliver e descs) s = .next (linePauses (ringDrain (rxWrite v r x ch held use) 1 r))) ∧
  (∀ (s : State) (i : BitVec 12) (e : BitVec 14) (filled : List RxDesc) (x : EPkt) (held : Bool) (r : Nat), pktUp s = true →
    rxAtHand s e.toNat = some (x, held) → r = s.fld F.EGR_Q_DEST_DEST e.toNat → s.flag F.HIF_RXR_CFG_EN r = true →
    fnCanDma s (s.fld F.HIF_RXR_CFG_FN r) = true → exec (.dmaReadError 1 i ⟨e, filled⟩) s =
      .next (linePauses (ringDrain (rxGone (ringStop (rxPartial s r x filled) 1 r) x held) 1 r))) ∧
  (∀ (s : State) (i : BitVec 12) (e : BitVec 14) (filled : List RxDesc), pktUp s = true → txReady s i.toNat = true →
    exec (.dmaReadError 0 i ⟨e, filled⟩) s = .next (ringDrain (ringStop s 0 i.toNat) 0 i.toNat)) ∧
  (∀ (s : State) (i : BitVec 12) (e : BitVec 14) (filled : List RxDesc), pktUp s = true → s.flag F.HIF_CTR_CFG_EN i.toNat = true →
    ctrNext s i.toNat ≠ s.fld F.HIF_CTR_PROD_PROD i.toNat → fnCanDma s (s.fld F.HIF_CTR_CFG_FN i.toNat) = true →
    exec (.dmaReadError 2 i ⟨e, filled⟩) s = .next (ringDrain (ringStop s 3 i.toNat) 3 i.toNat)))

/-- R90, R105, R112–R115, R554: messages, ready bits and what host software makes of a function and a link. -/
def Obligations.FunctionsAndLinks : Prop :=
  (∀ (s u : State) (c : BitVec 10) (n : Nat), u = advance s n → pktUp u = true →
    exec (.cqModerationTimeout c n) s = .next (cqModerate u c.toNat)) ∧
  (∀ (s : State) (f : BitVec 9) (v : BitVec 11), mget noBool (fnOf s f.toNat).pba v.toNat = true → fnCanMsg s f.toNat v.toNat = true →
    exec (.msixPendingSend f v) s = .next (sendMsg (setFn s f.toNat { fnOf s f.toNat with
      pba := mset noBool (fnOf s f.toNat).pba v.toNat false }) f.toNat v.toNat)) ∧
  (∀ s : State, pktUp s = true →
    exec (.pf0ReadyWrite 0 true true) s = .next (s.setFlag F.HIF_FN_STS_HL0_PF0_READY 0 true)) ∧
  (∀ s : State, pktUp s = true → exec (.pf0ReadyWrite 1 false true) s = .next (s.setFlag F.HIF_FN_STS_HL1_PF0_READY 0 false)) ∧
  (∀ (s : State) (h : Fin 2) (v : Bool), exec (.pf0ReadyWrite h v false) s = .next s) ∧
  (∀ (s : State) (f : BitVec 9), (fnOf s f.toNat).flr = true →
    exec (.flrComplete f) s = .next (icuSync (setFn s f.toNat { fnOf s f.toNat with flr := false }))) ∧
  (∀ (s : State) (f : BitVec 9), fnUp s f.toNat = true → f.toNat % 256 ≠ 0 →
    exec (.functionLevelReset f) s = .next (settle (icuSync (flrOne s f.toNat true)))) ∧
  (∀ (s u : State) (h : Fin 2), fnUp s (256 * h.val) = true → mget noBool s.hif.vfEn h.val = true →
    u = foldS (vfsOf s h.val) (fun u f => flrOne u f false) s →
    exec (.vfDisable h) s = .next (settle (icuSync { u with hif := { u.hif with vfEn := mset noBool u.hif.vfEn h.val false } }))) ∧
  (∀ (s : State) (h : Fin 2) (n : Byte), fnUp s (256 * h.val) = true → mget noBool s.hif.vfEn h.val = false → s.hif.bifur = false →
    n.toNat ≤ 254 → exec (.vfEnable h n) s = .next (icuSync { s with hif := { s.hif with
      vfEn := mset noBool s.hif.vfEn h.val true, numVfs := mset noNat s.hif.numVfs h.val n.toNat } })) ∧
  (∀ (s : State) (f : BitVec 9) (v : Bool), fnUp s f.toNat = true → (fnOf s f.toNat).flr = false →
    exec (.busMasterEnableChange f v) s = .next (ctlResume (icuSync (setFn s f.toNat { fnOf s f.toNat with bme := v }))) ∧
    exec (.d3hotChange f v) s = .next (ctlResume (icuSync (setFn s f.toNat { fnOf s f.toNat with d3 := v })))) ∧
  (∀ (s : State) (f : BitVec 9) (en mask : Bool), fnUp s f.toNat = true → (fnOf s f.toNat).flr = false →
    exec (.msixEnableChange f en mask) s = .next (icuSync (setFn s f.toNat { fnOf s f.toNat with msixEn := en, fmask := mask }))) ∧
  (∀ s : State, s.rst.aon = true → hostUp s 0 = true → linkUp s 0 = false → s.hif.bifur = false → s.fld F.HIF_LINK_CFG_MAX_SPEED 0 = 0 →
    exec (.pcieLinkUp 0 6 16 true) s = .next (ctlResume (icuSync ((((s.setFlag F.HIF_LINK_STS_DL_UP 0 true).setFlag F.HIF_LINK_STS_FLIT 0
      true).setFld F.HIF_LINK_STS_WIDTH 0 16).setFld F.HIF_LINK_STS_SPEED 0 6)))) ∧
  (∀ (s : State) (h : Fin 2), linkUp s h.val = true → exec (.pcieLinkDown h) s = .next (icuSync
    ((((s.setFlag F.HIF_LINK_STS_DL_UP h.val false).setFlag F.HIF_LINK_STS_FLIT h.val false).setFld F.HIF_LINK_STS_WIDTH h.val 0).setFld
      F.HIF_LINK_STS_SPEED h.val 0)))

/-! ## Cairn and the parser (05, 06) -/

/-- R107, R108, R134: NOP and class 5. A command that starts takes its ring's next slot and completes in it.
R107, R108: a command whose class the ring does not permit is DENIED, whatever its opcode within the class. -/
def Obligations.ControlRings : Prop :=
  ((∀ (s u : State) (c : Ctl), Starts s u c 1 → exec (.nop c 1) s = .next (ctlEnds s u c 1 stOk [])) ∧
  (∀ (s u : State) (c : Ctl) (op : W16), Starts s u c op.toNat → op.toNat ≠ 1 → op.toNat < 0x600 →
    exec (.nop c op) s = .next (ctlEnds s u c op.toNat stBadOp [])) ∧
  (∀ (s u v : State) (c : Ctl) (cells : List Nat), Starts s u c 0x501 → 128 ≤ bits (bodyWord c 0) 8 0 → bits (bodyWord c 1) 6 0 ≠ 0 →
    bits (bodyWord c 1) 6 0 ≤ 80 → requestCells u (bits (bodyWord c 0) 8 0) (bits (bodyWord c 1) 6 0) = (some cells, v) →
    ∃ h w, newChain (writeCells v 3 cells 0 (List.replicate (128 * bits (bodyWord c 1) 6 0) 0)) cells (128 * bits (bodyWord c 1) 6 0)
        false none = (h, w) ∧
      exec (.cellAlloc c) s = .next (linePauses (ctlEnds s w c 0x501 stOk [handleOf h]))) ∧
  (∀ (s u v : State) (c : Ctl), Starts s u c 0x501 → 128 ≤ bits (bodyWord c 0) 8 0 → bits (bodyWord c 1) 6 0 ≠ 0 →
    bits (bodyWord c 1) 6 0 ≤ 80 → requestCells u (bits (bodyWord c 0) 8 0) (bits (bodyWord c 1) 6 0) = (none, v) →
    exec (.cellAlloc c) s = .next (linePauses (ctlEnds s v c 0x501 stNoBuf []))) ∧
  (∀ (s u : State) (c : Ctl) (ch : Chain), Starts s u c 0x502 → handleGood u (bodyWord c 0) = true →
    chainAt u (bodyWord c 0 / 8) = some ch →
    exec (.chainFree c) s = .next (linePauses (ctlEnds s (unref u (bodyWord c 0 / 8)) c 0x502 stOk [ch.refs - 1]))) ∧
  (∀ (s u v : State) (c : Ctl) (ch : Chain) (n : Nat), Starts s u c 0x503 → handleGood u (bodyWord c 0) = true →
    chainAt u (bodyWord c 0 / 8) = some ch → bits (bodyWord c 1) 13 0 < ch.len → bits (bodyWord c 2) 13 0 ≠ 0 →
    bits (bodyWord c 2) 13 0 ≤ 10240 → n = min (bits (bodyWord c 2) 13 0) (ch.len - bits (bodyWord c 1) 13 0) →
    probeChain u ch 5 (bits (bodyWord c 1) 13 0) n = (v, []) →
    exec (.cellRead c) s = .next (ctlEnds s (hostWrite v (s.fld F.HIF_CTR_CFG_FN c.ring.val) (bodyDword c 3)
      (chainBytes v ch (bits (bodyWord c 1) 13 0) n)) c 0x503 stOk [n]))) ∧
  (∀ (s : State) (c : Ctl) (op : W16) (k : Nat), k = c.ring.val → ctrCanStart s k c.fence = true → op.toNat < 0x600 →
    bitOf (s.fld F.HIF_CTR_CFG2_PERM k) (op.toNat / 256) = false →
    exec (.nop c op) s = .next (ctlEnds s (slotTaken s k) c op.toNat stDenied []))

/-- R124–R126, R133, R552: pools, the sweep after a cluster reset, and the peak register.
R27, R29, R159, R160: the parser takes the packet whose turn it is, and its enable and its switches. -/
def Obligations.PoolsAndParser : Prop :=
  ((∀ (s : State) (k : Fin 64), pktUp s = true → s.flag F.CRN_POOL_CFG_EN k.val = false → s.fld F.CRN_POOL_SIZE_SIZE k.val = 0 →
    exec (.poolEnable k) s = .next (s.setFlag F.CRN_POOL_STS_REJECT k.val true)) ∧
  (∀ (s : State) (k : Fin 64), pktUp s = true → s.flag F.CRN_POOL_CFG_EN k.val = false → s.fld F.CRN_POOL_SIZE_SIZE k.val ≠ 0 →
    s.flag F.CRN_POOL_CFG_SPACE k.val = false → s.flag F.CRN_POOL_STS_DRAINED k.val = false →
    exec (.poolEnable k) s = .next (s.setFlag F.CRN_POOL_CFG_EN k.val true)) ∧
  (∀ (s : State) (k : Fin 64), pktUp s = true → s.flag F.CRN_POOL_CFG_EN k.val = false → s.fld F.CRN_POOL_SIZE_SIZE k.val ≠ 0 →
    (s.flag F.CRN_POOL_CFG_SPACE k.val = false ∨ s.flag F.CRN_DRAM_CFG_EN 0 = true) → s.flag F.CRN_POOL_STS_DRAINED k.val = true →
    poolOverlaps s k.val = false →
    exec (.poolEnable k) s = .next (((s.setFlag F.CRN_POOL_CFG_EN k.val true).setFlag F.CRN_POOL_STS_DRAINED k.val false).setFld
      F.CRN_POOL_STS_FREE k.val (s.fld F.CRN_POOL_SIZE_SIZE k.val))) ∧
  (∀ (s u : State) (k : Fin 64), pktUp s = true → s.flag F.CRN_POOL_CFG_EN k.val = true → u = s.setFlag F.CRN_POOL_CFG_EN k.val false →
    u.flag F.CRN_POOL_CFG_EN k.val = false → u.fld F.CRN_POOL_STS_FREE k.val = u.fld F.CRN_POOL_SIZE_SIZE k.val →
    exec (.poolDisable k) s = .next (u.setFlag F.CRN_POOL_STS_DRAINED k.val true)) ∧
  (∀ (s u : State) (k : Fin 64), pktUp s = true → s.flag F.CRN_POOL_CFG_EN k.val = true → u = s.setFlag F.CRN_POOL_CFG_EN k.val false →
    u.fld F.CRN_POOL_STS_FREE k.val ≠ u.fld F.CRN_POOL_SIZE_SIZE k.val → exec (.poolDisable k) s = .next u) ∧
  (∀ (s u : State) (n : Fin 32), pktUp s = true → mget noBool s.crn.sweep n.val = true →
    u = foldS (ownedBy s (32 + n.val)) (fun u h => unref (disown u h) h) s →
    exec (.chainSweep n) s = .next (linePauses ({ u with crn := { u.crn with
      sweep := mset noBool u.crn.sweep n.val false } }.setFlag F.CRN_CLU_STS_RECLAIM_BUSY n.val false))) ∧
  (∀ (s : State) (r : BitVec 9), pktUp s = true → exec (.crnReqPeakRead r) s =
    .next { s.setFld F.CRN_REQ_PEAK_PEAK r.toNat (s.fld F.CRN_REQ_STS_USED r.toNat) with
      rdata := BitVec.ofNat 64 (s.fld F.CRN_REQ_PEAK_PEAK r.toNat) })) ∧
  ((∀ (s : State) (x : PIn), pktUp s = true → s.flag F.PRS_CTL_EN 0 = true → nextPIn s = some x →
    exec .parsePacket s = .next (linePauses (parsePacket { s with prs := { s.prs with
      waiting := s.prs.waiting.eraseIdx (s.prs.waiting.findIdx (· == x)) } } x))) ∧
  (∀ s : State, pktUp s = true → exec .parserEnable s = .next ((s.setFlag F.PRS_CTL_EN 0 true).setFlag F.PRS_STS_DRAINED 0 false)) ∧
  (∀ s u : State, pktUp s = true → u = (s.setFlag F.PRS_CTL_EN 0 false).setFlag F.PRS_STS_DRAINED 0 true →
    exec .parserDisable s = .next (linePauses (foldS s.prs.waiting toParser { u with prs := { u.prs with waiting := [] } }))) ∧
  (∀ s : State, pktUp s = true → s.flag F.PRS_CTL_GRAPH_REQ 0 = false →
    exec .graphReq s = .next ((s.setFlag F.PRS_CTL_GRAPH_REQ 0 true).setFlag F.PRS_STS_GRAPH_SWITCHED 0 false)) ∧
  (∀ s : State, pktUp s = true → s.flag F.PRS_CTL_CLS_REQ 0 = false →
    exec .clsReq s = .next ((s.setFlag F.PRS_CTL_CLS_REQ 0 true).setFlag F.PRS_STS_CLS_SWITCHED 0 false)) ∧
  (∀ s : State, pktUp s = true → s.prs.joint = false → s.flag F.PRS_CTL_EN 0 = true → s.flag F.PRS_CTL_GRAPH_REQ 0 = true →
    exec .graphSwitch s = .next (((s.setFlag F.PRS_CTL_GRAPH_REQ 0 false).setFlag F.PRS_STS_GRAPH_SWITCHED 0 true).setFld
      F.PRS_STS_GRAPH_ACTIVE 0 (1 - s.fld F.PRS_STS_GRAPH_ACTIVE 0))) ∧
  (∀ s : State, pktUp s = true → s.prs.joint = false → s.flag F.PRS_CTL_EN 0 = true → s.flag F.PRS_CTL_CLS_REQ 0 = true →
    exec .classifierSwitch s = .next (((s.setFlag F.PRS_CTL_CLS_REQ 0 false).setFlag F.PRS_STS_CLS_SWITCHED 0 true).setFld
      F.PRS_STS_CLS_ACTIVE 0 (1 - s.fld F.PRS_STS_CLS_ACTIVE 0))))

/-! ## Agate (07, 08) -/

/-- R168, R169, R171, R174: tables come and go, a lookup is answered, and the flow cache empties.
R196–R199: a learn request at its bucket, the move window, and an ageing pass with its visits. -/
def Obligations.TablesLookupsAndAgeing : Prop :=
  ((∀ (s u : State) (t : Fin 64), pktUp s = true → s.flag F.AGT_TBL_CFG_EN t.val = false → s.flag F.AGT_TBL_STS_DRAINED t.val = true →
    tblRefused s t.val = false → tblClash s t.val = false →
    u = ((tblClear s t.val).setFlag F.AGT_TBL_CFG_EN t.val true).setFlag F.AGT_TBL_STS_DRAINED t.val false →
    exec (.tableEnable t) s = .next (ageRestart (((u.setFlag F.AGT_TBL_STS_INIT t.val true).setFld F.AGT_TBL_STS_COUNT t.val
      (if tblType s t.val = 2 then tblSize s t.val else 0)).setFld F.AGT_TBL_GEN_GEN t.val 0) t.val)) ∧
  (∀ (s : State) (t : Fin 64), pktUp s = true → s.flag F.AGT_TBL_CFG_EN t.val = false → s.flag F.AGT_TBL_STS_DRAINED t.val = true →
    tblType s t.val = 3 → exec (.tableEnable t) s = .next (s.setFlag F.AGT_TBL_STS_REJECT t.val true)) ∧
  (∀ (s : State) (t : Fin 64), pktUp s = true → exec (.tableInitComplete t) s = .next (s.setFlag F.AGT_TBL_STS_INIT t.val false)) ∧
  (∀ (s u v : State) (t : Fin 64), pktUp s = true → s.flag F.AGT_TBL_CFG_EN t.val = true → s.agt.learnq = [] →
    u = flushEnd (setCursor (s.setFlag F.AGT_TBL_CFG_EN t.val false) t.val none) t.val → u.agt.learnq = [] →
    v = { u with agt := { u.agt with agePos := mset noPos u.agt.agePos t.val none } } →
    exec (.tableDisable t) s = .next (tblDrain v t.val)) ∧
  (∀ (s u v : State) (j : Nat) (k : Lkp) (r : Resp), pktUp s = true → s.agt.lookups[j]? = some k → k.absent = false → k.stuck = false →
    u = { s with agt := { s.agt with lookups := s.agt.lookups.eraseIdx j } } → lookupResp u k = (r, v) →
    exec (.lookupComplete j) s = .next (settle (deliver (learnAfter v k r) k (respBytes k.table r)))) ∧
  (∀ s : State, pktUp s = true → exec .fcFlush s = .next (s.setFlag F.AGT_CTL_FC_FLUSH 0 true)) ∧
  (∀ s : State, pktUp s = true → s.flag F.AGT_CTL_FC_FLUSH 0 = true →
    exec .fcFlushDone s = .next ({ s with agt := { s.agt with fc := [] } }.setFlag F.AGT_CTL_FC_FLUSH 0 false)) ∧
  (∀ (s : State) (t : Fin 64), pktUp s = true → mget noBool s.agt.fcInv t.val = true →
    exec (.fcInvalidateTableDone t) s = .next { s with agt := { s.agt with
      fcInv := mset noBool s.agt.fcInv t.val false, fc := s.agt.fc.filter (fun w => w.table != t.val) } })) ∧
  ((∀ (s u : State) (r : LearnReq) (l : List LearnReq), pktUp s = true → s.agt.learnq = r :: l →
    u = { s with agt := { s.agt with learnq := l } } → u.flag F.AGT_TBL_CFG_EN r.table = false →
    exec .learnRequest s = .next (count u (12800 + 8 * r.table + 2) 1 0)) ∧
  (∀ (s u v : State) (r : LearnReq) (l : List LearnReq) (loc : Nat), pktUp s = true → s.agt.learnq = r :: l →
    u = { s with agt := { s.agt with learnq := l } } → u.flag F.AGT_TBL_CFG_EN r.table = true → u.flag F.AGT_TBL_STS_INIT r.table = false →
    emSeek u r.table r.key = (v, some loc) → entSrc (emRaw v r.table loc) = r.srcport.toNat →
    exec .learnRequest s = .next (setHit v r.table loc true)) ∧
  (∀ (s u v : State) (r : LearnReq) (l : List LearnReq) (loc : Nat), pktUp s = true → s.agt.learnq = r :: l →
    u = { s with agt := { s.agt with learnq := l } } → u.flag F.AGT_TBL_CFG_EN r.table = true → u.flag F.AGT_TBL_STS_INIT r.table = false →
    emSeek u r.table r.key = (v, some loc) → entSrc (emRaw v r.table loc) ≠ r.srcport.toNat → entStatic (emRaw v r.table loc) = true →
    exec .learnRequest s = .next (count v (12800 + 8 * r.table + 4) 1 0)) ∧
  (∀ (s u : State) (t : Fin 64) (key : List Byte) (n : Nat), u = advance s n → pktUp u = true → windowOpen u t.val key = false →
    exec (.moveWindowClose t key n) s = .next (trackDrop u t.val key)) ∧
  (∀ (s u : State) (t : Fin 64) (n : Nat), u = advance s n → pktUp u = true → tblLive u t.val = true →
    u.flag F.AGT_TBL_STS_INIT t.val = false → tblType u t.val = 0 → u.flag F.AGT_TBL_CFG_AGE_EN t.val = true → agePeriod u t.val ≠ 0 →
    mget noPos u.agt.agePos t.val = none → mget noNat u.agt.ageDue t.val ≤ u.tim.elapsed →
    ∃ v : State, exec (.ageingPassStart t n) s = .next v ∧ v = { u with agt := v.agt } ∧
      v.agt = { u.agt with agePos := mset noPos u.agt.agePos t.val (some ⟨0, 0, u.tim.elapsed, agePeriod u t.val,
        tblSize u t.val + (stashLocs u t.val).length⟩), ageDue := v.agt.ageDue } ∧
      v.agt.ageDue = mset noNat u.agt.ageDue t.val (mget noNat u.agt.ageDue t.val + agePeriod u t.val)) ∧
  (∀ (s u : State) (t : Fin 64) (n : Nat) (p : AgePass), u = advance s n → pktUp u = true → mget noPos u.agt.agePos t.val = some p →
    u.flag F.AGT_TBL_CFG_AGE_EN t.val = true → (liveLocs u t.val).find? (fun l => decide (p.pos ≤ l)) = none →
    (p.start + p.period * p.count / max 1 p.count ≤ u.tim.elapsed →
      exec (.ageingVisit (t, n)) s = .next { u with agt := { u.agt with agePos := mset noPos u.agt.agePos t.val none } }) ∧
    (u.tim.elapsed < p.start + p.period * p.count / max 1 p.count → exec (.ageingVisit (t, n)) s = .next u)) ∧
  (∀ (s u : State) (t : Fin 64) (n l : Nat) (p q : AgePass), u = advance s n → pktUp u = true → mget noPos u.agt.agePos t.val = some p →
    u.flag F.AGT_TBL_CFG_AGE_EN t.val = true → (liveLocs u t.val).find? (fun l => decide (p.pos ≤ l)) = some l →
    q = ⟨l + 1, if l < tblSize u t.val then p.slots else p.slots + 1, p.start + (u.tim.elapsed - ageTime p (agePlace u t.val p l)), p.period,
      p.count⟩ →
    (u.tim.elapsed < ageTime p (agePlace u t.val p l) → exec (.ageingVisit (t, n)) s = .next u) ∧
    (∀ v : State, ageTime p (agePlace u t.val p l) ≤ u.tim.elapsed →
      v = { u with agt := { u.agt with agePos := mset noPos u.agt.agePos t.val (some q) } } →
      exec (.ageingVisit (t, n)) s = .next (ageVisit v t.val l))) ∧
  (∀ (v : State) (t l : Nat), (locInDram v t l = true → tagProbe v 2 t (l / 4) = (v, false)) →
    (locInDram v t l = false → visitProbe v t l = (v, false)) →
    (emHit v t l = true → ageVisit v t l = setHit v t l false) ∧
    (emHit v t l = false → entStatic (emRaw v t l) = false → entFrozen (emRaw v t l) = false →
      ageVisit v t l = count (emDelete v t l) (12800 + 8 * t + 6) 1 0) ∧
    (emHit v t l = false → entStatic (emRaw v t l) = true → ageVisit v t l = v)))

/-- R204–R208: inserting, updating, deleting and finding an entry of each type. `u` is the state in which the command runs.
R202, R209–R212: cursors, flushes and the clearing of a bad location. -/
def Obligations.TableEntries : Prop :=
  ((∀ (s u x v : State) (c : Ctl) (img : List Byte) (t l n : Nat) (e : Item) (m : Nat) (st b : Bool), Class1 s u c 0x101 t 0 →
    e = imageOf img → n = tblKeyLen u t → emSeek u t (entKey e n) = (x, none) →
    emInsert x t (mkEntry (entStatic e) (entFrozen e) n (entSrc e) (tblGen x t) 0 (entKey e n) (entAction e)) = (⟨some l, m, st, b⟩, v) →
    exec (.tblInsert c img) s = .next (ctlEnds s v c 0x101 stOk (body1 v t l 0 0 m st false))) ∧
  (∀ (s u v : State) (c : Ctl) (img : List Byte) (t l : Nat), Class1 s u c 0x101 t 0 →
    emSeek u t (entKey (imageOf img) (tblKeyLen u t)) = (v, some l) →
    exec (.tblInsert c img) s = .next (ctlEnds s v c 0x101 stExists (body1 v t 0xFFFFFFFF 0 0 0 false false))) ∧
  (∀ (s u x v : State) (c : Ctl) (img : List Byte) (t : Nat) (p : Prefix), Class1 s u c 0x101 t 1 → plenOk u t img = true →
    p = imagePfx u t img → findPfx u t p = (x, none) → (pfxAll x t).length < lpmCap x t → v = putPfx x t p (pfxInsert p (pfxAll x t)) →
    exec (.tblInsert c img) s = .next (ctlEnds s v c 0x101 stOk (body1 v t 0xFFFFFFFF 0 0 0 false false))) ∧
  (∀ (s u v : State) (c : Ctl) (img : List Byte) (t : Nat), Class1 s u c 0x101 t 2 → cmdLoc c < tblSize u t →
    v = dirPut u t (cmdLoc c) img →
    exec (.tblInsert c img) s = .next (ctlEnds s v c 0x101 stOk (body1 v t (cmdLoc c) 0 0 0 false false))) ∧
  (∀ (s u x v : State) (c : Ctl) (img : List Byte) (t l : Nat) (e m : Item), Class1 s u c 0x102 t 0 →
    (cmdBit c 14 = false ∨ locOk u t (cmdLoc c) = true) → cmdEntry c u img = (x, some l) → e = emRaw x t l → m = imageOf img →
    cmdBit c 16 = true → cmdBit c 17 = false → cmdBit c 18 = false → cmdBit c 19 = false →
    v = emRewrite x t l (entStatic e) (entFrozen e) (entSrc e) (tblGen x t) (entMoves e) (entAction m) (emHit x t l) →
    exec (.tblUpdate c img) s = .next (ctlEnds s v c 0x102 stOk (body1 v t l 0 0 0 false false))) ∧
  (∀ (s u x v : State) (c : Ctl) (img : List Byte) (t : Nat) (q : Prefix), Class1 s u c 0x102 t 1 → plenOk u t img = true →
    findPfx u t (imagePfx u t img) = (x, some q) → cmdBit c 16 = true →
    v = putPfx x t q ((pfxAll x t).map (fun y => if y == q then { q with result := (imagePfx x t img).result } else y)) →
    exec (.tblUpdate c img) s = .next (ctlEnds s v c 0x102 stOk (body1 v t 0xFFFFFFFF 0 0 0 false false))) ∧
  (∀ (s u x v : State) (c : Ctl) (img : List Byte) (t l : Nat), Class1 s u c 0x103 t 0 →
    (cmdBit c 14 = false ∨ locOk u t (cmdLoc c) = true) → cmdEntry c u img = (x, some l) → v = emDelete x t l →
    exec (.tblDelete c img) s = .next (ctlEnds s v c 0x103 stOk (body1 v t l 0 0 0 false false))) ∧
  (∀ (s u x v : State) (c : Ctl) (img : List Byte) (t : Nat) (q : Prefix), Class1 s u c 0x103 t 1 → plenOk u t img = true →
    findPfx u t (imagePfx u t img) = (x, some q) → v = dropPfx x t q →
    exec (.tblDelete c img) s = .next (ctlEnds s v c 0x103 stOk (body1 v t 0xFFFFFFFF 0 0 0 false false))) ∧
  (∀ (s u x v : State) (c : Ctl) (img : List Byte) (t l : Nat), Class1 s u c 0x104 t 0 →
    (cmdBit c 14 = false ∨ locOk u t (cmdLoc c) = true) → cmdEntry c u img = (x, some l) →
    v = hostWrite x (s.fld F.HIF_CTR_CFG_FN c.ring.val) (cmdAddr c) (itemBytes (emImage x t l)) →
    exec (.tblSearch c img) s = .next (ctlEnds s v c 0x104 stOk (body1 v t l 0 0 0 false false))) ∧
  (∀ (s u v : State) (c : Ctl) (img : List Byte) (t : Nat), Class1 s u c 0x104 t 0 →
    (cmdBit c 14 = false ∨ locOk u t (cmdLoc c) = true) → cmdEntry c u img = (v, none) →
    exec (.tblSearch c img) s = .next (ctlEnds s v c 0x104 stNotFound (body1 v t 0xFFFFFFFF 0 0 0 false false)))) ∧
  ((∀ (s u v : State) (c : Ctl) (t pos done : Nat) (bs : List Byte), Class1 s u c 0x105 t 0 → cmdBit c 15 = true →
    mget noCursor u.agt.cursors t = none → 1 ≤ bits (bodyWord c 3) 8 0 → bits (bodyWord c 3) 8 0 ≤ 256 →
    emRecords u t ((liveLocs u t).filter (fun l => decide (0 ≤ l))) (bits (bodyWord c 3) 8 0) 0 [] 0 = (pos, bs, done, v) →
    ∃ w, exec (.tblNext c) s = .next (ctlEnds s w c 0x105 stOk
      (body1 w t 0xFFFFFFFF done pos 0 false (decide (tblSize v t + 4096 ≤ pos)))) ∧
      w = setCursor (hostWrite v (s.fld F.HIF_CTR_CFG_FN c.ring.val) (cmdAddr c) bs) t
        (if decide (tblSize v t + 4096 ≤ pos) then none else some ⟨pos, none, v.tim.elapsed⟩)) ∧
  (∀ (s u : State) (c : Ctl) (t : Nat), Class1 s u c 0x105 t 0 → cmdBit c 15 = false → mget noCursor u.agt.cursors t = none →
    1 ≤ bits (bodyWord c 3) 8 0 → bits (bodyWord c 3) 8 0 ≤ 256 →
    exec (.tblNext c) s = .next (ctlEnds s u c 0x105 stNotFound (body1 u t 0xFFFFFFFF 0 0 0 false false))) ∧
  (∀ (s u v : State) (c : Ctl) (t : Nat), Class1 s u c 0x106 t 0 → mget noFlush u.agt.flushes t = none → bits (bodyWord c 0) 29 28 = 3 →
    v = u.setFld F.AGT_TBL_GEN_GEN t (tblGen u t + 1) →
    exec (.tblFlush c) s = .next (ctlEnds s v c 0x106 stOk (body1 v t 0xFFFFFFFF 0 0 0 false false))) ∧
  (∀ (s u : State) (c : Ctl) (t : Nat), Class1 s u c 0x106 t 0 → mget noFlush u.agt.flushes t = none → bits (bodyWord c 0) 29 28 = 0 →
    ∃ w, exec (.tblFlush c) s = .next w ∧ mget noFlush w.agt.flushes t = mget noFlush (mset noFlush u.agt.flushes t
        (some ⟨0, bits (bodyWord c 0) 27 20, bits (bodyWord c 2) 15 0, cmdBit c 13, 0, none, 0⟩)) t ∧
      w.hif.ctl = u.hif.ctl ++ [⟨c.ring.val, ctrNext s c.ring.val, ctlWord0 c.irq c.fence 0x106, c.token,
        s.fld F.HIF_CTR_CFG_FN c.ring.val, .tblFlush t, false⟩]) ∧
  (∀ (s u v : State) (c : Ctl) (t ty : Nat), ty ≤ 2 → Class1 s u c 0x107 t ty → v = setCursor u t none →
    exec (.tblCursorClose c) s = .next (ctlEnds s v c 0x107 stOk (body1 v t 0xFFFFFFFF 0 0 0 false false))) ∧
  (∀ (s u v w : State) (c : Ctl) (t : Nat), Class1 s u c 0x108 t 0 → cmdLoc c < tblSize u t → locListed u t (cmdLoc c) = true →
    v = setHit (emPut u t (cmdLoc c) 0) t (cmdLoc c) false →
    w = { v with agt := { v.agt with listed := v.agt.listed.filter (· != (t, cmdLoc c)) } } →
    exec (.tblLocClear c) s = .next (ctlEnds s w c 0x108 stOk (body1 w t (cmdLoc c) 0 0 0 false false))) ∧
  (∀ (s u : State) (t : Fin 64) (p : FlushPass) (l : Nat), pktUp s = true → mget noFlush s.agt.flushes t.val = some p →
    tblType s t.val = 0 → flushNextLoc s t.val p = some l → visitProbe s t.val l = (u, false) →
    (flushSelects p (emRaw u t.val l) = true → exec (.flushVisit t) s = .next (count (setFlush (emDelete u t.val l) t.val
      { p with pos := l + 1, deleted := p.deleted + 1 }) (12800 + 8 * t.val + 7) 1 0)) ∧
    (flushSelects p (emRaw u t.val l) = false → exec (.flushVisit t) s = .next (setFlush u t.val { p with pos := l + 1 }))) ∧
  (∀ (s u : State) (t : Fin 64) (p : FlushPass) (c : CtlCmd), pktUp s = true → mget noFlush s.agt.flushes t.val = some p →
    flushOver s t.val p = true → flushCmd s t.val = some c →
    u = { s with agt := { s.agt with flushes := mset noFlush s.agt.flushes t.val none } } →
    exec (.tblFlushComplete t) s = .next (ctlFinish u c [] stOk (body1 s t.val 0xFFFFFFFF p.deleted 0 0 false false))) ∧
  (∀ (s u : State) (t : Fin 64) (n : Nat) (k : Cursor), u = advance s n → pktUp u = true → mget noCursor u.agt.cursors t.val = some k →
    1000000000 * 2 ^ 32 ≤ u.tim.elapsed - k.at_ → exec (.cursorTimeout t n) s = .next (setCursor u t.val none)))

/-! ## Orrery (09) -/

/-- R223, R239–R241: a group's decision dispatches the eligible item of the chosen queue to the chosen thread, a freed slot refills, and a
head tag that is held too long is passed over.
R217, R221, R242, R250, R255–R257: disables, purges and group membership. -/
def Obligations.OrreryQueues : Prop :=
  ((∀ (s u : State) (g : Fin 64) (n p q t left : Nat) (turn : Nat) (x : QItem), u = advance s n → pktUp u = true →
    dispQueue u g.val = some (p, q, turn, left) → eligible u q = some x → dispTarget u g.val = some t → unitErr u 11 x.uid = 0 →
    exec (.dispatch g n) s = .next (settleAll (dispatchTo { u with ory := { u.ory with
      turn := mset noTurn u.ory.turn (8 * g.val + p) (turn, left) } } g.val q t x))) ∧
  (∀ (s u v : State) (q : Nat) (x : QItem) (r : List QItem), pktUp s = true → slotsFree s ≠ 0 →
    (rotateAfter (refillable s) s.ory.refilled).head? = some q → spillQ s q = x :: r → spillProbe s q = (false, u) →
    v = { setSpill u q r with ory := { (setSpill u q r).ory with refilled := q } } →
    exec .spillRefill s = .next (settleAll (setOnchip (noteWrite v 11 0 x.uid x.uid true) q (onchipQ v q ++ [x])))) ∧
  (∀ (s u : State) (d : BitVec 14) (n t e : Nat) (x : Tag), u = advance s n → (domTags u d.toNat).head? = some t → tagOf u t = some x →
    pktUp u = true → u.fld F.ORY_DOM_CFG_HOLD_LIMIT 0 ≠ 0xFFFFFFFF → x.heldFrom = some e →
    max 1 (u.fld F.ORY_DOM_CFG_HOLD_LIMIT 0 * 2 ^ 32) ≤ u.tim.elapsed - e →
    exec (.tagSkip d n) s = .next (settleAll (tagSkip u d.toNat t x))) ∧
  (∀ (s u : State) (d : BitVec 14) (n t : Nat) (x : Tag), u = advance s n → (domTags u d.toNat).head? = some t → tagOf u t = some x →
    u.fld F.ORY_DOM_CFG_HOLD_LIMIT 0 = 0xFFFFFFFF → exec (.tagSkip d n) s = .next u)) ∧
  ((∀ (s : State) (q : BitVec 12), pktUp s = true → s.flag F.ORY_Q_CFG_EN q.toNat = true →
    exec (.queueDisable q) s = .next (settleAll (qDrain (s.setFlag F.ORY_Q_CFG_EN q.toNat false) q.toNat))) ∧
  (∀ (s : State) (q : BitVec 12), pktUp s = true → s.flag F.ORY_Q_CFG_EN q.toNat = true →
    exec (.purge q) s = .next (s.setFlag F.ORY_Q_STS_REJECT q.toNat true)) ∧
  (∀ (s : State) (q : BitVec 12), pktUp s = true → s.flag F.ORY_Q_CFG_EN q.toNat = false →
    exec (.purge q) s = .next (s.setFlag F.ORY_Q_STS_PURGE_BUSY q.toNat true)) ∧
  (∀ (s : State) (q : BitVec 12), pktUp s = true → s.flag F.ORY_Q_STS_PURGE_BUSY q.toNat = true →
    exec (.purgeComplete q) s = .next (settleAll (qDrain ((qEval (purgeAll s q.toNat) q.toNat).setFlag F.ORY_Q_STS_PURGE_BUSY q.toNat
      false) q.toNat))) ∧
  (∀ (s : State) (g : Fin 64) (v : W32), pktUp s = true → (∀ n < 32, v.getLsbD n = true → clusterPresent s n = true) →
    exec (.groupMembershipWrite g v) s = .next (s.setReg .ORY_GRP_MEMBERS g.val v.toNat)) ∧
  (∀ s : State, pktUp s = true → s.flag F.ORY_CTL_EN 0 = true →
    exec .orreryDisable s = .next (settleAll (oryDrain (s.setFlag F.ORY_CTL_EN 0 false)))) ∧
  (∀ (s : State) (l : Fin 16), pktUp s = true → s.flag F.ORY_DLY_L_CFG_EN l.val = true →
    exec (.delayListDisable l) s = .next (dlyDrain (s.setFlag F.ORY_DLY_L_CFG_EN l.val false) l.val)) ∧
  (∀ s : State, pktUp s = true → s.flag F.ORY_DLY_CTL_EN 0 = true →
    exec .delayAreaDisable s = .next (settleAll (foldS (List.range 16) dlyDrain (foldS s.ory.delayed dlyLose
      (s.setFlag F.ORY_DLY_CTL_EN 0 false))))) ∧
  (∀ (s u : State) (l : Fin 16) (n : Nat), u = advance s n → pktUp u = true →
    exec (.delayTick l n) s = .next (settleAll (dlyDrain (foldS (dlyDue u l.val) dlyRelease u) l.val))))

/-- R218, R247, R251–R253: class 3 commands, with the checks of the item and the results of the queue. -/
def Obligations.OrreryClass3 : Prop :=
  (∀ (s u : State) (c : Ctl) (it : Item), Starts s u c 0x301 → itForm it = false →
    exec (.enq c it) s = .next (settleAll (ctlEnds s u c 0x301 stRange []))) ∧
  (∀ (s u v : State) (c : Ctl) (it : Item) (tag : Option Nat) (b : Nat), Starts s u c 0x301 → itForm it = true →
    itemWord it 0 = nullHandle →
    enqueue u false (bits (bodyWord c 0) 11 0) (bits (bodyWord c 0) 29 16) (c.body.getD 1 0) it none 0 = (.ok tag b, v) →
    exec (.enq c it) s = .next (settleAll (ctlEnds s v c 0x301 stOk [match tag with | some t => 2 ^ 31 + t | none => 0]))) ∧
  (∀ (s u v : State) (c : Ctl) (it : Item), Starts s u c 0x301 → itForm it = true → itemWord it 0 = nullHandle →
    enqueue u false (bits (bodyWord c 0) 11 0) (bits (bodyWord c 0) 29 16) (c.body.getD 1 0) it none 0 = (.qoff, v) →
    exec (.enq c it) s = .next (settleAll (ctlEnds s v c 0x301 stQoff []))) ∧
  (∀ (s u v : State) (c : Ctl) (it : Item) (tick : Nat), Starts s u c 0x302 → itForm it = true → itemWord it 0 = nullHandle →
    dlyRefusal u (bits (bodyWord c 0) 15 12) = none →
    dlyInsert u (bits (bodyWord c 0) 15 12) (bodyDword c 2) (bits (bodyWord c 0) 11 0) (bits (bodyWord c 0) 29 16) (c.body.getD 1 0) it =
      (tick, v) →
    exec (.dlyInsert c it) s = .next (settleAll (ctlEnds s v c 0x302 stOk [0, tick % 2 ^ 32, tick / 2 ^ 32]))) ∧
  (∀ (s u : State) (c : Ctl) (it : Item), Starts s u c 0x302 → itForm it = true → itemWord it 0 = nullHandle →
    dlyRefusal u (bits (bodyWord c 0) 15 12) = some true →
    exec (.dlyInsert c it) s = .next (settleAll (ctlEnds s u c 0x302 stQoff [])))

/-! ## Egress and Meridian (14) -/

/-- R387–R390, R394: the scheduler's choice leaves its queue and starts on its port, and a received pause runs out.
R398–R403: the calendar's enable, its requests, and what its instants bring. -/
def Obligations.EgressAndCalendar : Prop :=
  ((∀ (s u v w : State) (p : Fin 18) (n : Nat) (enters : Bool) (c : Choice) (x : EPkt) (rest : List EPkt), u = advance s n →
    pktUp u = true → choose u p = (v, some c) → egrQ v c.que = x :: rest →
    w = arrProbe v 3 c.que (fun y => putEgrQ y c.que (egrQ y c.que).tail) →
    (egrQ w c.que = x :: rest →
      exec (.egressStart p n enters) s = .next (linePauses (startPkt (takeHead w p c x rest) p x enters))) ∧
    (egrQ w c.que ≠ x :: rest → exec (.egressStart p n enters) s = .next (linePauses w))) ∧
  (∀ (s u v : State) (p : Fin 18) (n : Nat) (enters : Bool), u = advance s n → pktUp u = true → choose u p = (v, none) →
    exec (.egressStart p n enters) s = .next (linePauses v)) ∧
  (∀ (s u : State) (p : Fin 16) (i : Fin 8) (n : Nat), u = advance s n → pausedNow u p i = false →
    exec (.pauseExpire p i n) s = .next { u with egr := { u.egr with pauseEnd := mset noNat u.egr.pauseEnd (8 * p.val + i) 0 } }) ∧
  (∀ (s u : State) (p : Fin 16) (i : Fin 8) (n : Nat), u = advance s n → pausedNow u p i = true → exec (.pauseExpire p i n) s = .next u)) ∧
  ((∀ (s u : State) (p : Fin 16), pktUp s = true → lanePresent s p = true → s.flag F.MER_CFG_EN p = false → merRefused s p = false →
    s.fld F.MER_STS_STATE p = 0 → u = s.setFlag F.MER_CFG_EN p true → u.fld F.MER_STS_STATE p = 0 →
    exec (.calendarEnable p) s = .next (setMer (pfFill (u.setFld F.MER_STS_STATE p 1) p []) p { noMer 0 with
      next := if s.flag F.MER_CFG_MODE p then none else some (merNextNt s p (nt64 s + s.fld F.MER_PREROLL_NS p)) })) ∧
  (∀ (s : State) (p : Fin 16), pktUp s = true → lanePresent s p = true → s.flag F.MER_CFG_EN p = false → s.flag F.MER_CFG_MODE p = true →
    s.fld F.MER_SYNC_DELAY p < s.fld F.MER_CFG_GAP_GUARD p + 1000 →
    exec (.calendarEnable p) s = .next (s.setFlag F.MER_STS_REJECT p true)) ∧
  (∀ (s u : State) (p : Fin 16), pktUp s = true → lanePresent s p = true → s.flag F.MER_CFG_EN p = true →
    u = s.setFlag F.MER_CFG_EN p false →
    (s.fld F.MER_STS_STATE p = 2 → exec (.calendarDisable p) s = .next (setMer u p { merOf u p with stopping := true })) ∧
    (s.fld F.MER_STS_STATE p ≠ 2 → exec (.calendarDisable p) s =
      .next (pfSync (setMer ((u.setFld F.MER_STS_STATE p 0).setFld F.MER_STS_SLOT p 0) p (noMer 0)) p))) ∧
  (∀ (s u : State) (p : Fin 16) (n : Nat), u = advance s n → pktUp u = true → (merOf u p).stopping = true → u.fld F.MER_STS_STATE p = 2 →
    periodOver u p = true →
    exec (.calendarStop p n) s = .next (pfSync (setMer ((u.setFld F.MER_STS_STATE p 0).setFld F.MER_STS_SLOT p 0) p (noMer 0)) p)) ∧
  (∀ (s : State) (p : Fin 16), pktUp s = true → lanePresent s p = true → s.flag F.MER_CTL_SW_REQ p = false →
    exec (.swReq p) s = .next ((s.setFlag F.MER_CTL_SW_REQ p true).setFlag F.MER_STS_SWITCHED p false)) ∧
  (∀ (s u : State) (p : Fin 16) (n a : Nat), u = advance s n → pktUp u = true → (merOf u p).next = some a → u.fld F.MER_STS_STATE p = 1 →
    (merOf u p).stopping = false → a ≤ nt64 u → exec (.periodStart p n) s = .next (beginPeriod u p a)) ∧
  (∀ (s u : State) (p : Fin 16) (n a : Nat), u = advance s n → pktUp u = true → (merOf u p).next = some a → u.fld F.MER_STS_STATE p = 2 →
    (merOf u p).stopping = false → a ≤ nt64 u → periodOver u p = false → u.flag F.MER_CFG_MODE p = true →
    exec (.periodStart p n) s = .next (setMer (egrPortCount (u.setFlag F.MER_STS_SYNC_EARLY p true) p 8 0) p
      { merOf u p with next := (merOf u p).more.head?, more := (merOf u p).more.drop 1 })) ∧
  (∀ (s u : State) (p : Fin 16) (n : Nat), u = advance s n → pktUp u = true → u.fld F.MER_STS_STATE p = 2 → (merOf u p).slotEnd ≤ nt64 u →
    u.fld F.MER_STS_SLOT p + 1 < u.fld F.MER_NSLOTS_ACTIVE p →
    exec (.slotBoundary p n) s = .next (enterSlot u p (u.fld F.MER_STS_SLOT p + 1) (merOf u p).slotEnd)) ∧
  (∀ (s u : State) (p : Fin 16) (n : Nat), u = advance s n → pktUp u = true → u.fld F.MER_STS_STATE p = 2 → (merOf u p).slotEnd ≤ nt64 u →
    u.fld F.MER_NSLOTS_ACTIVE p ≤ u.fld F.MER_STS_SLOT p + 1 → u.flag F.MER_CFG_MODE p = true → (merOf u p).stopping = false →
    exec (.slotBoundary p n) s = .next (enterGap u p)) ∧
  (∀ (s u : State) (p : Fin 16) (n : Nat), u = advance s n → pktUp u = true → portFormed u p = true →
    exec (.prerollStart p n) s = .next (panicSync (prerollStart u p))))

/-! ## DRC (15) -/

/-- R411, R413, R416–R418, R420, R424: requests enter and are served in the order of the rule, a refresh at its limit before them, and the
patrol scrubber moves.
R419–R421, R423, R426: initialisation, enable, disable and the registers that a read clears. -/
def Obligations.DramServiceAndControl : Prop :=
  ((∀ (s u : State) (k : Fin 8) (b : BitVec 33) (o : Fin 64) (bs : List Byte) (l : Fin 16) (n : Nat), u = advance s n → drcReady u = true →
    drcCapacity u * 2 ^ 24 ≤ b.toNat → exec (.dramRequest k b (some (o, bs)) l n) s = .next (u.bump F.DRC_STS_OOR 0 1)) ∧
  (∀ (s u : State) (k : Fin 8) (b : BitVec 33) (l : Fin 16) (n : Nat), u = advance s n → drcReady u = true → k ≠ 0 →
    drcCapacity u * 2 ^ 24 ≤ b.toNat → exec (.dramRequest k b none l n) s =
      .next (giveBack (u.bump F.DRC_STS_OOR 0 1) ⟨k.val, b.toNat, none, l.val, 0, 0, false⟩ (List.replicate 64 0) 0)) ∧
  (∀ (s u : State) (k : Fin 8) (b : BitVec 33) (l : Fin 16) (n : Nat), u = advance s n → drcReady u = true →
    (k ≠ 0 ∨ pfNext u l.val = some b.toNat) → b.toNat < drcCapacity u * 2 ^ 24 →
    exec (.dramRequest k b none l n) s = .next (enterAll { u with drc := { u.drc with
      waiting := u.drc.waiting ++ [⟨k.val, b.toNat, none, l.val, 0, 0, false⟩] } })) ∧
  (∀ (s u : State) (c : Fin 6) (pos : List (Fin 10)) (n : Nat) (x : DReq), u = advance s n → dramOn u = true →
    refAtLimit u c.val 0 = false → refAtLimit u c.val 1 = false → chooseNext u c.val = some x →
    (isWrite x = false → exec (.dramReadComplete c ⟨pos, n⟩) s = .next (serveNext u c.val x (pos.map (·.val)))) ∧
    (isWrite x = true → exec (.dramWriteDrain c n) s = .next (serveNext u c.val x []))) ∧
  (∀ (s u : State) (c : Fin 6) (pos : List (Fin 10)) (n : Nat), u = advance s n → dramOn u = true → refAtLimit u c.val 0 = true →
    exec (.dramReadComplete c ⟨pos, n⟩) s = .next (refresh u c.val 0) ∧ exec (.dramWriteDrain c n) s = .next (refresh u c.val 0)) ∧
  (∀ (s : State) (c : Nat) (l : List DReq) (x : DReq), l = rqOf s c ++ (if drainMode s c = 0 then [] else freeWrites s c) →
    (panicOn s = false → oldest (l.filter (agedReq s)) = some x → chooseNext s c = some x) ∧
    (panicOn s = false → oldest (l.filter (agedReq s)) = none → oldest (l.filter (rowHit s)) = some x → chooseNext s c = some x) ∧
    (panicOn s = false → oldest (l.filter (agedReq s)) = none → oldest (l.filter (rowHit s)) = none → chooseNext s c = oldest l) ∧
    (panicOn s = true → drainMode s c ≠ 2 → oldest ((rqOf s c).filter (·.port == 0)) = some x → chooseNext s c = some x)) ∧
  (∀ (s : State) (c : Fin 6) (r : Fin 2), dramOn s = true → chanInSet s c.val = true →
    exec (.dramRefresh (c, r)) s = .next (refresh s c.val r.val) ∧
    ∀ (ns : W16) (hot : Bool), mget noNat s.drc.refInt (2 * c.val + r.val) ≠ 0 → ∃ u, exec (.mr4Poll c ⟨r, ns, hot⟩) s = .next u ∧
      u.drc = { s.drc with refInt := mset noNat s.drc.refInt (2 * c.val + r.val) ns.toNat,
                           hot := mset noBool s.drc.hot (2 * c.val + r.val) hot } ∧
      u = { s.setFlag F.DRC_CH_STS_HI_TEMP c.val (mget noBool u.drc.hot (2 * c.val) || mget noBool u.drc.hot (2 * c.val + 1)) with
            drc := u.drc }) ∧
  (∀ (s u : State) (n b : Nat), drcReady s = true → s.flag F.DRC_SCRUB_EN 0 = true → panicOn s = false →
    n = drcCapacity s * 2 ^ 24 → 0 < n → b = s.drc.scrubPos % n → u = scrubBurst s b →
    (b + 1 < n → exec .dramScrubRead s = .next { u with drc := { u.drc with scrubPos := b + 1 } }) ∧
    (b + 1 = n → exec .dramScrubRead s =
      .next ({ u with drc := { u.drc with scrubPos := 0 } }.wrapAdd F.DRC_SCRUB_STS_PASSES 0 1)))) ∧
  ((∀ s : State, memUp s = true → s.flag F.DRC_CTL_EN 0 = false → dramOn s = true → s.flag F.DRC_CTL_INIT_GO 0 = false →
    exec .initGo s = .next ((s.setFlag F.DRC_CTL_INIT_GO 0 true).setFlag F.DRC_STS_INIT_DONE 0 false)) ∧
  (∀ s : State, memUp s = true → s.flag F.DRC_CTL_EN 0 = true → exec .initGo s = .next (s.setFlag F.DRC_STS_REJECT 0 true)) ∧
  (∀ s : State, dramOn s = true → s.flag F.DRC_CTL_INIT_GO 0 = true → ∃ u, exec .initDone s = .next u ∧ u.dram = [] ∧
    u = ((clearBad { s with dram := [] } 13 0 (2 ^ 64)).setFlag F.DRC_CTL_INIT_GO 0 false).setFlag F.DRC_STS_INIT_DONE 0 true) ∧
  (∀ s : State, memUp s = true → s.flag F.DRC_CTL_EN 0 = false → drcCapacity s ≠ 0 → s.flag F.DRC_CTL_DRAM_RESET_N 0 = true →
    s.flag F.DRC_STS_INIT_DONE 0 = true →
    exec .drcEnable s = .next (enterAll ((s.setFlag F.DRC_CTL_EN 0 true).setFlag F.DRC_STS_DRAINED 0 false))) ∧
  (∀ s : State, memUp s = true → s.flag F.DRC_CTL_EN 0 = false → s.flag F.DRC_STS_INIT_DONE 0 = false →
    exec .drcEnable s = .next (s.setFlag F.DRC_STS_REJECT 0 true)) ∧
  (∀ s : State, memUp s = true → s.flag F.DRC_CTL_EN 0 = true → s.flag F.CRN_DRAM_CFG_EN 0 = true →
    exec .drcDisable s = .next (s.setFlag F.DRC_STS_REJECT 0 true)) ∧
  (∀ s : State, memUp s = true → s.flag F.DRC_CTL_EN 0 = true → dramAreaOn s = false →
    exec .drcDisable s = .next (drcDrain (s.setFlag F.DRC_CTL_EN 0 false))) ∧
  (∀ (s : State) (c : Fin 6), memUp s = true → channelPresent s c.val = true →
    exec (.drcEccRead c) s = .next { s.setReg .DRC_CH_ECC c.val 0 with
      rdata := BitVec.ofNat 64 (s.reg .DRC_CH_ECC c.val), drc := { s.drc with thrDone := mset noBool s.drc.thrDone c.val false } } ∧
    exec (.drcEccAddrRead c) s =
      .next { s.setReg .DRC_CH_ECC_ADDR c.val 0 with rdata := BitVec.ofNat 64 (s.reg .DRC_CH_ECC_ADDR c.val) }))

/-- R425: the command engine takes one command to the devices at a time and completes it.
R425: a training step runs in its own mode, one at a time, and reports the lanes it has. -/
def Obligations.DramEngineAndTraining : Prop :=
  ((∀ (s u : State) (op : Fin 4) (ch : BitVec 3) (sub rank : Bool) (addr : BitVec 12) (data : Byte), memUp s = true →
    s.flag F.DRC_MRW_BUSY 0 = false → dramOn s = true →
    u = foldS [(F.DRC_MRW_OP, op.val), (F.DRC_MRW_CH, ch.toNat), (F.DRC_MRW_SUB, b2n sub), (F.DRC_MRW_RANK, b2n rank),
      (F.DRC_MRW_ADDR, addr.toNat), (F.DRC_MRW_DATA, data.toNat)] (fun v x => v.setFld x.1 0 x.2) s →
    exec (match op with
      | 0 => .modeRegisterWrite ch sub rank addr data
      | 1 => .modeRegisterRead ch sub rank addr data
      | 2 => .rcdWrite ch sub rank addr data
      | 3 => .rcdRead ch sub rank addr data) s =
    .next { u.setFlag F.DRC_MRW_BUSY 0 true with
      drc := { s.drc with mrw := some (op.val, ch.toNat, b2n sub, b2n rank, addr.toNat, data.toNat) } }) ∧
  (∀ (s u : State) (v : Byte) (op ch sub rank addr data : Nat), memUp s = true → s.drc.mrw = some (op, ch, sub, rank, addr, data) →
    u = { s with drc := { s.drc with mrw := none } }.setFlag F.DRC_MRW_BUSY 0 false →
    (op % 2 = 1 → exec (.mrwComplete v) s = .next (u.setFld F.DRC_MRW_DATA 0 v.toNat)) ∧
    (op % 2 = 0 → exec (.mrwComplete v) s = .next { u with drc := { u.drc with
      devRegs := mset zeroByte u.drc.devRegs (devKey op ch sub rank addr) (BitVec.ofNat 8 data) } }))) ∧
  ((∀ (s u : State) (k : Fin 8) (ch : BitVec 3) (sub rank : Bool) (lo hi : Byte), memUp s = true → s.flag F.DRC_TRN_CTL_BUSY 0 = false →
    u = foldS [(F.DRC_TRN_CTL_STEP, k.val), (F.DRC_TRN_CTL_CH, ch.toNat), (F.DRC_TRN_CTL_SUB, b2n sub), (F.DRC_TRN_CTL_RANK, b2n rank),
      (F.DRC_TRN_CTL_SWEEP_LO, lo.toNat), (F.DRC_TRN_CTL_SWEEP_HI, hi.toNat)] (fun v x => v.setFld x.1 0 x.2) s →
    exec (match k with
      | 0 => .csTraining ch sub rank lo hi
      | 1 => .caTraining ch sub rank lo hi
      | 2 => .writeLevelling ch sub rank lo hi
      | 3 => .readStrobeGating ch sub rank lo hi
      | 4 => .readDataEye ch sub rank lo hi
      | 5 => .writeDataEye ch sub rank lo hi
      | 6 => .dqReferenceVoltage ch sub rank lo hi
      | 7 => .caReferenceVoltage ch sub rank lo hi) s =
    .next { u.setFlag F.DRC_TRN_CTL_BUSY 0 true with drc := { u.drc with trn := some k.val } }) ∧
  (∀ (s u : State) (k : Nat) (res : List (Byte × Byte × Bool)), memUp s = true → s.drc.trn = some k →
    u = foldS ((res.take (trnLanes k)).zipIdx) (fun v x =>
      v.setReg .DRC_TRN_RES x.2 (x.1.1.toNat * 2 ^ 16 + x.1.2.1.toNat * 2 ^ 8 + b2n x.1.2.2 * 2 ^ 7)) s →
    exec (.trainingStepDone res) s = .next ({ u with drc := { u.drc with trn := none } }.setFlag F.DRC_TRN_CTL_BUSY 0 false)))

/-! ## ICU, sleep and integrity (16, 17) -/

/-- R431, R434–R439, R444: a source is routed, delivered and claimed, and software sets, clears and masks.
R437: of two claims of one EDGE source, the second receives 1,023 and changes nothing. -/
def Obligations.Interrupts : Prop :=
  ((∀ (s v : State) (i : BitVec 10) (e : Nat), pktUp s = true → v = srcProbe s i.toNat → deliverable v i.toNat = true →
    routeChoice v i.toNat = some e →
    ∃ u : State, exec (.icuRouteChoice i) s = .next u ∧ u = { v with icu := u.icu } ∧
      u.icu = { v.icu with next := mset noNat v.icu.next i.toNat ((e + 1) % 8), flight := v.icu.flight ++ [⟨i.toNat, routeTgt v i.toNat e⟩] }) ∧
  (∀ (s : State) (i : Nat), (unitErr s 11 (arrUnit 7 i) = 0 → srcProbe s i = s) ∧
    (2 ≤ unitErr s 11 (arrUnit 7 i) → srcPending (srcProbe s i) i = false)) ∧
  (∀ (s : State) (i : BitVec 10) (x : Flight), pktUp s = true → s.icu.flight.find? (·.src == i.toNat) = some x →
    exec (.icuDeliveryComplete i) s = .next (settleAll (completeFlight s x))) ∧
  (∀ (s v u : State) (t : Fin 97) (i : BitVec 10), pktUp s = true → i.toNat < 1023 → v = srcProbe s i.toNat → outAt v i.toNat = some t.val →
    srcPending v i.toNat = true → u = dropOut v i.toNat →
    exec (.icuClaim t i) s = .next (settleAll { (if isLevel i.toNat then u else setPending u i.toNat false) with
      rdata := BitVec.ofNat 64 i.toNat })) ∧
  (∀ (s v : State) (t : Fin 97) (i : BitVec 10), pktUp s = true → v = srcProbe s i.toNat →
    outAt v i.toNat ≠ some t.val ∨ srcPending v i.toNat = false ∨ i.toNat = 1023 →
    exec (.icuClaim t i) s = .next (settleAll { v with rdata := 1023 })) ∧
  (∀ (s : State) (j : Fin 32) (w : W32), pktUp s = true →
    exec (.icuPendSet j w) s = .next (foldS (srcsOf j.val w.toNat) (fun u i =>
      if isLevel i || !srcPresent u i then u else setPending u i true) s) ∧
    exec (.icuPendClr j w) s = .next (settleAll (foldS (srcsOf j.val w.toNat) (fun u i =>
      if isLevel i then u else dropOut (setPending u i false) i) s)) ∧
    exec (.icuMaskSet j w) s = .next (settleAll (foldS (srcsOf j.val w.toNat) (fun u i => dropOut (setMasked u i true) i) s)) ∧
    exec (.icuMaskClr j w) s = .next (foldS (srcsOf j.val w.toNat) (fun u i => setMasked u i false) s)) ∧
  (∀ (s : State) (n : Fin 32) (w : W32), clUp s n.val = true → pktUp s = true → 512 ≤ w.toNat % 1024 → w.toNat % 1024 ≤ 1022 →
    srcPresent s (w.toNat % 1024) = true →
    exec (.swSet n w) s = .next ((setPending s (w.toNat % 1024) true).setReg .ICU_DETAIL (w.toNat % 1024) 0)) ∧
  (∀ (s : State) (n : Fin 32) (w : W32), (w.toNat % 1024 < 512 ∨ w.toNat % 1024 = 1023) → exec (.swSet n w) s = .next s)) ∧
  (∀ (s u : State) (t t' i : Nat), mwf noTgt s.icu.out = true → claimSrc s t i = (i, u) → i < 1023 →
    claimSrc u t' i = (1023, u))

/-- R440, R483: MGT's sleep saves its target and a wake restores it.
R453, R462, R463: beats that are resent, the scrubber's read, and the arming of an injection. -/
def Obligations.SleepAndIntegrity : Prop :=
  ((∀ s : State, mgtUp s = true → s.flag F.RST_MGT_PWR_SLEEP_EN 0 = true → s.flag F.RST_MGT_PWR_ASLEEP 0 = false → mgtQuiet s = true →
    ∃ u : State, exec .mgtSleep s = .next u ∧ u.icu.retEn = s.flag F.ICU_TGT_CFG_EN 32 ∧ u.icu.retOut = outSet s 32 ∧
      u.icu.out = s.icu.out.filter (fun e => e.2 != some 32) ∧ u = { s with icu := u.icu, regs := u.regs }) ∧
  (∀ (s u v : State) (n : Nat), u = advance s n → mgtUp u = true → u.flag F.RST_MGT_PWR_ASLEEP 0 = true → wakeDue u = true →
    u.icu.retNew = false →
    v = { u with icu := { u.icu with out := u.icu.retOut.foldl (fun m i => mset noTgt m i (some 32)) u.icu.out, retOut := [], retNew := false } } →
    exec (.mgtWake n) s = .next (settleAll (((v.setFlag F.ICU_TGT_CFG_EN 32 u.icu.retEn).setFlag F.ICU_RET_STS_SAVED 0 false).setFlag
      F.RST_MGT_PWR_ASLEEP 0 false)))) ∧
  ((∀ (s : State) (h : Byte), pktUp s = true → nocStopped s h.toNat = false →
    exec (.nocBeatResend h false) s = .next ((setNoc s h.toNat 1).bump F.RST_ERR_CNT_CE 12 1)) ∧
  (∀ (s : State) (h : Byte), pktUp s = true → nocStopped s h.toNat = false → nocFails s h.toNat < 255 →
    exec (.nocBeatResend h true) s = .next ((setNoc s h.toNat (nocFails s h.toNat + 1)).bump F.RST_ERR_CNT_CE 12 1)) ∧
  (∀ (s u : State) (h : Byte), pktUp s = true → nocStopped s h.toNat = false → nocFails s h.toNat = 255 →
    u = setNoc s h.toNat 0 →
    exec (.nocStuck h) s = .next (holdOne ((noteUe { u with integ := { u.integ with nocStuck := mset noBool s.integ.nocStuck h.toNat true } }
      12 10 1 3 h.toNat 0).setFlag F.RST_ELOG_STS_NOC_STUCK 0 true))) ∧
  (∀ s : State, pktUp s = true → s.flag F.RST_SCRUB_CFG_EN 0 = true → s.integ.scrubMem = 0 → unitErr s 0 s.integ.scrubPos = 0 →
    s.integ.scrubPos + 1 < 4194304 →
    exec .onchipScrubRead s = .next (settleAll { s with integ := { s.integ with scrubPos := s.integ.scrubPos + 1 } })) ∧
  (∀ (s : State) (pos : Nat), pktUp s = true → s.flag F.RST_SCRUB_CFG_EN 0 = true → s.integ.scrubMem = 0 → pos = s.integ.scrubPos →
    pos + 1 < 4194304 → unitErr s 0 pos = 1 →
    exec .onchipScrubRead s = .next (settleAll { noteCe (setUnitErr s 0 pos 0) 0 2 1 (handleOf (pos / 8)) 6 with
      integ := { (noteCe (setUnitErr s 0 pos 0) 0 2 1 (handleOf (pos / 8)) 6).integ with scrubPos := pos + 1 } })) ∧
  (∀ (s u : State) (m : BitVec 4) (b : BitVec 2) (n : Fin 32) (x : Bool) (a : W64), pktUp s = true →
    u = foldS [(F.RST_EINJ_CTL_TARGET, m.toNat), (F.RST_EINJ_CTL_BITS, b.toNat), (F.RST_EINJ_CTL_CLUSTER, n.val),
      (F.RST_EINJ_CTL_MATCH, b2n x), (F.RST_EINJ_ADDR_ADDR, a.toNat)] (fun v x => v.setFld x.1 0 x.2) s →
    u.fld F.RST_EINJ_CTL_TARGET 0 < 12 → u.flag F.RST_EINJ_CTL_ARM 0 = false →
    exec (.einjArm m b n x a) s = .next (u.setFlag F.RST_EINJ_CTL_ARM 0 true)))

/-! ## Clusters: caches, control, channels (10) -/

/-- R264, R269, R270: a miss fills from shared memory, an invalidation empties the caches, and a start makes threads ready.
R276–R282, R336: the fault queue, what GCL_THRCTL does and what it refuses, and the supervisor. -/
def Obligations.ClusterCachesAndThreads : Prop :=
  ((∀ (s u v : State) (t : BitVec 14) (pc : Nat), thrUp s t.toNat = true → isMgt t.toNat = false → parked s (cluOf t.toNat) = false →
    (thrOf s t.toNat).wait = .fetch → (thrOf s t.toNat).fills = [] → pc = (thrOf s t.toNat).pc.toNat →
    placeRead s t.toNat (.shared (pc - 0x100000)) 4 = ((placeRead s t.toNat (.shared (pc - 0x100000)) 4).1, none, s) →
    (icOf s (coreOf t.toNat)).length < 4096 →
    u = { s with gar := { s.gar with icache := mset noWord s.gar.icache (icKey t.toNat pc) (some (icWord s (cluOf t.toNat) pc)) } } →
    v = noteWrite u 5 (cluOf t.toNat) (icKey t.toNat pc) (icKey t.toNat pc) true →
    exec (.icacheMissFill t) s = .next (settleAll (endWait v t.toNat (thrOf v t.toNat)))) ∧
  (∀ (s w u : State) (t : BitVec 14) (p : W32) (r : List W32) (pc : Nat), thrUp s t.toNat = true → isMgt t.toNat = false →
    parked s (cluOf t.toNat) = false → (thrOf s t.toNat).fills = p :: r → pc = p.toNat →
    w = setThr s t.toNat { thrOf s t.toNat with fills := r } →
    placeRead w t.toNat (.shared (pc - 0x100000)) 4 = ((placeRead w t.toNat (.shared (pc - 0x100000)) 4).1, none, w) →
    (icOf w (coreOf t.toNat)).length < 4096 →
    u = { w with gar := { w.gar with icache := mset noWord w.gar.icache (icKey t.toNat pc) (some (icWord w (cluOf t.toNat) pc)) } } →
    exec (.icacheMissFill t) s = .next (noteWrite u 5 (cluOf t.toNat) (icKey t.toNat pc) (icKey t.toNat pc) true)) ∧
  (∀ (s : State) (n : Fin 32), clUp s n.val = true → exec (.icInv n) s = .next (s.setFlag F.GCL_CTL_IC_INV n.val true)) ∧
  (∀ (s : State) (n : Fin 32), clUp s n.val = true → s.flag F.GCL_CTL_IC_INV n.val = true →
    exec (.icInvDone n) s = .next ((clearBad { s with gar := { s.gar with icache := mkeep (fun k => k / 2 ^ 23 != n.val) s.gar.icache } }
      5 (2 ^ 23 * n.val) (2 ^ 23 * (n.val + 1))).setFlag F.GCL_CTL_IC_INV n.val false)) ∧
  (∀ (s : State) (n : Fin 32), clUp s n.val = true → exec (.clusterStart n) s = .next (settleAll (foldS
    ((List.range 256).map (256 * n.val + ·)) (fun u t =>
      if isSupv u t then startThr u t (supvPc u n.val) true
      else if thrMask u .GCL_THR_EN t then startThr u t (entryPc u n.val) (thrMask u .GCL_THR_PRIV t) else u)
    (s.setFlag F.GCL_STS_STARTED n.val true))))) ∧
  ((∀ (s : State) (n : Fin 32), clUp s n.val = true → faultqOf s n.val = [] → exec (.faultqPop n) s = .next { s with rdata := 0 }) ∧
  (∀ (s u : State) (n : Fin 32) (r : List W32) (l : List (List W32)), clUp s n.val = true → faultqOf s n.val = r :: l →
    u = foldS [0, 1, 2, 3] (fun u k => u.setReg .GCL_FAULTQ_REC (4 * n.val + k) (r.getD k 0).toNat)
      { s with gar := { s.gar with faultq := mset noRecs s.gar.faultq n.val l } } →
    exec (.faultqPop n) s = .next (settleAll { levelSrc u (96 + n.val) (!l.isEmpty) 0 with rdata := BitVec.ofNat 64 (2 ^ 31 + l.length) })) ∧
  (∀ (s : State) (n : Fin 32) (i : Byte) (t : Nat) (pc : W32), clUp s n.val = true → t = 256 * n.val + i.toNat → (thrOf s t).st ≠ .fault →
    exec (.thrctlResume n i) s = .next (settleAll (s.setFlag F.GCL_STS_THRCTL_REJECT n.val true)) ∧
    exec (.thrctlSkip n i) s = .next (settleAll (s.setFlag F.GCL_STS_THRCTL_REJECT n.val true)) ∧
    exec (.thrctlRedirect n i pc) s = .next (settleAll (s.setFlag F.GCL_STS_THRCTL_REJECT n.val true)) ∧
    exec (.thrctlDrop n i) s = .next (settleAll (s.setFlag F.GCL_STS_THRCTL_REJECT n.val true))) ∧
  (∀ (s : State) (n : Fin 32) (i : Byte) (t : Nat) (pc : W32), clUp s n.val = true → t = 256 * n.val + i.toNat → (thrOf s t).st = .fault →
    exec (.thrctlSkip n i) s = .next (settleAll (goAt s t ((thrOf s t).pc + 4))) ∧
    exec (.thrctlRedirect n i pc) s = .next (settleAll (goAt s t (BitVec.ofNat 32 (pc.toNat / 4 * 4)))) ∧
    ((thrOf s t).wait = .none → exec (.thrctlResume n i) s = .next (settleAll (goAt s t (thrOf s t).pc))) ∧
    (∀ h, (thrOf s t).item = some h → exec (.thrctlDrop n i) s = .next (settleAll (thrDrop s t)))) ∧
  (∀ (s : State) (n : Fin 32) (i : Byte) (t : Nat), clUp s n.val = true → t = 256 * n.val + i.toNat →
    (isSupv s t = false → exec (.thrctlReset n i) s = .next (settleAll (thrReset s t))) ∧
    (isSupv s t = true → exec (.thrctlReset n i) s = .next (settleAll (s.setFlag F.GCL_STS_THRCTL_REJECT n.val true)))) ∧
  (∀ (s : State) (n : Fin 32) (i sev : Byte) (t : Nat) (pc : W32), clUp s n.val = true → t = 256 * n.val + i.toNat →
    ((thrOf s t).st = .dormant → exec (.thrctlStart n i pc) s = .next (settleAll (setThr s t { thrOf s t with
      st := .ready, pc := BitVec.ofNat 32 (pc.toNat / 4 * 4), priv := isSupv s t || thrMask s .GCL_THR_PRIV t, readyAt := s.clk }))) ∧
    ((thrOf s t).st ≠ .dormant → exec (.thrctlStart n i pc) s = .next (settleAll (s.setFlag F.GCL_STS_THRCTL_REJECT n.val true))) ∧
    ((thrOf s t).st ≠ .dormant → exec (.thrctlSignal n i sev) s = .next (settleAll (setThr s t { thrOf s t with
      ev := (thrOf s t).ev ||| BitVec.ofNat 16 (sev.toNat % 256 * 256) }))) ∧
    ((thrOf s t).st = .dormant → exec (.thrctlSignal n i sev) s = .next (settleAll (s.setFlag F.GCL_STS_THRCTL_REJECT n.val true)))) ∧
  (∀ (s : State) (n : Fin 32) (i : Byte), clUp s n.val = true → inAnyGroup s n.val i.toNat = false →
    (thrOf s (256 * n.val + s.fld F.GCL_SUPV_TID n.val)).st = .dormant →
    exec (.supervisorChange n i) s = .next (settleAll (disarmBudget (s.setFld F.GCL_SUPV_TID n.val i.toNat) (256 * n.val + i.toNat)))) ∧
  (∀ (s : State) (n : Fin 32) (i : Byte), clUp s n.val = true → inAnyGroup s n.val i.toNat = true →
    exec (.supervisorChange n i) s = .next (s.setFlag F.GCL_SUPV_REJECT n.val true)))

/-- R273, R276, R277, R289: the timer compare, the budget and the wait group, each when its time has come.
R285–R287: a channel stops, and a message in transit lands at its channel or is reported to its sender.
R229, R236–R238, R285, R286, R320, R329, R336: a thread in a long stall gets its answer when its unit can give it, and goes on past
its instruction. -/
def Obligations.ClusterTimersAndStalls : Prop :=
  ((∀ (s u : State) (t : BitVec 14) (n : Nat) (v : W64), u = advance s n → thrUp u t.toNat = true →
    (isMgt t.toNat = true ∨ parked u (cluOf t.toNat) = false) → (thrOf u t.toNat).tcmp = some v → v.toNat ≤ nt64 u →
    exec (.timerCompareFire t n) s = .next (settleAll (setThr u t.toNat { thrOf u t.toNat with
      tcmp := none, ev := (thrOf u t.toNat).ev ||| 1 }))) ∧
  (∀ (s u : State) (t : BitVec 14) (n : Nat), u = advance s n → thrUp u t.toNat = true → budgetOut u t.toNat = true →
    ((thrOf u t.toNat).st = .run ∨ (thrOf u t.toNat).st = .ready) →
    exec (.budgetExpire t n) s = .next (thrFault u t.toNat cBudget 0)) ∧
  (∀ (s u : State) (t : BitVec 14) (n : Nat), u = advance s n → thrUp u t.toNat = true → budgetOut u t.toNat = true →
    (thrOf u t.toNat).st = .stall → exec (.budgetExpire t n) s = .next (thrFault (cutWait u t.toNat) t.toNat cBudget 0)) ∧
  (∀ (s u : State) (n : Fin 32) (w : Fin 8) (k : Nat), u = advance s k → clUp u n.val = true → parked u n.val = false →
    wgDue u n.val w.val = true →
    ∃ v : State, exec (.deadlockDetect n w k) s = .next (settleAll (count (raiseSrc v (64 + n.val) w.val)
      (393216 + 4096 * n.val + 4094) 1 0)) ∧ v = { u with gar := v.gar, regs := v.regs } ∧
      v.gar.wg = mset noWg u.gar.wg (8 * n.val + w.val) { mget noWg u.gar.wg (8 * n.val + w.val) with raised := true })) ∧
  ((∀ (s u : State) (n : Fin 32) (c : Fin 64) (k : Nat), clUp s n.val = true → k = 64 * n.val + c.val → chanEn s k = true →
    u = sendersOff (s.setFlag F.GCL_CH_CFG_EN k false) (· == k) →
    exec (.channelDisable n c) s = .next (settleAll (chanDrain (receiversOff u k) k))) ∧
  (∀ (s u : State) (n : Fin 32) (c : Fin 64) (i k : Nat) (m : Msg), k = 64 * n.val + c.val → transitPick s k i = some (k, m) →
    u = { s with gar := { s.gar with transit := s.gar.transit.erase (k, m) } } → clUp u n.val = true →
    exec (.channelMessageArrival n c i) s = .next (settleAll (setChan u k (chanOf u k ++ [m])))) ∧
  (∀ (s u : State) (n : Fin 32) (c : Fin 64) (i k : Nat) (m : Msg), k = 64 * n.val + c.val → transitPick s k i = some (k, m) →
    u = { s with gar := { s.gar with transit := s.gar.transit.erase (k, m) } } → clUp u n.val = false →
    exec (.channelMessageArrival n c i) s = .next (settleAll (noteChoff u m.from_)))) ∧
  ((∀ (s : State) (t : BitVec 14) (a : CellReq), thrUp s t.toNat = true → nextAcc (thrOf s t.toNat) false = some a →
    exec (.cellOpComplete t) s = .next (settleAll (accFinish (landLocal s t.toNat a.dst.toNat a.data a.poison) t.toNat a))) ∧
  (∀ (s : State) (t : BitVec 14) (a : CellReq) (data : List Byte) (err : Bool), thrUp s t.toNat = true →
    nextAcc (thrOf s t.toNat) true = some a →
    (∀ (p : Nat) (out : Bool) (fn : Option Nat) (n : Nat), a.xfer = some (p, out, fn, n) → out = true ∨ fn = none ∨ a.ok = false) →
    exec (.dmaComplete t data err) s = .next (settleAll (accFinish (landLocal s t.toNat a.dst.toNat a.data a.poison) t.toNat a))) ∧
  (∀ (s : State) (t : BitVec 14) (a : CellReq) (data : List Byte) (p k n : Nat), thrUp s t.toNat = true →
    nextAcc (thrOf s t.toNat) true = some a → a.xfer = some (p, false, some k, n) → a.ok = true → data.length = n →
    exec (.dmaComplete t data false) s = .next (settleAll (accFinish (landLocal s t.toNat a.dst.toNat data []) t.toNat a))) ∧
  (∀ (s u v : State) (t : BitVec 14) (a b : CellReq) (data bs : List Byte) (p k n : Nat), thrUp s t.toNat = true →
    nextAcc (thrOf s t.toNat) true = some a → a.xfer = some (p, false, some k, n) → a.ok = true → freeBytes s n = (bs, u) →
    b = { a with val := 13, ok := false } →
    v = setThr u t.toNat { thrOf u t.toNat with acc := (thrOf u t.toNat).acc.map (fun c => if c = a then b else c) } →
    exec (.dmaComplete t data true) s = .next (settleAll (accFinish (landLocal v t.toNat a.dst.toNat bs []) t.toNat b))) ∧
  (∀ (s u : State) (t : BitVec 14) (rd st : Nat) (qd flow : W32) (derived : Bool) (it : Item), thrUp s t.toNat = true →
    (thrOf s t.toNat).st = .stall → (thrOf s t.toNat).wait = .enq rd qd flow (derived, it) → thrEnqReady s t.toNat qd derived = true →
    thrEnq s t.toNat qd flow derived it = (st, u) →
    exec (.enqUnblock t) s = .next (settleAll (endWaitNext u t.toNat (setStatus (thrOf u t.toNat) rd st 0)))) ∧
  (∀ (s u : State) (t : BitVec 14) (rd st : Nat) (a b : W32) (final : Bool) (hdr : List Byte) (it : Item) (h : Held), thrUp s t.toNat = true →
    (thrOf s t.toNat).st = .stall → (thrOf s t.toNat).wait = .gate rd a b (final, hdr, it) → (thrOf s t.toNat).item = some h →
    emitWaits s h final it = false → emitRun s t.toNat h final a.toNat b hdr it = (st, u) →
    exec (.gateRecordWaitEnd t) s = .next (settleAll (endWaitNext u t.toNat (setStatus (thrOf u t.toNat) rd st 0)))) ∧
  (∀ (s u : State) (t : BitVec 14) (rd c : Nat) (a : Nat × List W32) (ws : List W32), (thrOf s t.toNat).wait = .send rd c ws →
    (blockedSend s c).head? = some (t.toNat, a) → chanTakes s c = true → chanRoom s c = true → u = chanCommit s t.toNat c a.2 →
    exec (.chsendUnblock t) s = .next (settleAll (endWaitNext u t.toNat (setStatus (thrOf u t.toNat) a.1 0 0)))) ∧
  (∀ (s u : State) (t : BitVec 14) (rd c n : Nat) (a : W32) (b : Nat × W32), (thrOf s t.toNat).wait = .recv rd a c →
    (blockedRecv s c).head? = some (t.toNat, b) → chanTake s t.toNat c b.2.toNat = some (n, u) →
    exec (.chrecvUnblock t) s = .next (settleAll (recvEnd (endWaitNext u t.toNat (setStatus (thrOf u t.toNat) b.1 0 n)) c))) ∧
  (∀ (s : State) (c t : Nat) (a : Nat × List W32), (t, a) ∈ blockedSend s c →
    t ∈ s.gar.chq ∧ (thrOf s t).wait = .send a.1 c a.2 ∧ thrUp s t = true ∧ parked s (cluOf t) = false) ∧
  (∀ (s : State) (c t : Nat) (a : Nat × W32), (t, a) ∈ blockedRecv s c →
    t ∈ s.gar.chq ∧ (thrOf s t).wait = .recv a.1 a.2 c ∧ thrUp s t = true ∧ parked s (cluOf t) = false))

/-- R292, R293, R481, R482, R487: frequency steps, parking and its end.
R345, R350, R353, R358: a lane's next command commits; lanes are freed and cleared; keys and enables. -/
def Obligations.ClusterClocksAndCoprocessors : Prop :=
  ((∀ (s : State) (n : Fin 32), s.rst.aon = true → clusterPresent s n.val = true → parked s n.val = false → mget noNat s.rst.stepTo n.val = 0 →
    exec (.frequencyStep n) s = .next (stepBegin (stepSet s n.val
      (min (s.fld F.RST_CLU_CLK_STEP n.val) (s.fld F.RST_CLU_CLK_LIMIT n.val))) n.val)) ∧
  (∀ (s : State) (n : Fin 32) (g : Nat), s.rst.aon = true → clusterPresent s n.val = true → parked s n.val = false →
    mget noNat s.rst.stepTo n.val = g + 1 → exec (.frequencyStep n) s = .next (stepBegin (stepSet s n.val g) n.val)) ∧
  (∀ (s : State) (n : Fin 32) (v : Nat), mwf regReset s.regs = true → v < 3 →
    (stepBegin (stepSet s n.val v) n.val).fld F.RST_CLU_CLK_STEP_CUR n.val = v) ∧
  (∀ (s v u : State) (n : Fin 32), clUp s n.val = true → s.flag F.RST_CLU_CLK_PARK n.val = true → parked s n.val = false →
    cluDrained s n.val = true → v = (if mget noNat s.rst.stepTo n.val = 0 then s else stepApply s n.val) →
    u = (wgFold v n.val).setFlag F.RST_CLU_CLK_PARKED n.val true →
    exec (.clusterPark n) s = .next (if u.flag F.RST_CLU_CLK_DEEP n.val then u.setFlag F.RST_CLU_CLK_PLL_LOCK n.val false else u)) ∧
  (∀ (s u : State) (n : Fin 32), clUp s n.val = true → s.flag F.RST_CLU_CLK_PARK n.val = false → parked s n.val = true →
    u = (s.setFlag F.RST_CLU_CLK_PARKED n.val false).setFlag F.RST_CLU_CLK_PLL_LOCK n.val true →
    exec (.clusterUnpark n) s = .next (settleAll (cpxUnpark (grantsSeen (stepSet (wgOn u n.val) n.val
      (min (s.fld F.RST_CLU_CLK_STEP n.val) (s.fld F.RST_CLU_CLK_LIMIT n.val))) n.val) n.val)))) ∧
  ((∀ (s : State) (n : Fin 32) (u : Fin 2) (l : Fin 16), cpxLive s n.val u.val = true → parked s n.val = false →
    exec (.cpxCommit n u l) s = .next (settleAll (cpxCommit s n.val u.val l.val))) ∧
  (∀ (s : State) (n : Fin 32) (u : Fin 2) (l : Fin 16) (c : CpxCmd), cpxLive s n.val u.val = true → cpxNext s n.val u.val l.val = some c →
    c.move = none → isLock c = false → (laneOf s n.val u.val l.val).holder = some c.thr → c.cop ≠ 1 →
    cpxCommitOne s n.val u.val l.val = dropCmd (cpxRun s n.val u.val c) n.val u.val c) ∧
  (∀ (s : State) (n : Fin 32) (u : Fin 2) (l : Fin 16), cpxLive s n.val u.val = true →
    exec (.laneFree n u l) s = .next (settleAll (laneFree s n.val u.val l.val)) ∧
    exec (.laneClrErr n u l) s = .next (setLane s n.val u.val l.val { laneOf s n.val u.val l.val with err := false })) ∧
  (∀ (s u : State) (n : Fin 32) (k : Fin 512) (k256 : Bool), cpxLive s n.val 0 = true →
    u = { s with cpx := { s.cpx with kbuf := mkeep (fun i => i / 8 != 512 * n.val + k.val) s.cpx.kbuf } } →
    exec (.keySlotCommit n k false k256) s = .next (setSlot u n.val k.val ⟨[], false, false⟩) ∧
    exec (.keySlotCommit n k true k256) s = .next (setSlot u n.val k.val ⟨(List.range 8).flatMap (fun j =>
      leBytes 4 (mget noW32 s.cpx.kbuf (8 * (512 * n.val + k.val) + j)).toNat), true, k256⟩)) ∧
  (∀ (s : State) (n : Fin 32) (u : Fin 2), cpxLive s n.val u.val = true → s.flag F.CPX_CFG_EN (2 * n.val + u.val) = true →
    exec (.cpxDisable n u) s = .next (settleAll (cpxDisable s n.val u.val))))

/-! ## Coprocessors and Flint (12, 13) -/

/-- R367–R373, R377: the host's Flint commands answer by their ring, and a forced release takes the named owner's hold. -/
def Obligations.FlintHostCommands : Prop :=
  (∀ (s u v : State) (c : Ctl) (st : Nat) (x : Bool), Starts s u c 0x401 → bodyWord c 0 < 4096 →
    lockTry u (bodyWord c 0) (ownerOfFn (s.fld F.HIF_CTR_CFG_FN c.ring.val)) = (st, x, v) →
    exec (.fltLockTry c) s = .next (settleAll (ctlEnds s (settleAll v) c 0x401 (fltStatus st) []))) ∧
  (∀ (s u v : State) (c : Ctl) (st : Nat), Starts s u c 0x402 → bodyWord c 0 < 4096 →
    lockRel u (bodyWord c 0) (ownerOfFn (s.fld F.HIF_CTR_CFG_FN c.ring.val)) = (st, v) →
    exec (.fltLockRel c) s = .next (settleAll (ctlEnds s (settleAll v) c 0x402 (fltStatus st) []))) ∧
  (∀ (s u v : State) (c : Ctl) (st : Nat), Starts s u c 0x403 → bodyWord c 0 < 512 → 0 < bodyWord c 1 → bodyWord c 1 < 2 ^ 16 →
    semTry u (bodyWord c 0) (ownerOfFn (s.fld F.HIF_CTR_CFG_FN c.ring.val)) (bodyWord c 1) = (st, v) →
    exec (.fltSemTry c) s = .next (settleAll (ctlEnds s (settleAll v) c 0x403 (fltStatus st) []))) ∧
  (∀ (s u v : State) (c : Ctl) (st : Nat), Starts s u c 0x404 → bodyWord c 0 < 512 → 0 < bodyWord c 1 → bodyWord c 1 < 2 ^ 16 →
    semRel u (bodyWord c 0) (ownerOfFn (s.fld F.HIF_CTR_CFG_FN c.ring.val)) (bodyWord c 1) = (st, v) →
    exec (.fltSemRel c) s = .next (settleAll (ctlEnds s (settleAll v) c 0x404 (fltStatus st) []))) ∧
  (∀ (s u : State) (c : Ctl), Starts s u c 0x405 → bodyWord c 0 < 4096 →
    exec (.fltQuery c) s = .next (ctlEnds s u c 0x405 stOk [lockWord u (bodyWord c 0), 0])) ∧
  (∀ (s u : State) (c : Ctl) (n : Nat), Starts s u c 0x405 → bodyWord c 0 = 2 ^ 31 + n → n < 512 →
    exec (.fltQuery c) s = .next (ctlEnds s u c 0x405 stOk [semCfgWord u n, semStsWord u n])) ∧
  (∀ (s u : State) (w : W32), pktUp s = true → fltForce s (bitOf w.toNat 31) (bits w.toNat 27 16) (bits w.toNat 15 0) = (true, u) →
    exec (.flintForceRelease w) s = .next (settleAll (settle u))) ∧
  (∀ (s u : State) (w : W32), pktUp s = true → fltForce s (bitOf w.toNat 31) (bits w.toNat 27 16) (bits w.toNat 15 0) = (false, u) →
    exec (.flintForceRelease w) s = .next (settleAll (s.setFlag F.FLT_STS_FORCE_MISS 0 true)))

/-! ## Resets, clocks and power (18) -/

/-- R466, R470, R471, R489: power-on leaves AON alone out of reset, with one release event for the rest; a brown-out is recorded.
R86, R114, R466: the reset pins.
R469, R470: a pulse ends 256 SYSREF cycles after its start, and the first release event that is due releases its next domains. -/
def Obligations.PowerOnPinsAndReleases : Prop :=
  ((∀ (s : State) (m : BitVec 2), ∃ u, exec (.powerOn true m) s = .next u ∧ u.rst.aon = true ∧ u.rst.strap = m ∧ u.rst.holds = [] ∧
    u.rst.events = [⟨s.clk / 60, [1, 2, 4, 5, 6] ++ (presentClusters s).map dCl, none⟩] ∧ u.rst.wdt = .off ∧
    u.gar = State.reset.gar ∧ u.crn = State.reset.crn ∧ u.ory = State.reset.ory ∧ u.tim = State.reset.tim ∧ u.mgtMem = [] ∧ u.dram = [] ∧
    u.flt = State.reset.flt ∧ u.agt = State.reset.agt ∧ u.cpx = State.reset.cpx ∧ u.dbg = State.reset.dbg ∧
    u.rst.fuse = s.rst.fuse ∧ u.hif.mem = s.hif.mem ∧ u.egr.wire = s.egr.wire ∧ u.pending = s.pending) ∧
  (∀ (s : State) (m : BitVec 2), s.rst.aon = false → ∃ u, exec (.powerOn false m) s = .next u ∧ u = { s with rst := u.rst } ∧
    u.rst.aon = true ∧ u.rst.strap = m ∧ u.rst.events = [⟨s.clk / 60, [1, 2, 4, 5, 6] ++ (presentClusters s).map dCl, none⟩]) ∧
  (∀ (s : State) (m : BitVec 2), s.rst.aon = true → exec (.powerOn false m) s = .next s) ∧
  (∀ s : State, s.rst.aon = false → exec .brownOut s = .next s) ∧
  (∀ s : State, s.rst.aon = true → ∃ u, exec .brownOut s = .next u ∧ u.rst.aon = false ∧ u.rst.events = [] ∧
    u.reg .RST_LOCKUP_CL 0 = s.reg .RST_LOCKUP_CL 0 ∧ u.gar = State.reset.gar ∧ u.crn = State.reset.crn ∧
    u.mgtMem = [] ∧ u.dram = [])) ∧
  ((∀ s : State, s.rst.aon = true → srcHeld s .resetN = false → exec .resetNAssert s = .next (assertSrc s ⟨.resetN, 2 ^ 8, none⟩ 2)) ∧
  (∀ s : State, s.rst.aon = false ∨ srcHeld s .resetN = true → exec .resetNAssert s = .next s) ∧
  (∀ s : State, exec .resetNRelease s = .next (releaseSrcs s (fun h => h.src == .resetN))) ∧
  (∀ s : State, s.rst.aon = true → srcHeld s (.perst 0) = false → exec (.perstAssert 0) s = .next (assertSrc s ⟨.perst 0, 2 ^ 2, none⟩ 3)) ∧
  (∀ s : State, s.rst.aon = true → srcHeld s (.perst 1) = false → s.hif.bifur = true →
    exec (.perstAssert 1) s = .next (assertSrc s ⟨.perst 1, 2 ^ 3, none⟩ 4)) ∧
  (∀ s : State, s.rst.aon = true → srcHeld s (.perst 1) = false → s.hif.bifur = false →
    exec (.perstAssert 1) s = .next { s with rst := { s.rst with holds := s.rst.holds ++ [⟨.perst 1, 2 ^ 3, none⟩] } }) ∧
  (∀ (s : State) (h : Fin 2), s.rst.aon = false ∨ srcHeld s (.perst h.val) = true → exec (.perstAssert h) s = .next s) ∧
  (∀ (s : State) (h : Fin 2), exec (.perstRelease h) s = .next (releaseSrcs s (fun x => x.src == .perst h.val)))) ∧
  ((∀ (s u : State) (n : Nat), u = advance s n → exec (.resetPulseEnd n) s = .next (releaseSrcs u (fun h =>
    match h.till with | some e => decide (e ≤ u.clk) | none => false))) ∧
  (∀ (s u : State) (n : Nat) (e : RelEvent) (d : Nat), u = advance s n → u.rst.aon = true → u.rst.events = [e] → eventDue u e = true →
    nextRelease u e = [d] → d ≠ 2 → ∀ ds, ds = e.doms.filter (fun x => !([d] : List Nat).contains x) →
    (ds = [] → exec (.domainRelease n) s = .next (settleAll (wdtSync (leaveReset { u with rst := { u.rst with events := [] } } d)))) ∧
    (ds ≠ [] → exec (.domainRelease n) s = .next (settleAll (wdtSync (leaveReset
      { u with rst := { u.rst with events := [{ e with doms := ds, last := some u.clk }] } } d))))) ∧
  (∀ (s u v : State) (n k : Nat) (ds : List Nat) (more : Bool), u = advance s n → u.rst.aon = true →
    u.rst.events.findIdx? (eventDue u) = some k → ds = nextRelease u ((u.rst.events[k]?).getD ⟨0, [], none⟩) →
    (v, more) = (if ds = [2] then sampleBifur u else (u, false)) →
    exec (.domainRelease n) s = .next (settleAll (wdtSync (foldS ds leaveReset { v with rst := { v.rst with
      events := (v.rst.events.modify k (fun e => eventAfter e v.clk ds more)).filter (fun e => !e.doms.isEmpty) } })))) ∧
  (∀ (s u : State) (n : Nat), u = advance s n → u.rst.aon = false ∨ u.rst.events.findIdx? (eventDue u) = none →
    exec (.domainRelease n) s = .next u))

/-- R466, R467: what a reset request reaches: WARM every domain but AON, PKT takes LINE and every present cluster with it, and each other
request its own domain.
R295, R425, R466, R474: a software request resets what it names, unless it would reset MEM under DRC, or a cluster that is not drained.
R26, R475: a drained block is reset, reads as being reset, and then not. -/
def Obligations.ResetsReachTheirDomains : Prop :=
  (∀ (s : State) (req d : Nat), d ∈ reachOf s req ↔
    (1 ≤ d ∧ d ≤ 6 ∧ (bitOf req 8 = true ∨ bitOf req d = true ∨ (d = 6 ∧ bitOf req 5 = true))) ∨
    (∃ n < 32, clusterPresent s n = true ∧ d = 32 + n ∧ (bitOf req 8 = true ∨ bitOf req 5 = true ∨ bitOf req (32 + n) = true))) ∧
  ((∀ (s : State) (w : BitVec 9) (cl : W32) (r : Nat), s.rst.aon = true → r = swBits s w.toNat cl.toNat → r ≠ 0 →
    (bitOf r 4 = true → bitOf r 5 = true ∨ bitOf r 8 = true ∨ s.flag F.DRC_STS_DRAINED 0 = true) →
    (∀ n < 32, bitOf r (32 + n) = true → clUp s n = true → cluDrained s n = true) →
    (s.flag F.RST_SWRST_CFG_HOLD 0 = false →
      exec (.softwareResetRequest w cl) s = .next (assertSrc s ⟨.sw, r, some (s.clk + 15360)⟩ 6)) ∧
    ∀ v : State, s.flag F.RST_SWRST_CFG_HOLD 0 = true → v = assertSrc s ⟨.sw, r, none⟩ 6 →
      (s.rst.holds.filter (fun h => h.src == RstSrc.sw && h.till.isNone)) = [] →
      exec (.softwareResetRequest w cl) s = .next { v with rst := { v.rst with
        holds := s.rst.holds ++ (reqBits r).map (fun b => (⟨.sw, 2 ^ b, none⟩ : RstHold)) } }) ∧
  (∀ (s : State) (w : BitVec 9) (cl : W32) (r : Nat), s.rst.aon = true → r = swBits s w.toNat cl.toNat → bitOf r 4 = true →
    bitOf r 5 = false → bitOf r 8 = false → s.flag F.DRC_STS_DRAINED 0 = false →
    exec (.softwareResetRequest w cl) s = .next (s.setFlag F.RST_SWRST_CFG_REJECT 0 true)) ∧
  (∀ (s : State) (w : BitVec 9) (cl : W32), s.rst.aon = true → exec (.softwareResetRelease w cl) s = .next (releaseSrcs s (fun h =>
    h.src == RstSrc.sw && h.till.isNone && (reqBits (swBits s w.toNat cl.toNat)).any (fun b => h.req == 2 ^ b))))) ∧
  ((∀ (s : State) (b : Fin 8), s.rst.aon = true → s.flag (blkFld b.val) 0 = false → blkDrained s b.val = true →
    exec (.blockReset b) s = .next (settleAll ((blkReset s b.val).setFlag (blkFld b.val) 0 true))) ∧
  (∀ (s : State) (b : Fin 8), exec (.blockResetDone b) s = .next (s.setFlag (blkFld b.val) 0 false)))

/-- R476: the watchdog's kick, warning and expiry.
R472, R480: a clock that fails asserts its reset and keeps CLK_FAIL for the release of PKT; a good one releases it.
R484–R486: the sensors' samples, and the two directions of throttling. -/
def Obligations.WatchdogClocksAndThermal : Prop :=
  ((∀ (s : State) (e : Nat), s.rst.aon = true → s.flag F.RST_WDT_CFG_EN 0 = true → s.rst.wdt = .run e →
    exec (.wdtKick 0xC1A5) s = .next ({ s with rst := { s.rst with wdt := .run s.clk } }.setFlag F.RST_WDT_STS_WARNED 0 false)) ∧
  (∀ (s : State) (k : W16), s.rst.aon = true → s.flag F.RST_WDT_CFG_EN 0 = true → k ≠ 0xC1A5 →
    exec (.wdtKick k) s = .next (s.setFlag F.RST_WDT_STS_BADKICK 0 true)) ∧
  (∀ (s : State) (k : W16), s.flag F.RST_WDT_CFG_EN 0 = false → exec (.wdtKick k) s = .next s) ∧
  (∀ (s u : State) (n e : Nat), u = advance s n → u.rst.aon = true → u.rst.wdt = .run e → u.flag F.RST_WDT_STS_WARNED 0 = false →
    u.fld F.RST_WDT_CFG_WARN_MS 0 < max 1 (u.fld F.RST_WDT_CFG_TIMEOUT_MS 0) →
    (max 1 (u.fld F.RST_WDT_CFG_TIMEOUT_MS 0) - u.fld F.RST_WDT_CFG_WARN_MS 0) * 1500000 ≤ u.clk - e →
    exec (.wdtWarn n) s = .next (raiseSrc (u.setFlag F.RST_WDT_STS_WARNED 0 true) 170 0)) ∧
  (∀ (s u v : State) (n e : Nat), u = advance s n → u.rst.aon = true → u.rst.wdt = .run e →
    max 1 (u.fld F.RST_WDT_CFG_TIMEOUT_MS 0) * 1500000 ≤ u.clk - e →
    v = { u with rst := { u.rst with wdt := .waiting } }.bump F.RST_WDT_STS_EXPIRED 0 1 →
    exec (.wdtExpire n) s = .next (assertSrc v ⟨.wdt, if v.flag F.RST_WDT_CFG_REACH 0 then 2 ^ 8 else 2, some (v.clk + 15360)⟩ 5))) ∧
  ((∀ (s u v : State) (k : Fin 48), s.rst.aon = true → clkExists s k.val = true → srcHeld s (.clk k.val) = false →
    u = clkCount (clkReport s k.val false) k.val → v = { u with rst := { u.rst with clkFail := some (clkCause k.val - 8) } } →
    exec (.clockFailure k) s = .next (assertSrc v ⟨.clk k.val, clkReach k.val, none⟩ (clkCause k.val))) ∧
  (∀ (s : State) (k : Fin 48), s.rst.aon = true → clkExists s k.val = true →
    exec (.clockRecovery k) s = .next (releaseSrcs (clkReport s k.val true) (fun h => h.src == .clk k.val)))) ∧
  ((∀ (s u v : State) (ts : List (BitVec 12)) (n : Nat), u = advance s n → u.rst.aon = true → v = takeTemps u ts →
    exec (.thermalSample ts n) s = .next (settleAll (heatSync (tripSync (alarmSync (v.setFld F.RST_THERM_STS_MAX_SENSOR 0 (maxSensor v))))))) ∧
  (∀ s : State, (∀ i < 36, sensorAt s i 125 = false) → tripSync s = s) ∧
  (∀ (s u v : State) (c : Fin 32) (n e : Nat), u = advance s n → u.rst.aon = true → u.flag F.RST_THERM_CFG_THR_EN 0 = true →
    0 < u.fld F.RST_CLU_CLK_LIMIT c.val → mget noSince u.rst.hotAt c.val = some e → e + 150000 ≤ u.clk →
    v = { u with rst := { u.rst with hotAt := mset noSince u.rst.hotAt c.val (some u.clk) } } →
    exec (.throttleStepDown c n) s = .next ((setLimit v c.val (u.fld F.RST_CLU_CLK_LIMIT c.val - 1)).bump F.RST_THERM_STS_THROTTLE_CNT 0 1)) ∧
  (∀ (s u v : State) (c : Fin 32) (n e : Nat), u = advance s n → u.rst.aon = true → u.flag F.RST_THERM_CFG_THR_EN 0 = true →
    u.fld F.RST_CLU_CLK_LIMIT c.val < 2 → mget noSince u.rst.coolAt c.val = some e → e + 1500000 ≤ u.clk →
    v = { u with rst := { u.rst with coolAt := mset noSince u.rst.coolAt c.val (some u.clk) } } →
    exec (.throttleStepUp c n) s = .next (setLimit v c.val (u.fld F.RST_CLU_CLK_LIMIT c.val + 1))))

/-! ## Boot and the management controller (19) -/

/-- R490, R496, R498: a copy read from flash is checked, the next one tried, the host asked, and an accepted image entered.
R496, R497: the ROM's checks in their order. -/
def Obligations.Boot : Prop :=
  ((∀ (s u : State) (bs : List Byte), romRuns s = true → romAt s 1 = true → u = mgtWrite s 0xFFE00 (flashBytes bs 0 512) → hdrValid u = false →
    exec (.spiLoadComplete bs) s = .next (nextCopy (u.setFld F.MGT_BOOT_STS_ERR 0 1))) ∧
  (∀ (s u : State) (bs : List Byte), romRuns s = true → romAt s 1 = true → u = mgtWrite s 0xFFE00 (flashBytes bs 0 512) → hdrValid u = true →
    imgLoad u + imgLen u ≤ 0xFFE00 →
    exec (.spiLoadComplete bs) s = .next (romStage (mgtWrite u (imgLoad u) (flashBytes bs 512 (imgLen u))) 3)) ∧
  (∀ s : State, romRuns s = true → romAt s 1 = true → exec .spiFlashTimeout s = .next (nextCopy (s.setFld F.MGT_BOOT_STS_ERR 0 5))) ∧
  (∀ s : State, romRuns s = true → romAt s 2 = true → exec .hostGo s = .next (romStage s 3)) ∧
  (∀ s : State, romRuns s = true → romAt s 3 = true → imgCheck s = 0 → mwf noThread s.gar.thr = true → ∃ u, exec .imageVerifyComplete s = .next u ∧
    (thrOf u 0x2000).pc = BitVec.ofNat 32 (imgEntry s) ∧ u.mgtMem = s.mgtMem) ∧
  (∀ s u : State, romRuns s = true → romAt s 3 = true → imgCheck s ≠ 0 → u = s.setFld F.MGT_BOOT_STS_ERR 0 (imgCheck s) →
    (u.fld F.MGT_BOOT_STS_MODE 0 = 0 ∧ u.flag F.MGT_BOOT_STS_FELLBACK 0 = false → exec .imageVerifyComplete s = .next (nextCopy u)) ∧
    (u.fld F.MGT_BOOT_STS_MODE 0 ≠ 0 ∨ u.flag F.MGT_BOOT_STS_FELLBACK 0 = true → exec .imageVerifyComplete s = .next (romStage u 2))) ∧
  (∀ s : State, romRuns s = true → s.fld F.MGT_BOOT_STS_STAGE 0 ≤ 3 → exec .romWdtKick s = .next (wdtKick s))) ∧
  ((∀ s : State, imgCheck s = 0 ↔ imgMagic s = true ∧ imgZeros s = true ∧ imgRange s = true ∧ s.rst.fuse ≠ 0 ∧
    keyFused s.rst.fuse (hdrBytes s 64 48) (hdrBytes s 112 48) = true ∧ imgSigned s = true) ∧
  (∀ s : State, imgMagic s = false → imgCheck s = 1) ∧
  (∀ s : State, imgMagic s = true → imgZeros s = true → imgRange s = true → s.rst.fuse = 0 → imgCheck s = 7))

/-- R493, R494, R499, R505: MGT's slots and the memory window. -/
def Obligations.ManagementController : Prop :=
  (∀ (s : State) (t : Fin 8), mgtUp s = true → exec (.mgtFaultDone t) s =
    .next (setThr s (0x2000 + t.val) { thrOf s (0x2000 + t.val) with inFault := false })) ∧
  (∀ (s : State) (i : Fin 8) (pc : W32), mgtUp s = true → (thrOf s (0x2000 + i.val)).st = .dormant →
    exec (.mgtThrctlStart i pc) s = .next (settleAll (startThr s (0x2000 + i.val) (BitVec.ofNat 32 (pc.toNat / 4 * 4)) true))) ∧
  (∀ (s : State) (i : Fin 8) (pc : W32), mgtUp s = true → (thrOf s (0x2000 + i.val)).st ≠ .dormant →
    exec (.mgtThrctlStart i pc) s = .next (settleAll (s.setFlag F.MGT_STS_THRCTL_REJECT 0 true))) ∧
  (∀ (s : State) (i : Fin 8), mgtUp s = true → exec (.mgtThrctlReset i) s = .next (settleAll (thrReset s (0x2000 + i.val)))) ∧
  (∀ (s : State) (i : Fin 8) (sev : Byte), mgtUp s = true → (thrOf s (0x2000 + i.val)).st ≠ .dormant →
    exec (.mgtThrctlSignal i sev) s = .next (settleAll (setEv s (0x2000 + i.val) (BitVec.ofNat 16 (sev.toNat * 256))))) ∧
  (∀ (s : State) (ofs : W16) (v : W64), mgtUp s = true → ofs.toNat % 8 = 0 → winAllowed s true = true →
    exec (.mgtMemwinAccess ofs true (some v)) s = .next (mgtWrite s
      (s.fld F.MGT_MEMWIN_BASE_PAGE 0 * 65536 + ofs.toNat) (leBytes 8 v.toNat))) ∧
  (∀ (s : State) (ofs : W16), mgtUp s = true → ofs.toNat % 4 = 0 → winAllowed s false = true →
    exec (.mgtMemwinAccess ofs false none) s = .next (setRdata s
      (leNat (rdBytes s.mgtMem (s.fld F.MGT_MEMWIN_BASE_PAGE 0 * 65536 + ofs.toNat) 4)))) ∧
  (∀ (s : State) (ofs : W16) (v : W64), mgtUp s = true → ofs.toNat % 4 = 0 → winAllowed s true = false →
    exec (.mgtMemwinAccess ofs false (some v)) s = .next { s.setFlag F.MGT_BOOT_STS_WIN_REJECT 0 true with rdata := 0 })

/-! ## Debug (20) -/

/-- R507, R535: the TAP's instructions.
R509: one path owns the session; a claim of a free one takes it, its owner's release frees it, and nothing else moves it.
R508: DBGACC reaches Edsen's registers always and the rest only with its scope. -/
def Obligations.TapAndSession : Prop :=
  ((∀ (s : State) (l n : BitVec 169), s.rst.aon = true → unlocked s = true →
    exec (.tapExtest l n) s = .next { s with dbg := { s.dbg with ir := 0, scan := l, cells := n } }) ∧
  (∀ (s : State) (l n : BitVec 169), s.rst.aon = true → unlocked s = false →
    exec (.tapExtest l n) s = .next { s with dbg := { s.dbg with ir := 0x3F } }) ∧
  (∀ (s : State) (l n : BitVec 169), s.rst.aon = true →
    exec (.tapSamplePreload l n) s = .next { s with dbg := { s.dbg with ir := 1, scan := l, cells := n } }) ∧
  (∀ s : State, s.rst.aon = true → exec .tapBypass s = .next { s with dbg := { s.dbg with ir := 0x3F } }) ∧
  (∀ s : State, exec .tapReset s = .next { s with dbg := { s.dbg with ir := 0x3F } })) ∧
  ((∀ (s : State) (j : Bool), s.rst.aon = true → s.fld F.DBG_SESSION_OWNER 0 = 0 →
    exec (.dbgClaim j) s = .next (s.setFld F.DBG_SESSION_OWNER 0 (if j then 1 else 2))) ∧
  (∀ (s : State) (j : Bool), s.fld F.DBG_SESSION_OWNER 0 ≠ 0 → exec (.dbgClaim j) s = .next s) ∧
  (∀ (s : State) (j : Bool), s.rst.aon = true → s.fld F.DBG_SESSION_OWNER 0 = (if j then 1 else 2) →
    exec (.dbgRelease j) s = .next (s.setFld F.DBG_SESSION_OWNER 0 0)) ∧
  (∀ (s : State) (j : Bool), s.fld F.DBG_SESSION_OWNER 0 ≠ (if j then 1 else 2) → exec (.dbgRelease j) s = .next s) ∧
  (∀ (s : State) (j : Bool) (sc : BitVec 2) (t : BitVec 14), s.rst.aon = true → s.fld F.DBG_SESSION_OWNER 0 = (if j then 2 else 1) →
    exec (.dbgHalt j sc t) s = .next (s.setFlag F.DBG_SESSION_REJECT 0 true) ∧
    exec (.debugResetRequest j 0 0) s = .next (s.setFlag F.DBG_SESSION_REJECT 0 true))) ∧
  ((∀ (s u v : State) (w : BitVec 96) (a : Nat), s.rst.aon = true → a = bits w.toNat 91 64 → bitOf w.toNat 95 = false →
    u = { s with dbg := { s.dbg with ir := 0x20 } } → (0x1300000 ≤ a ∧ a < 0x1400000) ∨ dbgScope u 1 = true →
    busAcc .jtag a (if bitOf w.toNat 94 then 8 else 4) none u = .next v →
    exec (.dbgacc w) s = .next { v with dbg := { v.dbg with acc := BitVec.ofNat 96 (2 ^ 95 + v.rdata.toNat) } }) ∧
  (∀ (s u : State) (w : BitVec 96) (a : Nat), s.rst.aon = true → a = bits w.toNat 91 64 → a < 0x1300000 ∨ 0x1400000 ≤ a →
    u = { s with dbg := { s.dbg with ir := 0x20 } } → dbgScope u 1 = false →
    exec (.dbgacc w) s = .next { u with dbg := { u.dbg with acc := BitVec.ofNat 96 (2 ^ 95 + 2 ^ 94) } }))

/-- R510, R511, R512: challenge, token and relock. -/
def Obligations.Unlocking : Prop :=
  (∀ (s : State) (j : Bool), s.rst.aon = true → s.fld F.DBG_SESSION_OWNER 0 = 0 → s.dbg.lockout = none →
    ∃ u c, exec (.chalGo j) s = .next u ∧ u = { s with fresh := s.fresh + 1, dbg := u.dbg, regs := u.regs } ∧
      c = Config.random s.fresh ∧ u.dbg = { s.dbg with chal := some (c, s.clk) }) ∧
  (∀ (s : State) (j : Bool), s.rst.aon = true → s.fld F.DBG_SESSION_OWNER 0 = 0 → s.dbg.lockout.isSome = true →
    exec (.chalGo j) s = .next (s.setFlag F.DBG_SESSION_REJECT 0 true)) ∧
  (∀ (s : State) (j : Bool) (ws : List W32), s.rst.aon = true → s.fld F.DBG_SESSION_OWNER 0 = 0 → s.flag F.DBG_LOCK_BUSY 0 = false →
    ws = (List.range 64).map (fun j => BitVec.ofNat 32 (s.reg .DBG_TOKEN j)) →
    exec (.verifyGo j) s = .next ({ s with dbg := { s.dbg with verify := some (ws, goodChal s), chal := none } }.setFlag F.DBG_LOCK_BUSY
      0 true)) ∧
  (∀ (s : State) (ws : List W32) (c : BitVec 256) (u : State), s.dbg.verify = some (ws, some c) →
    u = { s with dbg := { s.dbg with verify := none } }.setFlag F.DBG_LOCK_BUSY 0 false →
    (tokenOk u ws c = true → exec .tokenVerifyDone s =
      .next ((u.setFlag F.DBG_LOCK_UNLOCKED 0 true).setFld F.DBG_LOCK_SCOPE 0 ((ws.getD 0 0).toNat))) ∧
    (tokenOk u ws c = false → exec .tokenVerifyDone s = .next (tokenFail u))) ∧
  (∀ (s : State) (ws : List W32) (u : State), s.dbg.verify = some (ws, none) →
    u = { s with dbg := { s.dbg with verify := none } }.setFlag F.DBG_LOCK_BUSY 0 false → exec .tokenVerifyDone s = .next (tokenFail u)) ∧
  (∀ s : State, (tokenFail s).dbg.lockout = some (s.clk + 1500000000)) ∧
  (∀ (s u : State) (n e : Nat), u = advance s n → u.dbg.lockout = some e → e ≤ u.clk →
    exec (.challengeLockoutEnd n) s = .next { u with dbg := { u.dbg with lockout := none } }) ∧
  (∀ (s : State) (j : Bool), s.rst.aon = true → s.fld F.DBG_SESSION_OWNER 0 = 0 → exec (.relock j) s = .next (relock s))

/-- R513–R516, R525: halting, resuming, stepping, discarding and resetting one thread, and the refusals. -/
def Obligations.DebugThreadControl : Prop :=
  ∀ (s u : State) (j : Bool) (t : BitVec 14), s.rst.aon = true → s.fld F.DBG_SESSION_OWNER 0 = 0 → unlocked s = true →
    thrExists s t.toNat = true → u = { s with dbg := { s.dbg with named := t.toNat } } →
    (dbgScope s 0 = true →
      ((thrOf s t.toNat).st ≠ .dormant → exec (.dbgHalt j 0 t) s = .next (settleAll (halt u t.toNat 0))) ∧
      ((thrOf s t.toNat).st = .dormant → exec (.dbgHalt j 0 t) s = .next (settleAll (u.setFlag F.DBG_THR_STS_REJECT 0 true))) ∧
      ((thrOf s t.toNat).halt.isSome = true →
        exec (.dbgResume j 0 t) s = .next (settleAll (resumeThr u t.toNat false)) ∧
        exec (.dbgStep j 0 t) s = .next (settleAll (resumeThr u t.toNat true)) ∧
        exec (.discardStage j 0 t) s = .next (settleAll (setThr u t.toNat { thrOf s t.toNat with stage := 0 }))) ∧
      ((thrOf s t.toNat).halt = none →
        exec (.dbgStep j 0 t) s = .next (settleAll (u.setFlag F.DBG_THR_STS_REJECT 0 true)) ∧
        exec (.discardStage j 0 t) s = .next (settleAll (u.setFlag F.DBG_THR_STS_REJECT 0 true)))) ∧
    (dbgScope s 0 = false → exec (.dbgHalt j 0 t) s = .next (s.setFlag F.DBG_SESSION_REJECT 0 true)) ∧
    (dbgScope s 2 = true → isSupv u t.toNat = false → exec (.dbgThreadReset j 0 t) s = .next (settleAll (thrReset u t.toNat))) ∧
    (dbgScope s 2 = true → ∀ rst cl : W32, exec (.debugResetRequest j rst cl) s = .next (dbgReset s rst.toNat cl.toNat))

/-! ## The register space and PIO (21, 22, 98) -/

/-- R8, R87, R89, R93, R550, R551: a host's access of its BAR0 reaches a register with its link up and PF1 in D0, a refused write of the
second link is reported, and configuration space, MSI-X tables and doorbell pages answer while their function does. Elsewhere a read gives 0.
What configuration space holds beyond R85 and R88 is the model's choice (log entry 50).
R491: a load through the register port of MGT returns what a read of the register gives. -/
def Obligations.RegisterAccesses : Prop :=
  ((∀ (s : State) (h : Fin 2) (a : BitVec 28) (n : Nat), pf1Up s h.val = false →
    exec (.registerWrite (.pf1 h a n none)) s = .next { s with rdata := 0 } ∧
    ∀ v : W64, exec (.registerWrite (.pf1 h a n (some v))) s = .next s) ∧
  (∀ (s : State) (h : Fin 2) (a : BitVec 28) (n : Nat) (wr : Option W64), pf1Up s h.val = true →
    h = 0 ∨ wr = none ∨ s.flag F.HIF_LINK_CFG_PF1_HL1_ACC 0 = true →
    exec (.registerWrite (.pf1 h a n wr)) s = busAcc (.host h) a.toNat n (wr.map (·.toNat)) s) ∧
  (∀ (s : State) (a : BitVec 28) (n : Nat) (v : W64), pf1Up s 1 = true → s.flag F.HIF_LINK_CFG_PF1_HL1_ACC 0 = false →
    exec (.registerWrite (.pf1 1 a n (some v))) s = .next (setFn s 257 { fnOf s 257 with aer := (fnOf s 257).aer ||| 0x100000 })) ∧
  (∀ (s : State) (q : Req) (a : Nat), winAt a = none → regAt a = none → a % 4 = 0 →
    ¬(0x1210000 ≤ a ∧ a < 0x1220000) → ¬(0x4000000 ≤ a ∧ a < 0xC000000) →
    busAcc q a 4 none s = .next { s with rdata := 0 } ∧ ∀ v, busAcc q a 4 (some v) s = .next s) ∧
  (∀ (s : State) (q : Req) (a i : Nat) (r : RegName) (hi : Bool), winAt a = none → regAt a = some (r, i, hi) → a % 4 = 0 →
    ¬(0x1210000 ≤ a ∧ a < 0x1220000) → ¬(0x4000000 ≤ a ∧ a < 0xC000000 ∧ 0x200000 ≤ a % 0x400000 ∧ a % 0x400000 < 0x300000) →
    busAcc q a 4 none s = .next (regReadAcc s r i ((2 ^ 32 - 1) * 2 ^ (if hi then 32 else 0))) ∧
    ∀ v : Nat, (regLive s r i = false → busAcc q a 4 (some v) s = .next s) ∧
      (regLive s r i = true → r ∈ [RegName.GCL_ENTRY, .GCL_WG_WINDOW, .LPT_PRI, .ORY_DOM_CFG, .CRN_REQ_HARD, .RST_SCRUB_CFG] →
        busAcc q a 4 (some v) s = .next (wrReg s r i ⟨(2 ^ 32 - 1) * 2 ^ (if hi then 32 else 0),
          v % 2 ^ 32 * 2 ^ (if hi then 32 else 0)⟩ []))) ∧
  (∀ (s : State) (f : BitVec 9) (r : CfgReg) (v : W32),
    (fnUp s f.toNat = true → exec (.registerWrite (.config f r none)) s = .next { s with rdata := BitVec.ofNat 64 (cfgRead s f.toNat r) } ∧
      exec (.registerWrite (.config f r (some v))) s = .next (cfgWrite s f.toNat r v)) ∧
    (fnUp s f.toNat = false → exec (.registerWrite (.config f r none)) s = .next { s with rdata := 0 } ∧
      exec (.registerWrite (.config f r (some v))) s = .next s)) ∧
  (∀ (s : State) (f : BitVec 9) (k : BitVec 13) (v : W32), fnUp s f.toNat = true → k.toNat < tableWords f.toNat → k.toNat % 4 ≠ 3 → k.toNat % 4 ≠ 0 →
    exec (.registerWrite (.vector f k none)) s = .next { s with rdata := BitVec.ofNat 64 (mget vtabReset (fnOf s f.toNat).vtab k.toNat).toNat } ∧
    exec (.registerWrite (.vector f k (some v))) s = .next (setFn s f.toNat { fnOf s f.toNat with
      vtab := mset vtabReset (fnOf s f.toNat).vtab k.toNat v })) ∧
  (∀ (s : State) (f : BitVec 9) (k : BitVec 6), exec (.registerWrite (.pba f k)) s = .next (pbaRead s f.toNat k.toNat)) ∧
  (∀ (s : State) (f : BitVec 9) (o : BitVec 20) (v : W64), fnUp s f.toNat = true →
    (barPart f.toNat o.toNat = .page → o.toNat % 8 = 0 → exec (.registerWrite (.bar f o 8 (some v))) s = doorbellWrite f v true s) ∧
    (barPart f.toNat o.toNat = .empty → exec (.registerWrite (.bar f o 8 none)) s = .next { s with rdata := 0 } ∧
      exec (.registerWrite (.bar f o 8 (some v))) s = .next s)) ∧
  (∀ (s : State) (f : BitVec 9) (o : BitVec 20) (n : Nat) (v : W64), fnUp s f.toNat = false →
    exec (.registerWrite (.bar f o n none)) s = .next { s with rdata := 0 } ∧ exec (.registerWrite (.bar f o n (some v))) s = .next s)) ∧
  (∀ (s u : State) (k : Fin 8) (op rd : Nat) (a : W32), (thrOf s (0x2000 + k.val)).wait = .rport op rd a →
    busAcc (.mgt k) a.toNat (accBytes op) none s = .next u →
    exec (.registerPortLoadComplete k) s = .next (portLoadDone u (0x2000 + k.val) op rd a))

/-- R24, R25: DRAINED of a parser, an Orrery and a DRAM controller that are disabled and hold no work.
R532, R534, R536, R547: the SPI and I2C controllers. -/
def Obligations.DrainsAndSerialControllers : Prop :=
  ((∀ s : State, pktUp s = true → s.flag F.PRS_CTL_EN 0 = false → s.prs.waiting = [] →
    exec (.resourceDrainComplete .parser) s = .next (s.setFlag F.PRS_STS_DRAINED 0 true)) ∧
  (∀ s : State, pktUp s = true → s.flag F.ORY_CTL_EN 0 = false → exec (.resourceDrainComplete .orrery) s = .next (oryDrain s)) ∧
  (∀ s : State, memUp s = true → exec (.resourceDrainComplete .drc) s = .next (drcDrain s)) ∧
  (∀ (s : State) (n : Fin 32) (c : Fin 64), clUp s n.val = true →
    exec (.resourceDrainComplete (.channel n c)) s = .next (chanDrain s (64 * n.val + c.val)))) ∧
  ((∀ (s u : State) (ctl : W32) (c : Nat), s.rst.aon = true → s.flag F.PIO_SPI_CTL_ROM_OWN 0 = false → s.flag F.PIO_SPI_CTL_BUSY 0 = false →
    c = setBits ctl.toNat 31 29 0 → u = s.setReg .PIO_SPI_CTL 0 (c + 2 ^ 30) →
    exec (.spiTransfer ctl) s = .next { u with pio := { u.pio with spi := some ⟨BitVec.ofNat 32 c, BitVec.ofNat 32 (u.reg .PIO_SPI_ADDR 0),
      if bitOf c 25 then [] else bufBytes u .PIO_SPI_DATA (min 64 (bits c 6 0))⟩ } }) ∧
  (∀ (s : State) (ctl : W32), s.flag F.PIO_SPI_CTL_ROM_OWN 0 = true → exec (.spiTransfer ctl) s = .next s) ∧
  (∀ (s u : State) (bs : List Byte) (x : Xfer), s.pio.spi = some x →
    u = { s with pio := { s.pio with spi := none, spiSent := x :: s.pio.spiSent } }.setFlag F.PIO_SPI_CTL_BUSY 0 false →
    (x.ctl.getLsbD 25 = false → exec (.spiTransferDone bs) s = .next u) ∧
    (x.ctl.getLsbD 25 = true → exec (.spiTransferDone bs) s = .next (bufPut u .PIO_SPI_DATA (flashBytes bs 0 (spiLen x.ctl.toNat))))) ∧
  (∀ (s u : State) (ctl : W32) (c : Nat), s.rst.aon = true → s.flag F.PIO_I2C1_CTL_BUSY 0 = false →
    c = setBits (setBits (setBits ctl.toNat 31 29 0) 25 14 0) 6 6 0 →
    u = s.setReg .PIO_I2C1_CTL 0 (c + 2 ^ 30 + b2n (s.flag F.PIO_I2C1_CTL_NACK 0 && !bitOf ctl.toNat 29) * 2 ^ 29) →
    exec (.i2c1Transfer ctl) s = .next { u with pio := { u.pio with i2c1 := some ⟨BitVec.ofNat 32 c, 0,
      if bitOf c 27 then [] else bufBytes u .PIO_I2C1_DATA (min 32 (bits c 5 0))⟩ } }) ∧
  (∀ (s u : State) (bs : List Byte) (x : Xfer), s.pio.i2c1 = some x →
    u = { s with pio := { s.pio with i2c1 := none, i2c1Sent := x :: s.pio.i2c1Sent } }.setFlag F.PIO_I2C1_CTL_BUSY 0 false →
    exec (.i2c1TransferDone false bs) s = .next (u.setFlag F.PIO_I2C1_CTL_NACK 0 true) ∧
    (x.ctl.getLsbD 27 = false → exec (.i2c1TransferDone true bs) s = .next u)) ∧
  (∀ (s : State) (ofs : W32) (n : Nat), s.rst.aon = true → s.flag F.PIO_I2C0_CFG_EN 0 = true →
    exec (.i2c0Transaction ofs n) s = .next (i2cReads n s (ofs.toNat / 4 * 4) [])) ∧
  (∀ (s : State) (ofs : W32) (n : Nat), s.flag F.PIO_I2C0_CFG_EN 0 = false → exec (.i2c0Transaction ofs n) s = .next s))

/-! ## Instructions (11) -/

/-- R262, R264, R269, R276, R304, R334: what a turn comes to: no turn, the budget's fault, a miss, a fetch outside the image, an undefined word, and
with another word at the pc nothing. -/
def Obligations.IssueRules : Prop :=
  (∀ (s : State) (t : Nat) (w : W32) (rds wrs : List Nat) (sq : State → State) (body : State → Res), canTurn s t = false →
    issueAt t w rds wrs sq body s = .next s) ∧
  (∀ (s : State) (t : Nat) (w : W32) (rds wrs : List Nat) (sq : State → State) (body : State → Res), canTurn s t = true →
    budgetLate s t = true → issueAt t w rds wrs sq body s = .next (thrFault s t cBudget 0)) ∧
  (∀ (s : State) (t : Nat) (w : W32) (rds wrs : List Nat) (sq : State → State) (body : State → Res), canTurn s t = true →
    budgetLate s t = false →
    (fetch s t = .miss → issueAt t w rds wrs sq body s = .next (settleAll (stall (takeTurn s t) t .fetch))) ∧
    (fetch s t = .bad → issueAt t w rds wrs sq body s = .next (thrFault s t cBadAddr (thrOf s t).pc.toNat)) ∧
    (fetch s t = .rom → issueAt t w rds wrs sq body s = .next s)) ∧
  (∀ (s : State) (t : Nat) (w v : W32) (rds wrs : List Nat) (sq : State → State) (body : State → Res), Issues s t v →
    (v ≠ w → undefinedWord v = false → issueAt t w rds wrs sq body s = .next s) ∧
    (v ≠ w → undefinedWord v = true → Faults s (issueAt t w rds wrs sq body s) t cIllegal v.toNat)) ∧
  (∀ (s : State) (t : Nat) (p : W32), (thrOf s t).st ≠ .dormant → (thrOf s t).stepping = false → mwf noThread s.gar.thr = true →
    (∀ j < 2, s.flag F.DBG_CORE_WPC_EN (2 * dbgCore t + j) = false) → retire s t p [] = setThr s t { thrOf s t with pc := p, requeued := false })

/-- R305: the arithmetic, logic and shift instructions: gD, the flags, and ILLEGAL for fields that must be 0. -/
def Obligations.AluInstructions : Prop :=
  AluRuns .add 0 (fun _ a b => a + b) (fun _ a b => some (decide (2 ^ 32 ≤ a.toNat + b.toNat)))
    (fun _ a b => some (decide (a.toInt + b.toInt ≠ (a + b).toInt))) (fun _ a b => some (a + b == 0)) (fun _ a b => some (a + b).msb) ∧
  AluRuns .sub 1 (fun _ a b => a - b) (fun _ a b => some (decide (a.toNat < b.toNat)))
    (fun _ a b => some (decide (a.toInt - b.toInt ≠ (a - b).toInt))) (fun _ a b => some (a - b == 0)) (fun _ a b => some (a - b).msb) ∧
  AluRuns .and 2 (fun _ a b => a &&& b) (fun _ _ _ => none) (fun _ _ _ => none) (fun _ a b => some (a &&& b == 0)) (fun _ a b => some (a &&& b).msb) ∧
  AluRuns .or 3 (fun _ a b => a ||| b) (fun _ _ _ => none) (fun _ _ _ => none) (fun _ a b => some (a ||| b == 0)) (fun _ a b => some (a ||| b).msb) ∧
  AluRuns .xor 4 (fun _ a b => a ^^^ b) (fun _ _ _ => none) (fun _ _ _ => none) (fun _ a b => some (a ^^^ b == 0)) (fun _ a b => some (a ^^^ b).msb) ∧
  AluRuns .shl 5 (fun _ a b => a <<< (b.toNat % 32)) (fun _ a b => if b.toNat % 32 = 0 then none else some (a.getLsbD (32 - b.toNat % 32)))
    (fun _ _ _ => none) (fun _ a b => some (a <<< (b.toNat % 32) == 0)) (fun _ a b => some (a <<< (b.toNat % 32)).msb) ∧
  AluRuns .shr 6 (fun _ a b => a >>> (b.toNat % 32)) (fun _ a b => if b.toNat % 32 = 0 then none else some (a.getLsbD (b.toNat % 32 - 1)))
    (fun _ _ _ => none) (fun _ a b => some (a >>> (b.toNat % 32) == 0)) (fun _ a b => some (a >>> (b.toNat % 32)).msb) ∧
  AluRuns .sar 7 (fun _ a b => a.sshiftRight (b.toNat % 32)) (fun _ a b => if b.toNat % 32 = 0 then none else some (a.getLsbD (b.toNat % 32 - 1)))
    (fun _ _ _ => none) (fun _ a b => some (a.sshiftRight (b.toNat % 32) == 0)) (fun _ a b => some (a.sshiftRight (b.toNat % 32)).msb) ∧
  AluRuns .rol 8 (fun _ a b => a.rotateLeft (b.toNat % 32)) (fun _ _ _ => none) (fun _ _ _ => none)
    (fun _ a b => some (a.rotateLeft (b.toNat % 32) == 0)) (fun _ a b => some (a.rotateLeft (b.toNat % 32)).msb) ∧
  AluRuns .ror 9 (fun _ a b => a.rotateRight (b.toNat % 32)) (fun _ _ _ => none) (fun _ _ _ => none)
    (fun _ a b => some (a.rotateRight (b.toNat % 32) == 0)) (fun _ a b => some (a.rotateRight (b.toNat % 32)).msb) ∧
  AluRuns .mul 10 (fun _ a b => a * b) (fun _ _ _ => none) (fun _ _ _ => none) (fun _ a b => some (a * b == 0)) (fun _ a b => some (a * b).msb) ∧
  AluRuns .mulhu 11 (fun _ a b => BitVec.ofNat 32 (a.toNat * b.toNat / 2 ^ 32)) (fun _ _ _ => none) (fun _ _ _ => none)
    (fun _ a b => some (BitVec.ofNat 32 (a.toNat * b.toNat / 2 ^ 32) == 0)) (fun _ a b => some (BitVec.ofNat 32 (a.toNat * b.toNat / 2 ^ 32)).msb) ∧
  AluRuns .mulhs 12 (fun _ a b => BitVec.ofInt 32 (a.toInt * b.toInt / 2 ^ 32)) (fun _ _ _ => none) (fun _ _ _ => none)
    (fun _ a b => some (BitVec.ofInt 32 (a.toInt * b.toInt / 2 ^ 32) == 0)) (fun _ a b => some (BitVec.ofInt 32 (a.toInt * b.toInt / 2 ^ 32)).msb) ∧
  AluRuns .min 13 (fun _ a b => if a.toInt ≤ b.toInt then a else b) (fun _ _ _ => none) (fun _ _ _ => none) (fun _ _ _ => none) (fun _ _ _ => none) ∧
  AluRuns .max 14 (fun _ a b => if a.toInt ≤ b.toInt then b else a) (fun _ _ _ => none) (fun _ _ _ => none) (fun _ _ _ => none) (fun _ _ _ => none) ∧
  AluRuns .minu 15 (fun _ a b => if a.toNat ≤ b.toNat then a else b) (fun _ _ _ => none) (fun _ _ _ => none) (fun _ _ _ => none) (fun _ _ _ => none) ∧
  AluRuns .maxu 16 (fun _ a b => if a.toNat ≤ b.toNat then b else a) (fun _ _ _ => none) (fun _ _ _ => none) (fun _ _ _ => none) (fun _ _ _ => none) ∧
  AluRuns .slt 18 (fun _ a b => if a.toInt < b.toInt then 1 else 0) (fun _ _ _ => none) (fun _ _ _ => none) (fun _ _ _ => none) (fun _ _ _ => none) ∧
  AluRuns .sltu 19 (fun _ a b => if a.toNat < b.toNat then 1 else 0) (fun _ _ _ => none) (fun _ _ _ => none) (fun _ _ _ => none) (fun _ _ _ => none) ∧
  AluRuns1 .clz 20 clzOf (fun a => some (clzOf a == 0)) ∧
  AluRuns1 .popc 21 (fun a => BitVec.ofNat 32 ((List.range 32).countP a.getLsbD))
    (fun a => some (BitVec.ofNat 32 ((List.range 32).countP a.getLsbD) == 0)) ∧
  AluRuns1 .bswap 22 (fun a => BitVec.ofNat 32 (beNat (leBytes 4 a.toNat))) (fun _ => none) ∧
  AluRuns .csum 23 (fun _ a b => BitVec.ofNat 32 ((a.toNat + b.toNat) % 2 ^ 32 + (a.toNat + b.toNat) / 2 ^ 32)) (fun _ _ _ => none)
    (fun _ _ _ => none) (fun _ _ _ => none) (fun _ _ _ => none) ∧
  AluRuns1 .csumf 24 csumFold (fun a => some (csumFold a == 0)) ∧
  AluRuns .addc 27 (fun k a b => a + b + BitVec.ofNat 32 (b2n k)) (fun k a b => some (decide (2 ^ 32 ≤ a.toNat + b.toNat + b2n k)))
    (fun k a b => some (decide (a.toInt + b.toInt + b2n k ≠ (a + b + BitVec.ofNat 32 (b2n k)).toInt)))
    (fun k a b => some (a + b + BitVec.ofNat 32 (b2n k) == 0)) (fun k a b => some (a + b + BitVec.ofNat 32 (b2n k)).msb) ∧
  AluRuns .subb 28 (fun k a b => a - b - BitVec.ofNat 32 (b2n k)) (fun k a b => some (decide (a.toNat < b.toNat + b2n k)))
    (fun k a b => some (decide (a.toInt - b.toInt - b2n k ≠ (a - b - BitVec.ofNat 32 (b2n k)).toInt)))
    (fun k a b => some (a - b - BitVec.ofNat 32 (b2n k) == 0)) (fun k a b => some (a - b - BitVec.ofNat 32 (b2n k)).msb) ∧
  AluRuns .sel 29 (fun k a b => if k then a else b) (fun _ _ _ => none) (fun _ _ _ => none) (fun _ _ _ => none) (fun _ _ _ => none) ∧
  (∀ (s : State) (t : BitVec 14) (f : FmtR) (a r : W32), Issues s t.toNat (wordR 0x00 25 f) → a = gv (thrOf s t.toNat) f.ra →
    r = BitVec.ofNat 32 (a.toNat / 2 ^ f.sh.toNat % 2 ^ (f.rb.toNat + 1)) →
    Wrote s (exec (.ext t f) s) t.toNat f.rd r none none (some (r == 0)) none) ∧
  (∀ (s : State) (t : BitVec 14) (f : FmtR) (a d m : W32), Issues s t.toNat (wordR 0x00 26 f) → a = gv (thrOf s t.toNat) f.ra →
    d = gv (thrOf s t.toNat) f.rd → m = BitVec.ofNat 32 ((2 ^ (f.rb.toNat + 1) - 1) * 2 ^ f.sh.toNat) →
    Wrote s (exec (.ins t f) s) t.toNat f.rd ((d &&& ~~~m) ||| (BitVec.ofNat 32 (a.toNat * 2 ^ f.sh.toNat) &&& m)) none none none none)

/-- R305: the instructions with an immediate operand. -/
def Obligations.ImmediateInstructions : Prop :=
  ImmRuns .addi 0x01 (fun a i => a + i.signExtend 32) (fun a i => some (decide (2 ^ 32 ≤ a.toNat + (i.signExtend 32).toNat)))
    (fun a i => some (decide (a.toInt + (i.signExtend 32).toInt ≠ (a + i.signExtend 32).toInt)))
    (fun a i => some (a + i.signExtend 32 == 0)) (fun a i => some (a + i.signExtend 32).msb) ∧
  ImmRuns .andi 0x02 (fun a i => a &&& i.setWidth 32) (fun _ _ => none) (fun _ _ => none) (fun a i => some (a &&& i.setWidth 32 == 0))
    (fun a i => some (a &&& i.setWidth 32).msb) ∧
  ImmRuns .ori 0x03 (fun a i => a ||| i.setWidth 32) (fun _ _ => none) (fun _ _ => none) (fun a i => some (a ||| i.setWidth 32 == 0))
    (fun a i => some (a ||| i.setWidth 32).msb) ∧
  ImmRuns .xori 0x04 (fun a i => a ^^^ i.setWidth 32) (fun _ _ => none) (fun _ _ => none) (fun a i => some (a ^^^ i.setWidth 32 == 0))
    (fun a i => some (a ^^^ i.setWidth 32).msb) ∧
  (∀ (s : State) (t : BitVec 14) (f : FmtI), Issues s t.toNat (wordI 0x05 f) →
    (f.ra = 0 → Wrote s (exec (.lui t f) s) t.toNat f.rd (f.imm.setWidth 32 <<< 16) none none none none) ∧
    (f.ra ≠ 0 → Faults s (exec (.lui t f) s) t.toNat cIllegal (wordI 0x05 f).toNat)) ∧
  (∀ (s : State) (t : BitVec 14) (f : FmtI) (a r : W32) (k n : Nat), Issues s t.toNat (wordI 0x06 f) → a = gv (thrOf s t.toNat) f.ra →
    k = f.imm.toNat / 32 % 4 → n = f.imm.toNat % 32 →
    r = (if k = 0 then a <<< n else if k = 1 then a >>> n else if k = 2 then a.sshiftRight n else a.rotateLeft n) →
    (f.imm.toNat < 128 → Wrote s (exec (.shi t f) s) t.toNat f.rd r
      (if n = 0 ∨ k = 3 then none else some (a.getLsbD (if k = 0 then 32 - n else n - 1))) none (some (r == 0)) (some r.msb)) ∧
    (128 ≤ f.imm.toNat → Faults s (exec (.shi t f) s) t.toNat cIllegal (wordI 0x06 f).toNat)) ∧
  (∀ (s : State) (t : BitVec 14) (f : FmtI) (a b : W32), Issues s t.toNat (wordI 0x07 f) → a = gv (thrOf s t.toNat) f.ra →
    b = f.imm.signExtend 32 →
    (f.rd = 0 → Wrote s (exec (.cmpi t f) s) t.toNat 0 0 (some (decide (a.toNat < b.toNat))) (some (decide (a.toInt - b.toInt ≠ (a - b).toInt)))
      (some (a - b == 0)) (some (a - b).msb)) ∧
    (f.rd ≠ 0 → Faults s (exec (.cmpi t f) s) t.toNat cIllegal (wordI 0x07 f).toNat))

/-- R265, R306, R307: loads and stores of plain memory, their widths and byte orders, and what else they leave. -/
def Obligations.LoadsAndStores : Prop :=
  LoadRuns .ldB 0x08 1 (fun _ bs => BitVec.ofNat 32 (leNat bs)) ∧
  LoadRuns .ldBs 0x09 1 (fun _ bs => (BitVec.ofNat 8 (leNat bs)).signExtend 32) ∧
  LoadRuns .ldH 0x0A 2 (fun _ bs => BitVec.ofNat 32 (leNat bs)) ∧
  LoadRuns .ldHs 0x0B 2 (fun _ bs => (BitVec.ofNat 16 (leNat bs)).signExtend 32) ∧
  LoadRuns .ldW 0x0C 4 (fun _ bs => BitVec.ofNat 32 (leNat bs)) ∧
  LoadRuns .ldnH 0x0D 2 (fun _ bs => BitVec.ofNat 32 (beNat (leBytes 2 (leNat bs)))) ∧
  LoadRuns .ldnW 0x0E 4 (fun _ bs => bswapOf (BitVec.ofNat 32 (leNat bs))) ∧
  LoadRuns .csld 0x16 4 (fun d bs => csumOf d (bswapOf (BitVec.ofNat 32 (leNat bs)))) ∧
  (∀ (s : State) (t : BitVec 14) (f : FmtI) (p : Place) (bs : List Byte), Issues s t.toNat (wordI 0x0F f) →
    Reaches s t.toNat f 8 false p → memRead s t.toNat p 8 = some bs →
    (f.rd = 0 → Ends s (exec (.lda t f) s) t.toNat { ranOn (thrOf s t.toNat) ((thrOf s t.toNat).pc + 4) with a0 := BitVec.ofNat 64 (leNat bs) }) ∧
    (f.rd = 1 → Ends s (exec (.lda t f) s) t.toNat { ranOn (thrOf s t.toNat) ((thrOf s t.toNat).pc + 4) with a1 := BitVec.ofNat 64 (leNat bs) })) ∧
  StoreRuns .stB 0x10 1 (fun d => leBytes 1 d.toNat) ∧
  StoreRuns .stH 0x11 2 (fun d => leBytes 2 d.toNat) ∧
  StoreRuns .stW 0x12 4 (fun d => leBytes 4 d.toNat) ∧
  StoreRuns .stnH 0x13 2 (fun d => beBytes 2 d.toNat) ∧
  StoreRuns .stnW 0x14 4 (fun d => beBytes 4 d.toNat) ∧
  (∀ (s v : State) (t : BitVec 14) (f : FmtI) (p : Place), Issues s t.toNat (wordI 0x15 f) → f.rd.toNat < 2 →
    Reaches s t.toNat f 8 true p → memWrite s t.toNat p (leBytes 8 (accGet (thrOf s t.toNat) f.rd.toNat).toNat) = some v →
    exec (.sta t f) s = .next (setThr v t.toNat (ranOn (thrOf s t.toNat) ((thrOf s t.toNat).pc + 4)))) ∧
  (∀ (s : State) (t : BitVec 14) (f : FmtI), Issues s t.toNat (wordI 0x0F f) → 2 ≤ f.rd.toNat →
    Faults s (exec (.lda t f) s) t.toNat cIllegal (wordI 0x0F f).toNat) ∧
  (∀ (s : State) (t : BitVec 14) (f : FmtI) (c : Nat), Issues s t.toNat (wordI 0x0C f) →
    accFault (takeTurn s t.toNat) t.toNat (effAddr (thrOf s t.toNat) f) 4 false = some c →
    Faults s (exec (.ldW t f) s) t.toNat c (effAddr (thrOf s t.toNat) f))

/-- R308, R309: control transfer and bit operations. -/
def Obligations.BranchesAndBits : Prop :=
  BranchRuns .beq 0 (fun a b => a = b) ∧ BranchRuns .bne 1 (fun a b => a ≠ b) ∧
  BranchRuns .blt 2 (fun a b => a.toInt < b.toInt) ∧ BranchRuns .bge 3 (fun a b => b.toInt ≤ a.toInt) ∧
  BranchRuns .bltu 4 (fun a b => a.toNat < b.toNat) ∧ BranchRuns .bgeu 5 (fun a b => b.toNat ≤ a.toNat) ∧
  (∀ (s : State) (t : BitVec 14) (f : FmtBB) (v : Bool) (p : W32), BitIs s t.toNat f.bit.toNat v →
    p = (thrOf s t.toNat).pc + 4 * f.off.signExtend 32 → p.toNat % 4 = 0 →
    (Issues s t.toNat (wordBB 0x19 true f) → v = true → Goes s (exec (.bbS t f) s) t.toNat p) ∧
    (Issues s t.toNat (wordBB 0x19 true f) → v = false → Moved s (exec (.bbS t f) s) t.toNat) ∧
    (Issues s t.toNat (wordBB 0x19 false f) → v = false → Goes s (exec (.bbC t f) s) t.toNat p) ∧
    (Issues s t.toNat (wordBB 0x19 false f) → v = true → Moved s (exec (.bbC t f) s) t.toNat)) ∧
  (∀ (s : State) (t : BitVec 14) (f : FmtJ) (p : W32), p = (thrOf s t.toNat).pc + 4 * f.off.signExtend 32 → p.toNat % 4 = 0 →
    (Issues s t.toNat (wordJ 0x1A f) → Goes s (exec (.jmp t f) s) t.toNat p) ∧
    (Issues s t.toNat (wordJ 0x1B f) → ∃ v : State, v = setThr (takeTurn s t.toNat) t.toNat (gSet (thrOf (takeTurn s t.toNat) t.toNat) 31
      ((thrOf s t.toNat).pc + 4)) ∧ exec (.call t f) s =
        .next (retire (rfWrite (traceThr v t.toNat 0 (thrOf v t.toNat).pc.toNat p.toNat) t.toNat 31) t.toNat p []))) ∧
  (∀ (s : State) (t : BitVec 14) (f : FmtR) (p : W32), p = gv (thrOf s t.toNat) f.ra →
    (Issues s t.toNat (wordR 0x1C 0 f) → f.rd = 0 → f.rb = 0 → f.sh = 0 →
      (p.toNat % 4 = 0 → Goes s (exec (.jr t f) s) t.toNat p) ∧ (p.toNat % 4 ≠ 0 → Faults s (exec (.jr t f) s) t.toNat cAlign p.toNat)) ∧
    (Issues s t.toNat (wordR 0x1C 1 f) → f.rb = 0 → f.sh = 0 → p.toNat % 4 = 0 →
      ∃ v : State, v = setThr (takeTurn s t.toNat) t.toNat (gSet (thrOf (takeTurn s t.toNat) t.toNat) f.rd.toNat
        ((thrOf s t.toNat).pc + 4)) ∧ exec (.jalr t f) s =
          .next (retire (rfWrite (traceThr v t.toNat 0 (thrOf v t.toNat).pc.toNat p.toNat) t.toNat f.rd.toNat) t.toNat p []))) ∧
  BitRuns .bset 0 (fun _ => true) false ∧ BitRuns .bclr 1 (fun _ => false) false ∧ BitRuns .bnot 2 (fun v => !v) false ∧
  BitRuns .btas 4 (fun _ => true) true ∧ BitRuns .btac 5 (fun _ => false) true ∧
  (∀ (s : State) (t : BitVec 14) (f : FmtBT) (b : Nat) (v : Bool), Issues s t.toNat (wordBT 0x1D 3 f) → f.zero = 0 →
    (f.idx = false → f.r = 0) → b = (if f.idx then (f.bit.toNat + (gv (thrOf s t.toNat) f.r).toNat) % 8192 else f.bit.toNat) →
    BitIs s t.toNat b v → Ends s (exec (.btst t f) s) t.toNat
      (setFlagBit (setFlagBit (ranOn (thrOf s t.toNat) ((thrOf s t.toNat).pc + 4)) 0 v) 2 !v)) ∧
  (∀ (s : State) (t : BitVec 14) (f : FmtBT), Issues s t.toNat (wordBT 0x1D 6 f) → f.idx = false → f.zero = 0 → f.bit.toNat < 1024 →
    Ends s (exec (.bput t f) s) t.toNat (setFlagBit (ranOn (thrOf s t.toNat) ((thrOf s t.toNat).pc + 4)) f.bit.toNat
      ((gv (thrOf s t.toNat) f.r).getLsbD 0))) ∧
  (∀ (s : State) (t : BitVec 14) (f : FmtBT) (v : Bool), Issues s t.toNat (wordBT 0x1D 7 f) → f.idx = false → f.zero = 0 →
    BitIs s t.toNat f.bit.toNat v → Wrote s (exec (.bget t f) s) t.toNat f.r (BitVec.ofNat 32 (b2n v)) none none none none) ∧
  (∀ (s : State) (t : BitVec 14) (f : FmtBT), Issues s t.toNat (wordBT 0x1D 0 f) → f.idx = false → f.zero = 0 → f.r = 0 →
    1024 ≤ f.bit.toNat → f.bit.toNat < 4096 → Faults s (exec (.bset t f) s) t.toNat cBadBit f.bit.toNat)

/-- R310–R312: multiply-accumulate, accumulator operations and CRC steps. -/
def Obligations.AccumulatorsAndCrc : Prop :=
  (∀ (s : State) (t : BitVec 14) (f : FmtMD) (p q : List Byte), Issues s t.toNat (wordMD 0x1E f) →
    LocalIs s t.toNat (gv (thrOf s t.toNat) f.px).toNat (macSize f) p → LocalIs s t.toNat (gv (thrOf s t.toNat) f.py).toNat (macSize f) q →
    Ends s (exec (.macd t f) s) t.toNat (ranOn (macApply (thrOf s t.toNat) f (leNat p) (leNat q)) ((thrOf s t.toNat).pc + 4))) ∧
  (∀ (x : Thread) (f : FmtMD) (a b : Nat) (sum : Int), f.acc = false → sum = macVal f.ty.toNat x.a0 + macExt f.ty.toNat a * macExt f.ty.toNat b →
    (macApply x f a b).flags.getLsbD 1 = (decide (sum < macLo f.ty.toNat) || decide (macHi f.ty.toNat < sum)) ∧
    (f.sat = false → (macApply x f a b).a0 = BitVec.ofInt 64 sum) ∧
    (f.sat = true → macLo f.ty.toNat ≤ sum → sum ≤ macHi f.ty.toNat → (macApply x f a b).a0 = BitVec.ofInt 64 sum) ∧
    (f.sat = true → macHi f.ty.toNat < sum → (macApply x f a b).a0 = BitVec.ofInt 64 (macHi f.ty.toNat)) ∧
    (f.sat = true → sum < macLo f.ty.toNat → (macApply x f a b).a0 = BitVec.ofInt 64 (macLo f.ty.toNat)) ∧
    (macApply x f a b).a1 = x.a1) ∧
  (∀ (s : State) (t : BitVec 14) (f : FmtR) (x : Thread) (a b : W32), x = ranOn (thrOf s t.toNat) ((thrOf s t.toNat).pc + 4) →
    a = gv (thrOf s t.toNat) f.ra → b = gv (thrOf s t.toNat) f.rb →
    (Issues s t.toNat (wordR 0x1F 0 f) → f.rd = 0 → f.sh = 0 →
      Ends s (exec (.mac t f) s) t.toNat { x with a0 := BitVec.ofInt 64 (x.a0.toInt + a.toInt * b.toInt) }) ∧
    (Issues s t.toNat (wordR 0x1F 0 f) → f.rd = 1 → f.sh = 0 →
      Ends s (exec (.mac t f) s) t.toNat { x with a1 := BitVec.ofInt 64 (x.a1.toInt + a.toInt * b.toInt) }) ∧
    (Issues s t.toNat (wordR 0x1F 1 f) → f.rd = 0 → f.sh = 0 →
      Ends s (exec (.macu t f) s) t.toNat { x with a0 := BitVec.ofNat 64 (x.a0.toNat + a.toNat * b.toNat) }) ∧
    (Issues s t.toNat (wordR 0x1F 1 f) → f.rd = 1 → f.sh = 0 →
      Ends s (exec (.macu t f) s) t.toNat { x with a1 := BitVec.ofNat 64 (x.a1.toNat + a.toNat * b.toNat) }) ∧
    (Issues s t.toNat (wordR 0x1F 3 f) → f.rd = 0 → f.rb = 0 → f.sh = 0 →
      Ends s (exec (.mta t f) s) t.toNat { x with a0 := BitVec.ofNat 64 (setBits x.a0.toNat 31 0 a.toNat) }) ∧
    (Issues s t.toNat (wordR 0x1F 3 f) → f.rd = 0 → f.rb = 0 → f.sh = 1 →
      Ends s (exec (.mta t f) s) t.toNat { x with a0 := BitVec.ofNat 64 (setBits x.a0.toNat 63 32 a.toNat) }) ∧
    (Issues s t.toNat (wordR 0x1F 4 f) → f.rd = 0 → f.ra = 0 → f.rb = 0 → f.sh = 0 → Ends s (exec (.clra t f) s) t.toNat { x with a0 := 0 }) ∧
    (Issues s t.toNat (wordR 0x1F 4 f) → f.rd = 1 → f.ra = 0 → f.rb = 0 → f.sh = 0 → Ends s (exec (.clra t f) s) t.toNat { x with a1 := 0 })) ∧
  (∀ (s : State) (t : BitVec 14) (f : FmtR), Issues s t.toNat (wordR 0x1F 2 f) → f.ra = 0 → f.rb.toNat < 2 → f.sh.toNat < 2 →
    Wrote s (exec (.mfa t f) s) t.toNat f.rd
      (BitVec.ofNat 32 ((accGet (thrOf s t.toNat) f.rb.toNat).toNat / 2 ^ (32 * f.sh.toNat))) none none none none) ∧
  (∀ (s : State) (t : BitVec 14) (f : FmtR) (d a : Nat), d = (gv (thrOf s t.toNat) f.rd).toNat → a = (gv (thrOf s t.toNat) f.ra).toNat →
    f.rb = 0 → f.sh = 0 →
    (Issues s t.toNat (wordR 0x29 0 f) →
      Wrote s (exec (.crcb t f) s) t.toNat f.rd (BitVec.ofNat 32 (crc32cRun d (beBytes 1 a))) none none none none) ∧
    (Issues s t.toNat (wordR 0x29 1 f) →
      Wrote s (exec (.crch t f) s) t.toNat f.rd (BitVec.ofNat 32 (crc32cRun d (beBytes 2 a))) none none none none) ∧
    (Issues s t.toNat (wordR 0x29 2 f) →
      Wrote s (exec (.crcw t f) s) t.toNat f.rd (BitVec.ofNat 32 (crc32cRun d (beBytes 4 a))) none none none none))

/-- R183, R194, R315: lookups issue with their key, wait for their slot, and `lkw` waits for the slots it names.
R329, R330, R414: the descriptor's four kinds of transfer, and what refuses one. -/
def Obligations.LookupsAndDma : Prop :=
  ((∀ (s u v : State) (t : BitVec 14) (f : FmtU) (w : W32) (key : List Byte), isMgt t.toNat = false → f.rd = 0 → f.rc = 0 →
    u = takeTurn s t.toNat → w = gv (thrOf s t.toNat) f.rb → w.toNat / 64 % 4 = 0 →
    LocalIs s t.toNat (gv (thrOf s t.toNat) f.ra).toNat (lcLen w) key →
    v = setPend (agtAccept u (lookupOf u t.toNat w key)) t.toNat (lcSlot w) →
    (Issues s t.toNat (wordU 0x20 0 f) → (thrOf s t.toNat).pend.getLsbD (lcSlot w) = false → Ran (exec (.lkp t f) s) t.toNat v) ∧
    (Issues s t.toNat (wordU 0x20 0 f) → (thrOf s t.toNat).pend.getLsbD (lcSlot w) = true →
      Waits (exec (.lkp t f) s) t.toNat u (.slot (lcSlot w))) ∧
    (Issues s t.toNat (wordU 0x20 1 f) → (thrOf s t.toNat).pend.getLsbD (lcSlot w) = false →
      Waits (exec (.lkpw t f) s) t.toNat v (.slots (2 ^ lcSlot w))) ∧
    (Issues s t.toNat (wordU 0x20 1 f) → (thrOf s t.toNat).pend.getLsbD (lcSlot w) = true →
      Waits (exec (.lkpw t f) s) t.toNat u (.slot (lcSlot w)))) ∧
  (∀ (s : State) (t : BitVec 14) (f : FmtUI), Issues s t.toNat (wordUI 0x20 2 f) → isMgt t.toNat = false → f.rd = 0 → f.ra = 0 →
    f.imm.toNat < 16 →
    ((thrOf s t.toNat).pend.toNat &&& f.imm.toNat = 0 → Moved s (exec (.lkw t f) s) t.toNat) ∧
    ((thrOf s t.toNat).pend.toNat &&& f.imm.toNat ≠ 0 → Waits (exec (.lkw t f) s) t.toNat (takeTurn s t.toNat) (.slots f.imm.toNat)))) ∧
  (∀ (s u : State) (t : BitVec 14) (f : FmtU) (a c n : Nat) (loc : W32) (bs : List Byte), Issues s t.toNat (wordU 0x26 0 f) → f.rb = 0 → f.rc = 0 →
    u = takeTurn s t.toNat → LocalIs s t.toNat (gv (thrOf s t.toNat) f.ra).toNat 16 bs → a = leNat (bs.take 8) →
    c = leNat ((bs.drop 8).take 4) → loc = BitVec.ofNat 32 (leNat (bs.drop 12)) → n = c % 4096 + 1 →
    (∀ data : List Byte, LocalIs s t.toNat loc.toNat n data → c / 2 ^ 21 % 2 ^ 9 = 0 →
      (bitOf c 30 = false → inWindow u t.toNat a n = true → drcReady u = true →
        (bitOf c 31 = true → inAreas u a n = false →
          Asks (exec (.dma t f) s) (dramWrite u a data (if isMgt t.toNat then 6 else 5)) t.toNat (dmaAnswer loc [] [] (a, true, none, n) f.rd.toNat 0) .dma) ∧
        (bitOf c 31 = true → inAreas u a n = true → exec (.dma t f) s = .fault .dmaIntoClientArea) ∧
        (∀ (v : State) (d : List Byte) (ps : List Bool), bitOf c 31 = false →
          dramRead u a n (if isMgt t.toNat then 6 else 5) = (d, ps, v) →
          Asks (exec (.dma t f) s) v t.toNat (dmaAnswer loc d ps (a, false, none, n) f.rd.toNat 0) .dma)) ∧
      (bitOf c 30 = false → inWindow u t.toNat a n = true → drcReady u = false →
        Asks (exec (.dma t f) s) u t.toNat (dmaAnswer loc [] [] (a, bitOf c 31, none, n) f.rd.toNat 0x0D) .dma) ∧
      (bitOf c 30 = true → isS s t.toNat = true → fnRefuses u (c / 2 ^ 12 % 512) = false →
        (bitOf c 31 = true → Asks (exec (.dma t f) s) (hostWrite u (c / 2 ^ 12 % 512) a data) t.toNat
          (dmaAnswer loc [] [] (a, true, some (c / 2 ^ 12 % 512), n) f.rd.toNat 0) .dma) ∧
        (bitOf c 31 = false → Asks (exec (.dma t f) s) u t.toNat
          (dmaAnswer loc [] [] (a, false, some (c / 2 ^ 12 % 512), n) f.rd.toNat 0) .dma)) ∧
      (bitOf c 30 = true → isS s t.toNat = true → fnRefuses u (c / 2 ^ 12 % 512) = true →
        Asks (exec (.dma t f) s) u t.toNat (dmaAnswer loc [] [] (a, bitOf c 31, some (c / 2 ^ 12 % 512), n) f.rd.toNat 0x0D) .dma)) ∧
    (bitOf c 30 = true → isS s t.toNat = false → Faults s (exec (.dma t f) s) t.toNat cPriv (wordU 0x26 0 f).toNat) ∧
    (bitOf c 30 = false → (localOf t.toNat loc.toNat n).isSome = true → inWindow u t.toNat a n = false →
      Faults s (exec (.dma t f) s) t.toNat cBadAddr a))

/-- R121, R123, R131, R317–R319, R336: what a cell instruction asks for as it issues. -/
def Obligations.CellInstructions : Prop :=
  (∀ (s u v : State) (t : BitVec 14) (f : FmtU) (h a w : W32) (ch : Chain) (bad : List Nat), Issues s t.toNat (wordU 0x21 0 f) →
    isMgt t.toNat = false → u = takeTurn s t.toNat → h = gv (thrOf s t.toNat) f.ra → a = gv (thrOf s t.toNat) f.rb →
    w = gv (thrOf s t.toNat) f.rc → (localOf t.toNat a.toNat (xwLen w)).isSome = true → xwBad w = false → handleGood u h.toNat = true →
    chainAt u (h.toNat / 8) = some ch → probeChain u ch 2 (xwOfs w) (xwLen w) = (v, bad) →
    Asks (exec (.cld t f) s) v t.toNat (cellAnswer a (chainBytes v ch (xwOfs w) (xwLen w))
      ((List.range (xwLen w)).map (fun i => bad.contains ((ch.ofs + xwOfs w + i) / 16))) f.rd.toNat 0 true) .cell) ∧
  (∀ (s u v : State) (t : BitVec 14) (f : FmtU) (h a w : W32) (ch : Chain) (bs : List Byte) (st : Nat), Issues s t.toNat (wordU 0x21 1 f) →
    isMgt t.toNat = false → u = takeTurn s t.toNat → h = gv (thrOf s t.toNat) f.ra → a = gv (thrOf s t.toNat) f.rb →
    w = gv (thrOf s t.toNat) f.rc → LocalIs s t.toNat a.toNat (xwLen w) bs → xwBad w = false → handleGood u h.toNat = true →
    chainAt u (h.toNat / 8) = some ch → cellStore u (cluOf t.toNat) (h.toNat / 8) ch (xwOfs w) bs = (st, v) →
    Asks (exec (.cst t f) s) v t.toNat (cellAnswer 0 [] [] f.rd.toNat (BitVec.ofNat 32 st) (st == 0)) .cell) ∧
  (∀ (s u v : State) (t : BitVec 14) (f : FmtU) (n h : Nat) (cells : List Nat), Issues s t.toNat (wordU 0x21 2 f) → isMgt t.toNat = false →
    f.rb = 0 → f.rc = 0 → u = takeTurn s t.toNat → n = (gv (thrOf s t.toNat) f.ra).toNat → 1 ≤ n → n ≤ 80 →
    (requestCells u (clusterReq u (cluOf t.toNat)) n = (none, v) →
      Asks (exec (.calloc t f) s) v t.toNat (cellAnswer 0 [] [] f.rd.toNat 0xFFFFFFFF false) .cell) ∧
    (∀ y : State, requestCells u (clusterReq u (cluOf t.toNat)) n = (some cells, y) →
      newChain y cells (128 * n) false (some (cluOf t.toNat)) = (h, v) →
      Asks (exec (.calloc t f) s) v t.toNat (cellAnswer 0 [] [] f.rd.toNat (BitVec.ofNat 32 (handleOf h)) true) .cell)) ∧
  (∀ (s u : State) (t : BitVec 14) (f : FmtU) (n : Nat), Issues s t.toNat (wordU 0x21 2 f) → isMgt t.toNat = false →
    f.rb = 0 → f.rc = 0 → u = takeTurn s t.toNat → n = (gv (thrOf s t.toNat) f.ra).toNat → n = 0 ∨ 80 < n →
    Faults s (exec (.calloc t f) s) t.toNat cBadArg n) ∧
  (∀ (s u : State) (t : BitVec 14) (f : FmtU) (h : Nat), isMgt t.toNat = false → f.rb = 0 → f.rc = 0 → u = takeTurn s t.toNat →
    h = (gv (thrOf s t.toNat) f.ra).toNat →
    (Issues s t.toNat (wordU 0x21 3 f) → handleGood u h = true → (chainAt u (h / 8)).isSome = true →
      (∀ v : State, addRef u (h / 8) = some v → Asks (exec (.cref t f) s) v t.toNat (cellAnswer 0 [] [] f.rd.toNat 0 true) .cell) ∧
      (addRef u (h / 8) = none → Asks (exec (.cref t f) s) u t.toNat (cellAnswer 0 [] [] f.rd.toNat 5 false) .cell)) ∧
    (Issues s t.toNat (wordU 0x21 3 f) → handleGood u h = false →
      exec (.cref t f) s = .next (thrFault (noteBadHandle u h) t.toNat cBadCell h)) ∧
    (Issues s t.toNat (wordU 0x21 4 f) → f.rd = 0 → handleGood u h = true → (chainAt u (h / 8)).isSome = true →
      Ran (exec (.cfree t f) s) t.toNat (settleAll (unref u (h / 8)))) ∧
    (Issues s t.toNat (wordU 0x21 4 f) → f.rd = 0 → handleForm u h = true → chainAt u (h / 8) = none → mget noReq u.crn.cellReq (h / 8) = none →
      exec (.cfree t f) s = .next (thrFault ((noteBadHandle u h).bump F.CRN_ERR_DOUBLE_FREE 0 1) t.toNat cBadCell h)) ∧
    (Issues s t.toNat (wordU 0x21 4 f) → f.rd = 0 → handleGood u h = false →
      handleForm u h = false ∨ (chainAt u (h / 8)).isSome = true ∨ mget noReq u.crn.cellReq (h / 8) ≠ none →
      exec (.cfree t f) s = .next (thrFault (noteBadHandle u h) t.toNat cBadCell h)))

/-- R222, R230, R238, R241, R321: `get` and the enqueues.
R227, R228, R241, R322–R324, R391–R393: the emits, `drop`, `aend`, `dly` and `wfrm`. -/
def Obligations.GetsEnqueuesAndEmits : Prop :=
  ((∀ (s u : State) (t : BitVec 14) (f : FmtUI), Issues s t.toNat (wordUI 0x22 0 f) → isMgt t.toNat = false → f.rd = 0 → f.ra = 0 →
    f.imm.toNat < 64 → u = takeTurn s t.toNat →
    ((thrOf s t.toNat).item = none → Waits (exec (.get t f) s) t.toNat
      { u with ory := { u.ory with gets := u.ory.gets ++ [(t.toNat, f.imm.toNat)] } } (.get f.imm.toNat)) ∧
    ((thrOf s t.toNat).item ≠ none → Faults s (exec (.get t f) s) t.toNat cItem (wordUI 0x22 0 f).toNat)) ∧
  (∀ (s u : State) (t : BitVec 14) (f : FmtU) (a b : W32) (h : Held) (bs : List Byte) (it : Item), isMgt t.toNat = false → f.rc = 0 →
    u = takeTurn s t.toNat → a = gv (thrOf s t.toNat) f.ra → b = gv (thrOf s t.toNat) f.rb → qdBad a = false →
    (thrOf s t.toNat).item = some h → LocalIs s t.toNat (thrBlk t.toNat) 64 bs → it = itemOfBytes bs →
    itemWord it 0 = nullHandle ∨ handleGood u (itemWord it 0) = true →
    (Issues s t.toNat (wordU 0x22 1 f) →
      (h.late = true → Told (exec (.enqInstruction t f) s) (lateEnq u t.toNat h it) t.toNat f.rd.toNat 0 0) ∧
      (h.late = false → thrEnqReady u t.toNat a false = false →
        Waits (exec (.enqInstruction t f) s) t.toNat u (.enq f.rd.toNat a b (false, it))) ∧
      (∀ (v : State) (st : Nat), h.late = false → thrEnqReady u t.toNat a false = true → thrEnq u t.toNat a b false it = (st, v) →
        Told (exec (.enqInstruction t f) s) v t.toNat f.rd.toNat st 0)) ∧
    (Issues s t.toNat (wordU 0x22 2 f) →
      (h.late = true → Told (exec (.enqNb t f) s) (lateEnq u t.toNat h it) t.toNat f.rd.toNat 0 0) ∧
      (h.late = false → u.flag F.ORY_CTL_EN 0 = true → u.flag F.ORY_Q_CFG_EN (qdQueue a) = true → queueXoff u (qdQueue a) = true →
        Told (exec (.enqNb t f) s) u t.toNat f.rd.toNat 8 0) ∧
      (∀ (v : State) (st : Nat), h.late = false →
        u.flag F.ORY_CTL_EN 0 = false ∨ u.flag F.ORY_Q_CFG_EN (qdQueue a) = false ∨ queueXoff u (qdQueue a) = false →
        thrEnq u t.toNat a b false it = (st, v) → Told (exec (.enqNb t f) s) v t.toNat f.rd.toNat st 0))) ∧
  (∀ (s : State) (q : Nat), queueXoff s q = true ↔ s.flag F.ORY_Q_STS_XOFF_ACT q = true ∨
    (s.flag F.ORY_Q_CFG_BPC_EN q = true ∧ bpcAsserted s (s.fld F.ORY_Q_CFG_BPC q) = true)) ∧
  (∀ (s u v : State) (t : BitVec 14) (f : FmtU) (a b : W32) (bs : List Byte) (it : Item) (st : Nat), isMgt t.toNat = false →
    u = takeTurn s t.toNat → a = gv (thrOf s t.toNat) f.ra → b = gv (thrOf s t.toNat) f.rb → qdBad a = false →
    LocalIs s t.toNat (gv (thrOf s t.toNat) f.rc).toNat 64 bs → it = itemOfBytes bs → itForm it = true →
    itemWord it 0 = nullHandle ∨ handleGood u (itemWord it 0) = true → thrEnq u t.toNat a b true it = (st, v) →
    (Issues s t.toNat (wordU 0x22 3 f) →
      (thrEnqReady u t.toNat a true = true → Told (exec (.enqd t f) s) v t.toNat f.rd.toNat st 0) ∧
      (thrEnqReady u t.toNat a true = false → Waits (exec (.enqd t f) s) t.toNat u (.enq f.rd.toNat a b (true, it)))) ∧
    (Issues s t.toNat (wordU 0x22 4 f) →
      (u.flag F.ORY_CTL_EN 0 = false ∨ u.flag F.ORY_Q_CFG_EN (qdQueue a) = false ∨ queueXoff u (qdQueue a) = false →
        Told (exec (.enqdNb t f) s) v t.toNat f.rd.toNat st 0) ∧
      (u.flag F.ORY_CTL_EN 0 = true → u.flag F.ORY_Q_CFG_EN (qdQueue a) = true → queueXoff u (qdQueue a) = true →
        Told (exec (.enqdNb t f) s) u t.toNat f.rd.toNat 8 0))) ∧
  (∀ (s : State) (t : BitVec 14) (f : FmtU), Issues s t.toNat (wordU 0x22 1 f) → isMgt t.toNat = false → f.rc = 0 →
    qdBad (gv (thrOf s t.toNat) f.ra) = false → (thrOf s t.toNat).item = none →
    Faults s (exec (.enqInstruction t f) s) t.toNat cNoItem (wordU 0x22 1 f).toNat)) ∧
  ((∀ (s u : State) (t : BitVec 14) (f : FmtU) (a b : W32) (h : Held) (bs hdr : List Byte) (it : Item), isMgt t.toNat = false → f.rc = 0 →
    u = takeTurn s t.toNat → a = gv (thrOf s t.toNat) f.ra → b = gv (thrOf s t.toNat) f.rb → a.toNat < 16384 → wbBad b = false →
    (thrOf s t.toNat).item = some h → LocalIs s t.toNat (thrBlk t.toNat) 64 bs → it = itemOfBytes bs →
    itemWord it 0 = nullHandle ∨ handleGood u (itemWord it 0) = true → LocalIs s t.toNat (hdrBuf t.toNat) (wbNew b) hdr →
    (Issues s t.toNat (wordU 0x22 5 f) →
      (emitWaits u h true it = true → Waits (exec (.emit t f) s) t.toNat u (.gate f.rd.toNat a b (true, hdr, it))) ∧
      (∀ (v : State) (st : Nat), emitWaits u h true it = false → emitRun u t.toNat h true a.toNat b hdr it = (st, v) →
        Told (exec (.emit t f) s) v t.toNat f.rd.toNat st 0)) ∧
    (Issues s t.toNat (wordU 0x22 6 f) →
      (emitWaits u h false it = true → Waits (exec (.emitk t f) s) t.toNat u (.gate f.rd.toNat a b (false, hdr, it))) ∧
      (∀ (v : State) (st : Nat), emitWaits u h false it = false → emitRun u t.toNat h false a.toNat b hdr it = (st, v) →
        Told (exec (.emitk t f) s) v t.toNat f.rd.toNat st 0))) ∧
  (∀ (s u : State) (t : BitVec 14) (f : FmtU) (h : Held) (bs : List Byte) (it : Item), isMgt t.toNat = false → f = ⟨0, 0, 0, 0⟩ →
    u = takeTurn s t.toNat → (thrOf s t.toNat).item = some h → LocalIs s t.toNat (thrBlk t.toNat) 64 bs → it = itemOfBytes bs →
    (Issues s t.toNat (wordU 0x22 7 f) → itemWord it 0 = nullHandle ∨ handleGood u (itemWord it 0) = true →
      Ran (exec (.drop t f) s) t.toNat (settleAll (dropHeld u t.toNat))) ∧
    (Issues s t.toNat (wordU 0x22 8 f) → Ran (exec (.aend t f) s) t.toNat (settleAll (releaseCtx u t.toNat))) ∧
    (Issues s t.toNat (wordU 0x22 10 f) → itForm it = true → Moved s (exec (.wfrm t f) s) t.toNat) ∧
    (Issues s t.toNat (wordU 0x22 10 f) → itForm it = false →
      Ran (exec (.wfrm t f) s) t.toNat (foldS [1, 3, 4, 5] (fun v i =>
        bankWrite v (coreOf t.toNat) (thrBlk t.toNat + 4 * i) (leBytes 4 (itemWord (threadForm it) i))) u))) ∧
  (∀ (s u : State) (t : BitVec 14) (f : FmtU) (bs : List Byte) (it : Item) (w0 : Nat), Issues s t.toNat (wordU 0x22 9 f) →
    isMgt t.toNat = false → f.rb = 0 → f.rc = 0 → u = takeTurn s t.toNat → LocalIs s t.toNat (gv (thrOf s t.toNat) f.ra).toNat 80 bs →
    w0 = leNat (bs.take 4) → it = itemOfBytes (bs.drop 16) → w0 < 2 ^ 30 → itForm it = true →
    itemWord it 0 = nullHandle ∨ handleGood u (itemWord it 0) = true →
    (∀ (v : State) (st : Nat), thrDly u w0 (BitVec.ofNat 32 (leNat ((bs.drop 4).take 4))) (leNat ((bs.drop 8).take 8)) it = (st, v) →
      Told (exec (.dly t f) s) v t.toNat f.rd.toNat st 0)))

/-- R325, R366–R373: what Flint answers a thread's acquire, release and registration. -/
def Obligations.FlintInstructions : Prop :=
  (∀ (s u : State) (t : BitVec 14) (f : FmtU) (k o : Nat), f.rb = 0 → f.rc = 0 → u = takeTurn s t.toNat →
    k = (gv (thrOf s t.toNat) f.ra).toNat → k < 4096 → o = ownerOfThr t.toNat →
    (∀ (i : Instr) (fn : Nat), (i = .fla t f ∧ fn = 0) ∨ (i = .flt t f ∧ fn = 1) → Issues s t.toNat (wordU 0x23 fn f) →
      (fltAllowed u false k o = false → Told (exec i s) u t.toNat f.rd.toNat 0x0C 0) ∧
      (fltAllowed u false k o = true → (lockOf u k).owner = some o → Told (exec i s) u t.toNat f.rd.toNat 0 1) ∧
      (fltAllowed u false k o = true → (lockOf u k).owner = none → (lockOf u k).queue = [] →
        Told (exec i s) (setLock u k { lockOf u k with owner := some o, told := (lockOf u k).mark }) t.toNat f.rd.toNat
          (if (lockOf u k).mark then 0x0B else 0) 0)) ∧
    (Issues s t.toNat (wordU 0x23 0 f) → fltAllowed u false k o = true → (lockOf u k).owner ≠ some o → (lockOf u k).owner ≠ none →
      Waits (exec (.fla t f) s) t.toNat (setLock u k { lockOf u k with queue := (lockOf u k).queue ++ [o] }) (.flint f.rd.toNat false k 1)) ∧
    (Issues s t.toNat (wordU 0x23 1 f) → fltAllowed u false k o = true → (lockOf u k).owner ≠ some o → (lockOf u k).owner ≠ none →
      Told (exec (.flt t f) s) u t.toNat f.rd.toNat 0x0A 0) ∧
    (Issues s t.toNat (wordU 0x23 2 f) →
      ((lockOf u k).owner = some o → Told (exec (.flr t f) s)
        (lockGrant (lockFreed (setLock u k { lockOf u k with owner := none, mark := (lockOf u k).mark && !(lockOf u k).told, told := false }) k) k)
        t.toNat f.rd.toNat 0 0) ∧
      ((lockOf u k).owner ≠ some o → Told (exec (.flr t f) s) u t.toNat f.rd.toNat 0x0E 0)) ∧
    (∀ (v : State) (st : Nat), Issues s t.toNat (wordU 0x23 6 f) → fltRegister u k o = (st, v) →
      Told (exec (.fwr t f) s) v t.toNat f.rd.toNat st 0) ∧
    (Issues s t.toNat (wordU 0x23 7 f) →
      ((k, o) ∈ u.flt.regs → Told (exec (.fwc t f) s) { u with flt := { u.flt with regs := u.flt.regs.filter (· ≠ (k, o)) } } t.toNat f.rd.toNat 0 0) ∧
      ((k, o) ∉ u.flt.regs → Told (exec (.fwc t f) s) u t.toNat f.rd.toNat 0x0E 0))) ∧
  (∀ (s u : State) (t : BitVec 14) (f : FmtU) (k n o : Nat), f.rc = 0 → u = takeTurn s t.toNat →
    k = (gv (thrOf s t.toNat) f.ra).toNat → k < 512 → n = (gv (thrOf s t.toNat) f.rb).toNat → 1 ≤ n → n < 65536 → o = ownerOfThr t.toNat →
    (∀ (i : Instr) (fn : Nat), (i = .fsa t f ∧ fn = 3) ∨ (i = .fst t f ∧ fn = 4) → Issues s t.toNat (wordU 0x23 fn f) →
      (fltAllowed u true k o = false → Told (exec i s) u t.toNat f.rd.toNat 0x0C 0) ∧
      (fltAllowed u true k o = true → (semOf u k).queue = [] → semCan u k o n = true →
        Told (exec i s) (semTake u k o n) t.toNat f.rd.toNat (if (semOf u k).mark then 0x0B else 0) 0)) ∧
    (fltAllowed u true k o = true → (semOf u k).queue ≠ [] ∨ semCan u k o n = false →
      (Issues s t.toNat (wordU 0x23 3 f) → Waits (exec (.fsa t f) s) t.toNat
        (setSem u k { semOf u k with queue := (semOf u k).queue ++ [(o, n)] }) (.flint f.rd.toNat true k n)) ∧
      (Issues s t.toNat (wordU 0x23 4 f) → Told (exec (.fst t f) s) u t.toNat f.rd.toNat 0x0A 0)) ∧
    (Issues s t.toNat (wordU 0x23 5 f) →
      (unitsOfOwner (semOf u k) o < n → Told (exec (.fsr t f) s) u t.toNat f.rd.toNat 0x0E 0) ∧
      (∀ (v : State) (st : Nat), n ≤ unitsOfOwner (semOf u k) o → semRel u k o n = (st, v) →
        st = 0 ∧ Told (exec (.fsr t f) s) v t.toNat f.rd.toNat 0 0))) ∧
  (∀ (s u : State) (t : BitVec 14) (f : FmtU) (a : W32), Issues s t.toNat (wordU 0x23 2 f) → f.rb = 0 → f.rc = 0 → u = takeTurn s t.toNat →
    a = gv (thrOf s t.toNat) f.ra → a.getLsbD 31 = true →
    (isSupv u t.toNat = false → Faults s (exec (.flr t f) s) t.toNat cPriv (wordU 0x23 2 f).toNat) ∧
    (∀ h : Nat, isSupv u t.toNat = true → a.toNat % 2 ^ 31 < 4096 → (lockOf u (a.toNat % 2 ^ 31)).owner = some h → h < 8192 → cluOf h = cluOf t.toNat →
      Told (exec (.flr t f) s) (lockGrant (lockAbandon u (a.toNat % 2 ^ 31) h) (a.toNat % 2 ^ 31)) t.toNat f.rd.toNat 0 0))

/-- R283–R287, R326: sends, receives, staging and the watch mask.
R271–R273, R328: waits for events, the timer compare, `sev` and `rdnt`. -/
def Obligations.ChannelsAndEvents : Prop :=
  ((∀ (s u v : State) (t : BitVec 14) (f : FmtU) (a : W32) (c : Nat) (ws : List W32), isMgt t.toNat = false → f.rb = 0 → f.rc = 0 →
    u = takeTurn s t.toNat → a = gv (thrOf s t.toNat) f.ra → swBad a = false → c = a.toNat % 2048 → v = serveSenders u c →
    ws = (List.range (a.toNat / 2 ^ 16 % 8 + 1)).map (stageWord (thrOf s t.toNat)) →
    (∀ (i : Instr) (fn : Nat), (i = .chsend t f ∧ fn = 0) ∨ (i = .chsendNb t f ∧ fn = 1) → Issues s t.toNat (wordU 0x24 fn f) →
      (chanTakes u c = false → Told (exec i s) (noteChoff u t.toNat) t.toNat f.rd.toNat 3 0) ∧
      (chanTakes u c = true → chanRoom v c = true → Told (exec i s) (chanCommit v t.toNat c ws) t.toNat f.rd.toNat 0 0)) ∧
    (chanTakes u c = true → chanRoom v c = false →
      (Issues s t.toNat (wordU 0x24 0 f) → Waits (exec (.chsend t f) s) t.toNat v (.send f.rd.toNat c ws)) ∧
      (Issues s t.toNat (wordU 0x24 1 f) → Told (exec (.chsendNb t f) s) v t.toNat f.rd.toNat 1 0))) ∧
  (∀ (s : State) (c : Nat), (blockedSend s c = [] → serveSenders s c = s) ∧
    (blockedRecv s c = [] → chanEn s c = true → serveReceivers s c = s)) ∧
  (∀ (s u v : State) (t : BitVec 14) (f : FmtU) (a : W32) (c : Nat), isMgt t.toNat = false → f.rc = 0 → u = takeTurn s t.toNat →
    a = gv (thrOf s t.toNat) f.ra → (localOf t.toNat a.toNat 32).isSome = true → (gv (thrOf s t.toNat) f.rb).toNat < 64 →
    c = 64 * cluOf t.toNat + (gv (thrOf s t.toNat) f.rb).toNat → v = serveReceivers u c →
    (∀ (i : Instr) (fn : Nat), (i = .chrecv t f ∧ fn = 2) ∨ (i = .chrecvNb t f ∧ fn = 3) → Issues s t.toNat (wordU 0x24 fn f) →
      (∀ (w : State) (n : Nat), chanTake v t.toNat c a.toNat = some (n, w) → Told (exec i s) w t.toNat f.rd.toNat 0 n) ∧
      (chanOf v c = [] → chanEn v c = false → Told (exec i s) v t.toNat f.rd.toNat 3 0)) ∧
    (chanOf v c = [] → chanEn v c = true →
      (Issues s t.toNat (wordU 0x24 2 f) → Waits (exec (.chrecv t f) s) t.toNat v (.recv f.rd.toNat a c)) ∧
      (Issues s t.toNat (wordU 0x24 3 f) → Told (exec (.chrecvNb t f) s) v t.toNat f.rd.toNat 2 0))) ∧
  (∀ (s : State) (t : BitVec 14) (f : FmtUI) (x : Thread), isMgt t.toNat = false → x = ranOn (thrOf s t.toNat) ((thrOf s t.toNat).pc + 4) →
    f.imm.toNat < 8 →
    (Issues s t.toNat (wordUI 0x24 4 f) → f.rd = 0 → Ends s (exec (.stw t f) s) t.toNat (setStage x f.imm.toNat (gv x f.ra))) ∧
    (Issues s t.toNat (wordUI 0x24 6 f) → f.ra = 0 →
      Wrote s (exec (.stgr t f) s) t.toNat f.rd (stageWord (thrOf s t.toNat) f.imm.toNat) none none none none)) ∧
  (∀ (s : State) (t : BitVec 14) (f : FmtUI) (x : Thread) (bs : List Byte), Issues s t.toNat (wordUI 0x24 5 f) → isMgt t.toNat = false →
    f.rd = 0 → 1 ≤ f.imm.toNat → f.imm.toNat ≤ 8 → x = ranOn (thrOf s t.toNat) ((thrOf s t.toNat).pc + 4) →
    LocalIs s t.toNat (gv x f.ra).toNat (4 * f.imm.toNat) bs →
    Ends s (exec (.stgm t f) s) t.toNat ((List.range f.imm.toNat).foldl (fun y i =>
      setStage y i (BitVec.ofNat 32 (leNat ((bs.drop (4 * i)).take 4)))) x)) ∧
  (∀ (s u : State) (t : BitVec 14) (f : FmtU), Issues s t.toNat (wordU 0x24 7 f) → isMgt t.toNat = false → f.rd = 0 → f.rc = 0 →
    u = takeTurn s t.toNat → Ran (exec (.chwatch t f) s) t.toNat (settleAll (setThr u t.toNat { thrOf u t.toNat with
      watch := (gv (thrOf s t.toNat) f.rb) ++ (gv (thrOf s t.toNat) f.ra) })))) ∧
  ((∀ (s u : State) (t : BitVec 14) (f : FmtU) (m got : W16) (x : Thread), Issues s t.toNat (wordU 0x25 0 f) → f.rb = 0 → f.rc = 0 →
    u = takeTurn s t.toNat → m = (gv (thrOf s t.toNat) f.ra).setWidth 16 → got = evBits u t.toNat &&& m →
    x = ranOn (thrOf s t.toNat) ((thrOf s t.toNat).pc + 4) →
    (m = 0 ∨ got ≠ 0 → Ends s (exec (.wait t f) s) t.toNat (gSet { x with ev := x.ev &&& ~~~got } f.rd.toNat (got.setWidth 32))) ∧
    (m ≠ 0 → got = 0 → Waits (exec (.wait t f) s) t.toNat u (.ev false f.rd.toNat m))) ∧
  (∀ (s u : State) (t : BitVec 14) (f : FmtU) (m got : W16) (v : W64) (x : Thread), Issues s t.toNat (wordU 0x25 1 f) → f.rc = 0 →
    f.ra.toNat % 2 = 0 → f.ra ≠ 0 → v = gPair (thrOf s t.toNat) f.ra.toNat → u = armCompare (takeTurn s t.toNat) t.toNat v →
    m = (gv (thrOf s t.toNat) f.rb).setWidth 16 ||| 1 → got = evBits u t.toNat &&& m → x = ranOn (thrOf u t.toNat) ((thrOf s t.toNat).pc + 4) →
    (got ≠ 0 → Ends s (exec (.waitt t f) s) t.toNat (gSet { x with ev := x.ev &&& ~~~got } f.rd.toNat (got.setWidth 32))) ∧
    (got = 0 → Waits (exec (.waitt t f) s) t.toNat u (.ev true f.rd.toNat m))) ∧
  (∀ (s : State) (t : BitVec 14) (f : FmtU) (x : Thread), f.rd = 0 → f.rb = 0 → f.rc = 0 → x = ranOn (thrOf s t.toNat) ((thrOf s t.toNat).pc + 4) →
    (Issues s t.toNat (wordU 0x25 2 f) → f.ra.toNat % 2 = 0 → f.ra ≠ 0 → Ends s (exec (.tarm t f) s) t.toNat
      { x with tcmp := some (gPair (thrOf s t.toNat) f.ra.toNat) }) ∧
    (Issues s t.toNat (wordU 0x25 3 f) → f.ra = 0 → Ends s (exec (.tdis t f) s) t.toNat { x with tcmp := none })) ∧
  (∀ (s u : State) (t : BitVec 14) (f : FmtU) (i m : Nat), Issues s t.toNat (wordU 0x25 4 f) → f.rd = 0 → f.rc = 0 → u = takeTurn s t.toNat →
    i = (gv (thrOf s t.toNat) f.ra).toNat % 8192 → m = (gv (thrOf s t.toNat) f.rb).toNat % 256 →
    (clUp u (cluOf i) = true → Ran (exec (.sev t f) s) t.toNat (settleAll (setEv u i (BitVec.ofNat 16 (m * 256))))) ∧
    (clUp u (cluOf i) = false → Ran (exec (.sev t f) s) t.toNat (settleAll u))) ∧
  (∀ (s : State) (t : BitVec 14) (f : FmtU) (x : Thread), Issues s t.toNat (wordU 0x25 5 f) → f.ra = 0 → f.rb = 0 → f.rc = 0 →
    f.rd.toNat % 2 = 0 → f.rd ≠ 0 → x = ranOn (thrOf s t.toNat) ((thrOf s t.toNat).pc + 4) →
    Ends s (exec (.rdnt t f) s) t.toNat (gSetPair x f.rd.toNat (BitVec.ofNat 64 (nt64 s)))))

/-- R331, R340, R341, R343, R347, R348, R356: moves and waits of the coprocessors, and what refuses an operation.
R331, R343, R350–R356: every coprocessor operation goes into its unit's queue. -/
def Obligations.CoprocessorInstructions : Prop :=
  ((∀ (s v : State) (t : BitVec 14) (f : FmtX2) (u n : Nat) (c d : CpxCmd), v = takeTurn s t.toNat → u = unitNo f.unit → n = cluOf t.toNat →
    isMgt t.toNat = false → f.zero = 0 → unitPresent s u = true → cpxEnabled v t.toNat u = true →
    cpxReason v t.toNat u f.lane.toNat moveNeed = none →
    c = moveCmd t.toNat f.lane f.c 0 f.w.toNat 0 ((gv (thrOf s t.toNat) f.g).setWidth 128) false →
    d = moveCmd t.toNat f.lane f.c 1 f.w.toNat (f.g.setWidth 32) 0 false →
    (Issues s t.toNat (wordX2 0x27 false f) →
      (cpxRoom v n u c = true → Ran (exec (.mtc t f) s) t.toNat (cpxSend v n u c).2) ∧
      (cpxRoom v n u c = false → Waits (exec (.mtc t f) s) t.toNat v (.cpq u c))) ∧
    (Issues s t.toNat (wordX2 0x27 true f) →
      (∀ (g : Nat) (w : State), cpxRoom v n u d = true → cpxSend v n u d = (g, w) → Waits (exec (.mfc t f) s) t.toNat w (.cpr u g)) ∧
      (cpxRoom v n u d = false → Waits (exec (.mfc t f) s) t.toNat v (.cpq u d)))) ∧
  (∀ (s v : State) (t : BitVec 14) (f : FmtX3) (u n : Nat) (c d : CpxCmd) (a : W32) (bs : List Byte), v = takeTurn s t.toNat →
    u = unitNo f.unit → n = cluOf t.toNat → isMgt t.toNat = false → f.mid = 0 → f.zero = 0 → unitPresent s u = true →
    cpxEnabled v t.toNat u = true → cpxReason v t.toNat u f.lane.toNat moveNeed = none → a = gv (thrOf s t.toNat) f.g →
    LocalIs s t.toNat a.toNat 16 bs → c = moveCmd t.toNat f.lane f.c 2 0 0 (bytesReg bs) false →
    d = moveCmd t.toNat f.lane f.c 3 0 a 0 false →
    (Issues s t.toNat (wordX3 0x27 false f) →
      (cpxRoom v n u { c with move := some (2, 0, 0, 0) } = true → Ran (exec (.lcq t f) s) t.toNat (cpxSend v n u c).2) ∧
      (cpxRoom v n u { c with move := some (2, 0, 0, 0) } = false →
        Waits (exec (.lcq t f) s) t.toNat v (.cpq u { c with move := some (2, 0, 0, 0) }))) ∧
    (Issues s t.toNat (wordX3 0x27 true f) →
      (∀ (g : Nat) (w : State), cpxRoom v n u d = true → cpxSend v n u d = (g, w) → Waits (exec (.scq t f) s) t.toNat w (.cpr u g)) ∧
      (cpxRoom v n u d = false → Waits (exec (.scq t f) s) t.toNat v (.cpq u d)))) ∧
  (∀ (s v : State) (t : BitVec 14) (f : FmtX4) (u n : Nat) (busy : Bool), Issues s t.toNat (wordX4 0x27 f) → v = takeTurn s t.toNat →
    u = unitNo f.unit → n = cluOf t.toNat → isMgt t.toNat = false → f.mid = 0 → f.zero = 0 → unitPresent s u = true →
    cpxEnabled v t.toNat u = true → cpxReason v t.toNat u f.lane.toNat ⟨false, false, false, 0⟩ = none →
    busy = (laneCmds (cpxQ s n u) f.lane.toNat).any (fun c => c.thr == t.toNat % 256 && c.confirmed) →
    (busy = false → Moved s (exec (.cpwait t f) s) t.toNat) ∧
    (busy = true → Waits (exec (.cpwait t f) s) t.toNat v (.cpw u f.lane.toNat))) ∧
  (∀ (s v : State) (t : BitVec 14) (f : FmtX1) (u : Nat), Issues s t.toNat (wordX1 0x27 0x05 f) → v = takeTurn s t.toNat → u = unitNo f.unit →
    (isMgt t.toNat = true → Faults s (exec (.cpxXor t f) s) t.toNat cIllegal (wordX1 0x27 0x05 f).toNat) ∧
    (isMgt t.toNat = false → unitPresent s u = false → Faults s (exec (.cpxXor t f) s) t.toNat cNoCpx (wordX1 0x27 0x05 f).toNat) ∧
    (isMgt t.toNat = false → unitPresent s u = true → cpxEnabled v t.toNat u = false →
      Faults s (exec (.cpxXor t f) s) t.toNat cCpxOff (wordX1 0x27 0x05 f).toNat) ∧
    (isMgt t.toNat = false → unitPresent s u = true → cpxEnabled v t.toNat u = true → ownsLane v t.toNat u f.lane.toNat = false →
      exec (.cpxXor t f) s = .next (thrFault (cpxCount v (cluOf t.toNat) u 2 0) t.toNat cCpxFlt
        (2 ^ 24 + u * 2 ^ 16 + f.lane.toNat * 2 ^ 12 + 0x05))))) ∧
  (CpopRuns .cpxLock ⟨0x00, true, true, true, false, false, false, false, 1⟩ ∧
  CpopRuns .cpxUnlock ⟨0x01, true, true, false, false, false, true, false, 0⟩ ∧
  CpopRuns .cpxClr ⟨0x02, true, true, false, false, false, true, false, 0⟩ ∧
  CpopRuns .lstat ⟨0x03, true, true, true, false, false, true, false, 1⟩ ∧
  CpopRuns .cpxMov ⟨0x04, true, true, true, true, false, true, false, 1⟩ ∧
  CpopRuns .cpxXor ⟨0x05, true, true, true, true, true, true, false, 1⟩ ∧
  CpopRuns .gcmInit ⟨0x10, true, false, false, true, true, true, false, 0⟩ ∧
  CpopRuns .gcmAad ⟨0x11, true, false, false, true, false, true, false, 0⟩ ∧
  CpopRuns .gcmAadp ⟨0x12, true, false, false, true, true, true, false, 0⟩ ∧
  CpopRuns .gcmEnc ⟨0x13, true, false, true, true, false, true, false, 1⟩ ∧
  CpopRuns .gcmEncp ⟨0x14, true, false, true, true, true, true, false, 1⟩ ∧
  CpopRuns .gcmDec ⟨0x15, true, false, true, true, false, true, false, 1⟩ ∧
  CpopRuns .gcmDecp ⟨0x16, true, false, true, true, true, true, false, 1⟩ ∧
  CpopRuns .gcmTag ⟨0x17, true, false, true, false, false, true, false, 1⟩ ∧
  CpopRuns .gcmVerify ⟨0x18, true, false, true, true, true, true, false, 1⟩ ∧
  CpopRuns .cmacInit ⟨0x20, true, false, false, true, false, true, false, 0⟩ ∧
  CpopRuns .cmacBlk ⟨0x21, true, false, false, true, false, true, false, 0⟩ ∧
  CpopRuns .cmacLast ⟨0x22, true, false, true, true, true, true, false, 1⟩ ∧
  CpopRuns .keyld ⟨0x30, true, false, true, true, true, true, true, 0⟩ ∧
  CpopRuns .keyclr ⟨0x31, true, false, true, false, false, true, true, 0⟩ ∧
  CpopRuns .sha256Init ⟨0x40, false, true, false, false, false, true, false, 0⟩ ∧
  CpopRuns .sha384Init ⟨0x41, false, true, false, false, false, true, false, 0⟩ ∧
  CpopRuns .shaUpd ⟨0x42, false, true, false, true, false, true, false, 0⟩ ∧
  CpopRuns .shaUpdp ⟨0x43, false, true, false, true, true, true, false, 0⟩ ∧
  CpopRuns .sha256Final ⟨0x44, false, true, true, false, false, true, false, 2⟩ ∧
  CpopRuns .sha384Final ⟨0x45, false, true, true, false, false, true, false, 3⟩ ∧
  CpopRuns .crc32cInit ⟨0x50, false, true, false, false, false, true, false, 0⟩ ∧
  CpopRuns .crc64Init ⟨0x51, false, true, false, false, false, true, false, 0⟩ ∧
  CpopRuns .crcUpd ⟨0x52, false, true, false, true, false, true, false, 0⟩ ∧
  CpopRuns .crcUpdp ⟨0x53, false, true, false, true, true, true, false, 0⟩ ∧
  CpopRuns .crcFinal ⟨0x54, false, true, true, false, false, true, false, 1⟩ ∧
  CpopRuns .crcSeed ⟨0x55, false, true, false, true, false, true, false, 0⟩)

/-- R296, R332, R333, R519: `feat`, `cnt`, `rdtid`, `trap` and `brk`. -/
def Obligations.SystemInstructions : Prop :=
  (∀ (s : State) (t : BitVec 14) (f : FmtUI), Issues s t.toNat (wordUI 0x28 0 f) → f.ra = 0 →
    (f.imm.toNat < 8 → Wrote s (exec (.feat t f) s) t.toNat f.rd (BitVec.ofNat 32 (featWord (takeTurn s t.toNat) t.toNat f.imm.toNat))
      none none none none) ∧
    (8 ≤ f.imm.toNat → Faults s (exec (.feat t f) s) t.toNat cIllegal (wordUI 0x28 0 f).toNat)) ∧
  (∀ (s : State) (t i : Nat), featWord s t 0 = 0x01000009 + (if isS s t then 16 else 0) + (if unitPresent s 1 then 4 else 0) +
      (if unitPresent s 0 then 2 else 0) ∧ featWord s t 1 = 0x40401010 ∧ featWord s t 2 = 0x40100808 ∧ featWord s t 3 = 0x04100FFC ∧
    (isMgt t = false → featWord s t 4 = s.fld F.RST_CLU_CLK_STEP_CUR (cluOf t)) ∧ featWord s t 5 = s.present.toNat ∧ featWord s t 6 = 0x5010 ∧
    (7 ≤ i → featWord s t i = 0)) ∧
  (∀ (s : State) (t : BitVec 14) (f : FmtU) (a : Nat), Issues s t.toNat (wordU 0x28 1 f) → isMgt t.toNat = false → f.rd = 0 → f.rc = 0 →
    a = (gv (thrOf s t.toNat) f.ra).toNat →
    (a ≤ 4091 → Ran (exec (.cnt t f) s) t.toNat
      (count (takeTurn s t.toNat) (393216 + 4096 * cluOf t.toNat + a) 1 (gv (thrOf s t.toNat) f.rb).toNat)) ∧
    (4091 < a → Faults s (exec (.cnt t f) s) t.toNat cBadArg a)) ∧
  (∀ (s : State) (t : BitVec 14) (f : FmtU), Issues s t.toNat (wordU 0x28 2 f) → f.ra = 0 → f.rb = 0 → f.rc = 0 →
    Wrote s (exec (.rdtid t f) s) t.toNat f.rd (t.setWidth 32) none none none none) ∧
  (∀ (s : State) (t : BitVec 14) (f : FmtUI), Issues s t.toNat (wordUI 0x28 3 f) → f.rd = 0 → f.ra = 0 →
    Faults s (exec (.trap t f) s) t.toNat cTrap f.imm.toNat) ∧
  (∀ (s u : State) (t : BitVec 14) (f : FmtU), Issues s t.toNat (wordU 0x28 4 f) → f = ⟨0, 0, 0, 0⟩ → u = takeTurn s t.toNat →
    (s.flag F.DBG_CTL_BRK_EN 0 = true → dbgScope s 0 = true → exec (.brk t f) s = .next (settleAll (dbgEvent (halt u t.toNat 4) 4 t.toNat))) ∧
    (s.flag F.DBG_CTL_BRK_EN 0 = false ∨ dbgScope s 0 = false → Faults s (exec (.brk t f) s) t.toNat cBrk 0))

/-! ## Rules stated whole -/

/-- R67: the ingress priority of a frame. -/
def Obligations.IngressPriority : Prop :=
  ∀ (s : State) (p : Nat) (frame : List Byte) (tpid pcp : Nat), tpid = beNat ((frame.drop 12).take 2) →
    pcp = beNat ((frame.drop 14).take 2) / 2 ^ 13 → frame.length ≥ 18 →
    (tpid = 0x8100 ∨ tpid = 0x88A8 → framePri s p frame = s.fld F.LPT_PRI_PCP_MAP p / 8 ^ pcp % 8) ∧
    (tpid ≠ 0x8100 → tpid ≠ 0x88A8 → framePri s p frame = s.fld F.LPT_PRI_DEF_PRI p)

/-- R128: when Cairn grants a cell, and what the grant does. The cells of a pool that reaches past its space and are not there are no free
cells (log entry 57). -/
def Obligations.CellsAreGrantedWithinQuota : Prop :=
  (∀ (s : State) (r k : Nat), k = s.fld F.CRN_REQ_POOL_POOL r →
    ((grantCell s r).isSome = true ↔ s.fld F.CRN_REQ_STS_USED r < s.fld F.CRN_REQ_HARD_HARD r ∧ s.flag F.CRN_POOL_CFG_EN k = true ∧
      0 < poolFree s k)) ∧
  (∀ (s : State) (k : Nat), s.fld F.CRN_POOL_CFG_BASE k + s.fld F.CRN_POOL_SIZE_SIZE k ≤ spaceEnd s (s.fld F.CRN_POOL_CFG_SPACE k) →
    poolFree s k = s.fld F.CRN_POOL_STS_FREE k) ∧
  (∀ (s u : State) (r c : Nat), mwf regReset s.regs = true → mwf noReq s.crn.cellReq = true → r < 512 →
    grantCell s r = some (c, u) →
    u.fld F.CRN_REQ_STS_USED r = s.fld F.CRN_REQ_STS_USED r + 1 ∧ mget noReq u.crn.cellReq c = some r ∧
    (∀ d, d ≠ c → mget noReq u.crn.cellReq d = mget noReq s.crn.cellReq d)) ∧
  (∀ (s u : State) (r n : Nat) (l : List Nat), grantCells s r n = (l, u) →
    (l.length < n → grantCells s r (n + 1) = (l, u)) ∧
    (l.length = n → (grantCell u r = none → grantCells s r (n + 1) = (l, u)) ∧
      (∀ (c : Nat) (v : State), grantCell u r = some (c, v) → grantCells s r (n + 1) = (l ++ [c], v))))

/-- R298: register pairs. -/
def Obligations.RegisterPairs : Prop :=
  (∀ (x : Thread) (r : BitVec 5), gPair x r.toNat = gGet x (r.toNat + 1) ++ gv x r) ∧
  (∀ (x : Thread) (r : BitVec 5) (v : W64), mwf noW32 x.g = true → r.toNat % 2 = 0 → r ≠ 0 →
    gv (gSetPair x r.toNat v) r = v.setWidth 32 ∧ gGet (gSetPair x r.toNat v) (r.toNat + 1) = (v >>> 32).setWidth 32) ∧
  (∀ (s : State) (t : BitVec 14) (f : FmtU), f.ra.toNat % 2 = 1 ∨ f.ra = 0 →
    (Issues s t.toNat (wordU 0x25 1 f) → Faults s (exec (.waitt t f) s) t.toNat cIllegal (wordU 0x25 1 f).toNat) ∧
    (Issues s t.toNat (wordU 0x25 2 f) → Faults s (exec (.tarm t f) s) t.toNat cIllegal (wordU 0x25 2 f).toNat)) ∧
  (∀ (s : State) (t : BitVec 14) (f : FmtU), f.rd.toNat % 2 = 1 ∨ f.rd = 0 → Issues s t.toNat (wordU 0x25 5 f) →
    Faults s (exec (.rdnt t f) s) t.toNat cIllegal (wordU 0x25 5 f).toNat)

/-- R300: what each address of the bit space is to a packet thread: the flags and private bits, the work item's flags, the reserved
addresses and the cluster's shared bits, read by `btst` and written by `bset`. -/
def Obligations.BitSpace : Prop :=
  (∀ (s : State) (t : BitVec 14) (f : FmtBT) (b : Nat) (x : Thread) (v : Bool), Issues s t.toNat (wordBT 0x1D 3 f) → isMgt t.toNat = false →
    f.zero = 0 → f.idx = false → f.r = 0 → b = f.bit.toNat → x = ranOn (thrOf s t.toNat) ((thrOf s t.toNat).pc + 4) →
    (b < 1024 → v = x.flags.getLsbD b → Ends s (exec (.btst t f) s) t.toNat (setFlagBit (setFlagBit x 0 v) 2 !v)) ∧
    (1024 ≤ b → b < 1280 → v = bitOf (leNat (rdBytes s.gar.lmem (bankKey (coreOf t.toNat) (thrBlk t.toNat + 4 * (8 + (b - 1024) / 32))) 4))
      ((b - 1024) % 32) → Ends s (exec (.btst t f) s) t.toNat (setFlagBit (setFlagBit x 0 v) 2 !v)) ∧
    (1280 ≤ b → b < 4096 → Faults s (exec (.btst t f) s) t.toNat cBadBit b) ∧
    (4096 ≤ b → v = mget noBool s.gar.sbits (sbitKey t.toNat b) →
      Ends s (exec (.btst t f) s) t.toNat (setFlagBit (setFlagBit x 0 v) 2 !v))) ∧
  (∀ (s : State) (t : BitVec 14) (f : FmtBT) (b : Nat) (x : Thread), Issues s t.toNat (wordBT 0x1D 0 f) → isMgt t.toNat = false →
    f.zero = 0 → f.idx = false → f.r = 0 → b = f.bit.toNat → x = ranOn (thrOf s t.toNat) ((thrOf s t.toNat).pc + 4) →
    (b < 1024 → Ends s (exec (.bset t f) s) t.toNat (setFlagBit x b true)) ∧
    (1024 ≤ b → b < 4096 → Faults s (exec (.bset t f) s) t.toNat cBadBit b) ∧
    (4096 ≤ b → ∃ u : State, exec (.bset t f) s = .next u ∧ thrOf u t.toNat = x ∧ (∀ j, j ≠ t.toNat → thrOf u j = thrOf s j) ∧
      u = { s with gar := { s.gar with thr := u.gar.thr, sbits := mset noBool s.gar.sbits (sbitKey t.toNat b) true } })) ∧
  (∀ (x : Thread) (i j : Nat) (v : Bool), j < 1024 → (setFlagBit x i v).flags.getLsbD j = if j = i then v else x.flags.getLsbD j)

/-- R319: what `calloc` writes as it completes. -/
def Obligations.CallocAnswers : Prop :=
  (∀ (s u v : State) (t : BitVec 14) (f : FmtU) (n h : Nat) (cells : List Nat), Issues s t.toNat (wordU 0x21 2 f) → isMgt t.toNat = false →
    f.rb = 0 → f.rc = 0 → u = takeTurn s t.toNat → n = (gv (thrOf s t.toNat) f.ra).toNat → 1 ≤ n → n ≤ 80 →
    (requestCells u (clusterReq u (cluOf t.toNat)) n = (none, v) →
      Asks (exec (.calloc t f) s) v t.toNat (cellAnswer 0 [] [] f.rd.toNat 0xFFFFFFFF false) .cell) ∧
    (∀ y : State, requestCells u (clusterReq u (cluOf t.toNat)) n = (some cells, y) →
      newChain y cells (128 * n) false (some (cluOf t.toNat)) = (h, v) →
      Asks (exec (.calloc t f) s) v t.toNat (cellAnswer 0 [] [] f.rd.toNat (BitVec.ofNat 32 (handleOf h)) true) .cell)) ∧
  (∀ (s : State) (t : BitVec 14) (x : Thread) (rd : BitVec 5) (val : W32) (ok : Bool), thrUp s t.toNat = true → x = thrOf s t.toNat →
    nextAcc x false = some (cellAnswer 0 [] [] rd.toNat val ok) → faulted x = false →
    exec (.cellOpComplete t) s = .next (settleAll (endWaitNext s t.toNat
      (accWrite { x with acc := x.acc.erase (cellAnswer 0 [] [] rd.toNat val ok) } (cellAnswer 0 [] [] rd.toNat val ok))))) ∧
  (∀ (x : Thread) (rd r : BitVec 5) (val : W32) (ok : Bool) (i : Nat), mwf noW32 x.g = true → i < 1024 →
    gv (accWrite x (cellAnswer 0 [] [] rd.toNat val ok)) r = (if r = rd ∧ r ≠ 0 then val else gv x r) ∧
    (accWrite x (cellAnswer 0 [] [] rd.toNat val ok)).flags.getLsbD i = if i = 2 then ok else x.flags.getLsbD i)

/-- R443: a claim address read with another width than 4 bytes, over every path: the register bus of each requester, a host's own
access and a cluster's supervisor. -/
def Obligations.ClaimWidth : Prop :=
  (∀ (s : State) (q : Req) (a size : Nat), claimShown s a = true → a < 0x1210000 → size ≠ 4 →
    busAcc q a size none s = .next { s with rdata := 1023 }) ∧
  (∀ (s : State) (q : Req) (a size : Nat), claimShown s a = false → size ≠ 4 → size ≠ 8 →
    busAcc q a size none s = .next { s with rdata := 0 }) ∧
  (∀ (s : State) (h : Fin 2) (a : BitVec 28) (size : Nat), pf1Up s h.val = true → claimShown s a.toNat = true → a.toNat < 0x1210000 →
    size ≠ 4 → exec (.registerWrite (.pf1 h a size none)) s = .next { s with rdata := 1023 }) ∧
  (∀ (s : State) (t ofs size : Nat), isSupv s t = true → pktUp s = true → 0x9000 ≤ ofs → ofs < 0xA000 → size ≠ 4 →
    ctlAcc t ofs size none s = .next { s with rdata := 1023 }) ∧
  (∀ (s u : State) (t i n : Nat), claimSrc (srcProbe s i) t i = (n, u) → claimRead s t i = settleAll { u with rdata := BitVec.ofNat 64 n })

/-! ## The machine as a whole -/

/-- The first command of the queue is taken and has its effect on everything else. With none the model lets one PCLK edge pass, at which a
running purge drops an item: its own choice (log entry 6). -/
def Obligations.StepTakesTheFront : Prop :=
  (∀ (c : Instr) (r : List Instr) (s : State), s.pending = c :: r → step s = exec c { s with pending := r }) ∧
  (∀ s : State, s.pending = [] → step s = .next (idleEdge s)) ∧
  (∀ s u : State, u = advance s 1 → pktUp u = false ∨ (∀ q, u.flag F.ORY_Q_STS_PURGE_BUSY q = false) → idleEdge s = u)

/-- What the field tables give for release and what is empty then (10, R270, R429, R471). -/
def Obligations.ResetValues : Prop :=
  State.reset.pending = [] ∧ State.reset.reg .RST_CAUSE 0 = 1 ∧ State.reset.reg .RST_LOCKUP_CL 0 = 0 ∧
  (∀ p < 16, State.reset.fld F.LPT_PRI_PCP_MAP p = 0xFAC688 ∧ State.reset.fld F.LPT_PRI_DEF_PRI p = 0) ∧
  (∀ c < 64, State.reset.flag F.GCL_CH_CFG_EN c = false ∧ State.reset.flag F.GCL_CH_STS_DRAINED c = true) ∧
  (∀ n < 32, State.reset.reg .GCL_ENTRY n = 0x00100000 ∧ State.reset.reg .GCL_SUPV_ENTRY n = 0x00100000 ∧
    State.reset.fld F.GCL_IMG_LIMIT n = 0 ∧ State.reset.reg .GCL_WG_WINDOW n = 65536) ∧
  (∀ t : Nat, (thrOf State.reset t).st = .dormant) ∧
  (∀ i < 1024, srcPending State.reset i = false ∧ outAt State.reset i = none) ∧
  (∀ a : Nat, mget zeroByte State.reset.mgtMem a = 0 ∧ mget zeroByte State.reset.dram a = 0)

/-- Encoding and decoding agree, each way, with every field at every value; a word that no row has is undefined (R303, R304). -/
def Obligations.EncodingsAgree : Prop :=
  (∀ (i : Instr) (t : BitVec 14) (w : W32), isaWord i = some (t, w) → isaDecode t w = some i) ∧
  (∀ (i : Instr) (t : BitVec 14) (w : W32), isaDecode t w = some i → isaWord i = some (t, w)) ∧
  (∀ (t : BitVec 14) (w : W32), isaDecode t w = none → undefinedWord w = true)

/-- A few words of the tables of R303–R333, bit by bit. -/
def Obligations.EncodingSamples : Prop :=
  isaDecode 5 0x00430800 = some (.add 5 ⟨2, 3, 1, 0⟩) ∧ isaDecode 5 0x0483FFFF = some (.addi 5 ⟨4, 3, 0xFFFF⟩) ∧
  isaDecode 5 0x30A70010 = some (.ldW 5 ⟨5, 7, 16⟩) ∧ isaDecode 5 0x60643FFE = some (.bne 5 ⟨3, 4, 0x1FFE⟩) ∧
  isaDecode 5 0x76001FFF = none ∧ isaDecode 5 0x6A000001 = some (.jmp 5 ⟨0x2000001⟩) ∧ isaDecode 5 0x80A60800 = some (.lkp 5 ⟨5, 6, 1, 0⟩) ∧
  isaDecode 5 0x9E220C05 = some (.cpxXor 5 ⟨true, 1, 1, 0, 6⟩) ∧ isaDecode 5 0xA0200042 = some (.rdtid 5 ⟨1, 0, 0, 1⟩)

/-- R265, R306: a word that a thread stores in plain memory is what it loads from the same place. -/
def Obligations.StoreThenLoad : Prop :=
  ∀ (s v u : State) (t : BitVec 14) (f g : FmtI) (p : Place), Issues s t.toNat (wordI 0x12 f) → Reaches s t.toNat f 4 true p →
    mwf zeroByte s.gar.lmem = true → mwf zeroByte s.gar.smem = true → mwf zeroByte s.mgtMem = true →
    memWrite s t.toNat p (leBytes 4 (gv (thrOf s t.toNat) f.rd).toNat) = some v →
    u = setThr v t.toNat (ranOn (thrOf s t.toNat) ((thrOf s t.toNat).pc + 4)) → Issues u t.toNat (wordI 0x0C g) →
    Reaches u t.toNat g 4 false p →
    exec (.stW t f) s = .next u ∧ Wrote u (exec (.ldW t g) u) t.toNat g.rd (gv (thrOf s t.toNat) f.rd) none none none none

/-- The byte memories keep their canonical form, read back what is written and keep every other byte, and two that read alike are the
same (R447's scrubbed memories, DRAM, MGT memory and host memory are all of this form). -/
def Obligations.MemoriesAreCanonical : Prop :=
  (∀ (m : SMap Byte) (a : Nat) (bs : List Byte), mwf zeroByte m = true → mwf zeroByte (wrBytes m a bs) = true ∧
    rdBytes (wrBytes m a bs) a bs.length = bs ∧
    (∀ j : Nat, j < a ∨ a + bs.length ≤ j → mget zeroByte (wrBytes m a bs) j = mget zeroByte m j)) ∧
  (∀ m n : SMap Byte, mwf zeroByte m = true → mwf zeroByte n = true → (∀ j : Nat, mget zeroByte m j = mget zeroByte n j) → m = n)

/-- R369, R375: acquires never take a semaphore beyond its MAX, and a thread that does not hold a lock cannot take it from its holder. -/
def Obligations.FlintExcludes : Prop :=
  (∀ (s u : State) (k o n st : Nat), mwf regReset s.regs = true → semHeld (semOf s k) ≤ s.fld F.FLT_SEM_CFG_MAX k → mwf noSem s.flt.sem = true →
    (∀ h ∈ (semOf s k).holds, ∀ g ∈ (semOf s k).holds, h.owner = g.owner → h = g) → (semOf s k).holds.Nodup → (∀ h ∈ (semOf s k).holds, 0 < h.units) →
    semTry s k o n = (st, u) → semHeld (semOf u k) ≤ u.fld F.FLT_SEM_CFG_MAX k) ∧
  (∀ (s : State) (k o p : Nat), unitErr s 11 (arrUnit 5 k) = 0 → (lockOf s k).owner = some p → p ≠ o →
    (lockTry s k o).2.2 = s ∧ (lockRel s k o).2 = s ∧ (lockTry s k o).1 ≠ 0 ∧ (lockRel s k o).1 ≠ 0)
end

