-- ==== Sys2Proof/Laws/Maps.lean ====
section
/-!
SUPPORT. Sparse maps in canonical form: what a map reads as after a write, and that a write keeps the form.
-/

namespace Sys2Proof.Machine

section
variable {α : Type} [DecidableEq α] (d : Nat → α)

theorem mwfFrom_mono {m : SMap α} {a b : Nat} (h : mwfFrom d b m = true) (hab : a ≤ b) : mwfFrom d a m = true := by
  cases m with
  | nil => rfl
  | cons e r => obtain ⟨k, v⟩ := e; simp [mwfFrom] at h ⊢; exact ⟨⟨by omega, h.1.2⟩, h.2⟩

theorem mget_below {m : SMap α} {b k : Nat} (h : mwfFrom d b m = true) (hk : k < b) : mget d m k = d k := by
  induction m generalizing b with
  | nil => rfl
  | cons e r ih =>
    obtain ⟨k', v⟩ := e; simp [mwfFrom] at h
    have hne : k ≠ k' := by omega
    simp only [mget, hne, if_false]
    exact ih h.2 (by omega)

theorem mset_wfFrom {m : SMap α} {b k : Nat} (v : α) (h : mwfFrom d b m = true) (hk : b ≤ k) : mwfFrom d b (mset d m k v) = true := by
  induction m generalizing b with
  | nil =>
    by_cases hv : v = d k
    · simp [mset, hv, mwfFrom]
    · simp [mset, hv, mwfFrom, hk]
  | cons e r ih =>
    obtain ⟨k', v'⟩ := e
    simp [mwfFrom] at h
    unfold mset
    by_cases h1 : k < k'
    · by_cases hv : v = d k
      · simp [h1, hv, mwfFrom, h]
      · simp [h1, hv, mwfFrom, hk, h.2, h.1.2]
    · by_cases h2 : k = k'
      · by_cases hv : v = d k
        · subst h2; simp [hv]; exact mwfFrom_mono d h.2 (by omega)
        · subst h2; simp [hv, mwfFrom, hk, h.2]
      · simp [h1, h2, mwfFrom, h.1]
        exact ih h.2 (by omega)

/-- A write keeps the canonical form. -/
theorem mset_wf {m : SMap α} (k : Nat) (v : α) (h : mwf d m = true) : mwf d (mset d m k v) = true := mset_wfFrom d v h (Nat.zero_le k)

/-- A key reads as what was written to it. -/
theorem mget_mset_same {m : SMap α} {b k : Nat} (v : α) (h : mwfFrom d b m = true) (hk : b ≤ k) : mget d (mset d m k v) k = v := by
  induction m generalizing b with
  | nil => by_cases hv : v = d k <;> simp [mset, mget, hv]
  | cons e r ih =>
    obtain ⟨k', v'⟩ := e
    simp [mwfFrom] at h
    unfold mset
    by_cases h1 : k < k'
    · by_cases hv : v = d k
      · have : k ≠ k' := by omega
        simp [h1, hv, mget, this]
        exact mget_below d h.2 (by omega)
      · simp [h1, hv, mget]
    · by_cases h2 : k = k'
      · by_cases hv : v = d k
        · subst h2; simp [hv]; exact mget_below d h.2 (by omega)
        · subst h2; simp [hv, mget]
      · simp [h1, h2, mget]
        exact ih h.2 (by omega)

theorem mget_mset_eq {m : SMap α} (k : Nat) (v : α) (h : mwf d m = true) : mget d (mset d m k v) k = v :=
  mget_mset_same d v h (Nat.zero_le k)

/-- A write leaves every other key alone, in any map. -/
theorem mget_mset_ne {m : SMap α} {k j : Nat} (v : α) (hj : j ≠ k) : mget d (mset d m k v) j = mget d m j := by
  induction m with
  | nil => by_cases hv : v = d k <;> simp [mset, mget, hv, hj]
  | cons e r ih =>
    obtain ⟨k', v'⟩ := e
    unfold mset
    by_cases h1 : k < k'
    · by_cases hv : v = d k <;> simp [h1, hv, mget, hj]
    · by_cases h2 : k = k'
      · by_cases hv : v = d k
        · subst h2; simp [hv, mget, hj]
        · subst h2; simp [hv, mget, hj]
      · simp [h1, h2, mget, ih]

/-- Two maps in canonical form that read alike are equal. -/
theorem mwf_ext {m n : SMap α} {b : Nat} (hm : mwfFrom d b m = true) (hn : mwfFrom d b n = true)
    (h : ∀ k, mget d m k = mget d n k) : m = n := by
  induction m generalizing b n with
  | nil =>
    cases n with
    | nil => rfl
    | cons e r =>
      obtain ⟨k, v⟩ := e; simp [mwfFrom] at hn
      have := h k; simp [mget] at this
      exact absurd this.symm hn.1.2
  | cons e r ih =>
    obtain ⟨k, v⟩ := e
    cases n with
    | nil =>
      simp [mwfFrom] at hm
      have := h k; simp [mget] at this
      exact absurd this hm.1.2
    | cons e' r' =>
      obtain ⟨k', v'⟩ := e'
      simp [mwfFrom] at hm hn
      have hk : k = k' := by
        rcases Nat.lt_trichotomy k k' with hlt | heq | hgt
        · have h0 := h k
          have hne : k ≠ k' := by omega
          simp [mget, hne] at h0
          rw [mget_below d hn.2 (by omega)] at h0
          exact absurd h0 hm.1.2
        · exact heq
        · have h0 := h k'
          have hne : k' ≠ k := by omega
          simp [mget, hne] at h0
          rw [mget_below d hm.2 (by omega)] at h0
          exact absurd h0.symm hn.1.2
      subst hk
      have hv : v = v' := by have h0 := h k; simpa [mget] using h0
      subst hv
      congr 1
      refine ih hm.2 hn.2 (fun j => ?_)
      by_cases hj : j = k
      · subst hj; rw [mget_below d hm.2 (by omega), mget_below d hn.2 (by omega)]
      · have h0 := h j; simpa [mget, hj] using h0

/-- The later of two writes to a key stands. -/
theorem mset_mset_same {m : SMap α} (k : Nat) (v w : α) (h : mwf d m = true) : mset d (mset d m k v) k w = mset d m k w := by
  have h1 := mset_wf d k v h
  refine mwf_ext d (b := 0) (mset_wf d k w h1) (mset_wf d k w h) (fun j => ?_)
  by_cases hj : j = k
  · subst hj; rw [mget_mset_eq d j w h1, mget_mset_eq d j w h]
  · rw [mget_mset_ne d w hj, mget_mset_ne d v hj, mget_mset_ne d w hj]

/-- Writing what a key reads as changes nothing. -/
theorem mset_self {m : SMap α} (k : Nat) (h : mwf d m = true) : mset d m k (mget d m k) = m := by
  refine mwf_ext d (b := 0) (mset_wf d k _ h) h (fun j => ?_)
  by_cases hj : j = k
  · subst hj; rw [mget_mset_eq d j _ h]
  · rw [mget_mset_ne d _ hj]

/-- Keeping some keys keeps the canonical form. -/
theorem mkeep_wfFrom (p : Nat → Bool) {m : SMap α} {b : Nat} (h : mwfFrom d b m = true) : mwfFrom d b (mkeep p m) = true := by
  induction m generalizing b with
  | nil => rfl
  | cons e r ih =>
    obtain ⟨k, v⟩ := e; simp [mwfFrom] at h
    have h2 := ih h.2
    unfold mkeep at h2 ⊢
    by_cases hp : p k
    · simp [hp, mwfFrom, h.1]; exact h2
    · simp [hp]; exact mwfFrom_mono d h2 (by omega)

theorem mkeep_wf (p : Nat → Bool) {m : SMap α} (h : mwf d m = true) : mwf d (mkeep p m) = true := mkeep_wfFrom d p h

end

/-! ## Byte memories -/

/-- A write of bytes keeps the canonical form. -/
theorem wrBytes_wf {m : SMap Byte} (a : Nat) (bs : List Byte) (h : mwf zeroByte m = true) : mwf zeroByte (wrBytes m a bs) = true := by
  induction bs generalizing m a with
  | nil => exact h
  | cons b r ih => exact ih (a + 1) (mset_wf zeroByte a b h)

/-- A write of bytes leaves every byte outside alone. -/
theorem wrBytes_other {m : SMap Byte} (a : Nat) (bs : List Byte) {j : Nat} (hj : j < a ∨ a + bs.length ≤ j) :
    mget zeroByte (wrBytes m a bs) j = mget zeroByte m j := by
  induction bs generalizing m a with
  | nil => rfl
  | cons b r ih =>
    simp at hj
    show mget zeroByte (wrBytes (mset zeroByte m a b) (a + 1) r) j = _
    rw [ih (a + 1) (by omega), mget_mset_ne zeroByte b (by omega)]

/-- A write of bytes reads back. -/
theorem wrBytes_at {m : SMap Byte} (a : Nat) (bs : List Byte) (h : mwf zeroByte m = true) {i : Nat} (hi : i < bs.length) :
    mget zeroByte (wrBytes m a bs) (a + i) = bs[i] := by
  induction bs generalizing m a i with
  | nil => simp at hi
  | cons b r ih =>
    show mget zeroByte (wrBytes (mset zeroByte m a b) (a + 1) r) (a + i) = _
    cases i with
    | zero => rw [wrBytes_other (a + 1) r (by omega)]; simpa using mget_mset_eq zeroByte a b h
    | succ i =>
      simp at hi
      have := ih (a + 1) (mset_wf zeroByte a b h) hi
      simpa [Nat.add_assoc, Nat.add_comm 1 i] using this

end Sys2Proof.Machine
end

