-- ==== Sys2Proof/Laws/State.lean ====
section
/-!
SUPPORT. What each elementary update leaves alone, field by field, and what it writes.
-/

namespace Sys2Proof.Machine

/-! ## Setting a register -/

@[simp] theorem State.setReg_pending (s : State) (r : RegName) (i v : Nat) : (s.setReg r i v).pending = s.pending := rfl
@[simp] theorem State.setReg_variant (s : State) (r : RegName) (i v : Nat) : (s.setReg r i v).variant = s.variant := rfl
@[simp] theorem State.setReg_stepping (s : State) (r : RegName) (i v : Nat) : (s.setReg r i v).stepping = s.stepping := rfl
@[simp] theorem State.setReg_present (s : State) (r : RegName) (i v : Nat) : (s.setReg r i v).present = s.present := rfl
@[simp] theorem State.setReg_clk (s : State) (r : RegName) (i v : Nat) : (s.setReg r i v).clk = s.clk := rfl
@[simp] theorem State.setReg_fresh (s : State) (r : RegName) (i v : Nat) : (s.setReg r i v).fresh = s.fresh := rfl
@[simp] theorem State.setReg_rdata (s : State) (r : RegName) (i v : Nat) : (s.setReg r i v).rdata = s.rdata := rfl
@[simp] theorem State.setReg_tim (s : State) (r : RegName) (i v : Nat) : (s.setReg r i v).tim = s.tim := rfl
@[simp] theorem State.setReg_lpt (s : State) (r : RegName) (i v : Nat) : (s.setReg r i v).lpt = s.lpt := rfl
@[simp] theorem State.setReg_hif (s : State) (r : RegName) (i v : Nat) : (s.setReg r i v).hif = s.hif := rfl
@[simp] theorem State.setReg_crn (s : State) (r : RegName) (i v : Nat) : (s.setReg r i v).crn = s.crn := rfl
@[simp] theorem State.setReg_prs (s : State) (r : RegName) (i v : Nat) : (s.setReg r i v).prs = s.prs := rfl
@[simp] theorem State.setReg_ory (s : State) (r : RegName) (i v : Nat) : (s.setReg r i v).ory = s.ory := rfl
@[simp] theorem State.setReg_egr (s : State) (r : RegName) (i v : Nat) : (s.setReg r i v).egr = s.egr := rfl
@[simp] theorem State.setReg_icu (s : State) (r : RegName) (i v : Nat) : (s.setReg r i v).icu = s.icu := rfl
@[simp] theorem State.setReg_integ (s : State) (r : RegName) (i v : Nat) : (s.setReg r i v).integ = s.integ := rfl
@[simp] theorem State.setReg_agt (s : State) (r : RegName) (i v : Nat) : (s.setReg r i v).agt = s.agt := rfl
@[simp] theorem State.setReg_gar (s : State) (r : RegName) (i v : Nat) : (s.setReg r i v).gar = s.gar := rfl
@[simp] theorem State.setReg_cpx (s : State) (r : RegName) (i v : Nat) : (s.setReg r i v).cpx = s.cpx := rfl
@[simp] theorem State.setReg_flt (s : State) (r : RegName) (i v : Nat) : (s.setReg r i v).flt = s.flt := rfl
@[simp] theorem State.setReg_mgtMem (s : State) (r : RegName) (i v : Nat) : (s.setReg r i v).mgtMem = s.mgtMem := rfl
@[simp] theorem State.setReg_dram (s : State) (r : RegName) (i v : Nat) : (s.setReg r i v).dram = s.dram := rfl
@[simp] theorem State.setReg_drc (s : State) (r : RegName) (i v : Nat) : (s.setReg r i v).drc = s.drc := rfl
@[simp] theorem State.setReg_rst (s : State) (r : RegName) (i v : Nat) : (s.setReg r i v).rst = s.rst := rfl
@[simp] theorem State.setReg_dbg (s : State) (r : RegName) (i v : Nat) : (s.setReg r i v).dbg = s.dbg := rfl
@[simp] theorem State.setReg_pio (s : State) (r : RegName) (i v : Nat) : (s.setReg r i v).pio = s.pio := rfl

/-! ## Setting a field -/

@[simp] theorem State.setFld_pending (s : State) (f : Fld) (i v : Nat) : (s.setFld f i v).pending = s.pending := rfl
@[simp] theorem State.setFld_variant (s : State) (f : Fld) (i v : Nat) : (s.setFld f i v).variant = s.variant := rfl
@[simp] theorem State.setFld_stepping (s : State) (f : Fld) (i v : Nat) : (s.setFld f i v).stepping = s.stepping := rfl
@[simp] theorem State.setFld_present (s : State) (f : Fld) (i v : Nat) : (s.setFld f i v).present = s.present := rfl
@[simp] theorem State.setFld_clk (s : State) (f : Fld) (i v : Nat) : (s.setFld f i v).clk = s.clk := rfl
@[simp] theorem State.setFld_fresh (s : State) (f : Fld) (i v : Nat) : (s.setFld f i v).fresh = s.fresh := rfl
@[simp] theorem State.setFld_rdata (s : State) (f : Fld) (i v : Nat) : (s.setFld f i v).rdata = s.rdata := rfl
@[simp] theorem State.setFld_tim (s : State) (f : Fld) (i v : Nat) : (s.setFld f i v).tim = s.tim := rfl
@[simp] theorem State.setFld_lpt (s : State) (f : Fld) (i v : Nat) : (s.setFld f i v).lpt = s.lpt := rfl
@[simp] theorem State.setFld_hif (s : State) (f : Fld) (i v : Nat) : (s.setFld f i v).hif = s.hif := rfl
@[simp] theorem State.setFld_crn (s : State) (f : Fld) (i v : Nat) : (s.setFld f i v).crn = s.crn := rfl
@[simp] theorem State.setFld_prs (s : State) (f : Fld) (i v : Nat) : (s.setFld f i v).prs = s.prs := rfl
@[simp] theorem State.setFld_ory (s : State) (f : Fld) (i v : Nat) : (s.setFld f i v).ory = s.ory := rfl
@[simp] theorem State.setFld_egr (s : State) (f : Fld) (i v : Nat) : (s.setFld f i v).egr = s.egr := rfl
@[simp] theorem State.setFld_icu (s : State) (f : Fld) (i v : Nat) : (s.setFld f i v).icu = s.icu := rfl
@[simp] theorem State.setFld_integ (s : State) (f : Fld) (i v : Nat) : (s.setFld f i v).integ = s.integ := rfl
@[simp] theorem State.setFld_agt (s : State) (f : Fld) (i v : Nat) : (s.setFld f i v).agt = s.agt := rfl
@[simp] theorem State.setFld_gar (s : State) (f : Fld) (i v : Nat) : (s.setFld f i v).gar = s.gar := rfl
@[simp] theorem State.setFld_cpx (s : State) (f : Fld) (i v : Nat) : (s.setFld f i v).cpx = s.cpx := rfl
@[simp] theorem State.setFld_flt (s : State) (f : Fld) (i v : Nat) : (s.setFld f i v).flt = s.flt := rfl
@[simp] theorem State.setFld_mgtMem (s : State) (f : Fld) (i v : Nat) : (s.setFld f i v).mgtMem = s.mgtMem := rfl
@[simp] theorem State.setFld_dram (s : State) (f : Fld) (i v : Nat) : (s.setFld f i v).dram = s.dram := rfl
@[simp] theorem State.setFld_drc (s : State) (f : Fld) (i v : Nat) : (s.setFld f i v).drc = s.drc := rfl
@[simp] theorem State.setFld_rst (s : State) (f : Fld) (i v : Nat) : (s.setFld f i v).rst = s.rst := rfl
@[simp] theorem State.setFld_dbg (s : State) (f : Fld) (i v : Nat) : (s.setFld f i v).dbg = s.dbg := rfl
@[simp] theorem State.setFld_pio (s : State) (f : Fld) (i v : Nat) : (s.setFld f i v).pio = s.pio := rfl

/-! ## Setting a flag -/

@[simp] theorem State.setFlag_pending (s : State) (f : Fld) (i : Nat) (b : Bool) : (s.setFlag f i b).pending = s.pending := rfl
@[simp] theorem State.setFlag_variant (s : State) (f : Fld) (i : Nat) (b : Bool) : (s.setFlag f i b).variant = s.variant := rfl
@[simp] theorem State.setFlag_stepping (s : State) (f : Fld) (i : Nat) (b : Bool) : (s.setFlag f i b).stepping = s.stepping := rfl
@[simp] theorem State.setFlag_present (s : State) (f : Fld) (i : Nat) (b : Bool) : (s.setFlag f i b).present = s.present := rfl
@[simp] theorem State.setFlag_clk (s : State) (f : Fld) (i : Nat) (b : Bool) : (s.setFlag f i b).clk = s.clk := rfl
@[simp] theorem State.setFlag_fresh (s : State) (f : Fld) (i : Nat) (b : Bool) : (s.setFlag f i b).fresh = s.fresh := rfl
@[simp] theorem State.setFlag_rdata (s : State) (f : Fld) (i : Nat) (b : Bool) : (s.setFlag f i b).rdata = s.rdata := rfl
@[simp] theorem State.setFlag_tim (s : State) (f : Fld) (i : Nat) (b : Bool) : (s.setFlag f i b).tim = s.tim := rfl
@[simp] theorem State.setFlag_lpt (s : State) (f : Fld) (i : Nat) (b : Bool) : (s.setFlag f i b).lpt = s.lpt := rfl
@[simp] theorem State.setFlag_hif (s : State) (f : Fld) (i : Nat) (b : Bool) : (s.setFlag f i b).hif = s.hif := rfl
@[simp] theorem State.setFlag_crn (s : State) (f : Fld) (i : Nat) (b : Bool) : (s.setFlag f i b).crn = s.crn := rfl
@[simp] theorem State.setFlag_prs (s : State) (f : Fld) (i : Nat) (b : Bool) : (s.setFlag f i b).prs = s.prs := rfl
@[simp] theorem State.setFlag_ory (s : State) (f : Fld) (i : Nat) (b : Bool) : (s.setFlag f i b).ory = s.ory := rfl
@[simp] theorem State.setFlag_egr (s : State) (f : Fld) (i : Nat) (b : Bool) : (s.setFlag f i b).egr = s.egr := rfl
@[simp] theorem State.setFlag_icu (s : State) (f : Fld) (i : Nat) (b : Bool) : (s.setFlag f i b).icu = s.icu := rfl
@[simp] theorem State.setFlag_integ (s : State) (f : Fld) (i : Nat) (b : Bool) : (s.setFlag f i b).integ = s.integ := rfl
@[simp] theorem State.setFlag_agt (s : State) (f : Fld) (i : Nat) (b : Bool) : (s.setFlag f i b).agt = s.agt := rfl
@[simp] theorem State.setFlag_gar (s : State) (f : Fld) (i : Nat) (b : Bool) : (s.setFlag f i b).gar = s.gar := rfl
@[simp] theorem State.setFlag_cpx (s : State) (f : Fld) (i : Nat) (b : Bool) : (s.setFlag f i b).cpx = s.cpx := rfl
@[simp] theorem State.setFlag_flt (s : State) (f : Fld) (i : Nat) (b : Bool) : (s.setFlag f i b).flt = s.flt := rfl
@[simp] theorem State.setFlag_mgtMem (s : State) (f : Fld) (i : Nat) (b : Bool) : (s.setFlag f i b).mgtMem = s.mgtMem := rfl
@[simp] theorem State.setFlag_dram (s : State) (f : Fld) (i : Nat) (b : Bool) : (s.setFlag f i b).dram = s.dram := rfl
@[simp] theorem State.setFlag_drc (s : State) (f : Fld) (i : Nat) (b : Bool) : (s.setFlag f i b).drc = s.drc := rfl
@[simp] theorem State.setFlag_rst (s : State) (f : Fld) (i : Nat) (b : Bool) : (s.setFlag f i b).rst = s.rst := rfl
@[simp] theorem State.setFlag_dbg (s : State) (f : Fld) (i : Nat) (b : Bool) : (s.setFlag f i b).dbg = s.dbg := rfl
@[simp] theorem State.setFlag_pio (s : State) (f : Fld) (i : Nat) (b : Bool) : (s.setFlag f i b).pio = s.pio := rfl

/-! ## Counting in a saturating field -/

@[simp] theorem State.bump_pending (s : State) (f : Fld) (i n : Nat) : (s.bump f i n).pending = s.pending := rfl
@[simp] theorem State.bump_variant (s : State) (f : Fld) (i n : Nat) : (s.bump f i n).variant = s.variant := rfl
@[simp] theorem State.bump_stepping (s : State) (f : Fld) (i n : Nat) : (s.bump f i n).stepping = s.stepping := rfl
@[simp] theorem State.bump_present (s : State) (f : Fld) (i n : Nat) : (s.bump f i n).present = s.present := rfl
@[simp] theorem State.bump_clk (s : State) (f : Fld) (i n : Nat) : (s.bump f i n).clk = s.clk := rfl
@[simp] theorem State.bump_fresh (s : State) (f : Fld) (i n : Nat) : (s.bump f i n).fresh = s.fresh := rfl
@[simp] theorem State.bump_rdata (s : State) (f : Fld) (i n : Nat) : (s.bump f i n).rdata = s.rdata := rfl
@[simp] theorem State.bump_tim (s : State) (f : Fld) (i n : Nat) : (s.bump f i n).tim = s.tim := rfl
@[simp] theorem State.bump_lpt (s : State) (f : Fld) (i n : Nat) : (s.bump f i n).lpt = s.lpt := rfl
@[simp] theorem State.bump_hif (s : State) (f : Fld) (i n : Nat) : (s.bump f i n).hif = s.hif := rfl
@[simp] theorem State.bump_crn (s : State) (f : Fld) (i n : Nat) : (s.bump f i n).crn = s.crn := rfl
@[simp] theorem State.bump_prs (s : State) (f : Fld) (i n : Nat) : (s.bump f i n).prs = s.prs := rfl
@[simp] theorem State.bump_ory (s : State) (f : Fld) (i n : Nat) : (s.bump f i n).ory = s.ory := rfl
@[simp] theorem State.bump_egr (s : State) (f : Fld) (i n : Nat) : (s.bump f i n).egr = s.egr := rfl
@[simp] theorem State.bump_icu (s : State) (f : Fld) (i n : Nat) : (s.bump f i n).icu = s.icu := rfl
@[simp] theorem State.bump_integ (s : State) (f : Fld) (i n : Nat) : (s.bump f i n).integ = s.integ := rfl
@[simp] theorem State.bump_agt (s : State) (f : Fld) (i n : Nat) : (s.bump f i n).agt = s.agt := rfl
@[simp] theorem State.bump_gar (s : State) (f : Fld) (i n : Nat) : (s.bump f i n).gar = s.gar := rfl
@[simp] theorem State.bump_cpx (s : State) (f : Fld) (i n : Nat) : (s.bump f i n).cpx = s.cpx := rfl
@[simp] theorem State.bump_flt (s : State) (f : Fld) (i n : Nat) : (s.bump f i n).flt = s.flt := rfl
@[simp] theorem State.bump_mgtMem (s : State) (f : Fld) (i n : Nat) : (s.bump f i n).mgtMem = s.mgtMem := rfl
@[simp] theorem State.bump_dram (s : State) (f : Fld) (i n : Nat) : (s.bump f i n).dram = s.dram := rfl
@[simp] theorem State.bump_drc (s : State) (f : Fld) (i n : Nat) : (s.bump f i n).drc = s.drc := rfl
@[simp] theorem State.bump_rst (s : State) (f : Fld) (i n : Nat) : (s.bump f i n).rst = s.rst := rfl
@[simp] theorem State.bump_dbg (s : State) (f : Fld) (i n : Nat) : (s.bump f i n).dbg = s.dbg := rfl
@[simp] theorem State.bump_pio (s : State) (f : Fld) (i n : Nat) : (s.bump f i n).pio = s.pio := rfl

/-! ## Counting in a wrapping field -/

@[simp] theorem State.wrapAdd_pending (s : State) (f : Fld) (i n : Nat) : (s.wrapAdd f i n).pending = s.pending := rfl
@[simp] theorem State.wrapAdd_variant (s : State) (f : Fld) (i n : Nat) : (s.wrapAdd f i n).variant = s.variant := rfl
@[simp] theorem State.wrapAdd_stepping (s : State) (f : Fld) (i n : Nat) : (s.wrapAdd f i n).stepping = s.stepping := rfl
@[simp] theorem State.wrapAdd_present (s : State) (f : Fld) (i n : Nat) : (s.wrapAdd f i n).present = s.present := rfl
@[simp] theorem State.wrapAdd_clk (s : State) (f : Fld) (i n : Nat) : (s.wrapAdd f i n).clk = s.clk := rfl
@[simp] theorem State.wrapAdd_fresh (s : State) (f : Fld) (i n : Nat) : (s.wrapAdd f i n).fresh = s.fresh := rfl
@[simp] theorem State.wrapAdd_rdata (s : State) (f : Fld) (i n : Nat) : (s.wrapAdd f i n).rdata = s.rdata := rfl
@[simp] theorem State.wrapAdd_tim (s : State) (f : Fld) (i n : Nat) : (s.wrapAdd f i n).tim = s.tim := rfl
@[simp] theorem State.wrapAdd_lpt (s : State) (f : Fld) (i n : Nat) : (s.wrapAdd f i n).lpt = s.lpt := rfl
@[simp] theorem State.wrapAdd_hif (s : State) (f : Fld) (i n : Nat) : (s.wrapAdd f i n).hif = s.hif := rfl
@[simp] theorem State.wrapAdd_crn (s : State) (f : Fld) (i n : Nat) : (s.wrapAdd f i n).crn = s.crn := rfl
@[simp] theorem State.wrapAdd_prs (s : State) (f : Fld) (i n : Nat) : (s.wrapAdd f i n).prs = s.prs := rfl
@[simp] theorem State.wrapAdd_ory (s : State) (f : Fld) (i n : Nat) : (s.wrapAdd f i n).ory = s.ory := rfl
@[simp] theorem State.wrapAdd_egr (s : State) (f : Fld) (i n : Nat) : (s.wrapAdd f i n).egr = s.egr := rfl
@[simp] theorem State.wrapAdd_icu (s : State) (f : Fld) (i n : Nat) : (s.wrapAdd f i n).icu = s.icu := rfl
@[simp] theorem State.wrapAdd_integ (s : State) (f : Fld) (i n : Nat) : (s.wrapAdd f i n).integ = s.integ := rfl
@[simp] theorem State.wrapAdd_agt (s : State) (f : Fld) (i n : Nat) : (s.wrapAdd f i n).agt = s.agt := rfl
@[simp] theorem State.wrapAdd_gar (s : State) (f : Fld) (i n : Nat) : (s.wrapAdd f i n).gar = s.gar := rfl
@[simp] theorem State.wrapAdd_cpx (s : State) (f : Fld) (i n : Nat) : (s.wrapAdd f i n).cpx = s.cpx := rfl
@[simp] theorem State.wrapAdd_flt (s : State) (f : Fld) (i n : Nat) : (s.wrapAdd f i n).flt = s.flt := rfl
@[simp] theorem State.wrapAdd_mgtMem (s : State) (f : Fld) (i n : Nat) : (s.wrapAdd f i n).mgtMem = s.mgtMem := rfl
@[simp] theorem State.wrapAdd_dram (s : State) (f : Fld) (i n : Nat) : (s.wrapAdd f i n).dram = s.dram := rfl
@[simp] theorem State.wrapAdd_drc (s : State) (f : Fld) (i n : Nat) : (s.wrapAdd f i n).drc = s.drc := rfl
@[simp] theorem State.wrapAdd_rst (s : State) (f : Fld) (i n : Nat) : (s.wrapAdd f i n).rst = s.rst := rfl
@[simp] theorem State.wrapAdd_dbg (s : State) (f : Fld) (i n : Nat) : (s.wrapAdd f i n).dbg = s.dbg := rfl
@[simp] theorem State.wrapAdd_pio (s : State) (f : Fld) (i n : Nat) : (s.wrapAdd f i n).pio = s.pio := rfl

/-! ## Marking a check unit -/

@[simp] theorem setUnitErr_pending (s : State) (m k v : Nat) : (setUnitErr s m k v).pending = s.pending := rfl
@[simp] theorem setUnitErr_variant (s : State) (m k v : Nat) : (setUnitErr s m k v).variant = s.variant := rfl
@[simp] theorem setUnitErr_stepping (s : State) (m k v : Nat) : (setUnitErr s m k v).stepping = s.stepping := rfl
@[simp] theorem setUnitErr_present (s : State) (m k v : Nat) : (setUnitErr s m k v).present = s.present := rfl
@[simp] theorem setUnitErr_regs (s : State) (m k v : Nat) : (setUnitErr s m k v).regs = s.regs := rfl
@[simp] theorem setUnitErr_clk (s : State) (m k v : Nat) : (setUnitErr s m k v).clk = s.clk := rfl
@[simp] theorem setUnitErr_fresh (s : State) (m k v : Nat) : (setUnitErr s m k v).fresh = s.fresh := rfl
@[simp] theorem setUnitErr_rdata (s : State) (m k v : Nat) : (setUnitErr s m k v).rdata = s.rdata := rfl
@[simp] theorem setUnitErr_tim (s : State) (m k v : Nat) : (setUnitErr s m k v).tim = s.tim := rfl
@[simp] theorem setUnitErr_lpt (s : State) (m k v : Nat) : (setUnitErr s m k v).lpt = s.lpt := rfl
@[simp] theorem setUnitErr_hif (s : State) (m k v : Nat) : (setUnitErr s m k v).hif = s.hif := rfl
@[simp] theorem setUnitErr_crn (s : State) (m k v : Nat) : (setUnitErr s m k v).crn = s.crn := rfl
@[simp] theorem setUnitErr_prs (s : State) (m k v : Nat) : (setUnitErr s m k v).prs = s.prs := rfl
@[simp] theorem setUnitErr_ory (s : State) (m k v : Nat) : (setUnitErr s m k v).ory = s.ory := rfl
@[simp] theorem setUnitErr_egr (s : State) (m k v : Nat) : (setUnitErr s m k v).egr = s.egr := rfl
@[simp] theorem setUnitErr_icu (s : State) (m k v : Nat) : (setUnitErr s m k v).icu = s.icu := rfl
@[simp] theorem setUnitErr_agt (s : State) (m k v : Nat) : (setUnitErr s m k v).agt = s.agt := rfl
@[simp] theorem setUnitErr_gar (s : State) (m k v : Nat) : (setUnitErr s m k v).gar = s.gar := rfl
@[simp] theorem setUnitErr_cpx (s : State) (m k v : Nat) : (setUnitErr s m k v).cpx = s.cpx := rfl
@[simp] theorem setUnitErr_flt (s : State) (m k v : Nat) : (setUnitErr s m k v).flt = s.flt := rfl
@[simp] theorem setUnitErr_mgtMem (s : State) (m k v : Nat) : (setUnitErr s m k v).mgtMem = s.mgtMem := rfl
@[simp] theorem setUnitErr_dram (s : State) (m k v : Nat) : (setUnitErr s m k v).dram = s.dram := rfl
@[simp] theorem setUnitErr_drc (s : State) (m k v : Nat) : (setUnitErr s m k v).drc = s.drc := rfl
@[simp] theorem setUnitErr_rst (s : State) (m k v : Nat) : (setUnitErr s m k v).rst = s.rst := rfl
@[simp] theorem setUnitErr_dbg (s : State) (m k v : Nat) : (setUnitErr s m k v).dbg = s.dbg := rfl
@[simp] theorem setUnitErr_pio (s : State) (m k v : Nat) : (setUnitErr s m k v).pio = s.pio := rfl

/-! ## Replacing a thread's record -/

@[simp] theorem setThr_pending (s : State) (t : Nat) (x : Thread) : (setThr s t x).pending = s.pending := rfl
@[simp] theorem setThr_variant (s : State) (t : Nat) (x : Thread) : (setThr s t x).variant = s.variant := rfl
@[simp] theorem setThr_stepping (s : State) (t : Nat) (x : Thread) : (setThr s t x).stepping = s.stepping := rfl
@[simp] theorem setThr_present (s : State) (t : Nat) (x : Thread) : (setThr s t x).present = s.present := rfl
@[simp] theorem setThr_regs (s : State) (t : Nat) (x : Thread) : (setThr s t x).regs = s.regs := rfl
@[simp] theorem setThr_clk (s : State) (t : Nat) (x : Thread) : (setThr s t x).clk = s.clk := rfl
@[simp] theorem setThr_fresh (s : State) (t : Nat) (x : Thread) : (setThr s t x).fresh = s.fresh := rfl
@[simp] theorem setThr_rdata (s : State) (t : Nat) (x : Thread) : (setThr s t x).rdata = s.rdata := rfl
@[simp] theorem setThr_tim (s : State) (t : Nat) (x : Thread) : (setThr s t x).tim = s.tim := rfl
@[simp] theorem setThr_lpt (s : State) (t : Nat) (x : Thread) : (setThr s t x).lpt = s.lpt := rfl
@[simp] theorem setThr_hif (s : State) (t : Nat) (x : Thread) : (setThr s t x).hif = s.hif := rfl
@[simp] theorem setThr_crn (s : State) (t : Nat) (x : Thread) : (setThr s t x).crn = s.crn := rfl
@[simp] theorem setThr_prs (s : State) (t : Nat) (x : Thread) : (setThr s t x).prs = s.prs := rfl
@[simp] theorem setThr_ory (s : State) (t : Nat) (x : Thread) : (setThr s t x).ory = s.ory := rfl
@[simp] theorem setThr_egr (s : State) (t : Nat) (x : Thread) : (setThr s t x).egr = s.egr := rfl
@[simp] theorem setThr_icu (s : State) (t : Nat) (x : Thread) : (setThr s t x).icu = s.icu := rfl
@[simp] theorem setThr_integ (s : State) (t : Nat) (x : Thread) : (setThr s t x).integ = s.integ := rfl
@[simp] theorem setThr_agt (s : State) (t : Nat) (x : Thread) : (setThr s t x).agt = s.agt := rfl
@[simp] theorem setThr_cpx (s : State) (t : Nat) (x : Thread) : (setThr s t x).cpx = s.cpx := rfl
@[simp] theorem setThr_flt (s : State) (t : Nat) (x : Thread) : (setThr s t x).flt = s.flt := rfl
@[simp] theorem setThr_mgtMem (s : State) (t : Nat) (x : Thread) : (setThr s t x).mgtMem = s.mgtMem := rfl
@[simp] theorem setThr_dram (s : State) (t : Nat) (x : Thread) : (setThr s t x).dram = s.dram := rfl
@[simp] theorem setThr_drc (s : State) (t : Nat) (x : Thread) : (setThr s t x).drc = s.drc := rfl
@[simp] theorem setThr_rst (s : State) (t : Nat) (x : Thread) : (setThr s t x).rst = s.rst := rfl
@[simp] theorem setThr_dbg (s : State) (t : Nat) (x : Thread) : (setThr s t x).dbg = s.dbg := rfl
@[simp] theorem setThr_pio (s : State) (t : Nat) (x : Thread) : (setThr s t x).pio = s.pio := rfl

/-! ## Replacing a function's record -/

@[simp] theorem setFn_pending (s : State) (f : Nat) (x : Fn) : (setFn s f x).pending = s.pending := rfl
@[simp] theorem setFn_variant (s : State) (f : Nat) (x : Fn) : (setFn s f x).variant = s.variant := rfl
@[simp] theorem setFn_stepping (s : State) (f : Nat) (x : Fn) : (setFn s f x).stepping = s.stepping := rfl
@[simp] theorem setFn_present (s : State) (f : Nat) (x : Fn) : (setFn s f x).present = s.present := rfl
@[simp] theorem setFn_regs (s : State) (f : Nat) (x : Fn) : (setFn s f x).regs = s.regs := rfl
@[simp] theorem setFn_clk (s : State) (f : Nat) (x : Fn) : (setFn s f x).clk = s.clk := rfl
@[simp] theorem setFn_fresh (s : State) (f : Nat) (x : Fn) : (setFn s f x).fresh = s.fresh := rfl
@[simp] theorem setFn_rdata (s : State) (f : Nat) (x : Fn) : (setFn s f x).rdata = s.rdata := rfl
@[simp] theorem setFn_tim (s : State) (f : Nat) (x : Fn) : (setFn s f x).tim = s.tim := rfl
@[simp] theorem setFn_lpt (s : State) (f : Nat) (x : Fn) : (setFn s f x).lpt = s.lpt := rfl
@[simp] theorem setFn_crn (s : State) (f : Nat) (x : Fn) : (setFn s f x).crn = s.crn := rfl
@[simp] theorem setFn_prs (s : State) (f : Nat) (x : Fn) : (setFn s f x).prs = s.prs := rfl
@[simp] theorem setFn_ory (s : State) (f : Nat) (x : Fn) : (setFn s f x).ory = s.ory := rfl
@[simp] theorem setFn_egr (s : State) (f : Nat) (x : Fn) : (setFn s f x).egr = s.egr := rfl
@[simp] theorem setFn_icu (s : State) (f : Nat) (x : Fn) : (setFn s f x).icu = s.icu := rfl
@[simp] theorem setFn_integ (s : State) (f : Nat) (x : Fn) : (setFn s f x).integ = s.integ := rfl
@[simp] theorem setFn_agt (s : State) (f : Nat) (x : Fn) : (setFn s f x).agt = s.agt := rfl
@[simp] theorem setFn_gar (s : State) (f : Nat) (x : Fn) : (setFn s f x).gar = s.gar := rfl
@[simp] theorem setFn_cpx (s : State) (f : Nat) (x : Fn) : (setFn s f x).cpx = s.cpx := rfl
@[simp] theorem setFn_flt (s : State) (f : Nat) (x : Fn) : (setFn s f x).flt = s.flt := rfl
@[simp] theorem setFn_mgtMem (s : State) (f : Nat) (x : Fn) : (setFn s f x).mgtMem = s.mgtMem := rfl
@[simp] theorem setFn_dram (s : State) (f : Nat) (x : Fn) : (setFn s f x).dram = s.dram := rfl
@[simp] theorem setFn_drc (s : State) (f : Nat) (x : Fn) : (setFn s f x).drc = s.drc := rfl
@[simp] theorem setFn_rst (s : State) (f : Nat) (x : Fn) : (setFn s f x).rst = s.rst := rfl
@[simp] theorem setFn_dbg (s : State) (f : Nat) (x : Fn) : (setFn s f x).dbg = s.dbg := rfl
@[simp] theorem setFn_pio (s : State) (f : Nat) (x : Fn) : (setFn s f x).pio = s.pio := rfl

/-! ## Replacing a line port's record -/

@[simp] theorem setPort_pending (s : State) (p : Nat) (x : Port) : (setPort s p x).pending = s.pending := rfl
@[simp] theorem setPort_variant (s : State) (p : Nat) (x : Port) : (setPort s p x).variant = s.variant := rfl
@[simp] theorem setPort_stepping (s : State) (p : Nat) (x : Port) : (setPort s p x).stepping = s.stepping := rfl
@[simp] theorem setPort_present (s : State) (p : Nat) (x : Port) : (setPort s p x).present = s.present := rfl
@[simp] theorem setPort_regs (s : State) (p : Nat) (x : Port) : (setPort s p x).regs = s.regs := rfl
@[simp] theorem setPort_clk (s : State) (p : Nat) (x : Port) : (setPort s p x).clk = s.clk := rfl
@[simp] theorem setPort_fresh (s : State) (p : Nat) (x : Port) : (setPort s p x).fresh = s.fresh := rfl
@[simp] theorem setPort_rdata (s : State) (p : Nat) (x : Port) : (setPort s p x).rdata = s.rdata := rfl
@[simp] theorem setPort_tim (s : State) (p : Nat) (x : Port) : (setPort s p x).tim = s.tim := rfl
@[simp] theorem setPort_hif (s : State) (p : Nat) (x : Port) : (setPort s p x).hif = s.hif := rfl
@[simp] theorem setPort_crn (s : State) (p : Nat) (x : Port) : (setPort s p x).crn = s.crn := rfl
@[simp] theorem setPort_prs (s : State) (p : Nat) (x : Port) : (setPort s p x).prs = s.prs := rfl
@[simp] theorem setPort_ory (s : State) (p : Nat) (x : Port) : (setPort s p x).ory = s.ory := rfl
@[simp] theorem setPort_egr (s : State) (p : Nat) (x : Port) : (setPort s p x).egr = s.egr := rfl
@[simp] theorem setPort_icu (s : State) (p : Nat) (x : Port) : (setPort s p x).icu = s.icu := rfl
@[simp] theorem setPort_integ (s : State) (p : Nat) (x : Port) : (setPort s p x).integ = s.integ := rfl
@[simp] theorem setPort_agt (s : State) (p : Nat) (x : Port) : (setPort s p x).agt = s.agt := rfl
@[simp] theorem setPort_gar (s : State) (p : Nat) (x : Port) : (setPort s p x).gar = s.gar := rfl
@[simp] theorem setPort_cpx (s : State) (p : Nat) (x : Port) : (setPort s p x).cpx = s.cpx := rfl
@[simp] theorem setPort_flt (s : State) (p : Nat) (x : Port) : (setPort s p x).flt = s.flt := rfl
@[simp] theorem setPort_mgtMem (s : State) (p : Nat) (x : Port) : (setPort s p x).mgtMem = s.mgtMem := rfl
@[simp] theorem setPort_dram (s : State) (p : Nat) (x : Port) : (setPort s p x).dram = s.dram := rfl
@[simp] theorem setPort_drc (s : State) (p : Nat) (x : Port) : (setPort s p x).drc = s.drc := rfl
@[simp] theorem setPort_rst (s : State) (p : Nat) (x : Port) : (setPort s p x).rst = s.rst := rfl
@[simp] theorem setPort_dbg (s : State) (p : Nat) (x : Port) : (setPort s p x).dbg = s.dbg := rfl
@[simp] theorem setPort_pio (s : State) (p : Nat) (x : Port) : (setPort s p x).pio = s.pio := rfl

/-! ## Replacing a lane's record -/

@[simp] theorem setLane_pending (s : State) (n u l : Nat) (x : Lane) : (setLane s n u l x).pending = s.pending := rfl
@[simp] theorem setLane_variant (s : State) (n u l : Nat) (x : Lane) : (setLane s n u l x).variant = s.variant := rfl
@[simp] theorem setLane_stepping (s : State) (n u l : Nat) (x : Lane) : (setLane s n u l x).stepping = s.stepping := rfl
@[simp] theorem setLane_present (s : State) (n u l : Nat) (x : Lane) : (setLane s n u l x).present = s.present := rfl
@[simp] theorem setLane_regs (s : State) (n u l : Nat) (x : Lane) : (setLane s n u l x).regs = s.regs := rfl
@[simp] theorem setLane_clk (s : State) (n u l : Nat) (x : Lane) : (setLane s n u l x).clk = s.clk := rfl
@[simp] theorem setLane_fresh (s : State) (n u l : Nat) (x : Lane) : (setLane s n u l x).fresh = s.fresh := rfl
@[simp] theorem setLane_rdata (s : State) (n u l : Nat) (x : Lane) : (setLane s n u l x).rdata = s.rdata := rfl
@[simp] theorem setLane_tim (s : State) (n u l : Nat) (x : Lane) : (setLane s n u l x).tim = s.tim := rfl
@[simp] theorem setLane_lpt (s : State) (n u l : Nat) (x : Lane) : (setLane s n u l x).lpt = s.lpt := rfl
@[simp] theorem setLane_hif (s : State) (n u l : Nat) (x : Lane) : (setLane s n u l x).hif = s.hif := rfl
@[simp] theorem setLane_crn (s : State) (n u l : Nat) (x : Lane) : (setLane s n u l x).crn = s.crn := rfl
@[simp] theorem setLane_prs (s : State) (n u l : Nat) (x : Lane) : (setLane s n u l x).prs = s.prs := rfl
@[simp] theorem setLane_ory (s : State) (n u l : Nat) (x : Lane) : (setLane s n u l x).ory = s.ory := rfl
@[simp] theorem setLane_egr (s : State) (n u l : Nat) (x : Lane) : (setLane s n u l x).egr = s.egr := rfl
@[simp] theorem setLane_icu (s : State) (n u l : Nat) (x : Lane) : (setLane s n u l x).icu = s.icu := rfl
@[simp] theorem setLane_integ (s : State) (n u l : Nat) (x : Lane) : (setLane s n u l x).integ = s.integ := rfl
@[simp] theorem setLane_agt (s : State) (n u l : Nat) (x : Lane) : (setLane s n u l x).agt = s.agt := rfl
@[simp] theorem setLane_gar (s : State) (n u l : Nat) (x : Lane) : (setLane s n u l x).gar = s.gar := rfl
@[simp] theorem setLane_flt (s : State) (n u l : Nat) (x : Lane) : (setLane s n u l x).flt = s.flt := rfl
@[simp] theorem setLane_mgtMem (s : State) (n u l : Nat) (x : Lane) : (setLane s n u l x).mgtMem = s.mgtMem := rfl
@[simp] theorem setLane_dram (s : State) (n u l : Nat) (x : Lane) : (setLane s n u l x).dram = s.dram := rfl
@[simp] theorem setLane_drc (s : State) (n u l : Nat) (x : Lane) : (setLane s n u l x).drc = s.drc := rfl
@[simp] theorem setLane_rst (s : State) (n u l : Nat) (x : Lane) : (setLane s n u l x).rst = s.rst := rfl
@[simp] theorem setLane_dbg (s : State) (n u l : Nat) (x : Lane) : (setLane s n u l x).dbg = s.dbg := rfl
@[simp] theorem setLane_pio (s : State) (n u l : Nat) (x : Lane) : (setLane s n u l x).pio = s.pio := rfl

/-! ## Replacing a channel's messages -/

@[simp] theorem setChan_pending (s : State) (c : Nat) (l : List Msg) : (setChan s c l).pending = s.pending := rfl
@[simp] theorem setChan_variant (s : State) (c : Nat) (l : List Msg) : (setChan s c l).variant = s.variant := rfl
@[simp] theorem setChan_stepping (s : State) (c : Nat) (l : List Msg) : (setChan s c l).stepping = s.stepping := rfl
@[simp] theorem setChan_present (s : State) (c : Nat) (l : List Msg) : (setChan s c l).present = s.present := rfl
@[simp] theorem setChan_regs (s : State) (c : Nat) (l : List Msg) : (setChan s c l).regs = s.regs := rfl
@[simp] theorem setChan_clk (s : State) (c : Nat) (l : List Msg) : (setChan s c l).clk = s.clk := rfl
@[simp] theorem setChan_fresh (s : State) (c : Nat) (l : List Msg) : (setChan s c l).fresh = s.fresh := rfl
@[simp] theorem setChan_rdata (s : State) (c : Nat) (l : List Msg) : (setChan s c l).rdata = s.rdata := rfl
@[simp] theorem setChan_tim (s : State) (c : Nat) (l : List Msg) : (setChan s c l).tim = s.tim := rfl
@[simp] theorem setChan_lpt (s : State) (c : Nat) (l : List Msg) : (setChan s c l).lpt = s.lpt := rfl
@[simp] theorem setChan_hif (s : State) (c : Nat) (l : List Msg) : (setChan s c l).hif = s.hif := rfl
@[simp] theorem setChan_crn (s : State) (c : Nat) (l : List Msg) : (setChan s c l).crn = s.crn := rfl
@[simp] theorem setChan_prs (s : State) (c : Nat) (l : List Msg) : (setChan s c l).prs = s.prs := rfl
@[simp] theorem setChan_ory (s : State) (c : Nat) (l : List Msg) : (setChan s c l).ory = s.ory := rfl
@[simp] theorem setChan_egr (s : State) (c : Nat) (l : List Msg) : (setChan s c l).egr = s.egr := rfl
@[simp] theorem setChan_icu (s : State) (c : Nat) (l : List Msg) : (setChan s c l).icu = s.icu := rfl
@[simp] theorem setChan_integ (s : State) (c : Nat) (l : List Msg) : (setChan s c l).integ = s.integ := rfl
@[simp] theorem setChan_agt (s : State) (c : Nat) (l : List Msg) : (setChan s c l).agt = s.agt := rfl
@[simp] theorem setChan_cpx (s : State) (c : Nat) (l : List Msg) : (setChan s c l).cpx = s.cpx := rfl
@[simp] theorem setChan_flt (s : State) (c : Nat) (l : List Msg) : (setChan s c l).flt = s.flt := rfl
@[simp] theorem setChan_mgtMem (s : State) (c : Nat) (l : List Msg) : (setChan s c l).mgtMem = s.mgtMem := rfl
@[simp] theorem setChan_dram (s : State) (c : Nat) (l : List Msg) : (setChan s c l).dram = s.dram := rfl
@[simp] theorem setChan_drc (s : State) (c : Nat) (l : List Msg) : (setChan s c l).drc = s.drc := rfl
@[simp] theorem setChan_rst (s : State) (c : Nat) (l : List Msg) : (setChan s c l).rst = s.rst := rfl
@[simp] theorem setChan_dbg (s : State) (c : Nat) (l : List Msg) : (setChan s c l).dbg = s.dbg := rfl
@[simp] theorem setChan_pio (s : State) (c : Nat) (l : List Msg) : (setChan s c l).pio = s.pio := rfl

/-! ## Writing MGT memory -/

@[simp] theorem mgtWrite_pending (s : State) (a : Nat) (bs : List Byte) : (mgtWrite s a bs).pending = s.pending := rfl
@[simp] theorem mgtWrite_variant (s : State) (a : Nat) (bs : List Byte) : (mgtWrite s a bs).variant = s.variant := rfl
@[simp] theorem mgtWrite_stepping (s : State) (a : Nat) (bs : List Byte) : (mgtWrite s a bs).stepping = s.stepping := rfl
@[simp] theorem mgtWrite_present (s : State) (a : Nat) (bs : List Byte) : (mgtWrite s a bs).present = s.present := rfl
@[simp] theorem mgtWrite_regs (s : State) (a : Nat) (bs : List Byte) : (mgtWrite s a bs).regs = s.regs := rfl
@[simp] theorem mgtWrite_clk (s : State) (a : Nat) (bs : List Byte) : (mgtWrite s a bs).clk = s.clk := rfl
@[simp] theorem mgtWrite_fresh (s : State) (a : Nat) (bs : List Byte) : (mgtWrite s a bs).fresh = s.fresh := rfl
@[simp] theorem mgtWrite_rdata (s : State) (a : Nat) (bs : List Byte) : (mgtWrite s a bs).rdata = s.rdata := rfl
@[simp] theorem mgtWrite_tim (s : State) (a : Nat) (bs : List Byte) : (mgtWrite s a bs).tim = s.tim := rfl
@[simp] theorem mgtWrite_lpt (s : State) (a : Nat) (bs : List Byte) : (mgtWrite s a bs).lpt = s.lpt := rfl
@[simp] theorem mgtWrite_hif (s : State) (a : Nat) (bs : List Byte) : (mgtWrite s a bs).hif = s.hif := rfl
@[simp] theorem mgtWrite_crn (s : State) (a : Nat) (bs : List Byte) : (mgtWrite s a bs).crn = s.crn := rfl
@[simp] theorem mgtWrite_prs (s : State) (a : Nat) (bs : List Byte) : (mgtWrite s a bs).prs = s.prs := rfl
@[simp] theorem mgtWrite_ory (s : State) (a : Nat) (bs : List Byte) : (mgtWrite s a bs).ory = s.ory := rfl
@[simp] theorem mgtWrite_egr (s : State) (a : Nat) (bs : List Byte) : (mgtWrite s a bs).egr = s.egr := rfl
@[simp] theorem mgtWrite_icu (s : State) (a : Nat) (bs : List Byte) : (mgtWrite s a bs).icu = s.icu := rfl
@[simp] theorem mgtWrite_integ (s : State) (a : Nat) (bs : List Byte) : (mgtWrite s a bs).integ = s.integ := rfl
@[simp] theorem mgtWrite_agt (s : State) (a : Nat) (bs : List Byte) : (mgtWrite s a bs).agt = s.agt := rfl
@[simp] theorem mgtWrite_gar (s : State) (a : Nat) (bs : List Byte) : (mgtWrite s a bs).gar = s.gar := rfl
@[simp] theorem mgtWrite_cpx (s : State) (a : Nat) (bs : List Byte) : (mgtWrite s a bs).cpx = s.cpx := rfl
@[simp] theorem mgtWrite_flt (s : State) (a : Nat) (bs : List Byte) : (mgtWrite s a bs).flt = s.flt := rfl
@[simp] theorem mgtWrite_dram (s : State) (a : Nat) (bs : List Byte) : (mgtWrite s a bs).dram = s.dram := rfl
@[simp] theorem mgtWrite_drc (s : State) (a : Nat) (bs : List Byte) : (mgtWrite s a bs).drc = s.drc := rfl
@[simp] theorem mgtWrite_rst (s : State) (a : Nat) (bs : List Byte) : (mgtWrite s a bs).rst = s.rst := rfl
@[simp] theorem mgtWrite_dbg (s : State) (a : Nat) (bs : List Byte) : (mgtWrite s a bs).dbg = s.dbg := rfl
@[simp] theorem mgtWrite_pio (s : State) (a : Nat) (bs : List Byte) : (mgtWrite s a bs).pio = s.pio := rfl

/-! ## Reads after writes -/

/-- The registers of a state are all that register reads see. -/
theorem State.reg_of_regs {s u : State} (h : u.regs = s.regs) (r : RegName) (i : Nat) : u.reg r i = s.reg r i := by
  simp only [State.reg, h]

theorem State.fld_of_regs {s u : State} (h : u.regs = s.regs) (f : Fld) (i : Nat) : u.fld f i = s.fld f i := by
  simp only [State.fld, State.reg_of_regs h]

theorem State.flag_of_regs {s u : State} (h : u.regs = s.regs) (f : Fld) (i : Nat) : u.flag f i = s.flag f i := by
  simp only [State.flag, State.fld_of_regs h]

@[simp] theorem setThr_reg (s : State) (t : Nat) (x : Thread) (r : RegName) (i : Nat) : (setThr s t x).reg r i = s.reg r i := rfl
@[simp] theorem setThr_fld (s : State) (t : Nat) (x : Thread) (f : Fld) (i : Nat) : (setThr s t x).fld f i = s.fld f i := rfl
@[simp] theorem setThr_flag (s : State) (t : Nat) (x : Thread) (f : Fld) (i : Nat) : (setThr s t x).flag f i = s.flag f i := rfl

/-- A thread's record is what was last set. -/
theorem thrOf_setThr {s : State} (h : mwf noThread s.gar.thr = true) (t : Nat) (x : Thread) : thrOf (setThr s t x) t = x :=
  mget_mset_eq noThread t x h

theorem thrOf_setThr_ne (s : State) {t i : Nat} (hi : i ≠ t) (x : Thread) :
    thrOf (setThr s t x) i = thrOf s i :=
  mget_mset_ne noThread x hi

theorem setThr_wf {s : State} (h : mwf noThread s.gar.thr = true) (t : Nat) (x : Thread) :
    mwf noThread (setThr s t x).gar.thr = true :=
  mset_wf noThread t x h

/-- The last of two records set for one thread stays. -/
theorem setThr_setThr {s : State} (h : mwf noThread s.gar.thr = true) (t : Nat) (x y : Thread) :
    setThr (setThr s t x) t y = setThr s t y := by
  have e : mset noThread (mset noThread s.gar.thr t x) t y = mset noThread s.gar.thr t y := mset_mset_same noThread t x y h
  simp only [setThr, e]

/-! ## Registers and flags of a thread -/

theorem gGet_gSet {x : Thread} (h : mwf noW32 x.g = true) (r i : Nat) (v : W32) :
    gGet (gSet x r v) i = if i = r ∧ r ≠ 0 then v else gGet x i := by
  unfold gGet gSet
  by_cases h0 : r = 0
  · subst h0; by_cases hi : i = 0 <;> simp [hi]
  · by_cases hi : i = 0
    · subst hi; simp [Ne.symm h0]
    · by_cases e : i = r
      · subst e; simp [h0, mget_mset_eq noW32 i v h]
      · simp [h0, hi, e, mget_mset_ne noW32 v e]

end Sys2Proof.Machine
end

