-- ==== Sys2Proof/Laws/Issue.lean ====
section
/-!
SUPPORT. What one undisturbed issue of an instruction comes to, and the flags of a thread.
-/

namespace Sys2Proof.Machine

/-! ## Bits of numbers -/

theorem putBit_eq (n i : Nat) (b : Bool) : putBit n i b = 2 ^ i * (2 * (n / 2 ^ (i + 1)) + b2n b) + n % 2 ^ i := by
  have h1 : n / 2 ^ i = 2 * (n / 2 ^ (i + 1)) + n / 2 ^ i % 2 := by
    rw [Nat.pow_succ, ← Nat.div_div_eq_div_mul]; omega
  have h2 := Nat.div_add_mod n (2 ^ i)
  have hs : n >>> i = n / 2 ^ i := Nat.shiftRight_eq_div_pow n i
  have e : i + 1 - i = 1 := by omega
  unfold putBit setBits bits
  rw [hs, e]
  have hb : (if b = true then 1 else 0) % 2 ^ 1 = b2n b := by cases b <;> rfl
  rw [hb, Nat.pow_one]
  have h3 : 2 ^ i * (n / 2 ^ i) = 2 ^ i * (2 * (n / 2 ^ (i + 1))) + n / 2 ^ i % 2 * 2 ^ i := by
    conv_lhs => rw [h1]
    ring
  have h4 : 2 ^ i * (2 * (n / 2 ^ (i + 1)) + b2n b) = 2 ^ i * (2 * (n / 2 ^ (i + 1))) + b2n b * 2 ^ i := by ring
  omega

/-- A bit that is put is read back, and the others stay. -/
theorem putBit_testBit (n i j : Nat) (b : Bool) : (putBit n i b).testBit j = if j = i then b else n.testBit j := by
  rw [putBit_eq, Nat.testBit_two_pow_mul_add _ (Nat.mod_lt _ (Nat.two_pow_pos i))]
  by_cases h : j < i
  · have : j ≠ i := by omega
    simp [h, this, Nat.testBit_mod_two_pow]
  · rcases Nat.lt_or_ge i j with h' | h'
    · have hne : j ≠ i := by omega
      obtain ⟨k, hk⟩ : ∃ k, j - i = k + 1 := ⟨j - i - 1, by omega⟩
      rw [if_neg h, if_neg hne, hk, Nat.testBit_succ]
      have : (2 * (n / 2 ^ (i + 1)) + b2n b) / 2 = n / 2 ^ (i + 1) := by cases b <;> (simp [b2n]; try omega)
      rw [this, Nat.testBit_div_two_pow]
      congr 1; omega
    · have : j = i := by omega
      subst this
      cases b <;> simp [b2n, Nat.testBit_zero]

/-- A flag that is set is read back, and the others stay. -/
theorem setFlagBit_get (x : Thread) {i j : Nat} (b : Bool) (hj : j < 1024) :
    (setFlagBit x i b).flags.getLsbD j = if j = i then b else x.flags.getLsbD j := by
  simp only [setFlagBit, BitVec.getLsbD_ofNat, hj, decide_true, Bool.true_and, putBit_testBit]
  rfl

/-! ## Check bits -/

theorem setUnitErr_zero {s : State} (h : s.integ.bad = []) (m k : Nat) : setUnitErr s m k 0 = s := by
  have e : mset noNat s.integ.bad (badKey m k) 0 = s.integ.bad := by rw [h]; rfl
  simp only [setUnitErr, e]

theorem unitErr_zero {s : State} (h : s.integ.bad = []) (m k : Nat) : unitErr s m k = 0 := by
  simp only [unitErr, h]; rfl

/-- A write with nothing marked and no injection armed changes no check bits. -/
theorem noteWrite_quiet {s : State} (h : s.integ.bad = []) (ha : s.flag F.RST_EINJ_CTL_ARM 0 = false) (m c k a : Nat) (whole : Bool) :
    noteWrite s m c k a whole = s := by
  have e : (if whole then setUnitErr s m k 0 else s) = s := by cases whole <;> simp [setUnitErr_zero h]
  simp [noteWrite, e, injects, ha]

theorem rfWrite_quiet {s : State} (h : s.integ.bad = []) (ha : s.flag F.RST_EINJ_CTL_ARM 0 = false) (t r : Nat) : rfWrite s t r = s := by
  unfold rfWrite; split
  · rfl
  · exact noteWrite_quiet h ha ..

theorem foldS_rfWrite_quiet {s : State} (h : s.integ.bad = []) (ha : s.flag F.RST_EINJ_CTL_ARM 0 = false) (t : Nat) (rs : List Nat) :
    foldS rs (fun v g => rfWrite v t g) s = s := by
  induction rs with
  | nil => rfl
  | cons r l ih => simp only [foldS, List.foldl_cons, rfWrite_quiet h ha] at ih ⊢; exact ih

theorem badReg_quiet {s : State} (h : s.integ.bad = []) (t : Nat) (rs : List Nat) : badReg s t rs = none := by
  simp [badReg, unitErr_zero h]

/-! ## Issue -/

theorem bpMatch_quiet {s : State} {t : Nat} (h : ∀ i < 4, s.flag F.DBG_CORE_BPC_EN (4 * dbgCore t + i) = false) : bpMatch s t = (none, s) := by
  have e : [0, 1, 2, 3].filter (bpHit s t) = [] := by
    simp only [List.filter_eq_nil_iff, bpHit]
    intro i hi
    have : i < 4 := by simp at hi; omega
    simp [h i this]
  unfold bpMatch; split
  · rfl
  · simp only [e]; rfl

theorem watch_quiet {s : State} {t : Nat} (h : ∀ j < 2, s.flag F.DBG_CORE_WPC_EN (2 * dbgCore t + j) = false) (pc : Nat) (ts : List Touch) :
    watch s t pc ts = (none, s) := by
  have e : [0, 1].filter (fun j => ts.any (wpHit s t j)) = [] := by
    simp only [List.filter_eq_nil_iff]
    intro i hi
    have hlt : i < 2 := by simp at hi; omega
    have e : ∀ x, wpHit s t i x = false := by intro x; simp [wpHit, h i hlt]
    simp [e]
  simp only [watch, e]; rfl

/-- An undisturbed issue goes on to what the instruction does. -/
theorem issueAt_eq {s : State} {t : Nat} {w : W32} (h : Issues s t w) (rds wrs : List Nat) (sq : State → State) (body : State → Res) :
    issueAt t w rds wrs sq body s = finish (takeTurn s t) t rds wrs sq (body (takeTurn s t)) := by
  obtain ⟨h1, h2, h3, h4, h5, h6, _⟩ := h
  simp [issueAt, h1, h2, h3, bpMatch_quiet h6]

/-- The turn leaves a state as quiet as it was. -/
theorem takeTurn_thr {s : State} {t : Nat} {w : W32} (h : Issues s t w) :
    thrOf (takeTurn s t) t = { thrOf s t with st := .run, bpPass := false } :=
  thrOf_setThr h.2.2.2.2.2.2.2.2.2.1 t _

/-- A quiet state: no check unit is marked, no injection armed, no watchpoint on. -/
def Quiet (s : State) (t : Nat) : Prop :=
  s.integ.bad = [] ∧ s.flag F.RST_EINJ_CTL_ARM 0 = false ∧ (∀ j < 2, s.flag F.DBG_CORE_WPC_EN (2 * dbgCore t + j) = false)

theorem Quiet.of_regs {s u : State} {t : Nat} (h : Quiet s t) (hr : u.regs = s.regs) (hi : u.integ.bad = s.integ.bad) : Quiet u t := by
  refine ⟨hi.trans h.1, ?_, fun j hj => ?_⟩
  · rw [State.flag_of_regs hr]; exact h.2.1
  · rw [State.flag_of_regs hr]; exact h.2.2 j hj

theorem Issues.quiet {s : State} {t : Nat} {w : W32} (h : Issues s t w) : Quiet s t :=
  ⟨h.2.2.2.1, h.2.2.2.2.1, h.2.2.2.2.2.2.1⟩

/-- A quiet thread retires at `pc`. -/
theorem retire_quiet {v : State} {t : Nat} (hv : Quiet v t) (hw : mwf noThread v.gar.thr = true) (hd : (thrOf v t).st ≠ .dormant)
    (hs : (thrOf v t).stepping = false) (pc : W32) (ts : List Touch) :
    retire v t pc ts = setThr v t { thrOf v t with pc := pc, requeued := false } := by
  have hq : Quiet (setThr v t { thrOf v t with pc := pc, requeued := false }) t := hv.of_regs rfl rfl
  unfold retire
  rw [if_neg hd]
  simp only [watch_quiet hq.2.2, thrOf_setThr hw]
  rw [if_neg (by rw [hs]; decide)]

/-- A quiet instruction that is done retires. -/
theorem finish_done {u v : State} {t : Nat} (hu : u.integ.bad = []) (hv : Quiet v t) (hw : mwf noThread v.gar.thr = true)
    (hd : (thrOf v t).st ≠ .dormant) (hs : (thrOf v t).stepping = false) (rds wrs : List Nat) (sq : State → State) (ts : List Touch) :
    finish u t rds wrs sq (.done v ts) =
      .next (setThr v t { thrOf v t with pc := (thrOf v t).pc + 4, requeued := false }) := by
  simp only [finish, badReg_quiet hu, foldS_rfWrite_quiet hv.1 hv.2.1, retire_quiet hv hw hd hs]

/-- A quiet instruction that transfers control. -/
theorem finish_jump {u v w : State} {t : Nat} {p : W32} (hu : u.integ.bad = []) (hwv : w = traceThr v t 0 (thrOf v t).pc.toNat p.toNat)
    (hv : Quiet w t) (hw : mwf noThread w.gar.thr = true) (hd : (thrOf w t).st ≠ .dormant) (hs : (thrOf w t).stepping = false)
    (rds wrs : List Nat) (sq : State → State) :
    finish u t rds wrs sq (.jump v p) = .next (setThr w t { thrOf w t with pc := p, requeued := false }) := by
  simp only [finish, badReg_quiet hu, ← hwv, foldS_rfWrite_quiet hv.1 hv.2.1, retire_quiet hv hw hd hs]

/-- An undisturbed instruction that only replaces its thread's record. -/
theorem issue_doneThr {s : State} {t : Nat} {w : W32} {body : State → Res} {x : Thread} (h : Issues s t w)
    (hb : body (takeTurn s t) = doneThr (takeTurn s t) t x) (hd : x.st ≠ .dormant) (hs : x.stepping = false) (rds wrs : List Nat)
    (sq : State → State) : issueAt t w rds wrs sq body s = .next (setThr s t { x with pc := x.pc + 4, requeued := false }) := by
  have hw := h.2.2.2.2.2.2.2.2.2.1
  have hw1 : mwf noThread (takeTurn s t).gar.thr = true := setThr_wf hw t _
  have hx : thrOf (setThr (takeTurn s t) t x) t = x := thrOf_setThr hw1 t x
  have hq : Quiet (setThr (takeTurn s t) t x) t := h.quiet.of_regs rfl rfl
  have hu : (takeTurn s t).integ.bad = [] := h.2.2.2.1
  rw [issueAt_eq h, hb, doneThr, finish_done hu hq (setThr_wf hw1 t x) (by rw [hx]; exact hd) (by rw [hx]; exact hs), hx,
    setThr_setThr hw1]
  unfold takeTurn; rw [setThr_setThr hw]

theorem becomes_setThr {s : State} (hw : mwf noThread s.gar.thr = true) (t : Nat) (x : Thread) : Becomes s (setThr s t x) t x :=
  ⟨thrOf_setThr hw t x, fun _ hi => thrOf_setThr_ne s hi x, rfl⟩

theorem gSet_st (x : Thread) (r : Nat) (v : W32) : (gSet x r v).st = x.st := by unfold gSet; split <;> rfl
theorem gSet_stepping (x : Thread) (r : Nat) (v : W32) : (gSet x r v).stepping = x.stepping := by unfold gSet; split <;> rfl
theorem gSet_flags (x : Thread) (r : Nat) (v : W32) : (gSet x r v).flags = x.flags := by unfold gSet; split <;> rfl
theorem gSet_eta (x : Thread) (r : Nat) (v : W32) : gSet x r v = { x with g := (gSet x r v).g } := by unfold gSet; split <;> rfl

/-- A register of a thread that has written another, or it. -/
theorem gv_gSet {x : Thread} (h : mwf noW32 x.g = true) (rd r : BitVec 5) (v : W32) :
    gv (gSet x rd.toNat v) r = if r = rd ∧ r ≠ 0 then v else gv x r := by
  have e := gGet_gSet h rd.toNat r.toNat v
  unfold gv; rw [e]
  by_cases hr : r = rd
  · subst hr
    by_cases h0 : r = 0
    · subst h0; rfl
    · have : r.toNat ≠ 0 := fun hh => h0 (BitVec.eq_of_toNat_eq (by simpa using hh))
      rw [if_pos ⟨rfl, this⟩, if_pos ⟨rfl, h0⟩]
  · have : r.toNat ≠ rd.toNat := fun hh => hr (BitVec.eq_of_toNat_eq hh)
    rw [if_neg (fun hh => this hh.1), if_neg (fun hh => hr hh.1)]

/-- The thread that takes the turn, with flags `fl`. -/
def turned (x : Thread) (fl : BitVec 1024) : Thread := { x with st := .run, bpPass := false, flags := fl }

/-- An undisturbed instruction that writes `v` to `rd` and leaves the flags `fl`. -/
theorem issue_wrote {s : State} {t : Nat} {w : W32} {body : State → Res} {fl : BitVec 1024} {rd : BitVec 5} {v : W32} {c ov z n : Option Bool}
    (h : Issues s t w) (hb : body (takeTurn s t) = doneThr (takeTurn s t) t (gSet (turned (thrOf s t) fl) rd.toNat v))
    (hf : ∀ i < 1024, fl.getLsbD i = ((match i with | 0 => c | 1 => ov | 2 => z | 3 => n | _ => none).getD ((thrOf s t).flags.getLsbD i)))
    (rds wrs : List Nat) (sq : State → State) : Wrote s (issueAt t w rds wrs sq body s) t rd v c ov z n := by
  have hw := h.2.2.2.2.2.2.2.2.2.1
  have hg := h.2.2.2.2.2.2.2.2.2.2
  have hst : (thrOf s t).stepping = false := h.2.2.2.2.2.2.2.1
  have h1 : (gSet (turned (thrOf s t) fl) rd.toNat v).st ≠ .dormant := by rw [gSet_st]; exact ThrSt.noConfusion
  have h2 : (gSet (turned (thrOf s t) fl) rd.toNat v).stepping = false := by rw [gSet_stepping]; exact hst
  refine ⟨_, _, issue_doneThr h hb h1 h2 rds wrs sq, becomes_setThr hw t _, ?_, fun r => ?_, fun i hi => ?_⟩
  · rw [gSet_eta]; rfl
  · exact gv_gSet (x := turned (thrOf s t) fl) hg rd r v
  · show (gSet (turned (thrOf s t) fl) rd.toNat v).flags.getLsbD i = _
    rw [gSet_flags]; exact hf i hi

end Sys2Proof.Machine
end

