-- ==== Sys2Proof/Laws/Alu.lean ====
section
/-!
SUPPORT. The shapes of arithmetic instructions, once for each shape.
-/

namespace Sys2Proof.Machine

/-- What a flag that an instruction may write reads as afterwards. -/
def flagOr (c ov z n : Option Bool) (old : BitVec 1024) (i : Nat) : Bool :=
  ((match i with | 0 => c | 1 => ov | 2 => z | 3 => n | _ => none) : Option Bool).getD (old.getLsbD i)

/-- A fault found by the instruction itself. -/
theorem issue_fault {s : State} {t : Nat} {w : W32} {body : State → Res} {c d : Nat} (h : Issues s t w)
    (hb : body (takeTurn s t) = .fault (takeTurn s t) c d) (rds wrs : List Nat) (sq : State → State) :
    Faults s (issueAt t w rds wrs sq body s) t c d := by
  unfold Faults; rw [issueAt_eq h, hb]; rfl

/-- A thread that takes its turn. -/
theorem takeTurn_turned {s : State} {t : Nat} {w : W32} (h : Issues s t w) :
    thrOf (takeTurn s t) t = turned (thrOf s t) (thrOf s t).flags := takeTurn_thr h

theorem aluRow_runs {i : BitVec 14 → FmtR → Instr} {fn : Nat} {g : Thread → Nat → W32 → W32 → Thread} {r : Bool → W32 → W32 → W32}
    {c ov z n : Bool → W32 → W32 → Option Bool} (hi : ∀ t f s, exec (i t f) s = aluRow fn g t f s) (fl : Thread → W32 → W32 → BitVec 1024)
    (hg : ∀ x d a b, g x d a b = gSet { x with flags := fl x a b } d (r (flagC x) a b))
    (hf : ∀ x a b, ∀ j < 1024, (fl x a b).getLsbD j = flagOr (c (flagC x) a b) (ov (flagC x) a b) (z (flagC x) a b) (n (flagC x) a b) x.flags j) :
    AluRuns i fn r c ov z n := by
  intro s t f k a b h hk ha hb
  constructor
  · intro hs
    rw [hi]; unfold aluRow
    refine issue_wrote (fl := fl (turned (thrOf s t.toNat) (thrOf s t.toNat).flags) a b) h ?_ (fun j hj => ?_) _ _ _
    · rw [if_neg (fun hh => hh hs), takeTurn_turned h, hg]
      subst ha hb hk; rfl
    · rw [hf _ _ _ j hj]; subst hk; rfl
  · intro hs
    rw [hi]; unfold aluRow
    exact issue_fault h (if_pos hs) _ _ _

theorem aluRow1_runs {i : BitVec 14 → FmtR → Instr} {fn : Nat} {g : Thread → Nat → W32 → Thread} {r : W32 → W32} {z : W32 → Option Bool}
    (hi : ∀ t f s, exec (i t f) s = aluRow1 fn g t f s) (fl : Thread → W32 → BitVec 1024)
    (hg : ∀ x d a, g x d a = gSet { x with flags := fl x a } d (r a))
    (hf : ∀ x a, ∀ j < 1024, (fl x a).getLsbD j = flagOr none none (z a) none x.flags j) : AluRuns1 i fn r z := by
  intro s t f a h ha
  constructor
  · intro hb hs
    rw [hi]; unfold aluRow1
    refine issue_wrote (fl := fl (turned (thrOf s t.toNat) (thrOf s t.toNat).flags) a) h ?_ (fun j hj => ?_) _ _ _
    · rw [if_neg (fun hh => hh.elim (fun e => e hb) (fun e => e hs)), takeTurn_turned h, hg]
      subst ha; rfl
    · rw [hf _ _ j hj]; rfl
  · intro hs
    rw [hi]; unfold aluRow1
    exact issue_fault h (if_pos hs) _ _ _

theorem aluRowI_runs {i : BitVec 14 → FmtI → Instr} {op : Nat} {g : FmtI → Thread → W32 → Thread} {r : W32 → BitVec 16 → W32}
    {c ov z n : W32 → BitVec 16 → Option Bool} (hi : ∀ t f s, exec (i t f) s = aluRowI op false [f.rd.toNat] (g f) t f s)
    (fl : Thread → W32 → BitVec 16 → BitVec 1024) (hg : ∀ f x a, g f x a = gSet { x with flags := fl x a f.imm } f.rd.toNat (r a f.imm))
    (hf : ∀ x a m, ∀ j < 1024, (fl x a m).getLsbD j = flagOr (c a m) (ov a m) (z a m) (n a m) x.flags j) : ImmRuns i op r c ov z n := by
  intro s t f a h ha
  rw [hi]; unfold aluRowI
  refine issue_wrote (fl := fl (turned (thrOf s t.toNat) (thrOf s t.toNat).flags) a f.imm) h ?_ (fun j hj => ?_) _ _ _
  · rw [if_neg Bool.false_ne_true, takeTurn_turned h, hg]
    subst ha; rfl
  · rw [hf _ _ _ j hj]; rfl

/-- Flags C, V, Z and N set together. -/
theorem setCVZN_get (x : Thread) (c v : Bool) (r : W32) {j : Nat} (hj : j < 1024) :
    (setCVZN x c v r).flags.getLsbD j = flagOr (some c) (some v) (some (r == 0)) (some r.msb) x.flags j := by
  simp only [setCVZN, setZN, setFlagBit_get _ _ hj, flagOr]
  match j with
  | 0 => rfl
  | 1 => rfl
  | 2 => rfl
  | 3 => rfl
  | k + 4 => simp

theorem setZN_get (x : Thread) (r : W32) {j : Nat} (hj : j < 1024) :
    (setZN x r).flags.getLsbD j = flagOr none none (some (r == 0)) (some r.msb) x.flags j := by
  simp only [setZN, setFlagBit_get _ _ hj, flagOr]
  match j with
  | 0 => rfl
  | 1 => rfl
  | 2 => rfl
  | 3 => rfl
  | k + 4 => simp

theorem setZ_get (x : Thread) (b : Bool) {j : Nat} (hj : j < 1024) :
    (setZ x b).flags.getLsbD j = flagOr none none (some b) none x.flags j := by
  simp only [setZ, setFlagBit_get _ _ hj, flagOr]
  match j with
  | 0 => rfl
  | 1 => rfl
  | 2 => rfl
  | 3 => rfl
  | k + 4 => simp

/-- Z and N after the bit that a shift by `m` puts out. -/
theorem shift_get (x : Thread) (m : Nat) (b : Bool) (r : W32) {j : Nat} (hj : j < 1024) :
    (setZN (shiftC x m b) r).flags.getLsbD j = flagOr (if m = 0 then none else some b) none (some (r == 0)) (some r.msb) x.flags j := by
  rw [setZN_get _ _ hj]
  by_cases h : m = 0
  · simp [shiftC, h]
  · simp only [shiftC, h, if_false, flagOr, setFlagBit_get _ _ hj]
    match j with
    | 0 => rfl
    | 1 => rfl
    | 2 => rfl
    | 3 => rfl
    | k + 4 => simp

/-! ## Results with their flags -/

theorem putZN_eq (x : Thread) (d : Nat) (r : W32) : putZN x d r = gSet { x with flags := (setZN x r).flags } d r := rfl
theorem putZ_eq (x : Thread) (d : Nat) (r : W32) : putZ x d r = gSet { x with flags := (setZ x (r == 0)).flags } d r := rfl

theorem setZN_eq (x : Thread) (r : W32) : setZN x r = { x with flags := (setZN x r).flags } := rfl

/-- A shift: the bit put out, then Z and N. -/
theorem putShift_eq (x : Thread) (d m : Nat) (b : Bool) (r : W32) :
    putZN (shiftC x m b) d r = gSet { x with flags := (setZN (shiftC x m b) r).flags } d r := by
  by_cases h : m = 0
  · simp only [shiftC, if_pos h]; rfl
  · simp only [shiftC, if_neg h]; rfl

theorem addInto_false (x : Thread) (d : Nat) (a b : W32) : addInto x d a b false =
    gSet { x with flags := (setCVZN x (decide (2 ^ 32 ≤ a.toNat + b.toNat)) (decide (a.toInt + b.toInt ≠ (a + b).toInt)) (a + b)).flags } d
      (a + b) := by
  have e : a + b + BitVec.ofNat 32 0 = a + b := BitVec.add_zero _
  have e0 : b2n false = 0 := rfl
  have e1 : ((0 : Nat) : Int) = 0 := rfl
  unfold addInto
  simp only [e0, e, e1, Nat.add_zero, Int.add_zero]
  rfl

theorem subInto_false (x : Thread) (d : Nat) (a b : W32) : subInto x d a b false =
    gSet { x with flags := (setCVZN x (decide (a.toNat < b.toNat)) (decide (a.toInt - b.toInt ≠ (a - b).toInt)) (a - b)).flags } d (a - b) := by
  have e : a - b - BitVec.ofNat 32 0 = a - b := BitVec.sub_zero _
  have e0 : b2n false = 0 := rfl
  have e1 : ((0 : Nat) : Int) = 0 := rfl
  unfold subInto
  simp only [e0, e, e1, Nat.add_zero, Int.sub_zero]
  rfl

/-- An instruction that changes no flag. -/
theorem noFlag_get (x : BitVec 1024) (j : Nat) : x.getLsbD j = flagOr none none none none x j := by
  unfold flagOr; split <;> rfl

end Sys2Proof.Machine
end

