-- ==== Sys2Proof/Laws/Ctl.lean ====
section
/-!
SUPPORT. What a control command that starts comes to (R107, R108).
-/

namespace Sys2Proof.Machine

/-- A command of a class that R108 defines, which starts in its ring, is what its meaning answers with the slot taken. -/
theorem ctlExec_starts {s u : State} {c : Ctl} {op : Nat} (h : Starts s u c op) (ho : op < 0x600) (f : State → Nat → CtlRes × State) :
    ctlExec s c op f =
      match f u (s.fld F.HIF_CTR_CFG_FN c.ring.val) with
      | (.done st body, v) => ctlEnds s v c op st body
      | (.later w, v) => { v with hif := { v.hif with ctl := v.hif.ctl ++
          [⟨c.ring.val, ctrNext s c.ring.val, ctlWord0 c.irq c.fence op, c.token, s.fld F.HIF_CTR_CFG_FN c.ring.val, w, false⟩] } } := by
  obtain ⟨h1, h2, rfl⟩ := h
  have h3 : ¬ 6 ≤ op / 256 := by omega
  simp only [ctlExec, h1, h2, h3, slotTaken, ctlEnds, Bool.not_true, Bool.false_eq_true, if_false]
  all_goals rfl

/-- A command whose class its ring does not permit (R108). -/
theorem ctlExec_denied {s : State} {c : Ctl} {op : Nat} (h1 : ctrCanStart s c.ring.val c.fence = true)
    (h2 : bitOf (s.fld F.HIF_CTR_CFG2_PERM c.ring.val) (op / 256) = false) (ho : op < 0x600) (f : State → Nat → CtlRes × State) :
    ctlExec s c op f = ctlEnds s (slotTaken s c.ring.val) c op stDenied [] := by
  have h3 : ¬ 6 ≤ op / 256 := by omega
  simp only [ctlExec, h1, h2, h3, slotTaken, ctlEnds, Bool.not_true, Bool.not_false, Bool.false_eq_true, if_false, if_true]

/-- With no such command able to start, nothing happens. -/
theorem ctlExec_none {s : State} {c : Ctl} {op : Nat} (h : ctrCanStart s c.ring.val c.fence = false) (f : State → Nat → CtlRes × State) :
    ctlExec s c op f = s := by simp only [ctlExec, h, Bool.not_false, if_true]

/-- A class 1 command whose table is live, initialised and of a type that it takes runs on that table (R208). -/
theorem class1_live {s u : State} {c : Ctl} {op t ty : Nat} {types : List Nat} {ok : Bool} (h : Class1 s u c op t ty)
    (hty : types.contains ty = true) (hok : ok = true) (f : State → CtlRes × State) : class1 c u types ok f = f u := by
  obtain ⟨_, rfl, h1, h2, rfl⟩ := h
  simp only [class1, h1, h2, hty, hok, Bool.not_true, Bool.or_self, Bool.false_eq_true, if_false]

end Sys2Proof.Machine
end

