-- ==== Sys2Proof/WellFormed.lean ====
section
/-!
DEFINITION. Which commands are well formed: an operand names something that the spec numbers, and lists have the length that the rule of
the row gives. The machine gives every command its meaning; one that is not well formed is no event of the hardware.
-/

namespace Sys2Proof

/-- Packet threads 0–0x1FFF and MGT's eight (R260, R492). -/
def thrOk (t : BitVec 14) : Bool := t.toNat < 0x2008

/-- A control entry's body is words 4 to 15 (R107). -/
def ctlOk (c : Ctl) : Bool := c.body.length == 12

/-- An opcode that another row spells (R108). -/
def opElsewhere (op : Nat) : Bool :=
  (0x0101 ≤ op && op ≤ 0x0108) || op == 0x0201 || op == 0x0301 || op == 0x0302 ||
  (0x0401 ≤ op && op ≤ 0x0405) || (0x0501 ≤ op && op ≤ 0x0503)

/-- An access is 4 or 8 bytes, aligned, with data of its size (R8). -/
def regAccOk : RegAcc → Bool
  | .pf1 _ a n wr => (n == 4 || n == 8) && a.toNat % n == 0 && (match wr with | some v => decide (v.toNat < 2 ^ (8 * n)) | none => true)
  | .config _ _ _ => true
  | .bar _ ofs n wr => (n == 4 || n == 8) && ofs.toNat % n == 0 && (match wr with | some v => decide (v.toNat < 2 ^ (8 * n)) | none => true)
  | .vector _ _ _ => true
  | .pba _ _ => true

/-- Rings of each kind: TX and RX 4,096, completion 1,024, control 64, event-log 16 (the register tables of 04). -/
def ringCount (k : Fin 5) : Nat := match k with | 0 => 4096 | 1 => 4096 | 2 => 1024 | 3 => 64 | 4 => 16

def ringOk (k : Fin 5) (i : BitVec 12) : Bool := decide (i.toNat < ringCount k)

def resourceOk : Resource → Bool
  | .ring k i => ringOk k i
  | _ => true

/-- A packet's descriptors with the bytes each one names: the last has EOP, or there are 16 (R95). -/
def txDescsOk (l : List TxDesc) : Bool :=
  !l.isEmpty && l.length ≤ 16 && l.all (fun d => d.data.length == d.len.toNat) && (l.getLast?.any (·.eop) || l.length == 16)
    && l.dropLast.all (fun d => !d.eop)

/-- A frame from the line has bytes (R66). -/
def frameOk (l : List Byte) : Bool := !l.isEmpty

/-- The image at ADDR is of one entry: 64 bytes, 32 bytes or ENTRY_BYTES (R204). -/
def imageOk (l : List Byte) : Bool := l.length ≤ 64

/-- At most eight lanes make a port (R62). -/
def tapsOk (l : List (BitVec 6 × BitVec 6 × BitVec 6 × BitVec 6)) : Bool := l.length ≤ 8

/-- Channels 0–5 (R409). -/
def chanOk (c : BitVec 3) : Bool := c.toNat < 6

/-- A write stays within its burst of 64 bytes (R410). -/
def burstOk (wr : Option (Fin 64 × List Byte)) : Bool :=
  match wr with
  | some (o, l) => !l.isEmpty && decide (o.val + l.length ≤ 64)
  | none => true

/-- A training step reports at most 40 lanes (R425). -/
def lanesOk (l : List (Byte × Byte × Bool)) : Bool := l.length ≤ 40

/-- Sensors 0–35 (R484). -/
def tempsOk (l : List (BitVec 12)) : Bool := l.length == 36

/-- Memories that take injection: 0–13 (R463). -/
def einjOk (m : BitVec 4) : Bool := m.toNat ≤ 13

/-- The command is well formed. -/
def wellFormed : Instr → Bool
  | .registerWrite x => regAccOk x
  | .resourceDrainComplete r => resourceOk r
  | .timIncrWrite _ => true
  | .timNtLowRead => true
  | .adjSet => true
  | .adjStep => true
  | .adjSlew => true
  | .adjAbort => true
  | .setStepApply => true
  | .slewComplete => true
  | .holdReq => true
  | .holdExit => true
  | .holdTimeoutIncr _ => true
  | .holdTimeoutPps _ => true
  | .ppsInEdge _ => true
  | .calSyncInEdge _ => true
  | .ppsOutPulse _ => true
  | .ppsOutPulseEnd _ => true
  | .timeCompareFire _ _ => true
  | .timeComparePulseEnd _ _ => true
  | .txtsMetaRead _ => true
  | .epochArm => true
  | .epochDisarm => true
  | .epochAtWrite _ => true
  | .epochFlip _ => true
  | .cntDump c => ctlOk c
  | .cntDumpComplete _ _ => true
  | .rxFrame _ frame _ _ _ => frameOk frame
  | .pauseRefresh _ _ => true
  | .frameTxComplete _ _ => true
  | .phyEnSet _ => true
  | .phyEnClear _ _ => true
  | .portEnSet _ => true
  | .portEnClear _ _ => true
  | .signalDetect _ => true
  | .trainComplete _ taps => tapsOk taps
  | .trainTimeout _ _ => true
  | .alignDone _ => true
  | .signalLoss _ _ => true
  | .linkFault _ _ _ => true
  | .linkFaultClear _ => true
  | .quadModeWrite _ _ => true
  | .eyeMeasureGo _ => true
  | .eyeMeasureDone _ _ _ _ => true
  | .prbsEnable _ _ _ => true
  | .prbsCheckerLock _ _ => true
  | .doorbellTx _ _ _ _ => true
  | .doorbellRx _ _ _ _ => true
  | .doorbellCq _ _ _ _ _ => true
  | .doorbellControl _ _ _ _ => true
  | .doorbellEventLog _ _ _ _ _ => true
  | .ringEnable k i => ringOk k i
  | .ringDisable k i => ringOk k i
  | .txPacketFetch _ x => txDescsOk x.descs
  | .txPacketComplete _ => true
  | .dmaReadError _ _ x => decide (x.filled.length ≤ 16)
  | .rxPacketDeliver _ _ => true
  | .cqModerationTimeout _ _ => true
  | .msixPendingSend _ _ => true
  | .nop c op => ctlOk c && !opElsewhere op.toNat
  | .pf0ReadyWrite _ _ _ => true
  | .functionLevelReset _ => true
  | .flrComplete _ => true
  | .vfDisable _ => true
  | .vfEnable _ _ => true
  | .busMasterEnableChange _ _ => true
  | .d3hotChange _ _ => true
  | .pcieLinkUp _ _ _ _ => true
  | .pcieLinkDown _ => true
  | .cellAlloc c => ctlOk c
  | .chainFree c => ctlOk c
  | .cellRead c => ctlOk c
  | .poolEnable _ => true
  | .poolDisable _ => true
  | .chainSweep _ => true
  | .crnReqPeakRead _ => true
  | .parsePacket => true
  | .parserEnable => true
  | .parserDisable => true
  | .graphReq => true
  | .clsReq => true
  | .graphSwitch => true
  | .classifierSwitch => true
  | .lookupComplete _ => true
  | .tableEnable _ => true
  | .tableInitComplete _ => true
  | .tableDisable _ => true
  | .fcFlush => true
  | .fcFlushDone => true
  | .fcInvalidateTableDone _ => true
  | .learnRequest => true
  | .moveWindowClose _ _ _ => true
  | .ageingPassStart _ _ => true
  | .ageingVisit _ => true
  | .tblInsert c img => ctlOk c && imageOk img
  | .tblUpdate c img => ctlOk c && imageOk img
  | .tblDelete c img => ctlOk c && imageOk img
  | .tblSearch c img => ctlOk c && imageOk img
  | .tblNext c => ctlOk c
  | .tblFlush c => ctlOk c
  | .flushVisit _ => true
  | .tblFlushComplete _ => true
  | .tblCursorClose c => ctlOk c
  | .tblLocClear c => ctlOk c
  | .cursorTimeout _ _ => true
  | .dispatch _ _ => true
  | .spillRefill => true
  | .tagSkip _ _ => true
  | .queueDisable _ => true
  | .purge _ => true
  | .purgeComplete _ => true
  | .groupMembershipWrite _ _ => true
  | .orreryDisable => true
  | .delayTick _ _ => true
  | .delayListDisable _ => true
  | .delayAreaDisable => true
  | .enq c _ => ctlOk c
  | .dlyInsert c _ => ctlOk c
  | .enqUnblock t => thrOk t
  | .gateRecordWaitEnd t => thrOk t
  | .add t _ => thrOk t
  | .sub t _ => thrOk t
  | .and t _ => thrOk t
  | .or t _ => thrOk t
  | .xor t _ => thrOk t
  | .shl t _ => thrOk t
  | .shr t _ => thrOk t
  | .sar t _ => thrOk t
  | .rol t _ => thrOk t
  | .ror t _ => thrOk t
  | .mul t _ => thrOk t
  | .mulhu t _ => thrOk t
  | .mulhs t _ => thrOk t
  | .min t _ => thrOk t
  | .max t _ => thrOk t
  | .minu t _ => thrOk t
  | .maxu t _ => thrOk t
  | .slt t _ => thrOk t
  | .sltu t _ => thrOk t
  | .clz t _ => thrOk t
  | .popc t _ => thrOk t
  | .bswap t _ => thrOk t
  | .csum t _ => thrOk t
  | .csumf t _ => thrOk t
  | .ext t _ => thrOk t
  | .ins t _ => thrOk t
  | .addc t _ => thrOk t
  | .subb t _ => thrOk t
  | .sel t _ => thrOk t
  | .addi t _ => thrOk t
  | .andi t _ => thrOk t
  | .ori t _ => thrOk t
  | .xori t _ => thrOk t
  | .lui t _ => thrOk t
  | .shi t _ => thrOk t
  | .cmpi t _ => thrOk t
  | .ldB t _ => thrOk t
  | .ldBs t _ => thrOk t
  | .ldH t _ => thrOk t
  | .ldHs t _ => thrOk t
  | .ldW t _ => thrOk t
  | .ldnH t _ => thrOk t
  | .ldnW t _ => thrOk t
  | .lda t _ => thrOk t
  | .stB t _ => thrOk t
  | .stH t _ => thrOk t
  | .stW t _ => thrOk t
  | .stnH t _ => thrOk t
  | .stnW t _ => thrOk t
  | .sta t _ => thrOk t
  | .csld t _ => thrOk t
  | .beq t _ => thrOk t
  | .bne t _ => thrOk t
  | .blt t _ => thrOk t
  | .bge t _ => thrOk t
  | .bltu t _ => thrOk t
  | .bgeu t _ => thrOk t
  | .bbS t _ => thrOk t
  | .bbC t _ => thrOk t
  | .jmp t _ => thrOk t
  | .call t _ => thrOk t
  | .jr t _ => thrOk t
  | .jalr t _ => thrOk t
  | .bset t _ => thrOk t
  | .bclr t _ => thrOk t
  | .bnot t _ => thrOk t
  | .btst t _ => thrOk t
  | .btas t _ => thrOk t
  | .btac t _ => thrOk t
  | .bput t _ => thrOk t
  | .bget t _ => thrOk t
  | .macd t _ => thrOk t
  | .mac t _ => thrOk t
  | .macu t _ => thrOk t
  | .mfa t _ => thrOk t
  | .mta t _ => thrOk t
  | .clra t _ => thrOk t
  | .crcb t _ => thrOk t
  | .crch t _ => thrOk t
  | .crcw t _ => thrOk t
  | .lkp t _ => thrOk t
  | .lkpw t _ => thrOk t
  | .lkw t _ => thrOk t
  | .cld t _ => thrOk t
  | .cst t _ => thrOk t
  | .calloc t _ => thrOk t
  | .cref t _ => thrOk t
  | .cfree t _ => thrOk t
  | .cellOpComplete t => thrOk t
  | .get t _ => thrOk t
  | .enqInstruction t _ => thrOk t
  | .enqNb t _ => thrOk t
  | .enqd t _ => thrOk t
  | .enqdNb t _ => thrOk t
  | .emit t _ => thrOk t
  | .emitk t _ => thrOk t
  | .drop t _ => thrOk t
  | .aend t _ => thrOk t
  | .dly t _ => thrOk t
  | .wfrm t _ => thrOk t
  | .fla t _ => thrOk t
  | .flt t _ => thrOk t
  | .flr t _ => thrOk t
  | .fsa t _ => thrOk t
  | .fst t _ => thrOk t
  | .fsr t _ => thrOk t
  | .fwr t _ => thrOk t
  | .fwc t _ => thrOk t
  | .chsend t _ => thrOk t
  | .chsendNb t _ => thrOk t
  | .chrecv t _ => thrOk t
  | .chrecvNb t _ => thrOk t
  | .chsendUnblock t => thrOk t
  | .chrecvUnblock t => thrOk t
  | .stw t _ => thrOk t
  | .stgm t _ => thrOk t
  | .stgr t _ => thrOk t
  | .chwatch t _ => thrOk t
  | .wait t _ => thrOk t
  | .waitt t _ => thrOk t
  | .tarm t _ => thrOk t
  | .tdis t _ => thrOk t
  | .sev t _ => thrOk t
  | .rdnt t _ => thrOk t
  | .timerCompareFire t _ => thrOk t
  | .dma t _ => thrOk t
  | .dmaComplete t _ _ => thrOk t
  | .mtc t _ => thrOk t
  | .mfc t _ => thrOk t
  | .lcq t _ => thrOk t
  | .scq t _ => thrOk t
  | .cpwait t _ => thrOk t
  | .cpxCommit _ _ _ => true
  | .cpxLock t _ => thrOk t
  | .cpxUnlock t _ => thrOk t
  | .cpxClr t _ => thrOk t
  | .lstat t _ => thrOk t
  | .cpxMov t _ => thrOk t
  | .cpxXor t _ => thrOk t
  | .gcmInit t _ => thrOk t
  | .gcmAad t _ => thrOk t
  | .gcmAadp t _ => thrOk t
  | .gcmEnc t _ => thrOk t
  | .gcmEncp t _ => thrOk t
  | .gcmDec t _ => thrOk t
  | .gcmDecp t _ => thrOk t
  | .gcmTag t _ => thrOk t
  | .gcmVerify t _ => thrOk t
  | .cmacInit t _ => thrOk t
  | .cmacBlk t _ => thrOk t
  | .cmacLast t _ => thrOk t
  | .keyld t _ => thrOk t
  | .keyclr t _ => thrOk t
  | .sha256Init t _ => thrOk t
  | .sha384Init t _ => thrOk t
  | .shaUpd t _ => thrOk t
  | .shaUpdp t _ => thrOk t
  | .sha256Final t _ => thrOk t
  | .sha384Final t _ => thrOk t
  | .crc32cInit t _ => thrOk t
  | .crc64Init t _ => thrOk t
  | .crcUpd t _ => thrOk t
  | .crcUpdp t _ => thrOk t
  | .crcFinal t _ => thrOk t
  | .crcSeed t _ => thrOk t
  | .feat t _ => thrOk t
  | .cnt t _ => thrOk t
  | .rdtid t _ => thrOk t
  | .trap t _ => thrOk t
  | .brk t _ => thrOk t
  | .icacheMissFill t => thrOk t
  | .icInv _ => true
  | .icInvDone _ => true
  | .clusterStart _ => true
  | .budgetExpire t _ => thrOk t
  | .faultqPop _ => true
  | .thrctlResume _ _ => true
  | .thrctlSkip _ _ => true
  | .thrctlRedirect _ _ _ => true
  | .thrctlDrop _ _ => true
  | .thrctlReset _ _ => true
  | .thrctlStart _ _ _ => true
  | .thrctlSignal _ _ _ => true
  | .supervisorChange _ _ => true
  | .channelDisable _ _ => true
  | .deadlockDetect _ _ _ => true
  | .frequencyStep _ => true
  | .clusterPark _ => true
  | .clusterUnpark _ => true
  | .laneFree _ _ _ => true
  | .laneClrErr _ _ _ => true
  | .keySlotCommit _ _ _ _ => true
  | .cpxDisable _ _ => true
  | .flintForceRelease _ => true
  | .fltLockTry c => ctlOk c
  | .fltLockRel c => ctlOk c
  | .fltSemTry c => ctlOk c
  | .fltSemRel c => ctlOk c
  | .fltQuery c => ctlOk c
  | .egressStart _ _ _ => true
  | .pauseExpire _ _ _ => true
  | .periodStart _ _ => true
  | .slotBoundary _ _ => true
  | .prerollStart _ _ => true
  | .swReq _ => true
  | .calendarEnable _ => true
  | .calendarDisable _ => true
  | .calendarStop _ _ => true
  | .dramRequest _ _ wr _ _ => burstOk wr
  | .dramReadComplete _ _ => true
  | .dramWriteDrain _ _ => true
  | .dramRefresh _ => true
  | .mr4Poll _ _ => true
  | .dramScrubRead => true
  | .modeRegisterWrite ch _ _ _ _ => chanOk ch
  | .modeRegisterRead ch _ _ _ _ => chanOk ch
  | .rcdWrite ch _ _ _ _ => chanOk ch
  | .rcdRead ch _ _ _ _ => chanOk ch
  | .mrwComplete _ => true
  | .csTraining ch _ _ _ _ => chanOk ch
  | .caTraining ch _ _ _ _ => chanOk ch
  | .writeLevelling ch _ _ _ _ => chanOk ch
  | .readStrobeGating ch _ _ _ _ => chanOk ch
  | .readDataEye ch _ _ _ _ => chanOk ch
  | .writeDataEye ch _ _ _ _ => chanOk ch
  | .dqReferenceVoltage ch _ _ _ _ => chanOk ch
  | .caReferenceVoltage ch _ _ _ _ => chanOk ch
  | .trainingStepDone res => lanesOk res
  | .initGo => true
  | .initDone => true
  | .drcEnable => true
  | .drcDisable => true
  | .drcEccRead _ => true
  | .drcEccAddrRead _ => true
  | .icuRouteChoice _ => true
  | .icuDeliveryComplete _ => true
  | .icuClaim _ _ => true
  | .icuPendSet _ _ => true
  | .icuPendClr _ _ => true
  | .icuMaskSet _ _ => true
  | .icuMaskClr _ _ => true
  | .swSet _ _ => true
  | .mgtSleep => true
  | .mgtWake _ => true
  | .nocBeatResend _ _ => true
  | .nocStuck _ => true
  | .onchipScrubRead => true
  | .einjArm target _ _ _ _ => einjOk target
  | .powerOn _ _ => true
  | .brownOut => true
  | .resetNAssert => true
  | .resetNRelease => true
  | .perstAssert _ => true
  | .perstRelease _ => true
  | .softwareResetRequest _ _ => true
  | .softwareResetRelease _ _ => true
  | .resetPulseEnd _ => true
  | .domainRelease _ => true
  | .blockReset _ => true
  | .blockResetDone _ => true
  | .wdtKick _ => true
  | .wdtWarn _ => true
  | .wdtExpire _ => true
  | .clockFailure _ => true
  | .clockRecovery _ => true
  | .thermalSample ts _ => tempsOk ts
  | .throttleStepDown _ _ => true
  | .throttleStepUp _ _ => true
  | .spiLoadComplete _ => true
  | .spiFlashTimeout => true
  | .hostGo => true
  | .imageVerifyComplete => true
  | .romWdtKick => true
  | .mgtFaultDone _ => true
  | .mgtThrctlStart _ _ => true
  | .mgtThrctlReset _ => true
  | .mgtThrctlSignal _ _ => true
  | .mgtMemwinAccess _ _ _ => true
  | .tapExtest _ _ => true
  | .tapSamplePreload _ _ => true
  | .tapBypass => true
  | .dbgacc _ => true
  | .dbgClaim _ => true
  | .dbgRelease _ => true
  | .chalGo _ => true
  | .verifyGo _ => true
  | .tokenVerifyDone => true
  | .challengeLockoutEnd _ => true
  | .relock _ => true
  | .dbgHalt _ _ _ => true
  | .dbgResume _ _ _ => true
  | .dbgStep _ _ _ => true
  | .discardStage _ _ _ => true
  | .dbgThreadReset _ _ _ => true
  | .debugResetRequest _ _ _ => true
  | .spiTransfer _ => true
  | .spiTransferDone _ => true
  | .i2c1Transfer _ => true
  | .i2c1TransferDone _ _ => true
  | .i2c0Transaction _ _ => true
  | .registerPortLoadComplete _ => true
  | .channelMessageArrival _ _ _ => true
  | .msixEnableChange _ _ _ => true
  | .tapReset => true

end Sys2Proof
end

