-- ==== Sys2Proof/Laws/PerInstr.lean ====
section
/-!
SUPPORT. Per row: a row that is an instruction of a well-formed command names a thread that exists, and its word has one of the major
opcodes that the instruction set defines (R260, R304).
-/

open Sys2Proof Sys2Proof.Machine

namespace Sys2Proof.Laws

/-- What is said of every row. -/
def Unit.Statement (i : Instr) : Prop :=
  ∀ (t : BitVec 14) (w : W32), isaWord i = some (t, w) → (wellFormed i = true → thrOk t = true) ∧ w.toNat / 2 ^ 26 ≤ 0x29

theorem unit_of_word {i : Instr} {t : BitVec 14} {v : W32} (e : isaWord i = some (t, v)) (ht : wellFormed i = true → thrOk t = true)
    (hv : v.toNat / 2 ^ 26 ≤ 0x29) : Unit.Statement i := by
  intro u w h
  rw [e] at h
  cases h
  exact ⟨ht, hv⟩

theorem unit_of_none {i : Instr} (e : isaWord i = none) : Unit.Statement i := by
  intro u w h
  rw [e] at h
  cases h

theorem op_le {op r : Nat} (h : op ≤ 0x29) (hr : r < 2 ^ 26) : (BitVec.ofNat 32 (op * 2 ^ 26 + r)).toNat / 2 ^ 26 ≤ 0x29 := by
  rw [BitVec.toNat_ofNat]
  omega

theorem b2n_le (b : Bool) : b2n b ≤ 1 := by cases b <;> decide

theorem wordR_op (op fn : Nat) (f : FmtR) (hn : fn < 64) (h : op ≤ 0x29) : (wordR op fn f).toNat / 2 ^ 26 ≤ 0x29 := by
  have := (f.rd).isLt
  have := (f.ra).isLt
  have := (f.rb).isLt
  have := (f.sh).isLt
  unfold wordR
  simp only [Nat.add_assoc]
  exact op_le h (by omega)

theorem wordI_op (op : Nat) (f : FmtI) (h : op ≤ 0x29) : (wordI op f).toNat / 2 ^ 26 ≤ 0x29 := by
  have := (f.rd).isLt
  have := (f.ra).isLt
  have := (f.imm).isLt
  unfold wordI
  simp only [Nat.add_assoc]
  exact op_le h (by omega)

theorem wordU_op (op fn : Nat) (f : FmtU) (hn : fn < 64) (h : op ≤ 0x29) : (wordU op fn f).toNat / 2 ^ 26 ≤ 0x29 := by
  have := (f.rd).isLt
  have := (f.ra).isLt
  have := (f.rb).isLt
  have := (f.rc).isLt
  unfold wordU
  simp only [Nat.add_assoc]
  exact op_le h (by omega)

theorem wordUI_op (op fn : Nat) (f : FmtUI) (hn : fn < 64) (h : op ≤ 0x29) : (wordUI op fn f).toNat / 2 ^ 26 ≤ 0x29 := by
  have := (f.rd).isLt
  have := (f.ra).isLt
  have := (f.imm).isLt
  unfold wordUI
  simp only [Nat.add_assoc]
  exact op_le h (by omega)

theorem wordBR_op (op c : Nat) (f : FmtBR) (hn : c < 8) (h : op ≤ 0x29) : (wordBR op c f).toNat / 2 ^ 26 ≤ 0x29 := by
  have := (f.ra).isLt
  have := (f.rb).isLt
  have := (f.off).isLt
  unfold wordBR
  simp only [Nat.add_assoc]
  exact op_le h (by omega)

theorem wordBB_op (op : Nat) (b : Bool) (f : FmtBB) (h : op ≤ 0x29) : (wordBB op b f).toNat / 2 ^ 26 ≤ 0x29 := by
  have := (f.bit).isLt
  have := (f.off).isLt
  have := b2n_le b
  unfold wordBB
  simp only [Nat.add_assoc]
  exact op_le h (by omega)

theorem wordJ_op (op : Nat) (f : FmtJ) (h : op ≤ 0x29) : (wordJ op f).toNat / 2 ^ 26 ≤ 0x29 := by
  have := (f.off).isLt
  unfold wordJ
  exact op_le h (by omega)

theorem wordBT_op (op fn : Nat) (f : FmtBT) (hn : fn < 16) (h : op ≤ 0x29) : (wordBT op fn f).toNat / 2 ^ 26 ≤ 0x29 := by
  have := (f.r).isLt
  have := (f.zero).isLt
  have := (f.bit).isLt
  have := b2n_le f.idx
  unfold wordBT
  simp only [Nat.add_assoc]
  exact op_le h (by omega)

theorem wordMD_op (op : Nat) (f : FmtMD) (h : op ≤ 0x29) : (wordMD op f).toNat / 2 ^ 26 ≤ 0x29 := by
  have := (f.px).isLt
  have := (f.py).isLt
  have := (f.ty).isLt
  have := (f.sx).isLt
  have := (f.sy).isLt
  have := b2n_le f.acc
  have := b2n_le f.sat
  unfold wordMD
  simp only [Nat.add_assoc]
  exact op_le h (by omega)

theorem wordX1_op (op c : Nat) (f : FmtX1) (hn : c < 128) (h : op ≤ 0x29) : (wordX1 op c f).toNat / 2 ^ 26 ≤ 0x29 := by
  have := (f.lane).isLt
  have := (f.cd).isLt
  have := (f.ca).isLt
  have := (f.cb).isLt
  have := b2n_le f.unit
  unfold wordX1
  simp only [Nat.add_assoc]
  exact op_le h (by omega)

theorem wordX2_op (op : Nat) (d : Bool) (f : FmtX2) (h : op ≤ 0x29) : (wordX2 op d f).toNat / 2 ^ 26 ≤ 0x29 := by
  have := (f.lane).isLt
  have := (f.c).isLt
  have := (f.g).isLt
  have := (f.w).isLt
  have := (f.zero).isLt
  have := b2n_le f.unit
  have := b2n_le d
  unfold wordX2
  simp only [Nat.add_assoc]
  exact op_le h (by omega)

theorem wordX3_op (op : Nat) (d : Bool) (f : FmtX3) (h : op ≤ 0x29) : (wordX3 op d f).toNat / 2 ^ 26 ≤ 0x29 := by
  have := (f.lane).isLt
  have := (f.c).isLt
  have := (f.g).isLt
  have := (f.mid).isLt
  have := (f.zero).isLt
  have := b2n_le f.unit
  have := b2n_le d
  unfold wordX3
  simp only [Nat.add_assoc]
  exact op_le h (by omega)

theorem wordX4_op (op : Nat) (f : FmtX4) (h : op ≤ 0x29) : (wordX4 op f).toNat / 2 ^ 26 ≤ 0x29 := by
  have := (f.lane).isLt
  have := (f.mid).isLt
  have := (f.zero).isLt
  have := b2n_le f.unit
  unfold wordX4
  simp only [Nat.add_assoc]
  exact op_le h (by omega)

theorem Unit.registerWrite (x : RegAcc) : Unit.Statement (.registerWrite x) := unit_of_none rfl
theorem Unit.resourceDrainComplete (r : Resource) : Unit.Statement (.resourceDrainComplete r) := unit_of_none rfl
theorem Unit.timIncrWrite (v : W32) : Unit.Statement (.timIncrWrite v) := unit_of_none rfl
theorem Unit.timNtLowRead : Unit.Statement (.timNtLowRead) := unit_of_none rfl
theorem Unit.adjSet : Unit.Statement (.adjSet) := unit_of_none rfl
theorem Unit.adjStep : Unit.Statement (.adjStep) := unit_of_none rfl
theorem Unit.adjSlew : Unit.Statement (.adjSlew) := unit_of_none rfl
theorem Unit.adjAbort : Unit.Statement (.adjAbort) := unit_of_none rfl
theorem Unit.setStepApply : Unit.Statement (.setStepApply) := unit_of_none rfl
theorem Unit.slewComplete : Unit.Statement (.slewComplete) := unit_of_none rfl
theorem Unit.holdReq : Unit.Statement (.holdReq) := unit_of_none rfl
theorem Unit.holdExit : Unit.Statement (.holdExit) := unit_of_none rfl
theorem Unit.holdTimeoutIncr (edges : Nat) : Unit.Statement (.holdTimeoutIncr edges) := unit_of_none rfl
theorem Unit.holdTimeoutPps (edges : Nat) : Unit.Statement (.holdTimeoutPps edges) := unit_of_none rfl
theorem Unit.ppsInEdge (highNs : Nat) : Unit.Statement (.ppsInEdge highNs) := unit_of_none rfl
theorem Unit.calSyncInEdge (highNs : Nat) : Unit.Statement (.calSyncInEdge highNs) := unit_of_none rfl
theorem Unit.ppsOutPulse (edges : Nat) : Unit.Statement (.ppsOutPulse edges) := unit_of_none rfl
theorem Unit.ppsOutPulseEnd (edges : Nat) : Unit.Statement (.ppsOutPulseEnd edges) := unit_of_none rfl
theorem Unit.timeCompareFire (k : Fin 4) (edges : Nat) : Unit.Statement (.timeCompareFire k edges) := unit_of_none rfl
theorem Unit.timeComparePulseEnd (k : Fin 4) (edges : Nat) : Unit.Statement (.timeComparePulseEnd k edges) := unit_of_none rfl
theorem Unit.txtsMetaRead (p : Fin 16) : Unit.Statement (.txtsMetaRead p) := unit_of_none rfl
theorem Unit.epochArm : Unit.Statement (.epochArm) := unit_of_none rfl
theorem Unit.epochDisarm : Unit.Statement (.epochDisarm) := unit_of_none rfl
theorem Unit.epochAtWrite (v : W64) : Unit.Statement (.epochAtWrite v) := unit_of_none rfl
theorem Unit.epochFlip (edges : Nat) : Unit.Statement (.epochFlip edges) := unit_of_none rfl
theorem Unit.cntDump (c : Ctl) : Unit.Statement (.cntDump c) := unit_of_none rfl
theorem Unit.cntDumpComplete (k : Fin 64) (index : BitVec 17) : Unit.Statement (.cntDumpComplete k index) := unit_of_none rfl
theorem Unit.rxFrame (p : Fin 16) (frame : List Byte) (corr syms bad : Nat) : Unit.Statement (.rxFrame p frame corr syms bad) := unit_of_none rfl
theorem Unit.pauseRefresh (p : Fin 16) (edges : Nat) : Unit.Statement (.pauseRefresh p edges) := unit_of_none rfl
theorem Unit.frameTxComplete (p : Fin 16) (edges : Nat) : Unit.Statement (.frameTxComplete p edges) := unit_of_none rfl
theorem Unit.phyEnSet (p : Fin 16) : Unit.Statement (.phyEnSet p) := unit_of_none rfl
theorem Unit.phyEnClear (p : Fin 16) (part : Option Nat) : Unit.Statement (.phyEnClear p part) := unit_of_none rfl
theorem Unit.portEnSet (p : Fin 16) : Unit.Statement (.portEnSet p) := unit_of_none rfl
theorem Unit.portEnClear (p : Fin 16) (part : Option Nat) : Unit.Statement (.portEnClear p part) := unit_of_none rfl
theorem Unit.signalDetect (p : Fin 16) : Unit.Statement (.signalDetect p) := unit_of_none rfl
theorem Unit.trainComplete (p : Fin 16) (taps : List (BitVec 6 × BitVec 6 × BitVec 6 × BitVec 6)) : Unit.Statement (.trainComplete p taps) := unit_of_none rfl
theorem Unit.trainTimeout (p : Fin 16) (edges : Nat) : Unit.Statement (.trainTimeout p edges) := unit_of_none rfl
theorem Unit.alignDone (p : Fin 16) : Unit.Statement (.alignDone p) := unit_of_none rfl
theorem Unit.signalLoss (p : Fin 16) (part : Option Nat) : Unit.Statement (.signalLoss p part) := unit_of_none rfl
theorem Unit.linkFault (p : Fin 16) (remote : Bool) (part : Option Nat) : Unit.Statement (.linkFault p remote part) := unit_of_none rfl
theorem Unit.linkFaultClear (p : Fin 16) : Unit.Statement (.linkFaultClear p) := unit_of_none rfl
theorem Unit.quadModeWrite (q : Fin 4) (m : BitVec 3) : Unit.Statement (.quadModeWrite q m) := unit_of_none rfl
theorem Unit.eyeMeasureGo (l : Fin 16) : Unit.Statement (.eyeMeasureGo l) := unit_of_none rfl
theorem Unit.eyeMeasureDone (l : Fin 16) (upper middle lower : Byte) : Unit.Statement (.eyeMeasureDone l upper middle lower) := unit_of_none rfl
theorem Unit.prbsEnable (l : Fin 16) (gen chk : Bool) : Unit.Statement (.prbsEnable l gen chk) := unit_of_none rfl
theorem Unit.prbsCheckerLock (l : Fin 16) (errors : Nat) : Unit.Statement (.prbsCheckerLock l errors) := unit_of_none rfl
theorem Unit.doorbellTx (f : BitVec 9) (ring : BitVec 13) (index : BitVec 17) (formed : Bool) : Unit.Statement (.doorbellTx f ring index formed) := unit_of_none rfl
theorem Unit.doorbellRx (f : BitVec 9) (ring : BitVec 13) (index : BitVec 17) (formed : Bool) : Unit.Statement (.doorbellRx f ring index formed) := unit_of_none rfl
theorem Unit.doorbellCq (f : BitVec 9) (ring : BitVec 13) (index : BitVec 17) (arm formed : Bool) : Unit.Statement (.doorbellCq f ring index arm formed) := unit_of_none rfl
theorem Unit.doorbellControl (f : BitVec 9) (ring : BitVec 13) (index : BitVec 17) (formed : Bool) : Unit.Statement (.doorbellControl f ring index formed) := unit_of_none rfl
theorem Unit.doorbellEventLog (f : BitVec 9) (ring : BitVec 13) (index : BitVec 17) (arm formed : Bool) : Unit.Statement (.doorbellEventLog f ring index arm formed) := unit_of_none rfl
theorem Unit.ringEnable (k : Fin 5) (i : BitVec 12) : Unit.Statement (.ringEnable k i) := unit_of_none rfl
theorem Unit.ringDisable (k : Fin 5) (i : BitVec 12) : Unit.Statement (.ringDisable k i) := unit_of_none rfl
theorem Unit.txPacketFetch (i : BitVec 12) (x : TxRead) : Unit.Statement (.txPacketFetch i x) := unit_of_none rfl
theorem Unit.txPacketComplete (i : BitVec 12) : Unit.Statement (.txPacketComplete i) := unit_of_none rfl
theorem Unit.dmaReadError (k : Fin 3) (i : BitVec 12) (x : RxCut) : Unit.Statement (.dmaReadError k i x) := unit_of_none rfl
theorem Unit.rxPacketDeliver (e : BitVec 14) (descs : List RxDesc) : Unit.Statement (.rxPacketDeliver e descs) := unit_of_none rfl
theorem Unit.cqModerationTimeout (c : BitVec 10) (edges : Nat) : Unit.Statement (.cqModerationTimeout c edges) := unit_of_none rfl
theorem Unit.msixPendingSend (f : BitVec 9) (v : BitVec 11) : Unit.Statement (.msixPendingSend f v) := unit_of_none rfl
theorem Unit.nop (c : Ctl) (op : W16) : Unit.Statement (.nop c op) := unit_of_none rfl
theorem Unit.pf0ReadyWrite (h : Fin 2) (v fromMgt : Bool) : Unit.Statement (.pf0ReadyWrite h v fromMgt) := unit_of_none rfl
theorem Unit.functionLevelReset (f : BitVec 9) : Unit.Statement (.functionLevelReset f) := unit_of_none rfl
theorem Unit.flrComplete (f : BitVec 9) : Unit.Statement (.flrComplete f) := unit_of_none rfl
theorem Unit.vfDisable (h : Fin 2) : Unit.Statement (.vfDisable h) := unit_of_none rfl
theorem Unit.vfEnable (h : Fin 2) (n : Byte) : Unit.Statement (.vfEnable h n) := unit_of_none rfl
theorem Unit.busMasterEnableChange (f : BitVec 9) (v : Bool) : Unit.Statement (.busMasterEnableChange f v) := unit_of_none rfl
theorem Unit.d3hotChange (f : BitVec 9) (v : Bool) : Unit.Statement (.d3hotChange f v) := unit_of_none rfl
theorem Unit.pcieLinkUp (h : Fin 2) (speed : BitVec 3) (width : BitVec 5) (flit : Bool) : Unit.Statement (.pcieLinkUp h speed width flit) := unit_of_none rfl
theorem Unit.pcieLinkDown (h : Fin 2) : Unit.Statement (.pcieLinkDown h) := unit_of_none rfl
theorem Unit.cellAlloc (c : Ctl) : Unit.Statement (.cellAlloc c) := unit_of_none rfl
theorem Unit.chainFree (c : Ctl) : Unit.Statement (.chainFree c) := unit_of_none rfl
theorem Unit.cellRead (c : Ctl) : Unit.Statement (.cellRead c) := unit_of_none rfl
theorem Unit.poolEnable (k : Fin 64) : Unit.Statement (.poolEnable k) := unit_of_none rfl
theorem Unit.poolDisable (k : Fin 64) : Unit.Statement (.poolDisable k) := unit_of_none rfl
theorem Unit.chainSweep (n : Fin 32) : Unit.Statement (.chainSweep n) := unit_of_none rfl
theorem Unit.crnReqPeakRead (r : BitVec 9) : Unit.Statement (.crnReqPeakRead r) := unit_of_none rfl
theorem Unit.parsePacket : Unit.Statement (.parsePacket) := unit_of_none rfl
theorem Unit.parserEnable : Unit.Statement (.parserEnable) := unit_of_none rfl
theorem Unit.parserDisable : Unit.Statement (.parserDisable) := unit_of_none rfl
theorem Unit.graphReq : Unit.Statement (.graphReq) := unit_of_none rfl
theorem Unit.clsReq : Unit.Statement (.clsReq) := unit_of_none rfl
theorem Unit.graphSwitch : Unit.Statement (.graphSwitch) := unit_of_none rfl
theorem Unit.classifierSwitch : Unit.Statement (.classifierSwitch) := unit_of_none rfl
theorem Unit.lookupComplete (j : Nat) : Unit.Statement (.lookupComplete j) := unit_of_none rfl
theorem Unit.tableEnable (t : Fin 64) : Unit.Statement (.tableEnable t) := unit_of_none rfl
theorem Unit.tableInitComplete (t : Fin 64) : Unit.Statement (.tableInitComplete t) := unit_of_none rfl
theorem Unit.tableDisable (t : Fin 64) : Unit.Statement (.tableDisable t) := unit_of_none rfl
theorem Unit.fcFlush : Unit.Statement (.fcFlush) := unit_of_none rfl
theorem Unit.fcFlushDone : Unit.Statement (.fcFlushDone) := unit_of_none rfl
theorem Unit.fcInvalidateTableDone (t : Fin 64) : Unit.Statement (.fcInvalidateTableDone t) := unit_of_none rfl
theorem Unit.learnRequest : Unit.Statement (.learnRequest) := unit_of_none rfl
theorem Unit.moveWindowClose (t : Fin 64) (key : List Byte) (edges : Nat) : Unit.Statement (.moveWindowClose t key edges) := unit_of_none rfl
theorem Unit.ageingPassStart (t : Fin 64) (edges : Nat) : Unit.Statement (.ageingPassStart t edges) := unit_of_none rfl
theorem Unit.ageingVisit (x : Fin 64 × Nat) : Unit.Statement (.ageingVisit x) := unit_of_none rfl
theorem Unit.tblInsert (c : Ctl) (img : List Byte) : Unit.Statement (.tblInsert c img) := unit_of_none rfl
theorem Unit.tblUpdate (c : Ctl) (img : List Byte) : Unit.Statement (.tblUpdate c img) := unit_of_none rfl
theorem Unit.tblDelete (c : Ctl) (img : List Byte) : Unit.Statement (.tblDelete c img) := unit_of_none rfl
theorem Unit.tblSearch (c : Ctl) (img : List Byte) : Unit.Statement (.tblSearch c img) := unit_of_none rfl
theorem Unit.tblNext (c : Ctl) : Unit.Statement (.tblNext c) := unit_of_none rfl
theorem Unit.tblFlush (c : Ctl) : Unit.Statement (.tblFlush c) := unit_of_none rfl
theorem Unit.flushVisit (t : Fin 64) : Unit.Statement (.flushVisit t) := unit_of_none rfl
theorem Unit.tblFlushComplete (t : Fin 64) : Unit.Statement (.tblFlushComplete t) := unit_of_none rfl
theorem Unit.tblCursorClose (c : Ctl) : Unit.Statement (.tblCursorClose c) := unit_of_none rfl
theorem Unit.tblLocClear (c : Ctl) : Unit.Statement (.tblLocClear c) := unit_of_none rfl
theorem Unit.cursorTimeout (t : Fin 64) (edges : Nat) : Unit.Statement (.cursorTimeout t edges) := unit_of_none rfl
theorem Unit.dispatch (g : Fin 64) (edges : Nat) : Unit.Statement (.dispatch g edges) := unit_of_none rfl
theorem Unit.spillRefill : Unit.Statement (.spillRefill) := unit_of_none rfl
theorem Unit.tagSkip (d : BitVec 14) (edges : Nat) : Unit.Statement (.tagSkip d edges) := unit_of_none rfl
theorem Unit.queueDisable (q : BitVec 12) : Unit.Statement (.queueDisable q) := unit_of_none rfl
theorem Unit.purge (q : BitVec 12) : Unit.Statement (.purge q) := unit_of_none rfl
theorem Unit.purgeComplete (q : BitVec 12) : Unit.Statement (.purgeComplete q) := unit_of_none rfl
theorem Unit.groupMembershipWrite (g : Fin 64) (v : W32) : Unit.Statement (.groupMembershipWrite g v) := unit_of_none rfl
theorem Unit.orreryDisable : Unit.Statement (.orreryDisable) := unit_of_none rfl
theorem Unit.delayTick (l : Fin 16) (edges : Nat) : Unit.Statement (.delayTick l edges) := unit_of_none rfl
theorem Unit.delayListDisable (l : Fin 16) : Unit.Statement (.delayListDisable l) := unit_of_none rfl
theorem Unit.delayAreaDisable : Unit.Statement (.delayAreaDisable) := unit_of_none rfl
theorem Unit.enq (c : Ctl) (it : BitVec 512) : Unit.Statement (.enq c it) := unit_of_none rfl
theorem Unit.dlyInsert (c : Ctl) (it : BitVec 512) : Unit.Statement (.dlyInsert c it) := unit_of_none rfl
theorem Unit.enqUnblock (t : BitVec 14) : Unit.Statement (.enqUnblock t) := unit_of_none rfl
theorem Unit.gateRecordWaitEnd (t : BitVec 14) : Unit.Statement (.gateRecordWaitEnd t) := unit_of_none rfl
theorem Unit.add (t : BitVec 14) (f : FmtR) : Unit.Statement (.add t f) :=
  unit_of_word (v := wordR 0x00 0 f) rfl id (wordR_op 0x00 0 f (by decide) (by decide))
theorem Unit.sub (t : BitVec 14) (f : FmtR) : Unit.Statement (.sub t f) :=
  unit_of_word (v := wordR 0x00 1 f) rfl id (wordR_op 0x00 1 f (by decide) (by decide))
theorem Unit.and (t : BitVec 14) (f : FmtR) : Unit.Statement (.and t f) :=
  unit_of_word (v := wordR 0x00 2 f) rfl id (wordR_op 0x00 2 f (by decide) (by decide))
theorem Unit.or (t : BitVec 14) (f : FmtR) : Unit.Statement (.or t f) :=
  unit_of_word (v := wordR 0x00 3 f) rfl id (wordR_op 0x00 3 f (by decide) (by decide))
theorem Unit.xor (t : BitVec 14) (f : FmtR) : Unit.Statement (.xor t f) :=
  unit_of_word (v := wordR 0x00 4 f) rfl id (wordR_op 0x00 4 f (by decide) (by decide))
theorem Unit.shl (t : BitVec 14) (f : FmtR) : Unit.Statement (.shl t f) :=
  unit_of_word (v := wordR 0x00 5 f) rfl id (wordR_op 0x00 5 f (by decide) (by decide))
theorem Unit.shr (t : BitVec 14) (f : FmtR) : Unit.Statement (.shr t f) :=
  unit_of_word (v := wordR 0x00 6 f) rfl id (wordR_op 0x00 6 f (by decide) (by decide))
theorem Unit.sar (t : BitVec 14) (f : FmtR) : Unit.Statement (.sar t f) :=
  unit_of_word (v := wordR 0x00 7 f) rfl id (wordR_op 0x00 7 f (by decide) (by decide))
theorem Unit.rol (t : BitVec 14) (f : FmtR) : Unit.Statement (.rol t f) :=
  unit_of_word (v := wordR 0x00 8 f) rfl id (wordR_op 0x00 8 f (by decide) (by decide))
theorem Unit.ror (t : BitVec 14) (f : FmtR) : Unit.Statement (.ror t f) :=
  unit_of_word (v := wordR 0x00 9 f) rfl id (wordR_op 0x00 9 f (by decide) (by decide))
theorem Unit.mul (t : BitVec 14) (f : FmtR) : Unit.Statement (.mul t f) :=
  unit_of_word (v := wordR 0x00 10 f) rfl id (wordR_op 0x00 10 f (by decide) (by decide))
theorem Unit.mulhu (t : BitVec 14) (f : FmtR) : Unit.Statement (.mulhu t f) :=
  unit_of_word (v := wordR 0x00 11 f) rfl id (wordR_op 0x00 11 f (by decide) (by decide))
theorem Unit.mulhs (t : BitVec 14) (f : FmtR) : Unit.Statement (.mulhs t f) :=
  unit_of_word (v := wordR 0x00 12 f) rfl id (wordR_op 0x00 12 f (by decide) (by decide))
theorem Unit.min (t : BitVec 14) (f : FmtR) : Unit.Statement (.min t f) :=
  unit_of_word (v := wordR 0x00 13 f) rfl id (wordR_op 0x00 13 f (by decide) (by decide))
theorem Unit.max (t : BitVec 14) (f : FmtR) : Unit.Statement (.max t f) :=
  unit_of_word (v := wordR 0x00 14 f) rfl id (wordR_op 0x00 14 f (by decide) (by decide))
theorem Unit.minu (t : BitVec 14) (f : FmtR) : Unit.Statement (.minu t f) :=
  unit_of_word (v := wordR 0x00 15 f) rfl id (wordR_op 0x00 15 f (by decide) (by decide))
theorem Unit.maxu (t : BitVec 14) (f : FmtR) : Unit.Statement (.maxu t f) :=
  unit_of_word (v := wordR 0x00 16 f) rfl id (wordR_op 0x00 16 f (by decide) (by decide))
theorem Unit.slt (t : BitVec 14) (f : FmtR) : Unit.Statement (.slt t f) :=
  unit_of_word (v := wordR 0x00 18 f) rfl id (wordR_op 0x00 18 f (by decide) (by decide))
theorem Unit.sltu (t : BitVec 14) (f : FmtR) : Unit.Statement (.sltu t f) :=
  unit_of_word (v := wordR 0x00 19 f) rfl id (wordR_op 0x00 19 f (by decide) (by decide))
theorem Unit.clz (t : BitVec 14) (f : FmtR) : Unit.Statement (.clz t f) :=
  unit_of_word (v := wordR 0x00 20 f) rfl id (wordR_op 0x00 20 f (by decide) (by decide))
theorem Unit.popc (t : BitVec 14) (f : FmtR) : Unit.Statement (.popc t f) :=
  unit_of_word (v := wordR 0x00 21 f) rfl id (wordR_op 0x00 21 f (by decide) (by decide))
theorem Unit.bswap (t : BitVec 14) (f : FmtR) : Unit.Statement (.bswap t f) :=
  unit_of_word (v := wordR 0x00 22 f) rfl id (wordR_op 0x00 22 f (by decide) (by decide))
theorem Unit.csum (t : BitVec 14) (f : FmtR) : Unit.Statement (.csum t f) :=
  unit_of_word (v := wordR 0x00 23 f) rfl id (wordR_op 0x00 23 f (by decide) (by decide))
theorem Unit.csumf (t : BitVec 14) (f : FmtR) : Unit.Statement (.csumf t f) :=
  unit_of_word (v := wordR 0x00 24 f) rfl id (wordR_op 0x00 24 f (by decide) (by decide))
theorem Unit.ext (t : BitVec 14) (f : FmtR) : Unit.Statement (.ext t f) :=
  unit_of_word (v := wordR 0x00 25 f) rfl id (wordR_op 0x00 25 f (by decide) (by decide))
theorem Unit.ins (t : BitVec 14) (f : FmtR) : Unit.Statement (.ins t f) :=
  unit_of_word (v := wordR 0x00 26 f) rfl id (wordR_op 0x00 26 f (by decide) (by decide))
theorem Unit.addc (t : BitVec 14) (f : FmtR) : Unit.Statement (.addc t f) :=
  unit_of_word (v := wordR 0x00 27 f) rfl id (wordR_op 0x00 27 f (by decide) (by decide))
theorem Unit.subb (t : BitVec 14) (f : FmtR) : Unit.Statement (.subb t f) :=
  unit_of_word (v := wordR 0x00 28 f) rfl id (wordR_op 0x00 28 f (by decide) (by decide))
theorem Unit.sel (t : BitVec 14) (f : FmtR) : Unit.Statement (.sel t f) :=
  unit_of_word (v := wordR 0x00 29 f) rfl id (wordR_op 0x00 29 f (by decide) (by decide))
theorem Unit.addi (t : BitVec 14) (f : FmtI) : Unit.Statement (.addi t f) :=
  unit_of_word (v := wordI 0x01 f) rfl id (wordI_op 0x01 f (by decide))
theorem Unit.andi (t : BitVec 14) (f : FmtI) : Unit.Statement (.andi t f) :=
  unit_of_word (v := wordI 0x02 f) rfl id (wordI_op 0x02 f (by decide))
theorem Unit.ori (t : BitVec 14) (f : FmtI) : Unit.Statement (.ori t f) :=
  unit_of_word (v := wordI 0x03 f) rfl id (wordI_op 0x03 f (by decide))
theorem Unit.xori (t : BitVec 14) (f : FmtI) : Unit.Statement (.xori t f) :=
  unit_of_word (v := wordI 0x04 f) rfl id (wordI_op 0x04 f (by decide))
theorem Unit.lui (t : BitVec 14) (f : FmtI) : Unit.Statement (.lui t f) :=
  unit_of_word (v := wordI 0x05 f) rfl id (wordI_op 0x05 f (by decide))
theorem Unit.shi (t : BitVec 14) (f : FmtI) : Unit.Statement (.shi t f) :=
  unit_of_word (v := wordI 0x06 f) rfl id (wordI_op 0x06 f (by decide))
theorem Unit.cmpi (t : BitVec 14) (f : FmtI) : Unit.Statement (.cmpi t f) :=
  unit_of_word (v := wordI 0x07 f) rfl id (wordI_op 0x07 f (by decide))
theorem Unit.ldB (t : BitVec 14) (f : FmtI) : Unit.Statement (.ldB t f) :=
  unit_of_word (v := wordI 0x08 f) rfl id (wordI_op 0x08 f (by decide))
theorem Unit.ldBs (t : BitVec 14) (f : FmtI) : Unit.Statement (.ldBs t f) :=
  unit_of_word (v := wordI 0x09 f) rfl id (wordI_op 0x09 f (by decide))
theorem Unit.ldH (t : BitVec 14) (f : FmtI) : Unit.Statement (.ldH t f) :=
  unit_of_word (v := wordI 0x0A f) rfl id (wordI_op 0x0A f (by decide))
theorem Unit.ldHs (t : BitVec 14) (f : FmtI) : Unit.Statement (.ldHs t f) :=
  unit_of_word (v := wordI 0x0B f) rfl id (wordI_op 0x0B f (by decide))
theorem Unit.ldW (t : BitVec 14) (f : FmtI) : Unit.Statement (.ldW t f) :=
  unit_of_word (v := wordI 0x0C f) rfl id (wordI_op 0x0C f (by decide))
theorem Unit.ldnH (t : BitVec 14) (f : FmtI) : Unit.Statement (.ldnH t f) :=
  unit_of_word (v := wordI 0x0D f) rfl id (wordI_op 0x0D f (by decide))
theorem Unit.ldnW (t : BitVec 14) (f : FmtI) : Unit.Statement (.ldnW t f) :=
  unit_of_word (v := wordI 0x0E f) rfl id (wordI_op 0x0E f (by decide))
theorem Unit.lda (t : BitVec 14) (f : FmtI) : Unit.Statement (.lda t f) :=
  unit_of_word (v := wordI 0x0F f) rfl id (wordI_op 0x0F f (by decide))
theorem Unit.stB (t : BitVec 14) (f : FmtI) : Unit.Statement (.stB t f) :=
  unit_of_word (v := wordI 0x10 f) rfl id (wordI_op 0x10 f (by decide))
theorem Unit.stH (t : BitVec 14) (f : FmtI) : Unit.Statement (.stH t f) :=
  unit_of_word (v := wordI 0x11 f) rfl id (wordI_op 0x11 f (by decide))
theorem Unit.stW (t : BitVec 14) (f : FmtI) : Unit.Statement (.stW t f) :=
  unit_of_word (v := wordI 0x12 f) rfl id (wordI_op 0x12 f (by decide))
theorem Unit.stnH (t : BitVec 14) (f : FmtI) : Unit.Statement (.stnH t f) :=
  unit_of_word (v := wordI 0x13 f) rfl id (wordI_op 0x13 f (by decide))
theorem Unit.stnW (t : BitVec 14) (f : FmtI) : Unit.Statement (.stnW t f) :=
  unit_of_word (v := wordI 0x14 f) rfl id (wordI_op 0x14 f (by decide))
theorem Unit.sta (t : BitVec 14) (f : FmtI) : Unit.Statement (.sta t f) :=
  unit_of_word (v := wordI 0x15 f) rfl id (wordI_op 0x15 f (by decide))
theorem Unit.csld (t : BitVec 14) (f : FmtI) : Unit.Statement (.csld t f) :=
  unit_of_word (v := wordI 0x16 f) rfl id (wordI_op 0x16 f (by decide))
theorem Unit.beq (t : BitVec 14) (f : FmtBR) : Unit.Statement (.beq t f) :=
  unit_of_word (v := wordBR 0x18 0 f) rfl id (wordBR_op 0x18 0 f (by decide) (by decide))
theorem Unit.bne (t : BitVec 14) (f : FmtBR) : Unit.Statement (.bne t f) :=
  unit_of_word (v := wordBR 0x18 1 f) rfl id (wordBR_op 0x18 1 f (by decide) (by decide))
theorem Unit.blt (t : BitVec 14) (f : FmtBR) : Unit.Statement (.blt t f) :=
  unit_of_word (v := wordBR 0x18 2 f) rfl id (wordBR_op 0x18 2 f (by decide) (by decide))
theorem Unit.bge (t : BitVec 14) (f : FmtBR) : Unit.Statement (.bge t f) :=
  unit_of_word (v := wordBR 0x18 3 f) rfl id (wordBR_op 0x18 3 f (by decide) (by decide))
theorem Unit.bltu (t : BitVec 14) (f : FmtBR) : Unit.Statement (.bltu t f) :=
  unit_of_word (v := wordBR 0x18 4 f) rfl id (wordBR_op 0x18 4 f (by decide) (by decide))
theorem Unit.bgeu (t : BitVec 14) (f : FmtBR) : Unit.Statement (.bgeu t f) :=
  unit_of_word (v := wordBR 0x18 5 f) rfl id (wordBR_op 0x18 5 f (by decide) (by decide))
theorem Unit.bbS (t : BitVec 14) (f : FmtBB) : Unit.Statement (.bbS t f) :=
  unit_of_word (v := wordBB 0x19 true f) rfl id (wordBB_op 0x19 true f (by decide))
theorem Unit.bbC (t : BitVec 14) (f : FmtBB) : Unit.Statement (.bbC t f) :=
  unit_of_word (v := wordBB 0x19 false f) rfl id (wordBB_op 0x19 false f (by decide))
theorem Unit.jmp (t : BitVec 14) (f : FmtJ) : Unit.Statement (.jmp t f) :=
  unit_of_word (v := wordJ 0x1A f) rfl id (wordJ_op 0x1A f (by decide))
theorem Unit.call (t : BitVec 14) (f : FmtJ) : Unit.Statement (.call t f) :=
  unit_of_word (v := wordJ 0x1B f) rfl id (wordJ_op 0x1B f (by decide))
theorem Unit.jr (t : BitVec 14) (f : FmtR) : Unit.Statement (.jr t f) :=
  unit_of_word (v := wordR 0x1C 0 f) rfl id (wordR_op 0x1C 0 f (by decide) (by decide))
theorem Unit.jalr (t : BitVec 14) (f : FmtR) : Unit.Statement (.jalr t f) :=
  unit_of_word (v := wordR 0x1C 1 f) rfl id (wordR_op 0x1C 1 f (by decide) (by decide))
theorem Unit.bset (t : BitVec 14) (f : FmtBT) : Unit.Statement (.bset t f) :=
  unit_of_word (v := wordBT 0x1D 0 f) rfl id (wordBT_op 0x1D 0 f (by decide) (by decide))
theorem Unit.bclr (t : BitVec 14) (f : FmtBT) : Unit.Statement (.bclr t f) :=
  unit_of_word (v := wordBT 0x1D 1 f) rfl id (wordBT_op 0x1D 1 f (by decide) (by decide))
theorem Unit.bnot (t : BitVec 14) (f : FmtBT) : Unit.Statement (.bnot t f) :=
  unit_of_word (v := wordBT 0x1D 2 f) rfl id (wordBT_op 0x1D 2 f (by decide) (by decide))
theorem Unit.btst (t : BitVec 14) (f : FmtBT) : Unit.Statement (.btst t f) :=
  unit_of_word (v := wordBT 0x1D 3 f) rfl id (wordBT_op 0x1D 3 f (by decide) (by decide))
theorem Unit.btas (t : BitVec 14) (f : FmtBT) : Unit.Statement (.btas t f) :=
  unit_of_word (v := wordBT 0x1D 4 f) rfl id (wordBT_op 0x1D 4 f (by decide) (by decide))
theorem Unit.btac (t : BitVec 14) (f : FmtBT) : Unit.Statement (.btac t f) :=
  unit_of_word (v := wordBT 0x1D 5 f) rfl id (wordBT_op 0x1D 5 f (by decide) (by decide))
theorem Unit.bput (t : BitVec 14) (f : FmtBT) : Unit.Statement (.bput t f) :=
  unit_of_word (v := wordBT 0x1D 6 f) rfl id (wordBT_op 0x1D 6 f (by decide) (by decide))
theorem Unit.bget (t : BitVec 14) (f : FmtBT) : Unit.Statement (.bget t f) :=
  unit_of_word (v := wordBT 0x1D 7 f) rfl id (wordBT_op 0x1D 7 f (by decide) (by decide))
theorem Unit.macd (t : BitVec 14) (f : FmtMD) : Unit.Statement (.macd t f) :=
  unit_of_word (v := wordMD 0x1E f) rfl id (wordMD_op 0x1E f (by decide))
theorem Unit.mac (t : BitVec 14) (f : FmtR) : Unit.Statement (.mac t f) :=
  unit_of_word (v := wordR 0x1F 0 f) rfl id (wordR_op 0x1F 0 f (by decide) (by decide))
theorem Unit.macu (t : BitVec 14) (f : FmtR) : Unit.Statement (.macu t f) :=
  unit_of_word (v := wordR 0x1F 1 f) rfl id (wordR_op 0x1F 1 f (by decide) (by decide))
theorem Unit.mfa (t : BitVec 14) (f : FmtR) : Unit.Statement (.mfa t f) :=
  unit_of_word (v := wordR 0x1F 2 f) rfl id (wordR_op 0x1F 2 f (by decide) (by decide))
theorem Unit.mta (t : BitVec 14) (f : FmtR) : Unit.Statement (.mta t f) :=
  unit_of_word (v := wordR 0x1F 3 f) rfl id (wordR_op 0x1F 3 f (by decide) (by decide))
theorem Unit.clra (t : BitVec 14) (f : FmtR) : Unit.Statement (.clra t f) :=
  unit_of_word (v := wordR 0x1F 4 f) rfl id (wordR_op 0x1F 4 f (by decide) (by decide))
theorem Unit.crcb (t : BitVec 14) (f : FmtR) : Unit.Statement (.crcb t f) :=
  unit_of_word (v := wordR 0x29 0 f) rfl id (wordR_op 0x29 0 f (by decide) (by decide))
theorem Unit.crch (t : BitVec 14) (f : FmtR) : Unit.Statement (.crch t f) :=
  unit_of_word (v := wordR 0x29 1 f) rfl id (wordR_op 0x29 1 f (by decide) (by decide))
theorem Unit.crcw (t : BitVec 14) (f : FmtR) : Unit.Statement (.crcw t f) :=
  unit_of_word (v := wordR 0x29 2 f) rfl id (wordR_op 0x29 2 f (by decide) (by decide))
theorem Unit.lkp (t : BitVec 14) (f : FmtU) : Unit.Statement (.lkp t f) :=
  unit_of_word (v := wordU 0x20 0 f) rfl id (wordU_op 0x20 0 f (by decide) (by decide))
theorem Unit.lkpw (t : BitVec 14) (f : FmtU) : Unit.Statement (.lkpw t f) :=
  unit_of_word (v := wordU 0x20 1 f) rfl id (wordU_op 0x20 1 f (by decide) (by decide))
theorem Unit.lkw (t : BitVec 14) (f : FmtUI) : Unit.Statement (.lkw t f) :=
  unit_of_word (v := wordUI 0x20 2 f) rfl id (wordUI_op 0x20 2 f (by decide) (by decide))
theorem Unit.cld (t : BitVec 14) (f : FmtU) : Unit.Statement (.cld t f) :=
  unit_of_word (v := wordU 0x21 0 f) rfl id (wordU_op 0x21 0 f (by decide) (by decide))
theorem Unit.cst (t : BitVec 14) (f : FmtU) : Unit.Statement (.cst t f) :=
  unit_of_word (v := wordU 0x21 1 f) rfl id (wordU_op 0x21 1 f (by decide) (by decide))
theorem Unit.calloc (t : BitVec 14) (f : FmtU) : Unit.Statement (.calloc t f) :=
  unit_of_word (v := wordU 0x21 2 f) rfl id (wordU_op 0x21 2 f (by decide) (by decide))
theorem Unit.cref (t : BitVec 14) (f : FmtU) : Unit.Statement (.cref t f) :=
  unit_of_word (v := wordU 0x21 3 f) rfl id (wordU_op 0x21 3 f (by decide) (by decide))
theorem Unit.cfree (t : BitVec 14) (f : FmtU) : Unit.Statement (.cfree t f) :=
  unit_of_word (v := wordU 0x21 4 f) rfl id (wordU_op 0x21 4 f (by decide) (by decide))
theorem Unit.cellOpComplete (t : BitVec 14) : Unit.Statement (.cellOpComplete t) := unit_of_none rfl
theorem Unit.get (t : BitVec 14) (f : FmtUI) : Unit.Statement (.get t f) :=
  unit_of_word (v := wordUI 0x22 0 f) rfl id (wordUI_op 0x22 0 f (by decide) (by decide))
theorem Unit.enqInstruction (t : BitVec 14) (f : FmtU) : Unit.Statement (.enqInstruction t f) :=
  unit_of_word (v := wordU 0x22 1 f) rfl id (wordU_op 0x22 1 f (by decide) (by decide))
theorem Unit.enqNb (t : BitVec 14) (f : FmtU) : Unit.Statement (.enqNb t f) :=
  unit_of_word (v := wordU 0x22 2 f) rfl id (wordU_op 0x22 2 f (by decide) (by decide))
theorem Unit.enqd (t : BitVec 14) (f : FmtU) : Unit.Statement (.enqd t f) :=
  unit_of_word (v := wordU 0x22 3 f) rfl id (wordU_op 0x22 3 f (by decide) (by decide))
theorem Unit.enqdNb (t : BitVec 14) (f : FmtU) : Unit.Statement (.enqdNb t f) :=
  unit_of_word (v := wordU 0x22 4 f) rfl id (wordU_op 0x22 4 f (by decide) (by decide))
theorem Unit.emit (t : BitVec 14) (f : FmtU) : Unit.Statement (.emit t f) :=
  unit_of_word (v := wordU 0x22 5 f) rfl id (wordU_op 0x22 5 f (by decide) (by decide))
theorem Unit.emitk (t : BitVec 14) (f : FmtU) : Unit.Statement (.emitk t f) :=
  unit_of_word (v := wordU 0x22 6 f) rfl id (wordU_op 0x22 6 f (by decide) (by decide))
theorem Unit.drop (t : BitVec 14) (f : FmtU) : Unit.Statement (.drop t f) :=
  unit_of_word (v := wordU 0x22 7 f) rfl id (wordU_op 0x22 7 f (by decide) (by decide))
theorem Unit.aend (t : BitVec 14) (f : FmtU) : Unit.Statement (.aend t f) :=
  unit_of_word (v := wordU 0x22 8 f) rfl id (wordU_op 0x22 8 f (by decide) (by decide))
theorem Unit.dly (t : BitVec 14) (f : FmtU) : Unit.Statement (.dly t f) :=
  unit_of_word (v := wordU 0x22 9 f) rfl id (wordU_op 0x22 9 f (by decide) (by decide))
theorem Unit.wfrm (t : BitVec 14) (f : FmtU) : Unit.Statement (.wfrm t f) :=
  unit_of_word (v := wordU 0x22 10 f) rfl id (wordU_op 0x22 10 f (by decide) (by decide))
theorem Unit.fla (t : BitVec 14) (f : FmtU) : Unit.Statement (.fla t f) :=
  unit_of_word (v := wordU 0x23 0 f) rfl id (wordU_op 0x23 0 f (by decide) (by decide))
theorem Unit.flt (t : BitVec 14) (f : FmtU) : Unit.Statement (.flt t f) :=
  unit_of_word (v := wordU 0x23 1 f) rfl id (wordU_op 0x23 1 f (by decide) (by decide))
theorem Unit.flr (t : BitVec 14) (f : FmtU) : Unit.Statement (.flr t f) :=
  unit_of_word (v := wordU 0x23 2 f) rfl id (wordU_op 0x23 2 f (by decide) (by decide))
theorem Unit.fsa (t : BitVec 14) (f : FmtU) : Unit.Statement (.fsa t f) :=
  unit_of_word (v := wordU 0x23 3 f) rfl id (wordU_op 0x23 3 f (by decide) (by decide))
theorem Unit.fst (t : BitVec 14) (f : FmtU) : Unit.Statement (.fst t f) :=
  unit_of_word (v := wordU 0x23 4 f) rfl id (wordU_op 0x23 4 f (by decide) (by decide))
theorem Unit.fsr (t : BitVec 14) (f : FmtU) : Unit.Statement (.fsr t f) :=
  unit_of_word (v := wordU 0x23 5 f) rfl id (wordU_op 0x23 5 f (by decide) (by decide))
theorem Unit.fwr (t : BitVec 14) (f : FmtU) : Unit.Statement (.fwr t f) :=
  unit_of_word (v := wordU 0x23 6 f) rfl id (wordU_op 0x23 6 f (by decide) (by decide))
theorem Unit.fwc (t : BitVec 14) (f : FmtU) : Unit.Statement (.fwc t f) :=
  unit_of_word (v := wordU 0x23 7 f) rfl id (wordU_op 0x23 7 f (by decide) (by decide))
theorem Unit.chsend (t : BitVec 14) (f : FmtU) : Unit.Statement (.chsend t f) :=
  unit_of_word (v := wordU 0x24 0 f) rfl id (wordU_op 0x24 0 f (by decide) (by decide))
theorem Unit.chsendNb (t : BitVec 14) (f : FmtU) : Unit.Statement (.chsendNb t f) :=
  unit_of_word (v := wordU 0x24 1 f) rfl id (wordU_op 0x24 1 f (by decide) (by decide))
theorem Unit.chrecv (t : BitVec 14) (f : FmtU) : Unit.Statement (.chrecv t f) :=
  unit_of_word (v := wordU 0x24 2 f) rfl id (wordU_op 0x24 2 f (by decide) (by decide))
theorem Unit.chrecvNb (t : BitVec 14) (f : FmtU) : Unit.Statement (.chrecvNb t f) :=
  unit_of_word (v := wordU 0x24 3 f) rfl id (wordU_op 0x24 3 f (by decide) (by decide))
theorem Unit.chsendUnblock (t : BitVec 14) : Unit.Statement (.chsendUnblock t) := unit_of_none rfl
theorem Unit.chrecvUnblock (t : BitVec 14) : Unit.Statement (.chrecvUnblock t) := unit_of_none rfl
theorem Unit.stw (t : BitVec 14) (f : FmtUI) : Unit.Statement (.stw t f) :=
  unit_of_word (v := wordUI 0x24 4 f) rfl id (wordUI_op 0x24 4 f (by decide) (by decide))
theorem Unit.stgm (t : BitVec 14) (f : FmtUI) : Unit.Statement (.stgm t f) :=
  unit_of_word (v := wordUI 0x24 5 f) rfl id (wordUI_op 0x24 5 f (by decide) (by decide))
theorem Unit.stgr (t : BitVec 14) (f : FmtUI) : Unit.Statement (.stgr t f) :=
  unit_of_word (v := wordUI 0x24 6 f) rfl id (wordUI_op 0x24 6 f (by decide) (by decide))
theorem Unit.chwatch (t : BitVec 14) (f : FmtU) : Unit.Statement (.chwatch t f) :=
  unit_of_word (v := wordU 0x24 7 f) rfl id (wordU_op 0x24 7 f (by decide) (by decide))
theorem Unit.wait (t : BitVec 14) (f : FmtU) : Unit.Statement (.wait t f) :=
  unit_of_word (v := wordU 0x25 0 f) rfl id (wordU_op 0x25 0 f (by decide) (by decide))
theorem Unit.waitt (t : BitVec 14) (f : FmtU) : Unit.Statement (.waitt t f) :=
  unit_of_word (v := wordU 0x25 1 f) rfl id (wordU_op 0x25 1 f (by decide) (by decide))
theorem Unit.tarm (t : BitVec 14) (f : FmtU) : Unit.Statement (.tarm t f) :=
  unit_of_word (v := wordU 0x25 2 f) rfl id (wordU_op 0x25 2 f (by decide) (by decide))
theorem Unit.tdis (t : BitVec 14) (f : FmtU) : Unit.Statement (.tdis t f) :=
  unit_of_word (v := wordU 0x25 3 f) rfl id (wordU_op 0x25 3 f (by decide) (by decide))
theorem Unit.sev (t : BitVec 14) (f : FmtU) : Unit.Statement (.sev t f) :=
  unit_of_word (v := wordU 0x25 4 f) rfl id (wordU_op 0x25 4 f (by decide) (by decide))
theorem Unit.rdnt (t : BitVec 14) (f : FmtU) : Unit.Statement (.rdnt t f) :=
  unit_of_word (v := wordU 0x25 5 f) rfl id (wordU_op 0x25 5 f (by decide) (by decide))
theorem Unit.timerCompareFire (t : BitVec 14) (edges : Nat) : Unit.Statement (.timerCompareFire t edges) := unit_of_none rfl
theorem Unit.dma (t : BitVec 14) (f : FmtU) : Unit.Statement (.dma t f) :=
  unit_of_word (v := wordU 0x26 0 f) rfl id (wordU_op 0x26 0 f (by decide) (by decide))
theorem Unit.dmaComplete (t : BitVec 14) (data : List Byte) (err : Bool) : Unit.Statement (.dmaComplete t data err) := unit_of_none rfl
theorem Unit.mtc (t : BitVec 14) (f : FmtX2) : Unit.Statement (.mtc t f) :=
  unit_of_word (v := wordX2 0x27 false f) rfl id (wordX2_op 0x27 false f (by decide))
theorem Unit.mfc (t : BitVec 14) (f : FmtX2) : Unit.Statement (.mfc t f) :=
  unit_of_word (v := wordX2 0x27 true f) rfl id (wordX2_op 0x27 true f (by decide))
theorem Unit.lcq (t : BitVec 14) (f : FmtX3) : Unit.Statement (.lcq t f) :=
  unit_of_word (v := wordX3 0x27 false f) rfl id (wordX3_op 0x27 false f (by decide))
theorem Unit.scq (t : BitVec 14) (f : FmtX3) : Unit.Statement (.scq t f) :=
  unit_of_word (v := wordX3 0x27 true f) rfl id (wordX3_op 0x27 true f (by decide))
theorem Unit.cpwait (t : BitVec 14) (f : FmtX4) : Unit.Statement (.cpwait t f) :=
  unit_of_word (v := wordX4 0x27 f) rfl id (wordX4_op 0x27 f (by decide))
theorem Unit.cpxCommit (n : Fin 32) (u : Fin 2) (l : Fin 16) : Unit.Statement (.cpxCommit n u l) := unit_of_none rfl
theorem Unit.cpxLock (t : BitVec 14) (f : FmtX1) : Unit.Statement (.cpxLock t f) :=
  unit_of_word (v := wordX1 0x27 0x00 f) rfl id (wordX1_op 0x27 0x00 f (by decide) (by decide))
theorem Unit.cpxUnlock (t : BitVec 14) (f : FmtX1) : Unit.Statement (.cpxUnlock t f) :=
  unit_of_word (v := wordX1 0x27 0x01 f) rfl id (wordX1_op 0x27 0x01 f (by decide) (by decide))
theorem Unit.cpxClr (t : BitVec 14) (f : FmtX1) : Unit.Statement (.cpxClr t f) :=
  unit_of_word (v := wordX1 0x27 0x02 f) rfl id (wordX1_op 0x27 0x02 f (by decide) (by decide))
theorem Unit.lstat (t : BitVec 14) (f : FmtX1) : Unit.Statement (.lstat t f) :=
  unit_of_word (v := wordX1 0x27 0x03 f) rfl id (wordX1_op 0x27 0x03 f (by decide) (by decide))
theorem Unit.cpxMov (t : BitVec 14) (f : FmtX1) : Unit.Statement (.cpxMov t f) :=
  unit_of_word (v := wordX1 0x27 0x04 f) rfl id (wordX1_op 0x27 0x04 f (by decide) (by decide))
theorem Unit.cpxXor (t : BitVec 14) (f : FmtX1) : Unit.Statement (.cpxXor t f) :=
  unit_of_word (v := wordX1 0x27 0x05 f) rfl id (wordX1_op 0x27 0x05 f (by decide) (by decide))
theorem Unit.gcmInit (t : BitVec 14) (f : FmtX1) : Unit.Statement (.gcmInit t f) :=
  unit_of_word (v := wordX1 0x27 0x10 f) rfl id (wordX1_op 0x27 0x10 f (by decide) (by decide))
theorem Unit.gcmAad (t : BitVec 14) (f : FmtX1) : Unit.Statement (.gcmAad t f) :=
  unit_of_word (v := wordX1 0x27 0x11 f) rfl id (wordX1_op 0x27 0x11 f (by decide) (by decide))
theorem Unit.gcmAadp (t : BitVec 14) (f : FmtX1) : Unit.Statement (.gcmAadp t f) :=
  unit_of_word (v := wordX1 0x27 0x12 f) rfl id (wordX1_op 0x27 0x12 f (by decide) (by decide))
theorem Unit.gcmEnc (t : BitVec 14) (f : FmtX1) : Unit.Statement (.gcmEnc t f) :=
  unit_of_word (v := wordX1 0x27 0x13 f) rfl id (wordX1_op 0x27 0x13 f (by decide) (by decide))
theorem Unit.gcmEncp (t : BitVec 14) (f : FmtX1) : Unit.Statement (.gcmEncp t f) :=
  unit_of_word (v := wordX1 0x27 0x14 f) rfl id (wordX1_op 0x27 0x14 f (by decide) (by decide))
theorem Unit.gcmDec (t : BitVec 14) (f : FmtX1) : Unit.Statement (.gcmDec t f) :=
  unit_of_word (v := wordX1 0x27 0x15 f) rfl id (wordX1_op 0x27 0x15 f (by decide) (by decide))
theorem Unit.gcmDecp (t : BitVec 14) (f : FmtX1) : Unit.Statement (.gcmDecp t f) :=
  unit_of_word (v := wordX1 0x27 0x16 f) rfl id (wordX1_op 0x27 0x16 f (by decide) (by decide))
theorem Unit.gcmTag (t : BitVec 14) (f : FmtX1) : Unit.Statement (.gcmTag t f) :=
  unit_of_word (v := wordX1 0x27 0x17 f) rfl id (wordX1_op 0x27 0x17 f (by decide) (by decide))
theorem Unit.gcmVerify (t : BitVec 14) (f : FmtX1) : Unit.Statement (.gcmVerify t f) :=
  unit_of_word (v := wordX1 0x27 0x18 f) rfl id (wordX1_op 0x27 0x18 f (by decide) (by decide))
theorem Unit.cmacInit (t : BitVec 14) (f : FmtX1) : Unit.Statement (.cmacInit t f) :=
  unit_of_word (v := wordX1 0x27 0x20 f) rfl id (wordX1_op 0x27 0x20 f (by decide) (by decide))
theorem Unit.cmacBlk (t : BitVec 14) (f : FmtX1) : Unit.Statement (.cmacBlk t f) :=
  unit_of_word (v := wordX1 0x27 0x21 f) rfl id (wordX1_op 0x27 0x21 f (by decide) (by decide))
theorem Unit.cmacLast (t : BitVec 14) (f : FmtX1) : Unit.Statement (.cmacLast t f) :=
  unit_of_word (v := wordX1 0x27 0x22 f) rfl id (wordX1_op 0x27 0x22 f (by decide) (by decide))
theorem Unit.keyld (t : BitVec 14) (f : FmtX1) : Unit.Statement (.keyld t f) :=
  unit_of_word (v := wordX1 0x27 0x30 f) rfl id (wordX1_op 0x27 0x30 f (by decide) (by decide))
theorem Unit.keyclr (t : BitVec 14) (f : FmtX1) : Unit.Statement (.keyclr t f) :=
  unit_of_word (v := wordX1 0x27 0x31 f) rfl id (wordX1_op 0x27 0x31 f (by decide) (by decide))
theorem Unit.sha256Init (t : BitVec 14) (f : FmtX1) : Unit.Statement (.sha256Init t f) :=
  unit_of_word (v := wordX1 0x27 0x40 f) rfl id (wordX1_op 0x27 0x40 f (by decide) (by decide))
theorem Unit.sha384Init (t : BitVec 14) (f : FmtX1) : Unit.Statement (.sha384Init t f) :=
  unit_of_word (v := wordX1 0x27 0x41 f) rfl id (wordX1_op 0x27 0x41 f (by decide) (by decide))
theorem Unit.shaUpd (t : BitVec 14) (f : FmtX1) : Unit.Statement (.shaUpd t f) :=
  unit_of_word (v := wordX1 0x27 0x42 f) rfl id (wordX1_op 0x27 0x42 f (by decide) (by decide))
theorem Unit.shaUpdp (t : BitVec 14) (f : FmtX1) : Unit.Statement (.shaUpdp t f) :=
  unit_of_word (v := wordX1 0x27 0x43 f) rfl id (wordX1_op 0x27 0x43 f (by decide) (by decide))
theorem Unit.sha256Final (t : BitVec 14) (f : FmtX1) : Unit.Statement (.sha256Final t f) :=
  unit_of_word (v := wordX1 0x27 0x44 f) rfl id (wordX1_op 0x27 0x44 f (by decide) (by decide))
theorem Unit.sha384Final (t : BitVec 14) (f : FmtX1) : Unit.Statement (.sha384Final t f) :=
  unit_of_word (v := wordX1 0x27 0x45 f) rfl id (wordX1_op 0x27 0x45 f (by decide) (by decide))
theorem Unit.crc32cInit (t : BitVec 14) (f : FmtX1) : Unit.Statement (.crc32cInit t f) :=
  unit_of_word (v := wordX1 0x27 0x50 f) rfl id (wordX1_op 0x27 0x50 f (by decide) (by decide))
theorem Unit.crc64Init (t : BitVec 14) (f : FmtX1) : Unit.Statement (.crc64Init t f) :=
  unit_of_word (v := wordX1 0x27 0x51 f) rfl id (wordX1_op 0x27 0x51 f (by decide) (by decide))
theorem Unit.crcUpd (t : BitVec 14) (f : FmtX1) : Unit.Statement (.crcUpd t f) :=
  unit_of_word (v := wordX1 0x27 0x52 f) rfl id (wordX1_op 0x27 0x52 f (by decide) (by decide))
theorem Unit.crcUpdp (t : BitVec 14) (f : FmtX1) : Unit.Statement (.crcUpdp t f) :=
  unit_of_word (v := wordX1 0x27 0x53 f) rfl id (wordX1_op 0x27 0x53 f (by decide) (by decide))
theorem Unit.crcFinal (t : BitVec 14) (f : FmtX1) : Unit.Statement (.crcFinal t f) :=
  unit_of_word (v := wordX1 0x27 0x54 f) rfl id (wordX1_op 0x27 0x54 f (by decide) (by decide))
theorem Unit.crcSeed (t : BitVec 14) (f : FmtX1) : Unit.Statement (.crcSeed t f) :=
  unit_of_word (v := wordX1 0x27 0x55 f) rfl id (wordX1_op 0x27 0x55 f (by decide) (by decide))
theorem Unit.feat (t : BitVec 14) (f : FmtUI) : Unit.Statement (.feat t f) :=
  unit_of_word (v := wordUI 0x28 0 f) rfl id (wordUI_op 0x28 0 f (by decide) (by decide))
theorem Unit.cnt (t : BitVec 14) (f : FmtU) : Unit.Statement (.cnt t f) :=
  unit_of_word (v := wordU 0x28 1 f) rfl id (wordU_op 0x28 1 f (by decide) (by decide))
theorem Unit.rdtid (t : BitVec 14) (f : FmtU) : Unit.Statement (.rdtid t f) :=
  unit_of_word (v := wordU 0x28 2 f) rfl id (wordU_op 0x28 2 f (by decide) (by decide))
theorem Unit.trap (t : BitVec 14) (f : FmtUI) : Unit.Statement (.trap t f) :=
  unit_of_word (v := wordUI 0x28 3 f) rfl id (wordUI_op 0x28 3 f (by decide) (by decide))
theorem Unit.brk (t : BitVec 14) (f : FmtU) : Unit.Statement (.brk t f) :=
  unit_of_word (v := wordU 0x28 4 f) rfl id (wordU_op 0x28 4 f (by decide) (by decide))
theorem Unit.icacheMissFill (t : BitVec 14) : Unit.Statement (.icacheMissFill t) := unit_of_none rfl
theorem Unit.icInv (n : Fin 32) : Unit.Statement (.icInv n) := unit_of_none rfl
theorem Unit.icInvDone (n : Fin 32) : Unit.Statement (.icInvDone n) := unit_of_none rfl
theorem Unit.clusterStart (n : Fin 32) : Unit.Statement (.clusterStart n) := unit_of_none rfl
theorem Unit.budgetExpire (t : BitVec 14) (edges : Nat) : Unit.Statement (.budgetExpire t edges) := unit_of_none rfl
theorem Unit.faultqPop (n : Fin 32) : Unit.Statement (.faultqPop n) := unit_of_none rfl
theorem Unit.thrctlResume (n : Fin 32) (i : Byte) : Unit.Statement (.thrctlResume n i) := unit_of_none rfl
theorem Unit.thrctlSkip (n : Fin 32) (i : Byte) : Unit.Statement (.thrctlSkip n i) := unit_of_none rfl
theorem Unit.thrctlRedirect (n : Fin 32) (i : Byte) (pc : W32) : Unit.Statement (.thrctlRedirect n i pc) := unit_of_none rfl
theorem Unit.thrctlDrop (n : Fin 32) (i : Byte) : Unit.Statement (.thrctlDrop n i) := unit_of_none rfl
theorem Unit.thrctlReset (n : Fin 32) (i : Byte) : Unit.Statement (.thrctlReset n i) := unit_of_none rfl
theorem Unit.thrctlStart (n : Fin 32) (i : Byte) (pc : W32) : Unit.Statement (.thrctlStart n i pc) := unit_of_none rfl
theorem Unit.thrctlSignal (n : Fin 32) (i sev : Byte) : Unit.Statement (.thrctlSignal n i sev) := unit_of_none rfl
theorem Unit.supervisorChange (n : Fin 32) (i : Byte) : Unit.Statement (.supervisorChange n i) := unit_of_none rfl
theorem Unit.channelDisable (n : Fin 32) (c : Fin 64) : Unit.Statement (.channelDisable n c) := unit_of_none rfl
theorem Unit.deadlockDetect (n : Fin 32) (w : Fin 8) (edges : Nat) : Unit.Statement (.deadlockDetect n w edges) := unit_of_none rfl
theorem Unit.frequencyStep (n : Fin 32) : Unit.Statement (.frequencyStep n) := unit_of_none rfl
theorem Unit.clusterPark (n : Fin 32) : Unit.Statement (.clusterPark n) := unit_of_none rfl
theorem Unit.clusterUnpark (n : Fin 32) : Unit.Statement (.clusterUnpark n) := unit_of_none rfl
theorem Unit.laneFree (n : Fin 32) (u : Fin 2) (l : Fin 16) : Unit.Statement (.laneFree n u l) := unit_of_none rfl
theorem Unit.laneClrErr (n : Fin 32) (u : Fin 2) (l : Fin 16) : Unit.Statement (.laneClrErr n u l) := unit_of_none rfl
theorem Unit.keySlotCommit (n : Fin 32) (k : Fin 512) (valid k256 : Bool) : Unit.Statement (.keySlotCommit n k valid k256) := unit_of_none rfl
theorem Unit.cpxDisable (n : Fin 32) (u : Fin 2) : Unit.Statement (.cpxDisable n u) := unit_of_none rfl
theorem Unit.flintForceRelease (w : W32) : Unit.Statement (.flintForceRelease w) := unit_of_none rfl
theorem Unit.fltLockTry (c : Ctl) : Unit.Statement (.fltLockTry c) := unit_of_none rfl
theorem Unit.fltLockRel (c : Ctl) : Unit.Statement (.fltLockRel c) := unit_of_none rfl
theorem Unit.fltSemTry (c : Ctl) : Unit.Statement (.fltSemTry c) := unit_of_none rfl
theorem Unit.fltSemRel (c : Ctl) : Unit.Statement (.fltSemRel c) := unit_of_none rfl
theorem Unit.fltQuery (c : Ctl) : Unit.Statement (.fltQuery c) := unit_of_none rfl
theorem Unit.egressStart (p : Fin 18) (edges : Nat) (enters : Bool) : Unit.Statement (.egressStart p edges enters) := unit_of_none rfl
theorem Unit.pauseExpire (p : Fin 16) (i : Fin 8) (edges : Nat) : Unit.Statement (.pauseExpire p i edges) := unit_of_none rfl
theorem Unit.periodStart (p : Fin 16) (edges : Nat) : Unit.Statement (.periodStart p edges) := unit_of_none rfl
theorem Unit.slotBoundary (p : Fin 16) (edges : Nat) : Unit.Statement (.slotBoundary p edges) := unit_of_none rfl
theorem Unit.prerollStart (p : Fin 16) (edges : Nat) : Unit.Statement (.prerollStart p edges) := unit_of_none rfl
theorem Unit.swReq (p : Fin 16) : Unit.Statement (.swReq p) := unit_of_none rfl
theorem Unit.calendarEnable (p : Fin 16) : Unit.Statement (.calendarEnable p) := unit_of_none rfl
theorem Unit.calendarDisable (p : Fin 16) : Unit.Statement (.calendarDisable p) := unit_of_none rfl
theorem Unit.calendarStop (p : Fin 16) (edges : Nat) : Unit.Statement (.calendarStop p edges) := unit_of_none rfl
theorem Unit.dramRequest (k : Fin 8) (burst : BitVec 33) (wr : Option (Fin 64 × List Byte)) (line : Fin 16) (edges : Nat) : Unit.Statement (.dramRequest k burst wr line edges) := unit_of_none rfl
theorem Unit.dramReadComplete (c : Fin 6) (x : BurstBack) : Unit.Statement (.dramReadComplete c x) := unit_of_none rfl
theorem Unit.dramWriteDrain (c : Fin 6) (edges : Nat) : Unit.Statement (.dramWriteDrain c edges) := unit_of_none rfl
theorem Unit.dramRefresh (x : Fin 6 × Fin 2) : Unit.Statement (.dramRefresh x) := unit_of_none rfl
theorem Unit.mr4Poll (c : Fin 6) (x : Mr4Read) : Unit.Statement (.mr4Poll c x) := unit_of_none rfl
theorem Unit.dramScrubRead : Unit.Statement .dramScrubRead := unit_of_none rfl
theorem Unit.modeRegisterWrite (ch : BitVec 3) (sub rank : Bool) (addr : BitVec 12) (data : Byte) : Unit.Statement (.modeRegisterWrite ch sub rank addr data) := unit_of_none rfl
theorem Unit.modeRegisterRead (ch : BitVec 3) (sub rank : Bool) (addr : BitVec 12) (data : Byte) : Unit.Statement (.modeRegisterRead ch sub rank addr data) := unit_of_none rfl
theorem Unit.rcdWrite (ch : BitVec 3) (sub rank : Bool) (addr : BitVec 12) (data : Byte) : Unit.Statement (.rcdWrite ch sub rank addr data) := unit_of_none rfl
theorem Unit.rcdRead (ch : BitVec 3) (sub rank : Bool) (addr : BitVec 12) (data : Byte) : Unit.Statement (.rcdRead ch sub rank addr data) := unit_of_none rfl
theorem Unit.mrwComplete (v : Byte) : Unit.Statement (.mrwComplete v) := unit_of_none rfl
theorem Unit.csTraining (ch : BitVec 3) (sub rank : Bool) (lo hi : Byte) : Unit.Statement (.csTraining ch sub rank lo hi) := unit_of_none rfl
theorem Unit.caTraining (ch : BitVec 3) (sub rank : Bool) (lo hi : Byte) : Unit.Statement (.caTraining ch sub rank lo hi) := unit_of_none rfl
theorem Unit.writeLevelling (ch : BitVec 3) (sub rank : Bool) (lo hi : Byte) : Unit.Statement (.writeLevelling ch sub rank lo hi) := unit_of_none rfl
theorem Unit.readStrobeGating (ch : BitVec 3) (sub rank : Bool) (lo hi : Byte) : Unit.Statement (.readStrobeGating ch sub rank lo hi) := unit_of_none rfl
theorem Unit.readDataEye (ch : BitVec 3) (sub rank : Bool) (lo hi : Byte) : Unit.Statement (.readDataEye ch sub rank lo hi) := unit_of_none rfl
theorem Unit.writeDataEye (ch : BitVec 3) (sub rank : Bool) (lo hi : Byte) : Unit.Statement (.writeDataEye ch sub rank lo hi) := unit_of_none rfl
theorem Unit.dqReferenceVoltage (ch : BitVec 3) (sub rank : Bool) (lo hi : Byte) : Unit.Statement (.dqReferenceVoltage ch sub rank lo hi) := unit_of_none rfl
theorem Unit.caReferenceVoltage (ch : BitVec 3) (sub rank : Bool) (lo hi : Byte) : Unit.Statement (.caReferenceVoltage ch sub rank lo hi) := unit_of_none rfl
theorem Unit.trainingStepDone (res : List (Byte × Byte × Bool)) : Unit.Statement (.trainingStepDone res) := unit_of_none rfl
theorem Unit.initGo : Unit.Statement (.initGo) := unit_of_none rfl
theorem Unit.initDone : Unit.Statement (.initDone) := unit_of_none rfl
theorem Unit.drcEnable : Unit.Statement (.drcEnable) := unit_of_none rfl
theorem Unit.drcDisable : Unit.Statement (.drcDisable) := unit_of_none rfl
theorem Unit.drcEccRead (c : Fin 6) : Unit.Statement (.drcEccRead c) := unit_of_none rfl
theorem Unit.drcEccAddrRead (c : Fin 6) : Unit.Statement (.drcEccAddrRead c) := unit_of_none rfl
theorem Unit.icuRouteChoice (i : BitVec 10) : Unit.Statement (.icuRouteChoice i) := unit_of_none rfl
theorem Unit.icuDeliveryComplete (i : BitVec 10) : Unit.Statement (.icuDeliveryComplete i) := unit_of_none rfl
theorem Unit.icuClaim (t : Fin 97) (i : BitVec 10) : Unit.Statement (.icuClaim t i) := unit_of_none rfl
theorem Unit.icuPendSet (j : Fin 32) (w : W32) : Unit.Statement (.icuPendSet j w) := unit_of_none rfl
theorem Unit.icuPendClr (j : Fin 32) (w : W32) : Unit.Statement (.icuPendClr j w) := unit_of_none rfl
theorem Unit.icuMaskSet (j : Fin 32) (w : W32) : Unit.Statement (.icuMaskSet j w) := unit_of_none rfl
theorem Unit.icuMaskClr (j : Fin 32) (w : W32) : Unit.Statement (.icuMaskClr j w) := unit_of_none rfl
theorem Unit.swSet (n : Fin 32) (w : W32) : Unit.Statement (.swSet n w) := unit_of_none rfl
theorem Unit.mgtSleep : Unit.Statement (.mgtSleep) := unit_of_none rfl
theorem Unit.mgtWake (edges : Nat) : Unit.Statement (.mgtWake edges) := unit_of_none rfl
theorem Unit.nocBeatResend (h : Byte) (again : Bool) : Unit.Statement (.nocBeatResend h again) := unit_of_none rfl
theorem Unit.nocStuck (h : Byte) : Unit.Statement (.nocStuck h) := unit_of_none rfl
theorem Unit.onchipScrubRead : Unit.Statement (.onchipScrubRead) := unit_of_none rfl
theorem Unit.einjArm (target : BitVec 4) (bts : BitVec 2) (cluster : Fin 32) (mtch : Bool) (addr : W64) : Unit.Statement (.einjArm target bts cluster mtch addr) := unit_of_none rfl
theorem Unit.powerOn (cold : Bool) (strap : BitVec 2) : Unit.Statement (.powerOn cold strap) := unit_of_none rfl
theorem Unit.brownOut : Unit.Statement (.brownOut) := unit_of_none rfl
theorem Unit.resetNAssert : Unit.Statement (.resetNAssert) := unit_of_none rfl
theorem Unit.resetNRelease : Unit.Statement (.resetNRelease) := unit_of_none rfl
theorem Unit.perstAssert (h : Fin 2) : Unit.Statement (.perstAssert h) := unit_of_none rfl
theorem Unit.perstRelease (h : Fin 2) : Unit.Statement (.perstRelease h) := unit_of_none rfl
theorem Unit.softwareResetRequest (w : BitVec 9) (cl : W32) : Unit.Statement (.softwareResetRequest w cl) := unit_of_none rfl
theorem Unit.softwareResetRelease (w : BitVec 9) (cl : W32) : Unit.Statement (.softwareResetRelease w cl) := unit_of_none rfl
theorem Unit.resetPulseEnd (edges : Nat) : Unit.Statement (.resetPulseEnd edges) := unit_of_none rfl
theorem Unit.domainRelease (edges : Nat) : Unit.Statement (.domainRelease edges) := unit_of_none rfl
theorem Unit.blockReset (b : Fin 8) : Unit.Statement (.blockReset b) := unit_of_none rfl
theorem Unit.blockResetDone (b : Fin 8) : Unit.Statement (.blockResetDone b) := unit_of_none rfl
theorem Unit.wdtKick (key : W16) : Unit.Statement (.wdtKick key) := unit_of_none rfl
theorem Unit.wdtWarn (edges : Nat) : Unit.Statement (.wdtWarn edges) := unit_of_none rfl
theorem Unit.wdtExpire (edges : Nat) : Unit.Statement (.wdtExpire edges) := unit_of_none rfl
theorem Unit.clockFailure (k : Fin 48) : Unit.Statement (.clockFailure k) := unit_of_none rfl
theorem Unit.clockRecovery (k : Fin 48) : Unit.Statement (.clockRecovery k) := unit_of_none rfl
theorem Unit.thermalSample (ts : List (BitVec 12)) (edges : Nat) : Unit.Statement (.thermalSample ts edges) := unit_of_none rfl
theorem Unit.throttleStepDown (n : Fin 32) (edges : Nat) : Unit.Statement (.throttleStepDown n edges) := unit_of_none rfl
theorem Unit.throttleStepUp (n : Fin 32) (edges : Nat) : Unit.Statement (.throttleStepUp n edges) := unit_of_none rfl
theorem Unit.spiLoadComplete (bs : List Byte) : Unit.Statement (.spiLoadComplete bs) := unit_of_none rfl
theorem Unit.spiFlashTimeout : Unit.Statement (.spiFlashTimeout) := unit_of_none rfl
theorem Unit.hostGo : Unit.Statement (.hostGo) := unit_of_none rfl
theorem Unit.imageVerifyComplete : Unit.Statement (.imageVerifyComplete) := unit_of_none rfl
theorem Unit.romWdtKick : Unit.Statement (.romWdtKick) := unit_of_none rfl
theorem Unit.mgtFaultDone (t : Fin 8) : Unit.Statement (.mgtFaultDone t) := unit_of_none rfl
theorem Unit.mgtThrctlStart (i : Fin 8) (pc : W32) : Unit.Statement (.mgtThrctlStart i pc) := unit_of_none rfl
theorem Unit.mgtThrctlReset (i : Fin 8) : Unit.Statement (.mgtThrctlReset i) := unit_of_none rfl
theorem Unit.mgtThrctlSignal (i : Fin 8) (sev : Byte) : Unit.Statement (.mgtThrctlSignal i sev) := unit_of_none rfl
theorem Unit.mgtMemwinAccess (ofs : W16) (wide : Bool) (wr : Option W64) : Unit.Statement (.mgtMemwinAccess ofs wide wr) := unit_of_none rfl
theorem Unit.tapExtest (levels new : BitVec 169) : Unit.Statement (.tapExtest levels new) := unit_of_none rfl
theorem Unit.tapSamplePreload (levels new : BitVec 169) : Unit.Statement (.tapSamplePreload levels new) := unit_of_none rfl
theorem Unit.tapBypass : Unit.Statement (.tapBypass) := unit_of_none rfl
theorem Unit.dbgacc (w : BitVec 96) : Unit.Statement (.dbgacc w) := unit_of_none rfl
theorem Unit.dbgClaim (jtag : Bool) : Unit.Statement (.dbgClaim jtag) := unit_of_none rfl
theorem Unit.dbgRelease (jtag : Bool) : Unit.Statement (.dbgRelease jtag) := unit_of_none rfl
theorem Unit.chalGo (jtag : Bool) : Unit.Statement (.chalGo jtag) := unit_of_none rfl
theorem Unit.verifyGo (jtag : Bool) : Unit.Statement (.verifyGo jtag) := unit_of_none rfl
theorem Unit.tokenVerifyDone : Unit.Statement (.tokenVerifyDone) := unit_of_none rfl
theorem Unit.challengeLockoutEnd (edges : Nat) : Unit.Statement (.challengeLockoutEnd edges) := unit_of_none rfl
theorem Unit.relock (jtag : Bool) : Unit.Statement (.relock jtag) := unit_of_none rfl
theorem Unit.dbgHalt (jtag : Bool) (scope : BitVec 2) (tid : BitVec 14) : Unit.Statement (.dbgHalt jtag scope tid) := unit_of_none rfl
theorem Unit.dbgResume (jtag : Bool) (scope : BitVec 2) (tid : BitVec 14) : Unit.Statement (.dbgResume jtag scope tid) := unit_of_none rfl
theorem Unit.dbgStep (jtag : Bool) (scope : BitVec 2) (tid : BitVec 14) : Unit.Statement (.dbgStep jtag scope tid) := unit_of_none rfl
theorem Unit.discardStage (jtag : Bool) (scope : BitVec 2) (tid : BitVec 14) : Unit.Statement (.discardStage jtag scope tid) := unit_of_none rfl
theorem Unit.dbgThreadReset (jtag : Bool) (scope : BitVec 2) (tid : BitVec 14) : Unit.Statement (.dbgThreadReset jtag scope tid) := unit_of_none rfl
theorem Unit.debugResetRequest (jtag : Bool) (rst cl : W32) : Unit.Statement (.debugResetRequest jtag rst cl) := unit_of_none rfl
theorem Unit.spiTransfer (ctl : W32) : Unit.Statement (.spiTransfer ctl) := unit_of_none rfl
theorem Unit.spiTransferDone (bs : List Byte) : Unit.Statement (.spiTransferDone bs) := unit_of_none rfl
theorem Unit.i2c1Transfer (ctl : W32) : Unit.Statement (.i2c1Transfer ctl) := unit_of_none rfl
theorem Unit.i2c1TransferDone (ack : Bool) (bs : List Byte) : Unit.Statement (.i2c1TransferDone ack bs) := unit_of_none rfl
theorem Unit.i2c0Transaction (ofs : W32) (n : Nat) : Unit.Statement (.i2c0Transaction ofs n) := unit_of_none rfl
theorem Unit.registerPortLoadComplete (k : Fin 8) : Unit.Statement (.registerPortLoadComplete k) := unit_of_none rfl
theorem Unit.channelMessageArrival (n : Fin 32) (c : Fin 64) (i : Nat) : Unit.Statement (.channelMessageArrival n c i) := unit_of_none rfl
theorem Unit.msixEnableChange (f : BitVec 9) (en mask : Bool) : Unit.Statement (.msixEnableChange f en mask) := unit_of_none rfl
theorem Unit.tapReset : Unit.Statement (.tapReset) := unit_of_none rfl

end Sys2Proof.Laws
end

