-- ==== Sys2Proof/Laws/Unit.lean ====
section
/-!
SUPPORT. What an undisturbed issue of a unit instruction comes to, once for each way it can go on, and its local operands.
-/

namespace Sys2Proof.Machine

/-- Done, with no register of its own to write. -/
theorem issue_ran {s v : State} {t : Nat} {w : W32} {body : State → Res} (h : Issues s t w) (hb : body (takeTurn s t) = .done v [])
    (rds : List Nat) (sq : State → State) : Ran (issueAt t w rds [] sq body s) t v := by
  unfold Ran; rw [issueAt_eq h, hb]
  simp only [finish, badReg_quiet (show (takeTurn s t).integ.bad = [] from h.2.2.2.1)]
  rfl

/-- Done, with register `rd` written. -/
theorem issue_ranTo {s v : State} {t rd : Nat} {w : W32} {body : State → Res} (h : Issues s t w) (hb : body (takeTurn s t) = .done v [])
    (rds : List Nat) (sq : State → State) : RanTo (issueAt t w rds [rd] sq body s) t rd v := by
  unfold RanTo; rw [issueAt_eq h, hb]
  simp only [finish, badReg_quiet (show (takeTurn s t).integ.bad = [] from h.2.2.2.1)]
  rfl

/-- A wait. -/
theorem issue_waits {s v : State} {t : Nat} {w : W32} {body : State → Res} {x : Wait} (h : Issues s t w)
    (hb : body (takeTurn s t) = .wait v x) (rds wrs : List Nat) (sq : State → State) : Waits (issueAt t w rds wrs sq body s) t v x := by
  unfold Waits; rw [issueAt_eq h, hb]
  simp only [finish, badReg_quiet (show (takeTurn s t).integ.bad = [] from h.2.2.2.1)]

/-- A fault, with what detecting it has recorded. -/
theorem issue_faults {s v : State} {t : Nat} {w : W32} {body : State → Res} {c d : Nat} (h : Issues s t w)
    (hb : body (takeTurn s t) = .fault v c d) (rds wrs : List Nat) (sq : State → State) :
    issueAt t w rds wrs sq body s = .next (thrFault v t c d) := by rw [issueAt_eq h, hb]; rfl

/-- An error that the device does not check. -/
theorem issue_bad {s : State} {t : Nat} {w : W32} {body : State → Res} {r : Fault} (h : Issues s t w)
    (hb : body (takeTurn s t) = .bad r) (rds wrs : List Nat) (sq : State → State) : issueAt t w rds wrs sq body s = .fault r := by
  rw [issueAt_eq h, hb]
  simp only [finish, badReg_quiet (show (takeTurn s t).integ.bad = [] from h.2.2.2.1)]

/-- A status word told. -/
theorem issue_told {s v : State} {t rd st val : Nat} {w : W32} {body : State → Res} (h : Issues s t w)
    (hb : body (takeTurn s t) = .done (settleAll (setThr v t (setStatus (thrOf v t) rd st val))) []) (rds : List Nat) (sq : State → State) :
    Told (issueAt t w rds [rd] sq body s) v t rd st val := issue_ranTo h hb rds sq

/-- A thread that only moves on. -/
theorem issue_moved {s : State} {t : Nat} {w : W32} {body : State → Res} (h : Issues s t w)
    (hb : body (takeTurn s t) = .done (takeTurn s t) []) (rds wrs : List Nat) (sq : State → State) :
    Moved s (issueAt t w rds wrs sq body s) t := by
  have hw := h.2.2.2.2.2.2.2.2.2.1
  have hx := takeTurn_thr h
  have hs : (thrOf s t).stepping = false := h.2.2.2.2.2.2.2.1
  refine ⟨_, ?_, becomes_setThr hw t _⟩
  rw [issueAt_eq h, hb, finish_done (u := takeTurn s t) (v := takeTurn s t) h.2.2.2.1 (h.quiet.of_regs rfl rfl) (setThr_wf hw t _)
    (by rw [hx]; exact ThrSt.noConfusion) (by rw [hx]; exact hs), hx]
  unfold takeTurn; rw [setThr_setThr hw]; rfl

/-- An instruction that only replaces its thread's record `x`. -/
theorem issue_ends {s : State} {t : Nat} {w : W32} {body : State → Res} {x : Thread} (h : Issues s t w)
    (hb : body (takeTurn s t) = doneThr (takeTurn s t) t x) (hd : x.st ≠ .dormant) (hs : x.stepping = false) (rds wrs : List Nat)
    (sq : State → State) : Ends s (issueAt t w rds wrs sq body s) t { x with pc := x.pc + 4, requeued := false } :=
  ⟨_, issue_doneThr h hb hd hs rds wrs sq, becomes_setThr h.2.2.2.2.2.2.2.2.2.1 t _⟩

/-! ## Local operands -/

/-- With nothing marked, a probe finds nothing. -/
theorem probeWords_quiet {s : State} (h : s.integ.bad = []) (m t : Nat) (ws : List (Nat × Nat)) : probeWords s m t ws = (s, none) := by
  unfold probeWords
  induction ws with
  | nil => rfl
  | cons a l ih => rw [List.foldl_cons]; simp only [unitErr_zero h]; exact ih

theorem placeRead_quiet {s : State} (h : s.integ.bad = []) {t n : Nat} {p : Place} {bs : List Byte} (hr : memRead s t p n = some bs) :
    placeRead s t p n = (bs, none, s) := by
  cases p with
  | bank a => simp only [memRead, Option.some.injEq] at hr; simp only [placeRead, probeWords_quiet h, hr]
  | shared o => simp only [memRead, Option.some.injEq] at hr; simp only [placeRead, probeWords_quiet h, hr]
  | mgt a => simp only [memRead, Option.some.injEq] at hr; simp only [placeRead, hr]
  | _ => cases hr

/-- A local operand, read in the state after the thread has taken its turn. -/
theorem localRead_is {s : State} {t a n : Nat} {bs : List Byte} (h : s.integ.bad = []) (hl : LocalIs s t a n bs) (k : State → List Byte → Res) :
    localRead (takeTurn s t) t a n k = k (takeTurn s t) bs := by
  obtain ⟨p, hp, hr⟩ := hl
  simp only [localRead, hp, placeRead_quiet (s := takeTurn s t) h (p := p) hr]

theorem localOf_is {s : State} {t a n : Nat} {bs : List Byte} (hl : LocalIs s t a n bs) : (localOf t a n).isSome = true := by
  obtain ⟨p, hp, _⟩ := hl; rw [hp]; rfl

end Sys2Proof.Machine
end

