-- ==== Sys2Proof/Machine/Pins.lean ====
section
/-!
DEFINITION. Output pins (R529, R536): what each output and bidirectional pin shows in a state of the block, while EXTEST does not drive the
pins (`extestDrives`): which cell is which pin's is in a file that the spec does not give (R535). The cold column is `rst.aon = false`.
-/

namespace Sys2Proof.Machine

/-- What a pin does: driven to a level, released (open drain), or high impedance. -/
inductive PinSt where
  | low
  | high
  | released
  | highZ
deriving DecidableEq, Repr

def PinSt.ofBool (b : Bool) : PinSt := if b then .high else .low

/-- LINE_TX of lane `l`: electrical idle in the cold phase and in a reset of LINE. -/
def pinLineTx (s : State) (l : Nat) : LaneOut := if s.rst.aon && lineUp s then laneOut s l else .idle

/-- The lanes of link `h` are in electrical idle while HOST h is in reset; else they train under PCI Express. -/
def pinPcieIdle (s : State) (h : Nat) : Bool := !(s.rst.aon && hostUp s h)

/-- DRAM_RESET_N of channel `c` follows DRC_CTL.DRAM_RESET_N (R425), and is low in a reset of MEM (R421). -/
def pinDramResetN (s : State) (c : Nat) : PinSt := .ofBool (s.rst.aon && memUp s && channelPresent s c && s.flag F.DRC_CTL_DRAM_RESET_N 0)

/-- CS_N of channel `c`, its CK and CA, and its DQ and DQS, where no command or write is on them. The drivers of a channel that the variant
lacks are at high impedance (R529). -/
def pinDramCsN (s : State) (c : Nat) : PinSt := if s.rst.aon && channelPresent s c then .high else .highZ
def pinDramCkCa (s : State) (c : Nat) : PinSt := if s.rst.aon && channelPresent s c then .low else .highZ
def pinDramDq : PinSt := .highZ

/-- PPS_OUT is low in a reset of PKT. -/
def pinPpsOut (s : State) : PinSt := .ofBool (s.rst.aon && pktUp s && s.tim.ppsHigh)

/-- THERMTRIP_N falls at a trip and stays low until a power-on reset (R486). -/
def pinThermtripN (s : State) : PinSt := if s.flag F.RST_THERM_STS_TRIPPED 0 then .low else .released

def pinWakeN (s : State) : PinSt := if s.rst.aon && s.flag F.HIF_LINK_CFG_WAKE 0 then .low else .released

/-- The I2C lines between transactions, and TDO outside Shift-DR and Shift-IR. -/
def pinI2cIdle : PinSt := .released
def pinTdoIdle : PinSt := .highZ

/-- SPI_SCLK and SPI_CS_N between transfers; SPI_IO is then high impedance. -/
def pinSpiSclk (s : State) : PinSt := if s.rst.aon then .low else .highZ
def pinSpiCsN (s : State) : PinSt := if !s.rst.aon then .highZ else if s.pio.spi.isSome then .low else .high

/-- GPIO[b]: what FN selects, or OUT where OE is set. The PIO registers and the held levels of the time-compare units outlast a warm reset. -/
def pinGpio (s : State) (b : Nat) : PinSt :=
  let f := bits (s.reg .PIO_GPIO_FN (b / 8)) (4 * (b % 8) + 2) (4 * (b % 8))
  if !s.rst.aon then .highZ
  else if (1 ≤ f && f ≤ 4) || bitOf (s.reg .PIO_GPIO_OE 0) b then .ofBool (gpioLevel s b) else .highZ

end Sys2Proof.Machine
end

