-- ==== Sys2Proof/Tests/Slice0.lean ====
section
/-!
SUPPORT. Tests. For every clause of a statement that has hypotheses, a theorem `witness_<part>_<clause>` exhibits a state and operands that
meet all of them together: the hypotheses cannot lead to a contradiction. The headings name the statement and the parts it is put together
from. After them, terms that the check of well-formedness refuses, and instruction words written out from the encoding tables.
-/

set_option Elab.async false
set_option linter.unusedVariables false
open Sys2Proof Sys2Proof.Machine
namespace Sys2Proof.Tests
set_option maxRecDepth 100000

/-- Every domain out of reset. -/
def up : State := { (State.reset.setReg .RST_DOM_STS 0 0).setReg .RST_DOM_STS_CL 0 0 with rst := { State.reset.rst with events := [] } }

/-- Both links up, and PF1 of link 0 a bus master. -/
def linked : State :=
  setFn ((up.setFlag F.HIF_LINK_STS_DL_UP 0 true).setFlag F.HIF_LINK_STS_DL_UP 1 true) 1 { fnOf up 1 with bme := true }

/-- Control ring 0 with one command waiting, and every class permitted. -/
def ringed : State :=
  ((((linked.setFlag F.HIF_CTR_CFG_EN 0 true).setFld F.HIF_CTR_PROD_PROD 0 1).setFld F.HIF_CTR_CFG_FN 0 1).setFld F.HIF_CTR_CFG2_PERM 0 0xFF)

/-- A control entry of ring 0 with the given words. -/
def entry (body : List W32) : Ctl := ⟨0, false, false, 0, body⟩

/-- Quad 3 with one lane a port, and port 15 with its PHY on in link state `st`. -/
def port (st : Nat) : State :=
  ((up.setFld F.LPT_QUAD_CFG_MODE 3 1).setFlag F.LPT_CFG_PHY_EN 15 true).setFld F.LPT_LINK_STATE 15 st

/-- A frame of 4 + n bytes with its check sequence. -/
def frame (n : Nat) : List Byte := List.replicate n 1 ++ leBytes 4 (ethFcs (List.replicate n 1))

/-- A MAC control frame of 64 bytes: a PAUSE. -/
def pauseFrame60 : List Byte :=
  let b := List.replicate 12 1 ++ [0x88, 0x08, 0, 1] ++ List.replicate 44 0
  b ++ leBytes 4 (ethFcs b)

/-- One-cell chain at cell 0 of a packet of 64 bytes. -/
def chain1 : Chain := ⟨[0], 1, 0, 64, false, none, 0, none, none⟩

/-- TX ring 0, RX ring 0 and completion ring 0 of function 1, each enabled with one entry to read. -/
def hosted : State :=
  (((((((((linked.setFlag F.HIF_TXR_CFG_EN 0 true).setFld F.HIF_TXR_CFG_FN 0 1).setFld F.HIF_TXR_PROD_PROD 0 1).setFlag F.HIF_RXR_CFG_EN 0 true).setFld
    F.HIF_RXR_CFG_FN 0 1).setFld F.HIF_RXR_PROD_PROD 0 1).setFlag F.HIF_CQ_CFG_EN 0 true).setFld F.HIF_CQ_CFG_FN 0 1).setFlag F.HIF_EVR_CFG_EN 0 true).setFld
    F.HIF_EVR_CFG_FN 0 1

/-- A frame of 60 bytes with end of packet. -/
def txd : TxDesc := { len := 64, eop := true, cqe := true, tsCap := false, offload := 0, meta_ := 0, cookie := 0, data := List.replicate 64 1 }

/-- Pool 0 enabled over 1,024 on-chip cells, with 10 cells to requester 128 of it; cell 0 is a chain of 64 bytes of that requester. -/
def pooled : State :=
  let a := ((((ringed.setFlag F.CRN_POOL_CFG_EN 0 true).setFld F.CRN_POOL_SIZE_SIZE 0 1024).setFld F.CRN_POOL_STS_FREE 0 1023).setFlag
    F.CRN_POOL_STS_DRAINED 0 false).setFld F.CRN_REQ_HARD_HARD 128 10
  { setChain (a.setFld F.CRN_REQ_STS_USED 128 1) 0 (some chain1) with crn := { a.crn with cellReq := [(0, some 128)], chains := [(0, some chain1)] } }

/-- Table 63 of type `ty`, enabled and initialised, of four locations with keys of 4 bytes. -/
def tabled (ty : Nat) : State :=
  (((((ringed.setFlag F.AGT_CTL_EN 0 true).setFlag F.AGT_TBL_CFG_EN 63 true).setFld F.AGT_TBL_CFG_TYPE 63 ty).setFld F.AGT_TBL_SIZE_SIZE 63 4).setFld
    F.AGT_TBL_CFG_KEY_LEN 63 4).setFlag F.AGT_TBL_STS_INIT 63 false

/-- Table 63 with the entry of key 01020304 at its location 0; `st` makes it static. -/
def entered (st : Bool) : State :=
  let s := tabled 0
  { s with agt := { s.agt with em := [(locKey 63 0, mkEntry st false 4 7 0 0 [1, 2, 3, 4] 9)] } }

/-- A class 1 command for table 63. -/
def tcmd (w0 w1 w2 w3 : Nat) : Ctl :=
  entry [BitVec.ofNat 32 (63 + w0), BitVec.ofNat 32 w1, BitVec.ofNat 32 w2, BitVec.ofNat 32 w3, 0, 0, 0, 0, 0, 0, 0, 0]

/-- In a table of one bucket every key has that bucket's four ways. -/
theorem candWays_one {s : State} {t : Nat} {key : List Byte} (h : tblSize s t = 4) : candWays s t key = [0, 1, 2, 3] := by
  simp [candWays, bucketOf, waysOf, h, Nat.mod_one]

theorem emSeek_one {s : State} {t : Nat} {key : List Byte} {r : Option Nat} (h : tblSize s t = 4) (hd : tblDram s t = false)
    (h0 : emCompare s t key (emStash s t) = (none, none)) (h1 : emCompare s t key ([0, 1, 2, 3].filter (locLive s t)) = (r, none)) :
    emSeek s t key = (s, r) := by
  simp only [emSeek, emWays, candWays_one h, h0, h1, hd]
  cases r <;> rfl

theorem cmdEntry_one {s : State} {c : Ctl} {img : List Byte} {r : Option Nat} (hc : cmdBit c 14 = false) (h : tblSize s (cmdTable c) = 4)
    (hd : tblDram s (cmdTable c) = false)
    (h0 : emCompare s (cmdTable c) (entKey (imageOf img) (tblKeyLen s (cmdTable c))) (emStash s (cmdTable c)) = (none, none))
    (h1 : emCompare s (cmdTable c) (entKey (imageOf img) (tblKeyLen s (cmdTable c))) ([0, 1, 2, 3].filter (locLive s (cmdTable c))) = (r, none)) :
    cmdEntry c s img = (s, r) := by
  simp only [cmdEntry, hc, emSeek_one h hd h0 h1]
  rfl

theorem emInsert_one {s : State} {t l : Nat} {e : Item} (h : tblSize s t = 4) (hf : [0, 1, 2, 3].find? (locFree s t) = some l) :
    emInsert s t e = (⟨some l, 0, false, false⟩, addCount (setHit (emPut s t l e) t l true) t) := by
  simp only [emInsert, candWays_one h, hf]

/-- An item of zeros. -/
def qi : QItem := ⟨0, 0, 0, none, none, 0⟩

/-- Queue 4095 enabled in group 63 with one item, and thread 7 waiting in `get` on the group. -/
def queued : State :=
  let a := ((((ringed.setFlag F.ORY_CTL_EN 0 true).setFlag F.ORY_Q_CFG_EN 4095 true).setFld F.ORY_Q_CFG_GROUP 4095 63).setFld F.ORY_Q_CFG_WEIGHT 4095 1).setReg
    .ORY_GRP_MEMBERS 63 1
  { a with ory := { a.ory with onchip := [(4095, [qi])], gets := [(7, 63)] } }

/-- DRAM initialised and enabled on six channels. -/
def drammed : State :=
  ((((up.setFlag F.DRC_CTL_DRAM_RESET_N 0 true).setFlag F.DRC_STS_INIT_DONE 0 true).setFld F.DRC_CFG_NCH 0 3).setFlag F.DRC_CTL_EN 0 true)

/-- When a refresh that is due at 0 every ns has been postponed as far as it can be. -/
def lateAt : Nat := Config.refreshLimit * 2 ^ 32

/-- A refresh of rank 0 of channel 5 postponed as far as it can be. -/
def lateRefresh : State :=
  { drammed with drc := { drammed.drc with refInt := [(10, 1)] }, tim := { up.tim with elapsed := lateAt, adj := some .ending } }

theorem lateRefresh_on : dramOn (advance lateRefresh 0) = true := rfl

theorem lateRefresh_due : refAtLimit (advance lateRefresh 0) 5 0 = true := by
  have h : refInterval (advance lateRefresh 0) 5 0 = 2 ^ 32 := rfl
  have e : (advance lateRefresh 0).tim.elapsed = lateAt := rfl
  have d : mget noNat (advance lateRefresh 0).drc.refDue (2 * 5 + 0) = 0 := rfl
  have i : decide (0 + Config.refreshLimit * 2 ^ 32 ≤ lateAt) = true := decide_eq_true (by rw [Nat.zero_add]; exact Nat.le_refl lateAt)
  unfold refAtLimit
  rw [h, e, d, i]
  rfl

/-- A form-1 item with the null handle. -/
def formItem : Item := BitVec.ofNat 512 (0xFFFFFFFF + 2 ^ 61)

/-- Calendar 15 enabled, in state `st`, with `m` beside its registers. -/
def calendar (st : Nat) (m : Mer) : State := setMer ((up.setFlag F.MER_CFG_EN 15 true).setFld F.MER_STS_STATE 15 st) 15 m
def mer0 : Mer := merOf up 15

theorem triple {A B C : Type} (p : A × B × C) : p = (p.1, p.2.1, p.2.2) := rfl

theorem pair {A B : Type} (p : A × B) {a : A} (h : p.1 = a) : p = (a, p.2) := by cases h; rfl

/-- Thread `t` in state `st` with wait `w`. -/
def thr (t : Nat) (st : ThrSt) (w : Wait) : State := setThr up t { noThread 0 with st := st, wait := w, pc := 0x100000 }

/-- Source 1022 pending and not masked. -/
def raised : State := setMasked (setPending up 1022 true) 1022 false

/-! A signing key with its hash, and an image and a token that it signs (made with an independent ECDSA). -/

def keyBytes : List Byte :=
  beBytes 48 0xc787d37c05c2c199a12c7e85baa2354aaad83260c08a156dce611b3cdfce17076f28fc663c8a5f74b82e910595e2d6b5 ++
  beBytes 48 0xc8cc2cd81f71dc13134d55f1ae20a8d70ee52add3b9ab0387e96efb2ccfae6da6b81128990b1a142c2bfc26119801766
def keyHash : BitVec 384 := 0x7c2cb39d2b0981ed96c2b6becc9e7813b4b11fa15146791c4e1081de29609ee203f11c6fa5fb48c63a128715a7ca481e
def signed (s : Nat) : List Byte :=
  beBytes 48 0xfda859f82bfaaa0596e6bbe14024460e3c2e19c03abb26bd9a93a5a461ccd76b5f4f718b51658e3914225cd060531523 ++ beBytes 48 s

/-- The header of an image of 16 bytes of 0 at address 0, entered there. -/
def header : List Byte :=
  leBytes 4 0x4D535A31 ++ leBytes 4 0x00010080 ++ leBytes 4 16 ++ List.replicate 52 0 ++ keyBytes ++ List.replicate 96 0 ++
  signed 0x3082d33c59bbd559e48d8e59ee8b8b7ba463295ef8af8f242b3c2dc56259edb984880f483ebaf3d11a79da2d8ec917e5

/-- The words of a token of scope 7 for challenge 0 and ID 0. -/
def token : List W32 :=
  let bs := keyBytes ++ signed 0x49cccb902db17d44e404b5a9525108b4e9d39333b18ff6869d661a5f06df06be58632743c5eb3502104e91a6b83eaa88
  [7, 0, 0, 0] ++ (List.range 48).map (fun k => BitVec.ofNat 32 (leNat ((bs.drop (4 * k)).take 4))) ++ List.replicate 12 0

/-- The boot ROM on slot 0 at stage `st`, with the key fused and the image's header in place. -/
def rom (st : Nat) : State :=
  { (setThr up 0x2000 { noThread 0 with st := .run, pc := 0x1000000 }).setFld F.MGT_BOOT_STS_STAGE 0 st with
    mgtMem := wrBytes [] 0xFFE00 header, rst := { up.rst with fuse := keyHash } }

/-- Edsen unlocked with every scope. -/
def unlockedUp : State := (up.setFlag F.DBG_LOCK_UNLOCKED 0 true).setFld F.DBG_LOCK_SCOPE 0 7


theorem pair0 {A B : Type} (p : A × B) : p = (p.1, p.2) := rfl
theorem eqSome {A : Type} {o : Option A} (h : o.isSome = true) : o = some (o.get h) := by cases o <;> simp at h ⊢

theorem eqPair {A B : Type} {o : Option (A × B)} (h : o.isSome = true) : o = some ((o.get h).1, (o.get h).2) := by cases o <;> simp at h ⊢

def regs (l : List (Nat × Nat)) : SMap W32 := l.foldl (fun m p => mset noW32 m p.1 (BitVec.ofNat 32 p.2)) []

/-- State `b` with thread `t` as `x` running, at an instruction `w` that it can fetch: the first word of its image. -/
def turning (b : State) (t : Nat) (x : Thread) (w : W32) : State :=
  let s := setThr (b.setFld F.GCL_IMG_LIMIT (cluOf t) 1) t { x with st := .run, pc := if isMgt t then 0 else 0x100000 }
  { s with mgtMem := wrBytes s.mgtMem 0 (leBytes 4 w.toNat),
           gar := { s.gar with icache := mset noWord s.gar.icache (icKey t 0x100000) (some w) } }

/-- An item held from Orrery. -/
def held : Held := ⟨none, 0, 0, none, false, 0, 0⟩

/-- CPX-C and CPX-H of cluster 31 serve threads of both levels, and lane 15 of both is held by thread 255 of the cluster. -/
def laneHeld : State :=
  let s := [62, 63].foldl (fun a i => ((a.setFlag F.CPX_CFG_EN i true).setFlag F.CPX_CFG_U_EN i true).setFlag F.CPX_CFG_S_EN i true) up
  { s with cpx := { s.cpx with lane := [(1007, { noLane 0 with holder := some 255 }), (1023, { noLane 0 with holder := some 255 })] } }

/-- The same with full queues. -/
def queuesFull : State :=
  let q := (List.range 64).map (fun i => (⟨i, 15, 255, 0x04, 0, 0, 0, none, false, true⟩ : CpxCmd))
  { laneHeld with cpx := { laneHeld.cpx with queue := [(62, q), (63, q)] } }

/-- Bytes in the banks of the core of thread 8191. -/
def bytesAt (b : State) (a : Nat) (bs : List Byte) : State :=
  { b with gar := { b.gar with lmem := wrBytes b.gar.lmem (bankKey (coreOf 8191) a) bs } }

/-- Thread 8191's item block holds item `it`. -/
def blockAt (b : State) (it : Item) : State := bytesAt b (thrBlk 8191) (leBytes 64 it.toNat)

/-- A `dma` descriptor at 0x100. -/
def desc (b : State) (a c : Nat) : State := bytesAt b 0x100 (leBytes 8 a ++ leBytes 4 c ++ leBytes 4 0x200)

/-- DRAM ready, with all of its first 65,536 bytes in the thread window. -/
def windowed : State := drammed.setReg .DRC_DMAWIN_SIZE 0 65536

/-- The gate store full with the emits of tag 5, which is not the head of its domain. -/
def gateTag : Tag :=
  ⟨0, false, List.replicate 131072 ⟨0, none, 0, 0, false, 0, 0, 0, 0⟩, none, none⟩
def gateStuck : State := let s := blockAt up formItem; { s with ory := { s.ory with tags := [(5, some gateTag)] } }
def heldTag : Held := ⟨some 5, 0, 0, none, false, 0, 0⟩

theorem emitWaits_stuck {u : State} {final : Bool} {it : Item} (ht : u.ory.tags = [(5, some gateTag)]) (hd : u.ory.doms = [])
    (hn : itemWord it 0 = nullHandle) : emitWaits u heldTag final it = true := by
  have h : gateUsed u = 131072 := by
    simp only [gateUsed, ht, List.map_cons, List.map_nil, gateTag, List.length_replicate, List.sum_cons, List.sum_nil, Nat.add_zero]
  have k : isHeadTag u 5 = false := by
    simp only [isHeadTag, tagOf, ht, domTags, hd]; rfl
  cases final <;> simp [emitWaits, overEmits, gateFull, heldTag, h, k, hn]

/-- Locks and semaphores open to every thread. -/
def flinted : State :=
  (((up.setReg .FLT_LGRP_CLU 0 0xFFFFFFFF).setReg .FLT_LGRP_ACC 0 7).setReg .FLT_SGRP_CLU 0 0xFFFFFFFF).setReg .FLT_SGRP_ACC 0 7
def locked (o : Nat) : State := { flinted with flt := { flinted.flt with lock := [(63, ⟨some o, false, false, []⟩)] } }

/-- Sixteen messages in channel 2047, which is enabled. -/
def chan (n : Nat) : State :=
  let s := up.setFlag F.GCL_CH_CFG_EN 2047 true
  { s with gar := { s.gar with chan := if n = 0 then [] else [(2047, List.replicate n ⟨3, [1]⟩)] } }

/-- Thread 8191 stores the word of g5 at 0xE000, and loads it into g7 with the next instruction. -/
def storing : State :=
  let s := turning up 8191 { noThread 0 with g := regs [(5, 0xDEADBEEF), (6, 0xE000)] } (wordI 0x12 ⟨5, 6, 0⟩)
  { s with gar := { s.gar with icache := mset noWord s.gar.icache (icKey 8191 0x100004) (some (wordI 0x0C ⟨7, 6, 0⟩)) } }


/-! ## Adjustments: IncrementIsClamped, AdjustmentsStart, AdjustmentsEnd -/

theorem witness_IncrementIsClamped_1 : ¬ (∀ (s : State) (v : W32), pktUp s = true → s.flag F.TIM_STS_HOLDOVER 0 = false → 0xAA800000 ≤ v.toNat → v.toNat ≤ 0xAAD55556 → False) := by
  intro h
  refine h (up) 0xAA800000 ?_ ?_ ?_ ?_ <;> decide +kernel

theorem witness_IncrementIsClamped_2 : ¬ (∀ (s : State) (v : W32), pktUp s = true → s.flag F.TIM_STS_HOLDOVER 0 = false → v.toNat < 0xAA800000 → False) := by
  intro h
  refine h (up) 0xAA7FFFFF ?_ ?_ ?_ <;> decide +kernel

theorem witness_IncrementIsClamped_3 : ¬ (∀ (s : State) (v : W32), pktUp s = true → s.flag F.TIM_STS_HOLDOVER 0 = false → 0xAAD55556 < v.toNat → False) := by
  intro h
  refine h (up) 0xAAD55557 ?_ ?_ ?_ <;> decide +kernel

theorem witness_AdjustmentsStart_1 : ¬ (∀ s u : State, pktUp s = true → u = s.setFld F.TIM_ADJ_CTL_MODE 0 0 → u.flag F.TIM_STS_ADJ_BUSY 0 = false → u.flag F.TIM_STS_HOLDOVER 0 = false → False) := by
  intro h
  refine h (up) _ ?_ rfl ?_ ?_ <;> decide +kernel

theorem witness_AdjustmentsStart_2 : ¬ (∀ s u : State, pktUp s = true → u = s.setFld F.TIM_ADJ_CTL_MODE 0 1 → u.flag F.TIM_STS_ADJ_BUSY 0 = false → u.flag F.TIM_STS_HOLDOVER 0 = false → False) := by
  intro h
  refine h (up) _ ?_ rfl ?_ ?_ <;> decide +kernel

theorem witness_AdjustmentsStart_3 : ¬ (∀ (s u : State) (off : Int), pktUp s = true → u = s.setFld F.TIM_ADJ_CTL_MODE 0 2 → u.flag F.TIM_STS_ADJ_BUSY 0 = false → u.flag F.TIM_STS_HOLDOVER 0 = false → off = (BitVec.ofNat 64 (u.reg .TIM_ADJ_OFFSET 0)).toInt → off.natAbs * 1024 ≤ u.reg .TIM_ADJ_INTERVAL 0 → False) := by
  intro h
  refine h (up) _ _ ?_ rfl ?_ ?_ rfl ?_ <;> decide +kernel

theorem witness_AdjustmentsStart_4 : ¬ (∀ s u : State, pktUp s = true → u = s.setFld F.TIM_ADJ_CTL_MODE 0 2 → u.reg .TIM_ADJ_INTERVAL 0 < (BitVec.ofNat 64 (u.reg .TIM_ADJ_OFFSET 0)).toInt.natAbs * 1024 → False) := by
  intro h
  refine h (up.setReg .TIM_ADJ_OFFSET 0 5) _ ?_ rfl ?_ <;> decide +kernel

theorem witness_AdjustmentsStart_5 : ¬ (∀ (s : State) (n total : Nat) (off : Int), pktUp s = true → s.tim.adj = some (.slew n total off) → False) := by
  intro h
  refine h { up with tim := { up.tim with adj := some (.slew 1 2 3) } } _ _ _ ?_ rfl
  decide +kernel

theorem witness_AdjustmentsStart_6 : ¬ (∀ (s : State) (b : Bool) (off : W64) (n : Nat), pktUp s = true → s.tim.adj = some (.jump b off n) → False) := by
  intro h
  refine h { up with tim := { up.tim with adj := some (.jump true 2 3) } } _ _ _ ?_ rfl
  decide +kernel

theorem witness_AdjustmentsEnd_1 : ¬ (∀ (s : State) (n total : Nat) (off : Int), pktUp s = true → s.tim.adj = some (.slew n total off) → 0 < total → False) := by
  intro h
  refine h { up with tim := { up.tim with adj := some (.slew 1 2 3) } } _ _ _ ?_ rfl ?_ <;> decide +kernel

theorem witness_AdjustmentsEnd_2 : ¬ (∀ (s : State) (k n total : Nat) (off : Int), pktUp s = true → s.tim.adj = some (.slew n total off) → n ≤ total → k < n → False) := by
  intro h
  refine h { up with tim := { up.tim with adj := some (.slew 1 2 3) } } 0 1 2 3 ?_ ?_ ?_ ?_ <;> decide +kernel

theorem witness_AdjustmentsEnd_3 : ¬ (∀ (off : Int) (total k : Nat), 0 < total → False) := by
  intro h
  refine h 0 1 0 ?_
  decide +kernel

theorem witness_AdjustmentsEnd_4 : ¬ (∀ (s v : State) (step : Bool) (off : W64) (n : Nat), pktUp s = true → s.tim.adj = some (.jump step off n) → v = { s with clk := s.clk + n, tim := { s.tim with nt := BitVec.ofInt 96 (s.tim.nt.toNat + n * s.reg .TIM_INCR 0), elapsed := s.tim.elapsed + n * s.reg .TIM_INCR 0 } } → False) := by
  intro h
  refine h { up with tim := { up.tim with adj := some (.jump true 2 3) } } _ _ _ _ ?_ rfl rfl
  decide +kernel

/-! ## HoldoverAndTimePins: HoldoverEntryAndExit, TimePinsAndReads -/

theorem witness_HoldoverEntryAndExit_1 : ¬ (∀ s : State, pktUp s = true → s.flag F.TIM_STS_HOLDOVER 0 = false → False) := by
  intro h
  refine h (up) ?_ ?_ <;> decide +kernel

theorem witness_HoldoverEntryAndExit_2 : ¬ (∀ s u : State, pktUp s = true → s.flag F.TIM_STS_HOLDOVER 0 = true → u = s.setFlag F.TIM_STS_HOLDOVER 0 false → False) := by
  intro h
  refine h (up.setFlag F.TIM_STS_HOLDOVER 0 true) _ ?_ ?_ rfl <;> decide +kernel

theorem witness_HoldoverEntryAndExit_3 : ¬ (∀ (s u : State) (n : Nat), u = advance s n → pktUp u = true → u.reg .TIM_HOLD_TIMEOUT 0 ≠ 0 → u.reg .TIM_HOLD_TIMEOUT 0 * 1000 * 2 ^ 32 ≤ u.tim.elapsed - u.tim.holdIncr → u.flag F.TIM_STS_HOLDOVER 0 = false → False) := by
  intro h
  refine h { up.setReg .TIM_HOLD_TIMEOUT 0 1 with tim := { up.tim with elapsed := 1000 * 2 ^ 32 } } _ 0 rfl ?_ ?_ ?_ ?_ <;> decide +kernel

theorem witness_HoldoverEntryAndExit_4 : ¬ (∀ (s u : State) (n : Nat), u = advance s n → pktUp u = true → u.flag F.TIM_CTL_REF_SEL 0 = true → u.reg .TIM_HOLD_TIMEOUT 0 ≠ 0 → u.reg .TIM_HOLD_TIMEOUT 0 * 1000 * 2 ^ 32 ≤ u.tim.elapsed - u.tim.holdPps → u.flag F.TIM_STS_HOLDOVER 0 = false → False) := by
  intro h
  refine h { (up.setReg .TIM_HOLD_TIMEOUT 0 1).setFlag F.TIM_CTL_REF_SEL 0 true with tim := { up.tim with elapsed := 1000 * 2 ^ 32 } } _ 0 rfl ?_ ?_ ?_ ?_ ?_ <;> decide +kernel

theorem witness_TimePinsAndReads_1 : ¬ (∀ (s u : State) (w : Nat), pktUp s = true → 100 ≤ w → u = (s.setReg .TIM_PPS_IN_TS 0 (nt64 s)).wrapAdd F.TIM_INPUT_CNT_PPS 0 1 → False) := by
  intro h
  refine h (up) _ 100 ?_ ?_ rfl <;> decide +kernel

theorem witness_TimePinsAndReads_2 : ¬ (∀ (s : State) (w : Nat), w < 100 → False) := by
  intro h
  refine h (up) 99 ?_
  decide +kernel

theorem witness_TimePinsAndReads_3 : ¬ (∀ (s u : State) (w : Nat), pktUp s = true → 100 ≤ w → u = (s.setReg .TIM_CSI_TS 0 (nt64 s)).wrapAdd F.TIM_INPUT_CNT_CSI 0 1 → False) := by
  intro h
  refine h (up) _ 100 ?_ ?_ rfl <;> decide +kernel

theorem witness_TimePinsAndReads_4 : ¬ (∀ (s u : State) (n : Nat), u = advance s n → pktUp u = true → u.flag F.TIM_PPS_OUT_CFG_EN 0 = true → u.tim.ppsNext ≤ nt64 u → False) := by
  intro h
  refine h { up.setFlag F.TIM_PPS_OUT_CFG_EN 0 true with tim := { up.tim with ppsNext := 0 } } _ 0 rfl ?_ ?_ ?_ <;> decide +kernel

theorem witness_TimePinsAndReads_5 : ¬ (∀ (s u : State) (n : Nat), u = advance s n → pktUp u = true → u.tim.ppsHigh = true → u.tim.ppsEnd ≤ u.tim.elapsed → False) := by
  intro h
  refine h { up with tim := { up.tim with ppsHigh := true } } _ 0 rfl ?_ ?_ ?_ <;> decide +kernel

theorem witness_TimePinsAndReads_6 : ¬ (∀ (s u : State) (k : Fin 4) (n : Nat), u = advance s n → pktUp u = true → u.flag F.TIM_TCMP_CFG_EN k = true → u.reg .TIM_TCMP_AT k ≤ nt64 u → (tcmpOf u k).pulsed = false → u.flag F.TIM_TCMP_CFG_PERIODIC k = false → False) := by
  intro h
  refine h (up.setFlag F.TIM_TCMP_CFG_EN 0 true) _ 0 0 rfl ?_ ?_ ?_ ?_ ?_ <;> decide +kernel

theorem witness_TimePinsAndReads_7 : ¬ (∀ (s u : State) (k : Fin 4) (n : Nat), u = advance s n → pktUp u = true → (tcmpOf u k).high = true → (tcmpOf u k).endAt ≤ u.tim.elapsed → False) := by
  intro h
  refine h (setTcmp up 3 ⟨true, 0, true⟩) _ 3 0 rfl ?_ ?_ ?_ <;> decide +kernel

theorem witness_TimePinsAndReads_8 : ¬ (∀ s : State, pktUp s = true → False) := by
  intro h
  refine h (up) ?_
  decide +kernel

theorem witness_TimePinsAndReads_9 : ¬ (∀ (s : State) (p : Fin 16), pktUp s = true → lanePresent s p = true → txtsOf s p = [] → False) := by
  intro h
  refine h (up) 15 ?_ ?_ ?_ <;> decide +kernel

theorem witness_TimePinsAndReads_10 : ¬ (∀ (s : State) (p : Fin 16) (x : TxTs) (r : List TxTs), pktUp s = true → lanePresent s p = true → txtsOf s p = x :: r → False) := by
  intro h
  refine h (setTxts up 15 [⟨1, 2, 3⟩]) 15 _ _ ?_ ?_ rfl <;> decide +kernel

/-! ## EpochFlips: EpochArming, EpochFlipDue -/

theorem witness_EpochArming_1 : ¬ (∀ s u : State, pktUp s = true → s.flag F.TIM_EPOCH_CTL_ARM 0 = false → u = (s.setFlag F.TIM_EPOCH_CTL_ARM 0 true).setFlag F.TIM_EPOCH_STS_SWITCHED 0 false → False) := by
  intro h
  refine h (up) _ ?_ ?_ rfl <;> decide +kernel

theorem witness_EpochArming_2 : ¬ (∀ s : State, pktUp s = true → False) := by
  intro h
  refine h (up) ?_
  decide +kernel

theorem witness_EpochArming_3 : ¬ (∀ (s u : State) (v : W64), pktUp s = true → u = s.setReg .TIM_EPOCH_AT 0 v.toNat → False) := by
  intro h
  refine h (up) _ 0 ?_ rfl
  decide +kernel

theorem witness_EpochFlipDue_1 : ¬ (∀ (s : State) (n : Nat), pktUp s = true → flipWanted (advance s n) = false → False) := by
  intro h
  refine h (up) 0 ?_ ?_ <;> decide +kernel

theorem witness_EpochFlipDue_2_1 : ¬ (∀ (s v : State) (n m : Nat), pktUp s = true → m ≤ n → (∀ k, k ≤ n → (flipWanted (advance s k) = true ↔ m ≤ k)) → v = flipDue (advance s m) → flipWanted v = false → False) := by
  intro h
  refine h (up.setFlag F.TIM_EPOCH_CTL_ARM 0 true) _ 0 0 ?_ ?_ ?_ rfl ?_ <;> decide +kernel

theorem witness_EpochFlipDue_2_2 : ¬ (∀ (s v : State) (n m : Nat), pktUp s = true → m ≤ n → (∀ k, k ≤ n → (flipWanted (advance s k) = true ↔ m ≤ k)) → v = flipDue (advance s m) → flipWanted v = true → flipSoon (advance v (n - m)) = true → False) := by
  intro h
  refine h { up.setFlag F.TIM_EPOCH_CTL_ARM 0 true with tim := { up.tim with flipAt := some 0 } } _ 0 0 ?_ ?_ ?_ rfl ?_ ?_ <;> decide +kernel

theorem witness_EpochFlipDue_2_3 : ¬ (∀ (s v : State) (n m : Nat), pktUp s = true → m ≤ n → (∀ k, k ≤ n → (flipWanted (advance s k) = true ↔ m ≤ k)) → v = flipDue (advance s m) → ∀ d, d ≤ n - m → flipWanted v = true → (∀ k, k ≤ n - m → (flipSoon (advance v k) = false ↔ d ≤ k)) → False) := by
  intro h
  refine h { (up.setFlag F.TIM_EPOCH_CTL_ARM 0 true).setReg .TIM_INCR 0 (2 ^ 50) with tim := { up.tim with flipAt := some 0 } } _ 1 0 ?_ ?_ ?_ rfl 1 ?_ ?_ ?_ <;> decide +kernel

theorem witness_EpochFlipDue_4 : ¬ (∀ u : State, u.flag F.TIM_EPOCH_CTL_ARM 0 = true → u.reg .TIM_EPOCH_AT 0 ≤ nt64 u → (∀ e, u.tim.flipAt = some e → 100000 * 2 ^ 32 ≤ u.tim.elapsed - e) → u.hif.ctl = [] → u.tim.cnt = [] → u.tim.entryCnt = [] → False) := by
  intro h
  refine h (up.setFlag F.TIM_EPOCH_CTL_ARM 0 true) ?_ ?_ ?_ ?_ ?_ ?_ <;> decide +kernel

theorem witness_EpochFlipDue_5 : ¬ (∀ (u : State) (e : Nat), u.flag F.TIM_EPOCH_CTL_ARM 0 = true → u.reg .TIM_EPOCH_AT 0 ≤ nt64 u → u.tim.flipAt = some e → u.tim.elapsed - e < 100000 * 2 ^ 32 → False) := by
  intro h
  refine h { up.setFlag F.TIM_EPOCH_CTL_ARM 0 true with tim := { up.tim with flipAt := some 0 } } 0 ?_ ?_ ?_ ?_ <;> decide +kernel

/-! ## CounterDump -/

theorem witness_CounterDump_1 : ¬ (∀ (s u : State) (c : Ctl) (k i : Nat), Starts s u c 0x201 → k = c.ring.val → i = ctrNext s k → bits (bodyWord c 0) 7 0 = 0 → bodyWord c 2 ≠ 0 → bodyWord c 2 ≤ 65536 → bodyWord c 1 + bodyWord c 2 ≤ 524288 → False) := by
  intro h
  refine h (ringed) _ (entry [0, 0, 1, 0, 0, 0, 0, 0, 0, 0, 0, 0]) _ _ ⟨?_, ?_, rfl⟩ rfl rfl ?_ ?_ ?_ ?_ <;> decide +kernel

theorem witness_CounterDump_2 : ¬ (∀ (s : State) (k : Fin 64) (index : BitVec 17) (c : CtlCmd) (sp t f n : Nat) (a : W64), pktUp s = true → s.hif.ctl.find? (fun c => c.ring == k.val && c.index == index.toNat && isDump c.work) = some c → c.work = .cntDump sp t f n a → False) := by
  intro h
  refine h { up with hif := { up.hif with ctl := [⟨0, 0, 0, 0, 0, .cntDump 0 0 0 1 0, false⟩] } } 0 0 _ _ 0 0 _ _ ?_ rfl rfl
  decide +kernel

/-! ## ReceiveChecksInOrder -/

theorem witness_ReceiveChecksInOrder_1 : ¬ (∀ (s : State) (p : Fin 16) (frame : List Byte), pktUp s = true → portFormed s p = true → phyOn s p = true → linkSt s p = 4 → looped s p = true → False) := by
  intro h
  refine h (setPort (port 4) 15 { portOf up 15 with loop := 1 }) 15 (frame 60) ?_ ?_ ?_ ?_ ?_ <;> decide +kernel

theorem witness_ReceiveChecksInOrder_2_1 : ¬ (∀ (s : State) (p : Fin 16) (frame : List Byte), pktUp s = true → portFormed s p = true → phyOn s p = true → linkSt s p = 4 → looped s p = false → s.flag F.LPT_CFG_EN p = false → False) := by
  intro h
  refine h (port 4) 15 (frame 60) ?_ ?_ ?_ ?_ ?_ ?_ <;> decide +kernel

theorem witness_ReceiveChecksInOrder_2_2 : ¬ (∀ (s : State) (p : Fin 16) (frame : List Byte), pktUp s = true → portFormed s p = true → phyOn s p = true → linkSt s p = 4 → looped s p = false → ∀ bad : Nat, 0 < bad → s.flag F.LPT_CFG_EN p = true → False) := by
  intro h
  refine h ((port 4).setFlag F.LPT_CFG_EN 15 true) 15 (frame 60) ?_ ?_ ?_ ?_ ?_ 1 ?_ ?_ <;> decide +kernel

theorem witness_ReceiveChecksInOrder_2_3 : ¬ (∀ (s : State) (p : Fin 16) (frame : List Byte), pktUp s = true → portFormed s p = true → phyOn s p = true → linkSt s p = 4 → looped s p = false → s.flag F.LPT_CFG_EN p = true → 4 ≤ frame.length → frame.length < 64 → frame.drop (frame.length - 4) = leBytes 4 (ethFcs (frame.take (frame.length - 4))) → False) := by
  intro h
  refine h ((port 4).setFlag F.LPT_CFG_EN 15 true) 15 (frame 59) ?_ ?_ ?_ ?_ ?_ ?_ ?_ ?_ ?_ <;> decide +kernel

theorem witness_ReceiveChecksInOrder_2_4 : ¬ (∀ (s : State) (p : Fin 16) (frame : List Byte), pktUp s = true → portFormed s p = true → phyOn s p = true → linkSt s p = 4 → looped s p = false → s.flag F.LPT_CFG_EN p = true → 64 ≤ frame.length → maxFrame s p < frame.length → frame.drop (frame.length - 4) = leBytes 4 (ethFcs (frame.take (frame.length - 4))) → False) := by
  intro h
  refine h (((port 4).setFld F.LPT_CFG_MAX_FRAME 15 64).setFlag F.LPT_CFG_EN 15 true) 15 (frame 61) ?_ ?_ ?_ ?_ ?_ ?_ ?_ ?_ ?_ <;> decide +kernel

theorem witness_ReceiveChecksInOrder_2_5 : ¬ (∀ (s : State) (p : Fin 16) (frame : List Byte), pktUp s = true → portFormed s p = true → phyOn s p = true → linkSt s p = 4 → looped s p = false → s.flag F.LPT_CFG_EN p = true → 64 ≤ frame.length → frame.length ≤ maxFrame s p → macCtl frame = none → frame.drop (frame.length - 4) = leBytes 4 (ethFcs (frame.take (frame.length - 4))) → False) := by
  intro h
  refine h ((port 4).setFlag F.LPT_CFG_EN 15 true) 15 (frame 60) ?_ ?_ ?_ ?_ ?_ ?_ ?_ ?_ ?_ ?_ <;> decide +kernel

theorem witness_ReceiveChecksInOrder_2_6 : ¬ (∀ (s : State) (p : Fin 16) (frame : List Byte), pktUp s = true → portFormed s p = true → phyOn s p = true → linkSt s p = 4 → looped s p = false → ∀ op : Nat, s.flag F.LPT_CFG_EN p = true → 64 ≤ frame.length → frame.length ≤ maxFrame s p → macCtl frame = some op → frame.drop (frame.length - 4) = leBytes 4 (ethFcs (frame.take (frame.length - 4))) → False) := by
  intro h
  refine h ((port 4).setFlag F.LPT_CFG_EN 15 true) 15 pauseFrame60 ?_ ?_ ?_ ?_ ?_ 1 ?_ ?_ ?_ ?_ ?_ <;> decide +kernel

/-! ## LinesAndPorts: LinkStates, PortEnablesAndPause, QuadsEyesAndPrbs -/

theorem witness_LinkStates_1 : ¬ (∀ (s u v : State) (p : Fin 16), lineUp s = true → lanePresent s p = true → phyOn s p = false → u = s.setFlag F.LPT_CFG_PHY_EN p true → portFormed u p = true → v = setLanes (setLanes (setLanes u p F.LPT_LANE_PRBS_CTL_GEN_EN false) p F.LPT_LANE_PRBS_CTL_CHK_EN false) p F.LPT_LANE_PRBS_CTL_CHK_LOCK false → False) := by
  intro h
  refine h ((port 0).setFlag F.LPT_CFG_PHY_EN 15 false) _ _ 15 ?_ ?_ ?_ rfl ?_ rfl <;> decide +kernel

theorem witness_LinkStates_2 : ¬ (∀ (s u : State) (p : Fin 16), portFormed s p = true → phyOn s p = true → linkSt s p = 1 → u = setLink (setLanes s p F.LPT_LANE_ADAPT_SIG_DET true) p 2 → False) := by
  intro h
  refine h (port 1) _ 15 ?_ ?_ ?_ rfl <;> decide +kernel

theorem witness_LinkStates_3 : ¬ (∀ (s u : State) (p : Fin 16) (taps : List (BitVec 6 × BitVec 6 × BitVec 6 × BitVec 6)), portFormed s p = true → phyOn s p = true → linkSt s p = 2 → u = setLanes s p F.LPT_LANE_ADAPT_CDR_LOCK true → (portOf u p).anMode ≠ 0 → False) := by
  intro h
  refine h (setPort (port 2) 15 { portOf up 15 with anMode := 1 }) _ 15 [] ?_ ?_ ?_ rfl ?_ <;> decide +kernel

theorem witness_LinkStates_4 : ¬ (∀ (s u : State) (p : Fin 16) (n : Nat), u = advance s n → portFormed u p = true → linkSt u p = 2 → u.fld F.LPT_LINK_CFG_TRAIN_MS p ≠ 0 → u.fld F.LPT_LINK_CFG_TRAIN_MS p * 1000000 * 2 ^ 32 ≤ u.tim.elapsed - (portOf u p).trainAt → False) := by
  intro h
  refine h { (port 2).setFld F.LPT_LINK_CFG_TRAIN_MS 15 1 with tim := { up.tim with elapsed := 1000000 * 2 ^ 32 } } _ 15 0 rfl ?_ ?_ ?_ ?_ <;> decide +kernel

theorem witness_LinkStates_5 : ¬ (∀ (s : State) (p : Fin 16), portFormed s p = true → phyOn s p = true → linkSt s p = 3 → False) := by
  intro h
  refine h (port 3) 15 ?_ ?_ ?_ <;> decide +kernel

theorem witness_LinkStates_6 : ¬ (∀ (s u : State) (p : Fin 16) (part : Option Nat), portFormed s p = true → linkSt s p = 4 → u = txCut (rxCut (s.bump F.LPT_LINK_DOWN_CNT p 1) p part) p → False) := by
  intro h
  refine h (port 4) _ 15 none ?_ ?_ rfl <;> decide +kernel

theorem witness_LinkStates_7 : ¬ (∀ (s : State) (p : Fin 16) (remote : Bool) (part : Option Nat), portFormed s p = true → linkSt s p = 4 → False) := by
  intro h
  refine h (port 4) 15 true none ?_ ?_ <;> decide +kernel

theorem witness_LinkStates_8 : ¬ (∀ (s : State) (p : Fin 16) (remote : Bool) (part : Option Nat), portFormed s p = true → linkSt s p = 5 → False) := by
  intro h
  refine h (port 5) 15 false none ?_ ?_ <;> decide +kernel

theorem witness_LinkStates_9 : ¬ (∀ (s : State) (p : Fin 16), portFormed s p = true → linkSt s p = 5 → False) := by
  intro h
  refine h (port 5) 15 ?_ ?_ <;> decide +kernel

theorem witness_PortEnablesAndPause_1_1 : ¬ (∀ (s u : State) (p : Fin 16), lineUp s = true → lanePresent s p = true → u = s.setFlag F.LPT_CFG_EN p true → portFormed u p = true → False) := by
  intro h
  refine h (port 4) _ 15 ?_ ?_ rfl ?_ <;> decide +kernel

theorem witness_PortEnablesAndPause_1_2 : ¬ (∀ (s u : State) (p : Fin 16), lineUp s = true → lanePresent s p = true → u = s.setFlag F.LPT_CFG_EN p true → portFormed u p = false → False) := by
  intro h
  refine h (up) _ 15 ?_ ?_ rfl ?_ <;> decide +kernel

theorem witness_PortEnablesAndPause_2 : ¬ (∀ (s u : State) (p : Fin 16) (part : Option Nat), lineUp s = true → lanePresent s p = true → s.flag F.LPT_CFG_EN p = true → u = s.setFlag F.LPT_CFG_EN p false → portFormed u p = true → False) := by
  intro h
  refine h ((port 4).setFlag F.LPT_CFG_EN 15 true) _ 15 none ?_ ?_ ?_ rfl ?_ <;> decide +kernel

theorem witness_PortEnablesAndPause_3 : ¬ (∀ (s u : State) (p : Fin 16) (part : Option Nat), lineUp s = true → lanePresent s p = true → phyOn s p = true → u = s.setFlag F.LPT_CFG_PHY_EN p false → portFormed u p = false → False) := by
  intro h
  refine h ((port 4).setFld F.LPT_QUAD_CFG_MODE 3 4) _ 15 none ?_ ?_ ?_ rfl ?_ <;> decide +kernel

theorem witness_PortEnablesAndPause_4 : ¬ (∀ (s u v : State) (p : Fin 16) (part : Option Nat), lineUp s = true → lanePresent s p = true → phyOn s p = true → u = s.setFlag F.LPT_CFG_PHY_EN p false → portFormed u p = true → v = ((setLanes (setLanes (txCut (rxCut u p part) p) p F.LPT_LANE_ADAPT_SIG_DET false) p F.LPT_LANE_ADAPT_CDR_LOCK false).setFlag F.LPT_LINK_LOCAL_FAULT p false).setFlag F.LPT_LINK_REMOTE_FAULT p false → linkSt v p ≠ 0 → False) := by
  intro h
  refine h (port 4) _ _ 15 none ?_ ?_ ?_ rfl ?_ rfl ?_ <;> decide +kernel

theorem witness_PortEnablesAndPause_5 : ¬ (∀ (s u : State) (p : Fin 16) (n : Nat), u = advance s n → portFormed u p = true → False) := by
  intro h
  refine h (port 4) _ 15 0 rfl ?_
  decide +kernel

theorem witness_PortEnablesAndPause_6 : ¬ (∀ (u : State) (p : Nat) (f : TxFrame), txfOf u p = some f → False) := by
  intro h
  refine h { up with egr := { up.egr with txOn := [(15, some ⟨[], false, none⟩)] } } 15 ⟨[], false, none⟩ ?_
  decide +kernel

theorem witness_PortEnablesAndPause_7 : ¬ (∀ (s u : State) (p : Fin 16) (n : Nat), u = advance s n → portUp u p = true → (portOf u p).paused ≠ 0 → max 1000 (u.fld F.LPT_FC_REFRESH_NS p) * 2 ^ 32 ≤ u.tim.elapsed - (portOf u p).pauseAt → False) := by
  intro h
  refine h { setPort ((port 4).setFlag F.LPT_CFG_EN 15 true) 15 { portOf up 15 with paused := 1 } with tim := { up.tim with elapsed := 65536 * 1000 * 2 ^ 32 } } _ 15 0 rfl ?_ ?_ ?_ <;> decide +kernel

theorem witness_QuadsEyesAndPrbs_1 : ¬ (∀ (s : State) (q : Fin 4) (m : BitVec 3), lineUp s = true → quadPresent s q = true → 5 ≤ m.toNat → False) := by
  intro h
  refine h (up) 3 5 ?_ ?_ ?_ <;> decide +kernel

theorem witness_QuadsEyesAndPrbs_2 : ¬ (∀ (s : State) (q : Fin 4) (m : BitVec 3) (p : Nat), lineUp s = true → quadPresent s q = true → p ∈ quadPorts s q → (s.flag F.LPT_CFG_EN p = true ∨ phyOn s p = true ∨ s.flag F.LPT_STS_DRAINED p = false) → False) := by
  intro h
  refine h (port 4) 3 0 15 ?_ ?_ ?_ (.inr (.inl ?_)) <;> decide +kernel

theorem witness_QuadsEyesAndPrbs_3 : ¬ (∀ (s u : State) (q : Fin 4) (m : BitVec 3), lineUp s = true → quadPresent s q = true → m.toNat < 4 → quadIdle s q = true → u = quadSync (s.setFld F.LPT_QUAD_CFG_MODE q m.toNat) q → quadPresent u (if q.val % 2 = 0 then q + 1 else q - 1) = true → ∀ v : State, v = quadSync u (if q.val % 2 = 0 then q + 1 else q - 1) → False) := by
  intro h
  refine h (up) _ 3 3 ?_ ?_ ?_ ?_ rfl ?_ _ rfl <;> decide +kernel

theorem witness_QuadsEyesAndPrbs_4 : ¬ (∀ (s : State) (l : Fin 16), lineUp s = true → lanePresent s l = true → False) := by
  intro h
  refine h (up) 15 ?_ ?_ <;> decide +kernel

theorem witness_QuadsEyesAndPrbs_5 : ¬ (∀ (s : State) (l : Fin 16) (a b c : Byte), lineUp s = true → lanePresent s l = true → s.flag F.LPT_LANE_EYE_CTL_BUSY l = true → False) := by
  intro h
  refine h (up.setFlag F.LPT_LANE_EYE_CTL_BUSY 15 true) 15 0 0 0 ?_ ?_ ?_ <;> decide +kernel

theorem witness_QuadsEyesAndPrbs_6 : ¬ (∀ (s : State) (l : Fin 16) (gen : Bool), lineUp s = true → lanePresent s l = true → prbsOk s l = true → False) := by
  intro h
  refine h (up.setFld F.LPT_QUAD_CFG_MODE 3 1) 15 true ?_ ?_ ?_ <;> decide +kernel

theorem witness_QuadsEyesAndPrbs_7 : ¬ (∀ s : State, ∀ l : Fin 16, lineUp s = true → lanePresent s l = true → False) := by
  intro h
  refine h (up) 15 ?_ ?_ <;> decide +kernel

theorem witness_QuadsEyesAndPrbs_8 : ¬ (∀ (s : State) (l : Fin 16) (gen chk : Bool), lineUp s = true → lanePresent s l = true → (gen || chk) = true → prbsOk s l = false → False) := by
  intro h
  refine h (up) 15 true false ?_ ?_ ?_ ?_ <;> decide +kernel

theorem witness_QuadsEyesAndPrbs_9 : ¬ (∀ (s u : State) (l : Fin 16) (n : Nat), lineUp s = true → lanePresent s l = true → s.flag F.LPT_LANE_PRBS_CTL_CHK_EN l = true → u = (if s.flag F.LPT_LANE_PRBS_CTL_CHK_LOCK l then s else s.setFld F.LPT_LANE_PRBS_ERR_ERRORS l 0) → False) := by
  intro h
  refine h (up.setFlag F.LPT_LANE_PRBS_CTL_CHK_EN 15 true) _ 15 0 ?_ ?_ ?_ rfl <;> decide +kernel

/-! ## RingsAndDoorbells: DoorbellsMoveTheRing, RingEnables -/

theorem witness_DoorbellsMoveTheRing_1 : ¬ (∀ (s u : State) (f : BitVec 9) (ring : BitVec 13) (ix : BitVec 17) (i : Nat), pageUp s f.toNat = true → (fnOf s f.toNat).flr = false → ringFor s 0 f.toNat ring.toNat = some i → u = ringProbe s 0 i → u.flag F.HIF_TXR_CFG_EN i = true → prodOk (ringSize (u.fld F.HIF_TXR_CFG_SIZE_LOG2 i)) (u.fld F.HIF_TXR_STS_CONS i) (u.fld F.HIF_TXR_PROD_PROD i) ix.toNat = true → False) := by
  intro h
  refine h (hosted.setFlag F.HIF_TXR_CFG_EN 0 true) _ 1 0 1 0 ?_ ?_ ?_ rfl ?_ ?_ <;> decide +kernel

theorem witness_DoorbellsMoveTheRing_2 : ¬ (∀ (s u : State) (f : BitVec 9) (ring : BitVec 13) (ix : BitVec 17) (i : Nat), pageUp s f.toNat = true → (fnOf s f.toNat).flr = false → ringFor s 1 f.toNat ring.toNat = some i → u = ringProbe s 1 i → u.flag F.HIF_RXR_CFG_EN i = true → prodOk (ringSize (u.fld F.HIF_RXR_CFG_SIZE_LOG2 i)) (u.fld F.HIF_RXR_STS_CONS i) (u.fld F.HIF_RXR_PROD_PROD i) ix.toNat = true → False) := by
  intro h
  refine h (hosted.setFlag F.HIF_RXR_CFG_EN 0 true) _ 1 0 1 0 ?_ ?_ ?_ rfl ?_ ?_ <;> decide +kernel

theorem witness_DoorbellsMoveTheRing_3 : ¬ (∀ (s u : State) (f : BitVec 9) (ring : BitVec 13) (ix : BitVec 17) (i : Nat), pageUp s f.toNat = true → (fnOf s f.toNat).flr = false → ringFor s 3 f.toNat ring.toNat = some i → u = ringProbe s 3 i → u.flag F.HIF_CTR_CFG_EN i = true → prodOk (ringSize (u.fld F.HIF_CTR_CFG_SIZE_LOG2 i)) (u.fld F.HIF_CTR_STS_CONS i) (u.fld F.HIF_CTR_PROD_PROD i) ix.toNat = true → False) := by
  intro h
  refine h (ringed.setFlag F.HIF_CTR_CFG_EN 0 true) _ 1 0 1 0 ?_ ?_ ?_ rfl ?_ ?_ <;> decide +kernel

theorem witness_DoorbellsMoveTheRing_4 : ¬ (∀ (s v u : State) (f : BitVec 9) (ring : BitVec 13) (ix : BitVec 17) (c : Nat), pageUp s f.toNat = true → (fnOf s f.toNat).flr = false → ringFor s 2 f.toNat ring.toNat = some c → v = ringProbe s 2 c → v.flag F.HIF_CQ_CFG_EN c = true → consOk (ringSize (v.fld F.HIF_CQ_CFG_SIZE_LOG2 c)) (v.fld F.HIF_CQ_STS_PROD c) (v.fld F.HIF_CQ_CONS_CONS c) ix.toNat = true → u = cqStall (v.setFld F.HIF_CQ_CONS_CONS c ix.toNat) c → mget noList u.hif.unread c = [] → False) := by
  intro h
  refine h (hosted.setFlag F.HIF_CQ_CFG_EN 0 true) _ _ 1 0 0 0 ?_ ?_ ?_ rfl ?_ ?_ rfl ?_ <;> decide +kernel

theorem witness_DoorbellsMoveTheRing_5 : ¬ (∀ (s v u : State) (f : BitVec 9) (ring : BitVec 13) (ix : BitVec 17) (arm : Bool) (e : Nat), pageUp s f.toNat = true → (fnOf s f.toNat).flr = false → ringFor s 4 f.toNat ring.toNat = some e → v = ringProbe s 4 e → v.flag F.HIF_EVR_CFG_EN e = true → consOk (ringSize (v.fld F.HIF_EVR_CFG_SIZE_LOG2 e)) (v.fld F.HIF_EVR_STS_PROD e) (v.fld F.HIF_EVR_CONS_CONS e) ix.toNat = true → u = (if arm then (v.setFld F.HIF_EVR_CONS_CONS e ix.toNat).setFlag F.HIF_EVR_STS_ARMED e true else v.setFld F.HIF_EVR_CONS_CONS e ix.toNat) → False) := by
  intro h
  refine h (hosted.setFlag F.HIF_EVR_CFG_EN 0 true) _ _ 1 0 0 true 0 ?_ ?_ ?_ rfl ?_ ?_ rfl <;> decide +kernel

theorem witness_DoorbellsMoveTheRing_6 : ¬ (∀ (s u : State) (f : BitVec 9) (ring : BitVec 13) (ix : BitVec 17) (i : Nat), pageUp s f.toNat = true → (fnOf s f.toNat).flr = false → ringFor s 0 f.toNat ring.toNat = some i → u = ringProbe s 0 i → u.flag F.HIF_TXR_CFG_EN i = false → False) := by
  intro h
  refine h (setUnitErr hosted 11 (arrUnit 4 (ringUnit 0 0)) 2) _ 1 0 0 0 ?_ ?_ ?_ rfl ?_ <;> decide +kernel

theorem witness_DoorbellsMoveTheRing_7 : ¬ (∀ (s : State) (f : BitVec 9) (ring : BitVec 13) (ix : BitVec 17), pageUp s f.toNat = true → ringFor s 0 f.toNat ring.toNat = none → False) := by
  intro h
  refine h (hosted) 1 1 0 ?_ ?_ <;> decide +kernel

theorem witness_RingEnables_1 : ¬ (∀ (s : State) (k : Fin 5) (i : BitVec 12), pktUp s = true → i.toNat < (ringFlds k).count → s.flag (ringFlds k).en i.toNat = false → ringRefused s k i.toNat = false → False) := by
  intro h
  refine h (linked.setFld F.HIF_CTR_CFG_FN 63 1) 3 63 ?_ ?_ ?_ ?_ <;> decide +kernel

theorem witness_RingEnables_2 : ¬ (∀ (s : State) (k : Fin 5) (i : BitVec 12), pktUp s = true → i.toNat < (ringFlds k).count → s.flag (ringFlds k).en i.toNat = false → (fnExists s (s.fld (ringFlds k).fn i.toNat) = false ∨ (fnOf s (s.fld (ringFlds k).fn i.toNat)).flr = true) → False) := by
  intro h
  refine h (linked.setFld F.HIF_CTR_CFG_FN 63 2) 3 63 ?_ ?_ ?_ ?_ <;> decide +kernel

theorem witness_RingEnables_3 : ¬ (∀ (s : State) (i : BitVec 12), pktUp s = true → s.flag F.HIF_TXR_CFG_EN i.toNat = true → s.hif.txDone = [] → False) := by
  intro h
  refine h hosted 0 ?_ ?_ ?_ <;> decide +kernel

/-! ## HostPackets: TransmitPackets, ReceiveDeliveryAndErrors -/

theorem witness_TransmitPackets_1 : ¬ (∀ (s u w v : State) (i : BitVec 12) (descs ds : List TxDesc) (heads : List (BitVec 12 × Nat)), pktUp s = true → txPacketDescs 16 (descs.take (txWaiting s i.toNat)) = some ds → (txCands s).2.all (fun k => k == i.toNat || (headBytes heads k).isSome) = true → txChoose s (fun k => if k = i.toNat then txLen ds else (headBytes heads k).getD 0) = some (i.toNat, u) → (txGood ds = true → ds.all (fun d => d.len != 0) = true) → w = ringProbe u 0 i.toNat → w.flag F.HIF_TXR_CFG_EN i.toNat = true → v = linePauses (txTake w i.toNat ds) → False) := by
  intro h
  refine h ((hosted.setFld F.HIF_TXR_CFG2_REQ 0 128).setFld F.HIF_CQ_CFG_SIZE_LOG2 0 5) _ _ _ 0 [txd] [txd] [] ?_ ?_ ?_ rfl ?_ rfl ?_ rfl <;> decide +kernel

theorem witness_TransmitPackets_2 : ¬ (∀ (s u : State) (i : BitVec 12) (d : TxDone), pktUp s = true → s.hif.txDone.find? (·.ring == i.toNat) = some d → d.cqe = false → d.status = stOk → u = { s with hif := { s.hif with txDone := s.hif.txDone.erase d } }.setFld F.HIF_TXR_STS_CONS i.toNat ((s.fld F.HIF_TXR_STS_CONS i.toNat + d.ndesc) % (2 * ringSize (s.fld F.HIF_TXR_CFG_SIZE_LOG2 i.toNat))) → False) := by
  intro h
  refine h { up with hif := { up.hif with txDone := [⟨0, 1, false, stOk, 64⟩] } } _ 0 _ ?_ rfl ?_ ?_ rfl <;> decide +kernel

theorem witness_TransmitPackets_3 : ¬ (∀ (s u : State) (i : BitVec 12) (d : TxDone) (cons : Nat), pktUp s = true → s.hif.txDone.find? (·.ring == i.toNat) = some d → d.status ≠ stOk → cqReady s (s.fld F.HIF_TXR_CFG2_CQ i.toNat) = true → cons = (s.fld F.HIF_TXR_STS_CONS i.toNat + d.ndesc) % (2 * ringSize (s.fld F.HIF_TXR_CFG_SIZE_LOG2 i.toNat)) → u = { s with hif := { s.hif with txDone := s.hif.txDone.erase d } }.setFld F.HIF_TXR_STS_CONS i.toNat cons → False) := by
  intro h
  refine h { hosted with hif := { hosted.hif with txDone := [⟨0, 1, false, 5, 64⟩] } } _ 0 _ _ ?_ rfl ?_ ?_ rfl rfl <;> decide +kernel

theorem witness_ReceiveDeliveryAndErrors_1 : ¬ (∀ (s v : State) (e : BitVec 14) (descs : List RxDesc) (x : EPkt) (held : Bool) (ch : Chain) (r : Nat), pktUp s = true → rxAtHand s e.toNat = some (x, held) → r = s.fld F.EGR_Q_DEST_DEST e.toNat → v = ringProbe s 1 r → chainAt v x.head = some ch → r = v.fld F.EGR_Q_DEST_DEST x.queue → descs.all (fun d => decide (64 ≤ d.len.toNat) && decide (d.len.toNat ≤ 16384)) = true → v.flag F.HIF_RXR_CFG_EN r = false → False) := by
  intro h
  refine h (setChain { up with egr := { up.egr with held := [(7, true)], queues := [(7, [⟨7, 0, 64, noItem 0, 0, false, 0⟩])] } } 0 (some chain1)) _ 7 [⟨0, 64⟩] _ _ _ _ ?_ rfl ?_ rfl rfl rfl ?_ ?_ <;> decide +kernel

theorem witness_ReceiveDeliveryAndErrors_2 : ¬ (∀ (s v : State) (e : BitVec 14) (descs use : List RxDesc) (x : EPkt) (held : Bool) (ch : Chain) (r f : Nat), pktUp s = true → rxAtHand s e.toNat = some (x, held) → r = s.fld F.EGR_Q_DEST_DEST e.toNat → v = ringProbe s 1 r → chainAt v x.head = some ch → r = v.fld F.EGR_Q_DEST_DEST x.queue → f = v.fld F.HIF_RXR_CFG_FN r → v.flag F.HIF_RXR_CFG_EN r = true → fnExists v f = true → linkUp v (fnLink f) = true → (fnOf v f).flr = false → fnCanDma v f = true → rxBehind v x held = false → cqReady v (v.fld F.HIF_RXR_CFG2_CQ r) = true → descs.all (fun d => decide (64 ≤ d.len.toNat) && decide (d.len.toNat ≤ 16384)) = true → rxBuffers ((descs.take (ringUsed (ringSz v 1 r) (v.fld F.HIF_RXR_PROD_PROD r) (v.fld F.HIF_RXR_STS_CONS r))).take 16) ch.len = some use → ch.carry = false → probeChain v ch 4 0 ch.len = (v, []) → False) := by
  intro h
  refine h (setChain { hosted with egr := { up.egr with held := [(7, true)], queues := [(7, [⟨7, 0, 64, noItem 0, 0, false, 0⟩])] } } 0 (some chain1)) _ 7 [⟨0, 64⟩] _ _ _ _ _ _ ?_ rfl ?_ rfl rfl rfl rfl ?_ ?_ ?_ ?_ ?_ ?_ ?_ ?_ rfl ?_ rfl <;> decide +kernel

theorem witness_ReceiveDeliveryAndErrors_3 : ¬ (∀ (s : State) (i : BitVec 12) (e : BitVec 14) (filled : List RxDesc) (x : EPkt) (held : Bool) (r : Nat), pktUp s = true → rxAtHand s e.toNat = some (x, held) → r = s.fld F.EGR_Q_DEST_DEST e.toNat → s.flag F.HIF_RXR_CFG_EN r = true → fnCanDma s (s.fld F.HIF_RXR_CFG_FN r) = true → False) := by
  intro h
  refine h (setChain { hosted with egr := { up.egr with held := [(7, true)], queues := [(7, [⟨7, 0, 64, noItem 0, 0, false, 0⟩])] } } 0 (some chain1)) 0 7 [] _ _ _ ?_ rfl rfl ?_ ?_ <;> decide +kernel

theorem witness_ReceiveDeliveryAndErrors_4 : ¬ (∀ (s : State) (i : BitVec 12) (e : BitVec 14) (filled : List RxDesc), pktUp s = true → txReady s i.toNat = true → False) := by
  intro h
  refine h hosted 0 0 [] ?_ ?_ <;> decide +kernel

theorem witness_ReceiveDeliveryAndErrors_5 : ¬ (∀ (s : State) (i : BitVec 12) (e : BitVec 14) (filled : List RxDesc), pktUp s = true → s.flag F.HIF_CTR_CFG_EN i.toNat = true → ctrNext s i.toNat ≠ s.fld F.HIF_CTR_PROD_PROD i.toNat → fnCanDma s (s.fld F.HIF_CTR_CFG_FN i.toNat) = true → False) := by
  intro h
  refine h ringed 0 0 [] ?_ ?_ ?_ ?_ <;> decide +kernel

/-! ## FunctionsAndLinks -/

theorem witness_FunctionsAndLinks_1 : ¬ (∀ (s u : State) (c : BitVec 10) (n : Nat), u = advance s n → pktUp u = true → False) := by
  intro h
  refine h (up) _ 0 0 rfl ?_
  decide +kernel

theorem witness_FunctionsAndLinks_2 : ¬ (∀ (s : State) (f : BitVec 9) (v : BitVec 11), mget noBool (fnOf s f.toNat).pba v.toNat = true → fnCanMsg s f.toNat v.toNat = true → False) := by
  intro h
  refine h (setFn linked 1 { fnOf linked 1 with pba := [(3, true)], msixEn := true, fmask := false, vtab := [(15, 0)] }) 1 3 ?_ ?_ <;> decide +kernel

theorem witness_FunctionsAndLinks_3 : ¬ (∀ s : State, pktUp s = true → False) := by
  intro h
  refine h (up) ?_
  decide +kernel

theorem witness_FunctionsAndLinks_4 : ¬ (∀ s : State, pktUp s = true → False) := by
  intro h
  refine h (up) ?_
  decide +kernel

theorem witness_FunctionsAndLinks_6 : ¬ (∀ (s : State) (f : BitVec 9), (fnOf s f.toNat).flr = true → False) := by
  intro h
  refine h (setFn linked 1 { fnOf linked 1 with flr := true }) 1 ?_
  decide +kernel

theorem witness_FunctionsAndLinks_7 : ¬ (∀ (s : State) (f : BitVec 9), fnUp s f.toNat = true → f.toNat % 256 ≠ 0 → False) := by
  intro h
  refine h linked 1 ?_ ?_ <;> decide +kernel

theorem witness_FunctionsAndLinks_8 : ¬ (∀ (s u : State) (h : Fin 2), fnUp s (256 * h.val) = true → mget noBool s.hif.vfEn h.val = true → u = foldS (vfsOf s h.val) (fun u f => flrOne u f false) s → False) := by
  intro h
  refine h { linked with hif := { linked.hif with vfEn := [(0, true)] } } _ 0 ?_ ?_ rfl <;> decide +kernel

theorem witness_FunctionsAndLinks_9 : ¬ (∀ (s : State) (h : Fin 2) (n : Byte), fnUp s (256 * h.val) = true → mget noBool s.hif.vfEn h.val = false → s.hif.bifur = false → n.toNat ≤ 254 → False) := by
  intro h
  refine h linked 0 254 ?_ ?_ ?_ ?_ <;> decide +kernel

theorem witness_FunctionsAndLinks_10 : ¬ (∀ (s : State) (f : BitVec 9) (v : Bool), fnUp s f.toNat = true → (fnOf s f.toNat).flr = false → False) := by
  intro h
  refine h linked 1 false ?_ ?_ <;> decide +kernel

theorem witness_FunctionsAndLinks_11 : ¬ (∀ (s : State) (f : BitVec 9) (en mask : Bool), fnUp s f.toNat = true → (fnOf s f.toNat).flr = false → False) := by
  intro h
  refine h linked 1 true true ?_ ?_ <;> decide +kernel

theorem witness_FunctionsAndLinks_12 : ¬ (∀ s : State, s.rst.aon = true → hostUp s 0 = true → linkUp s 0 = false → s.hif.bifur = false → s.fld F.HIF_LINK_CFG_MAX_SPEED 0 = 0 → False) := by
  intro h
  refine h (up.setFld F.HIF_LINK_CFG_MAX_SPEED 0 0) ?_ ?_ ?_ ?_ ?_ <;> decide +kernel

theorem witness_FunctionsAndLinks_13 : ¬ (∀ (s : State) (h : Fin 2), linkUp s h.val = true → False) := by
  intro h
  refine h linked 1 ?_
  decide +kernel

/-! ## ControlRings: ControlRingsAndCells, ClassesArePermitted -/

theorem witness_ControlRingsAndCells_1 : ¬ (∀ (s u : State) (c : Ctl), Starts s u c 1 → False) := by
  intro h
  refine h (ringed) _ (entry []) ⟨?_, ?_, rfl⟩ <;> decide +kernel

theorem witness_ControlRingsAndCells_2 : ¬ (∀ (s u : State) (c : Ctl) (op : W16), Starts s u c op.toNat → op.toNat ≠ 1 → op.toNat < 0x600 → False) := by
  intro h
  refine h (ringed) _ (entry []) 0x5FF ⟨?_, ?_, rfl⟩ ?_ ?_ <;> decide +kernel

theorem witness_ControlRingsAndCells_3 : ¬ (∀ (s u v : State) (c : Ctl) (cells : List Nat), Starts s u c 0x501 → 128 ≤ bits (bodyWord c 0) 8 0 → bits (bodyWord c 1) 6 0 ≠ 0 → bits (bodyWord c 1) 6 0 ≤ 80 → requestCells u (bits (bodyWord c 0) 8 0) (bits (bodyWord c 1) 6 0) = (some cells, v) → False) := by
  intro h
  refine h (pooled) _ _ (entry [128, 1]) _ ⟨?_, ?_, rfl⟩ ?_ ?_ ?_ rfl <;> decide +kernel

theorem witness_ControlRingsAndCells_4 : ¬ (∀ (s u v : State) (c : Ctl), Starts s u c 0x501 → 128 ≤ bits (bodyWord c 0) 8 0 → bits (bodyWord c 1) 6 0 ≠ 0 → bits (bodyWord c 1) 6 0 ≤ 80 → requestCells u (bits (bodyWord c 0) 8 0) (bits (bodyWord c 1) 6 0) = (none, v) → False) := by
  intro h
  refine h (ringed) _ _ (entry [128, 1]) ⟨?_, ?_, rfl⟩ ?_ ?_ ?_ rfl <;> decide +kernel

theorem witness_ControlRingsAndCells_5 : ¬ (∀ (s u : State) (c : Ctl) (ch : Chain), Starts s u c 0x502 → handleGood u (bodyWord c 0) = true → chainAt u (bodyWord c 0 / 8) = some ch → False) := by
  intro h
  refine h (pooled) _ (entry [0]) chain1 ⟨?_, ?_, rfl⟩ ?_ ?_ <;> decide +kernel

theorem witness_ControlRingsAndCells_6 : ¬ (∀ (s u v : State) (c : Ctl) (ch : Chain) (n : Nat), Starts s u c 0x503 → handleGood u (bodyWord c 0) = true → chainAt u (bodyWord c 0 / 8) = some ch → bits (bodyWord c 1) 13 0 < ch.len → bits (bodyWord c 2) 13 0 ≠ 0 → bits (bodyWord c 2) 13 0 ≤ 10240 → n = min (bits (bodyWord c 2) 13 0) (ch.len - bits (bodyWord c 1) 13 0) → probeChain u ch 5 (bits (bodyWord c 1) 13 0) n = (v, []) → False) := by
  intro h
  refine h (pooled) _ _ (entry [0, 63, 10240]) chain1 1 ⟨?_, ?_, rfl⟩ ?_ ?_ ?_ ?_ ?_ ?_ rfl <;> decide +kernel

theorem witness_ClassesArePermitted : ¬ (∀ (s : State) (c : Ctl) (op : W16) (k : Nat), k = c.ring.val → ctrCanStart s k c.fence = true → op.toNat < 0x600 → bitOf (s.fld F.HIF_CTR_CFG2_PERM k) (op.toNat / 256) = false → False) := by
  intro h
  refine h (ringed.setFld F.HIF_CTR_CFG2_PERM 0 0) (entry []) 0x500 _ rfl ?_ ?_ ?_ <;> decide +kernel

/-! ## PoolsAndParser: PoolsAndSweep, ParserCommands -/

theorem witness_PoolsAndSweep_1 : ¬ (∀ (s : State) (k : Fin 64), pktUp s = true → s.flag F.CRN_POOL_CFG_EN k.val = false → s.fld F.CRN_POOL_SIZE_SIZE k.val = 0 → False) := by
  intro h
  refine h (up) 63 ?_ ?_ ?_ <;> decide +kernel

theorem witness_PoolsAndSweep_2 : ¬ (∀ (s : State) (k : Fin 64), pktUp s = true → s.flag F.CRN_POOL_CFG_EN k.val = false → s.fld F.CRN_POOL_SIZE_SIZE k.val ≠ 0 → s.flag F.CRN_POOL_CFG_SPACE k.val = false → s.flag F.CRN_POOL_STS_DRAINED k.val = false → False) := by
  intro h
  refine h ((up.setFld F.CRN_POOL_SIZE_SIZE 63 1).setFlag F.CRN_POOL_STS_DRAINED 63 false) 63 ?_ ?_ ?_ ?_ ?_ <;> decide +kernel

theorem witness_PoolsAndSweep_3 : ¬ (∀ (s : State) (k : Fin 64), pktUp s = true → s.flag F.CRN_POOL_CFG_EN k.val = false → s.fld F.CRN_POOL_SIZE_SIZE k.val ≠ 0 → (s.flag F.CRN_POOL_CFG_SPACE k.val = false ∨ s.flag F.CRN_DRAM_CFG_EN 0 = true) → s.flag F.CRN_POOL_STS_DRAINED k.val = true → poolOverlaps s k.val = false → False) := by
  intro h
  refine h ((up.setFld F.CRN_POOL_SIZE_SIZE 63 1).setFld F.CRN_POOL_CFG_BASE 63 524287) 63 ?_ ?_ ?_ ?_ ?_ ?_ <;> decide +kernel

theorem witness_PoolsAndSweep_4 : ¬ (∀ (s u : State) (k : Fin 64), pktUp s = true → s.flag F.CRN_POOL_CFG_EN k.val = true → u = s.setFlag F.CRN_POOL_CFG_EN k.val false → u.flag F.CRN_POOL_CFG_EN k.val = false → u.fld F.CRN_POOL_STS_FREE k.val = u.fld F.CRN_POOL_SIZE_SIZE k.val → False) := by
  intro h
  refine h ((up.setFlag F.CRN_POOL_CFG_EN 63 true).setFld F.CRN_POOL_SIZE_SIZE 63 0) _ 63 ?_ ?_ rfl ?_ ?_ <;> decide +kernel

theorem witness_PoolsAndSweep_5 : ¬ (∀ (s u : State) (k : Fin 64), pktUp s = true → s.flag F.CRN_POOL_CFG_EN k.val = true → u = s.setFlag F.CRN_POOL_CFG_EN k.val false → u.fld F.CRN_POOL_STS_FREE k.val ≠ u.fld F.CRN_POOL_SIZE_SIZE k.val → False) := by
  intro h
  refine h pooled _ 0 ?_ ?_ rfl ?_ <;> decide +kernel

theorem witness_PoolsAndSweep_6 : ¬ (∀ (s u : State) (n : Fin 32), pktUp s = true → mget noBool s.crn.sweep n.val = true → u = foldS (ownedBy s (32 + n.val)) (fun u h => unref (disown u h) h) s → False) := by
  intro h
  refine h { pooled with crn := { pooled.crn with sweep := [(31, true)] } } _ 31 ?_ ?_ rfl <;> decide +kernel

theorem witness_PoolsAndSweep_7 : ¬ (∀ (s : State) (r : BitVec 9), pktUp s = true → False) := by
  intro h
  refine h (up) 0 ?_
  decide +kernel

theorem witness_ParserCommands_1 : ¬ (∀ (s : State) (x : PIn), pktUp s = true → s.flag F.PRS_CTL_EN 0 = true → nextPIn s = some x → False) := by
  intro h
  refine h { up.setFlag F.PRS_CTL_EN 0 true with prs := { up.prs with waiting := [⟨1, 16, 0, 0, 0, 0, false, 0, 0⟩] } } _ ?_ ?_ rfl <;> decide +kernel

theorem witness_ParserCommands_2 : ¬ (∀ s : State, pktUp s = true → False) := by
  intro h
  refine h (up) ?_
  decide +kernel

theorem witness_ParserCommands_3 : ¬ (∀ s u : State, pktUp s = true → u = (s.setFlag F.PRS_CTL_EN 0 false).setFlag F.PRS_STS_DRAINED 0 true → False) := by
  intro h
  refine h (up) _ ?_ rfl
  decide +kernel

theorem witness_ParserCommands_4 : ¬ (∀ s : State, pktUp s = true → s.flag F.PRS_CTL_GRAPH_REQ 0 = false → False) := by
  intro h
  refine h (up) ?_ ?_ <;> decide +kernel

theorem witness_ParserCommands_5 : ¬ (∀ s : State, pktUp s = true → s.flag F.PRS_CTL_CLS_REQ 0 = false → False) := by
  intro h
  refine h (up) ?_ ?_ <;> decide +kernel

theorem witness_ParserCommands_6 : ¬ (∀ s : State, pktUp s = true → s.prs.joint = false → s.flag F.PRS_CTL_EN 0 = true → s.flag F.PRS_CTL_GRAPH_REQ 0 = true → False) := by
  intro h
  refine h ((up.setFlag F.PRS_CTL_EN 0 true).setFlag F.PRS_CTL_GRAPH_REQ 0 true) ?_ ?_ ?_ ?_ <;> decide +kernel

theorem witness_ParserCommands_7 : ¬ (∀ s : State, pktUp s = true → s.prs.joint = false → s.flag F.PRS_CTL_EN 0 = true → s.flag F.PRS_CTL_CLS_REQ 0 = true → False) := by
  intro h
  refine h ((up.setFlag F.PRS_CTL_EN 0 true).setFlag F.PRS_CTL_CLS_REQ 0 true) ?_ ?_ ?_ ?_ <;> decide +kernel

/-! ## TablesLookupsAndAgeing: TablesAndLookups, LearningAndAgeing -/

theorem witness_TablesAndLookups_1 : ¬ (∀ (s u : State) (t : Fin 64), pktUp s = true → s.flag F.AGT_TBL_CFG_EN t.val = false → s.flag F.AGT_TBL_STS_DRAINED t.val = true → tblRefused s t.val = false → tblClash s t.val = false → u = ((tblClear s t.val).setFlag F.AGT_TBL_CFG_EN t.val true).setFlag F.AGT_TBL_STS_DRAINED t.val false → False) := by
  intro h
  refine h (((((up.setFlag F.AGT_CTL_EN 0 true).setFld F.AGT_TBL_CFG_TYPE 63 2).setFld F.AGT_TBL_SIZE_SIZE 63 1).setFld F.AGT_TBL_CFG_KEY_LEN 63 4).setFld F.AGT_TBL_OBLK_NBLK 63 1) _ 63 ?_ ?_ ?_ ?_ ?_ rfl <;> decide +kernel

theorem witness_TablesAndLookups_2 : ¬ (∀ (s : State) (t : Fin 64), pktUp s = true → s.flag F.AGT_TBL_CFG_EN t.val = false → s.flag F.AGT_TBL_STS_DRAINED t.val = true → tblType s t.val = 3 → False) := by
  intro h
  refine h (up.setFld F.AGT_TBL_CFG_TYPE 63 3) 63 ?_ ?_ ?_ ?_ <;> decide +kernel

theorem witness_TablesAndLookups_3 : ¬ (∀ (s : State) (t : Fin 64), pktUp s = true → False) := by
  intro h
  refine h (up) 0 ?_
  decide +kernel

theorem witness_TablesAndLookups_4 : ¬ (∀ (s u v : State) (t : Fin 64), pktUp s = true → s.flag F.AGT_TBL_CFG_EN t.val = true → s.agt.learnq = [] → u = flushEnd (setCursor (s.setFlag F.AGT_TBL_CFG_EN t.val false) t.val none) t.val → u.agt.learnq = [] → v = { u with agt := { u.agt with agePos := mset noPos u.agt.agePos t.val none } } → False) := by
  intro h
  refine h (tabled 2) _ _ 63 ?_ ?_ ?_ rfl ?_ rfl <;> decide +kernel

theorem witness_TablesAndLookups_5 : ¬ (∀ (s u v : State) (j : Nat) (k : Lkp) (r : Resp), pktUp s = true → s.agt.lookups[j]? = some k → k.absent = false → k.stuck = false → u = { s with agt := { s.agt with lookups := s.agt.lookups.eraseIdx j } } → lookupResp u k = (r, v) → False) := by
  intro h
  refine h { tabled 2 with agt := { up.agt with lookups := [⟨63, [0, 0, 0, 9], 0, false, 0, false, 0, false, none, false⟩] } } _ _ 0 ⟨63, [0, 0, 0, 9], 0, false, 0, false, 0, false, none, false⟩ _ ?_ ?_ ?_ ?_ rfl (pair0 _) <;> decide +kernel

theorem witness_TablesAndLookups_6 : ¬ (∀ s : State, pktUp s = true → False) := by
  intro h
  refine h (up) ?_
  decide +kernel

theorem witness_TablesAndLookups_7 : ¬ (∀ s : State, pktUp s = true → s.flag F.AGT_CTL_FC_FLUSH 0 = true → False) := by
  intro h
  refine h (up.setFlag F.AGT_CTL_FC_FLUSH 0 true) ?_ ?_ <;> decide +kernel

theorem witness_TablesAndLookups_8 : ¬ (∀ (s : State) (t : Fin 64), pktUp s = true → mget noBool s.agt.fcInv t.val = true → False) := by
  intro h
  refine h { up with agt := { up.agt with fcInv := [(63, true)] } } 63 ?_ ?_ <;> decide +kernel

theorem witness_LearningAndAgeing_1 : ¬ (∀ (s u : State) (r : LearnReq) (l : List LearnReq), pktUp s = true → s.agt.learnq = r :: l → u = { s with agt := { s.agt with learnq := l } } → u.flag F.AGT_TBL_CFG_EN r.table = false → False) := by
  intro h
  refine h { up with agt := { up.agt with learnq := [⟨63, [], 0, 0⟩] } } _ _ _ ?_ rfl rfl ?_ <;> decide +kernel

theorem witness_LearningAndAgeing_2 : ¬ (∀ (s u v : State) (r : LearnReq) (l : List LearnReq) (loc : Nat), pktUp s = true → s.agt.learnq = r :: l → u = { s with agt := { s.agt with learnq := l } } → u.flag F.AGT_TBL_CFG_EN r.table = true → u.flag F.AGT_TBL_STS_INIT r.table = false → emSeek u r.table r.key = (v, some loc) → entSrc (emRaw v r.table loc) = r.srcport.toNat → False) := by
  intro h
  refine h { entered false with agt := { (entered false).agt with learnq := [⟨63, [1, 2, 3, 4], 9, 7⟩] } } _ _ ⟨63, [1, 2, 3, 4], 9, 7⟩ [] 0 ?_ ?_ rfl ?_ ?_ (emSeek_one ?_ ?_ ?_ ?_) ?_ <;> decide +kernel

theorem witness_LearningAndAgeing_3 : ¬ (∀ (s u v : State) (r : LearnReq) (l : List LearnReq) (loc : Nat), pktUp s = true → s.agt.learnq = r :: l → u = { s with agt := { s.agt with learnq := l } } → u.flag F.AGT_TBL_CFG_EN r.table = true → u.flag F.AGT_TBL_STS_INIT r.table = false → emSeek u r.table r.key = (v, some loc) → entSrc (emRaw v r.table loc) ≠ r.srcport.toNat → entStatic (emRaw v r.table loc) = true → False) := by
  intro h
  refine h { entered true with agt := { (entered true).agt with learnq := [⟨63, [1, 2, 3, 4], 9, 8⟩] } } _ _ ⟨63, [1, 2, 3, 4], 9, 8⟩ [] 0 ?_ ?_ rfl ?_ ?_ (emSeek_one ?_ ?_ ?_ ?_) ?_ ?_ <;> decide +kernel

theorem witness_LearningAndAgeing_4 : ¬ (∀ (s u : State) (t : Fin 64) (key : List Byte) (n : Nat), u = advance s n → pktUp u = true → windowOpen u t.val key = false → False) := by
  intro h
  refine h (up) _ 63 [] 0 rfl ?_ ?_ <;> decide +kernel

theorem witness_LearningAndAgeing_5 : ¬ (∀ (s u : State) (t : Fin 64) (n : Nat), u = advance s n → pktUp u = true → tblLive u t.val = true → u.flag F.AGT_TBL_STS_INIT t.val = false → tblType u t.val = 0 → u.flag F.AGT_TBL_CFG_AGE_EN t.val = true → agePeriod u t.val ≠ 0 → mget noPos u.agt.agePos t.val = none → mget noNat u.agt.ageDue t.val ≤ u.tim.elapsed → False) := by
  intro h
  refine h (((tabled 0).setFlag F.AGT_TBL_CFG_AGE_EN 63 true).setFld F.AGT_TBL_AGE_PERIOD_MS 63 1) _ 63 0 rfl ?_ ?_ ?_ ?_ ?_ ?_ ?_ ?_ <;> decide +kernel

theorem witness_LearningAndAgeing_6_1 : ¬ (∀ (s u : State) (t : Fin 64) (n : Nat) (p : AgePass), u = advance s n → pktUp u = true → mget noPos u.agt.agePos t.val = some p → u.flag F.AGT_TBL_CFG_AGE_EN t.val = true → (liveLocs u t.val).find? (fun l => decide (p.pos ≤ l)) = none → p.start + p.period * p.count / max 1 p.count ≤ u.tim.elapsed → False) := by
  intro h
  refine h { (tabled 0).setFlag F.AGT_TBL_CFG_AGE_EN 63 true with agt := { up.agt with agePos := [(63, some ⟨0, 0, 0, 0, 0⟩)] } } _ 63 0 _ rfl ?_ rfl ?_ ?_ ?_ <;> decide +kernel

theorem witness_LearningAndAgeing_6_2 : ¬ (∀ (s u : State) (t : Fin 64) (n : Nat) (p : AgePass), u = advance s n → pktUp u = true → mget noPos u.agt.agePos t.val = some p → u.flag F.AGT_TBL_CFG_AGE_EN t.val = true → (liveLocs u t.val).find? (fun l => decide (p.pos ≤ l)) = none → u.tim.elapsed < p.start + p.period * p.count / max 1 p.count → False) := by
  intro h
  refine h { (tabled 0).setFlag F.AGT_TBL_CFG_AGE_EN 63 true with agt := { up.agt with agePos := [(63, some ⟨0, 0, 0, 1, 1⟩)] } } _ 63 0 _ rfl ?_ rfl ?_ ?_ ?_ <;> decide +kernel

theorem witness_LearningAndAgeing_7_1 : ¬ (∀ (s u : State) (t : Fin 64) (n l : Nat) (p q : AgePass), u = advance s n → pktUp u = true → mget noPos u.agt.agePos t.val = some p → u.flag F.AGT_TBL_CFG_AGE_EN t.val = true → (liveLocs u t.val).find? (fun l => decide (p.pos ≤ l)) = some l → q = ⟨l + 1, if l < tblSize u t.val then p.slots else p.slots + 1, p.start + (u.tim.elapsed - ageTime p (agePlace u t.val p l)), p.period, p.count⟩ → u.tim.elapsed < ageTime p (agePlace u t.val p l) → False) := by
  intro h
  refine h { (entered false).setFlag F.AGT_TBL_CFG_AGE_EN 63 true with agt := { (entered false).agt with agePos := [(63, some ⟨0, 0, 8, 8, 1⟩)] } } _ 63 0 0 _ _ rfl ?_ rfl ?_ ?_ rfl ?_ <;> decide +kernel

theorem witness_LearningAndAgeing_7_2 : ¬ (∀ (s u : State) (t : Fin 64) (n l : Nat) (p q : AgePass), u = advance s n → pktUp u = true → mget noPos u.agt.agePos t.val = some p → u.flag F.AGT_TBL_CFG_AGE_EN t.val = true → (liveLocs u t.val).find? (fun l => decide (p.pos ≤ l)) = some l → q = ⟨l + 1, if l < tblSize u t.val then p.slots else p.slots + 1, p.start + (u.tim.elapsed - ageTime p (agePlace u t.val p l)), p.period, p.count⟩ → ∀ v : State, ageTime p (agePlace u t.val p l) ≤ u.tim.elapsed → v = { u with agt := { u.agt with agePos := mset noPos u.agt.agePos t.val (some q) } } → False) := by
  intro h
  refine h { (entered false).setFlag F.AGT_TBL_CFG_AGE_EN 63 true with agt := { (entered false).agt with agePos := [(63, some ⟨0, 0, 0, 8, 1⟩)] } } _ 63 0 0 _ _ rfl ?_ rfl ?_ ?_ rfl _ ?_ rfl <;> decide +kernel

theorem witness_LearningAndAgeing_8_1 : ¬ (∀ (v : State) (t l : Nat), (locInDram v t l = true → tagProbe v 2 t (l / 4) = (v, false)) → (locInDram v t l = false → visitProbe v t l = (v, false)) → emHit v t l = true → False) := by
  intro h
  refine h (setHit (entered false) 63 0 true) 63 0 (fun c => absurd c ?_) (fun _ => rfl) ?_ <;> decide +kernel

theorem witness_LearningAndAgeing_8_2 : ¬ (∀ (v : State) (t l : Nat), (locInDram v t l = true → tagProbe v 2 t (l / 4) = (v, false)) → (locInDram v t l = false → visitProbe v t l = (v, false)) → emHit v t l = false → entStatic (emRaw v t l) = false → entFrozen (emRaw v t l) = false → False) := by
  intro h
  refine h (entered false) 63 0 (fun c => absurd c ?_) (fun _ => rfl) ?_ ?_ ?_ <;> decide +kernel

theorem witness_LearningAndAgeing_8_3 : ¬ (∀ (v : State) (t l : Nat), (locInDram v t l = true → tagProbe v 2 t (l / 4) = (v, false)) → (locInDram v t l = false → visitProbe v t l = (v, false)) → emHit v t l = false → entStatic (emRaw v t l) = true → False) := by
  intro h
  refine h (entered true) 63 0 (fun c => absurd c ?_) (fun _ => rfl) ?_ ?_ <;> decide +kernel

/-! ## TableEntries: TableEntryCommands, TableWalkCommands -/

theorem witness_TableEntryCommands_1 : ¬ (∀ (s u x v : State) (c : Ctl) (img : List Byte) (t l n : Nat) (e : Item) (m : Nat) (st b : Bool), Class1 s u c 0x101 t 0 → e = imageOf img → n = tblKeyLen u t → emSeek u t (entKey e n) = (x, none) → emInsert x t (mkEntry (entStatic e) (entFrozen e) n (entSrc e) (tblGen x t) 0 (entKey e n) (entAction e)) = (⟨some l, m, st, b⟩, v) → False) := by
  intro h
  refine h (tabled 0) _ _ _ (tcmd 0 0 0 0) (List.replicate 8 0 ++ [1, 2, 3, 4]) _ 0 _ _ 0 false false ⟨⟨?_, ?_, rfl⟩, rfl, ?_, ?_, ?_⟩ rfl rfl (emSeek_one ?_ ?_ ?_ ?_) (emInsert_one ?_ ?_) <;> decide +kernel

theorem witness_TableEntryCommands_2 : ¬ (∀ (s u v : State) (c : Ctl) (img : List Byte) (t l : Nat), Class1 s u c 0x101 t 0 → emSeek u t (entKey (imageOf img) (tblKeyLen u t)) = (v, some l) → False) := by
  intro h
  refine h (entered true) _ _ (tcmd 0 0 0 0) (List.replicate 8 0 ++ [1, 2, 3, 4]) _ 0 ⟨⟨?_, ?_, rfl⟩, rfl, ?_, ?_, ?_⟩ (emSeek_one ?_ ?_ ?_ ?_) <;> decide +kernel

theorem witness_TableEntryCommands_3 : ¬ (∀ (s u x v : State) (c : Ctl) (img : List Byte) (t : Nat) (p : Prefix), Class1 s u c 0x101 t 1 → plenOk u t img = true → p = imagePfx u t img → findPfx u t p = (x, none) → (pfxAll x t).length < lpmCap x t → v = putPfx x t p (pfxInsert p (pfxAll x t)) → False) := by
  intro h
  refine h ((tabled 1).setFld F.AGT_TBL_OBLK_NBLK 63 1) _ _ _ (tcmd 0 0 0 0) (leBytes 4 32) _ _ ⟨⟨?_, ?_, rfl⟩, rfl, ?_, ?_, ?_⟩ ?_ rfl rfl ?_ rfl <;> decide +kernel

theorem witness_TableEntryCommands_4 : ¬ (∀ (s u v : State) (c : Ctl) (img : List Byte) (t : Nat), Class1 s u c 0x101 t 2 → cmdLoc c < tblSize u t → v = dirPut u t (cmdLoc c) img → False) := by
  intro h
  refine h (tabled 2) _ _ (tcmd 0 3 0 0) [1, 2, 3, 4] _ ⟨⟨?_, ?_, rfl⟩, rfl, ?_, ?_, ?_⟩ ?_ rfl <;> decide +kernel

theorem witness_TableEntryCommands_5 : ¬ (∀ (s u x v : State) (c : Ctl) (img : List Byte) (t l : Nat) (e m : Item), Class1 s u c 0x102 t 0 → (cmdBit c 14 = false ∨ locOk u t (cmdLoc c) = true) → cmdEntry c u img = (x, some l) → e = emRaw x t l → m = imageOf img → cmdBit c 16 = true → cmdBit c 17 = false → cmdBit c 18 = false → cmdBit c 19 = false → v = emRewrite x t l (entStatic e) (entFrozen e) (entSrc e) (tblGen x t) (entMoves e) (entAction m) (emHit x t l) → False) := by
  intro h
  refine h (entered true) _ _ _ (tcmd 0x10000 0 0 0) (List.replicate 8 0 ++ [1, 2, 3, 4]) _ 0 _ _ ⟨⟨?_, ?_, rfl⟩, rfl, ?_, ?_, ?_⟩ ?_ (cmdEntry_one ?_ ?_ ?_ ?_ ?_) rfl rfl ?_ ?_ ?_ ?_ rfl <;> decide +kernel

theorem witness_TableEntryCommands_6 : ¬ (∀ (s u x v : State) (c : Ctl) (img : List Byte) (t : Nat) (q : Prefix), Class1 s u c 0x102 t 1 → plenOk u t img = true → findPfx u t (imagePfx u t img) = (x, some q) → cmdBit c 16 = true → v = putPfx x t q ((pfxAll x t).map (fun y => if y == q then { q with result := (imagePfx x t img).result } else y)) → False) := by
  intro h
  refine h { tabled 1 with agt := { up.agt with lpm := [(63, [⟨0, 0, 5, 0⟩])] } } _ _ _ (tcmd 0x10000 0 0 0) [] _ _ ⟨⟨?_, ?_, rfl⟩, rfl, ?_, ?_, ?_⟩ ?_ rfl ?_ rfl <;> decide +kernel

theorem witness_TableEntryCommands_7 : ¬ (∀ (s u x v : State) (c : Ctl) (img : List Byte) (t l : Nat), Class1 s u c 0x103 t 0 → (cmdBit c 14 = false ∨ locOk u t (cmdLoc c) = true) → cmdEntry c u img = (x, some l) → v = emDelete x t l → False) := by
  intro h
  refine h (entered true) _ _ _ (tcmd 0 0 0 0) (List.replicate 8 0 ++ [1, 2, 3, 4]) _ 0 ⟨⟨?_, ?_, rfl⟩, rfl, ?_, ?_, ?_⟩ ?_ (cmdEntry_one ?_ ?_ ?_ ?_ ?_) rfl <;> decide +kernel

theorem witness_TableEntryCommands_8 : ¬ (∀ (s u x v : State) (c : Ctl) (img : List Byte) (t : Nat) (q : Prefix), Class1 s u c 0x103 t 1 → plenOk u t img = true → findPfx u t (imagePfx u t img) = (x, some q) → v = dropPfx x t q → False) := by
  intro h
  refine h { tabled 1 with agt := { up.agt with lpm := [(63, [⟨0, 0, 5, 0⟩])] } } _ _ _ (tcmd 0 0 0 0) [] _ _ ⟨⟨?_, ?_, rfl⟩, rfl, ?_, ?_, ?_⟩ ?_ rfl rfl <;> decide +kernel

theorem witness_TableEntryCommands_9 : ¬ (∀ (s u x v : State) (c : Ctl) (img : List Byte) (t l : Nat), Class1 s u c 0x104 t 0 → (cmdBit c 14 = false ∨ locOk u t (cmdLoc c) = true) → cmdEntry c u img = (x, some l) → v = hostWrite x (s.fld F.HIF_CTR_CFG_FN c.ring.val) (cmdAddr c) (itemBytes (emImage x t l)) → False) := by
  intro h
  refine h (entered true) _ _ _ (tcmd 0 0 0 0) (List.replicate 8 0 ++ [1, 2, 3, 4]) _ 0 ⟨⟨?_, ?_, rfl⟩, rfl, ?_, ?_, ?_⟩ ?_ (cmdEntry_one ?_ ?_ ?_ ?_ ?_) rfl <;> decide +kernel

theorem witness_TableEntryCommands_10 : ¬ (∀ (s u v : State) (c : Ctl) (img : List Byte) (t : Nat), Class1 s u c 0x104 t 0 → (cmdBit c 14 = false ∨ locOk u t (cmdLoc c) = true) → cmdEntry c u img = (v, none) → False) := by
  intro h
  refine h (tabled 0) _ _ (tcmd 0 0 0 0) (List.replicate 8 0 ++ [1, 2, 3, 4]) _ ⟨⟨?_, ?_, rfl⟩, rfl, ?_, ?_, ?_⟩ ?_ (cmdEntry_one ?_ ?_ ?_ ?_ ?_) <;> decide +kernel

theorem witness_TableWalkCommands_1 : ¬ (∀ (s u v : State) (c : Ctl) (t pos done : Nat) (bs : List Byte), Class1 s u c 0x105 t 0 → cmdBit c 15 = true → mget noCursor u.agt.cursors t = none → 1 ≤ bits (bodyWord c 3) 8 0 → bits (bodyWord c 3) 8 0 ≤ 256 → emRecords u t ((liveLocs u t).filter (fun l => decide (0 ≤ l))) (bits (bodyWord c 3) 8 0) 0 [] 0 = (pos, bs, done, v) → False) := by
  intro h
  refine h (entered false) _ _ (tcmd 0x8000 0 0 256) _ _ _ _ ⟨⟨?_, ?_, rfl⟩, rfl, ?_, ?_, ?_⟩ ?_ ?_ ?_ ?_ rfl <;> decide +kernel

theorem witness_TableWalkCommands_2 : ¬ (∀ (s u : State) (c : Ctl) (t : Nat), Class1 s u c 0x105 t 0 → cmdBit c 15 = false → mget noCursor u.agt.cursors t = none → 1 ≤ bits (bodyWord c 3) 8 0 → bits (bodyWord c 3) 8 0 ≤ 256 → False) := by
  intro h
  refine h (tabled 0) _ (tcmd 0 0 0 1) _ ⟨⟨?_, ?_, rfl⟩, rfl, ?_, ?_, ?_⟩ ?_ ?_ ?_ ?_ <;> decide +kernel

theorem witness_TableWalkCommands_3 : ¬ (∀ (s u v : State) (c : Ctl) (t : Nat), Class1 s u c 0x106 t 0 → mget noFlush u.agt.flushes t = none → bits (bodyWord c 0) 29 28 = 3 → v = u.setFld F.AGT_TBL_GEN_GEN t (tblGen u t + 1) → False) := by
  intro h
  refine h (tabled 0) _ _ (tcmd 0x30000000 0 0 1) _ ⟨⟨?_, ?_, rfl⟩, rfl, ?_, ?_, ?_⟩ ?_ ?_ rfl <;> decide +kernel

theorem witness_TableWalkCommands_4 : ¬ (∀ (s u : State) (c : Ctl) (t : Nat), Class1 s u c 0x106 t 0 → mget noFlush u.agt.flushes t = none → bits (bodyWord c 0) 29 28 = 0 → False) := by
  intro h
  refine h (tabled 0) _ (tcmd 0 0 0 1) _ ⟨⟨?_, ?_, rfl⟩, rfl, ?_, ?_, ?_⟩ ?_ ?_ <;> decide +kernel

theorem witness_TableWalkCommands_5 : ¬ (∀ (s u v : State) (c : Ctl) (t ty : Nat), ty ≤ 2 → Class1 s u c 0x107 t ty → v = setCursor u t none → False) := by
  intro h
  refine h (tabled 2) _ _ (tcmd 0 0 0 1) _ 2 ?_ ⟨⟨?_, ?_, rfl⟩, rfl, ?_, ?_, ?_⟩ rfl <;> decide +kernel

theorem witness_TableWalkCommands_6 : ¬ (∀ (s u v w : State) (c : Ctl) (t : Nat), Class1 s u c 0x108 t 0 → cmdLoc c < tblSize u t → locListed u t (cmdLoc c) = true → v = setHit (emPut u t (cmdLoc c) 0) t (cmdLoc c) false → w = { v with agt := { v.agt with listed := v.agt.listed.filter (· != (t, cmdLoc c)) } } → False) := by
  intro h
  refine h { tabled 0 with agt := { up.agt with listed := [(63, 3)] } } _ _ _ (tcmd 0 3 0 1) _ ⟨⟨?_, ?_, rfl⟩, rfl, ?_, ?_, ?_⟩ ?_ ?_ rfl rfl <;> decide +kernel

theorem witness_TableWalkCommands_7_1 : ¬ (∀ (s u : State) (t : Fin 64) (p : FlushPass) (l : Nat), pktUp s = true → mget noFlush s.agt.flushes t.val = some p → tblType s t.val = 0 → flushNextLoc s t.val p = some l → visitProbe s t.val l = (u, false) → flushSelects p (emRaw u t.val l) = true → False) := by
  intro h
  refine h { entered false with agt := { (entered false).agt with flushes := [(63, some ⟨0, 0, 0, false, 0, none, 0⟩)] } } _ 63 _ _ ?_ rfl ?_ rfl rfl ?_ <;> decide +kernel

theorem witness_TableWalkCommands_7_2 : ¬ (∀ (s u : State) (t : Fin 64) (p : FlushPass) (l : Nat), pktUp s = true → mget noFlush s.agt.flushes t.val = some p → tblType s t.val = 0 → flushNextLoc s t.val p = some l → visitProbe s t.val l = (u, false) → flushSelects p (emRaw u t.val l) = false → False) := by
  intro h
  refine h { entered true with agt := { (entered true).agt with flushes := [(63, some ⟨0, 0, 0, false, 0, none, 0⟩)] } } _ 63 _ _ ?_ rfl ?_ rfl rfl ?_ <;> decide +kernel

theorem witness_TableWalkCommands_8 : ¬ (∀ (s u : State) (t : Fin 64) (p : FlushPass) (c : CtlCmd), pktUp s = true → mget noFlush s.agt.flushes t.val = some p → flushOver s t.val p = true → flushCmd s t.val = some c → u = { s with agt := { s.agt with flushes := mset noFlush s.agt.flushes t.val none } } → False) := by
  intro h
  refine h { tabled 0 with agt := { up.agt with flushes := [(63, some ⟨0, 0, 0, false, 0, none, 0⟩)] }, hif := { ringed.hif with ctl := [⟨0, 0, 0, 0, 1, .tblFlush 63, false⟩] } } _ 63 _ _ ?_ rfl ?_ rfl rfl <;> decide +kernel

theorem witness_TableWalkCommands_9 : ¬ (∀ (s u : State) (t : Fin 64) (n : Nat) (k : Cursor), u = advance s n → pktUp u = true → mget noCursor u.agt.cursors t.val = some k → 1000000000 * 2 ^ 32 ≤ u.tim.elapsed - k.at_ → False) := by
  intro h
  refine h { tabled 0 with agt := { up.agt with cursors := [(63, some ⟨0, none, 0⟩)] }, tim := { up.tim with elapsed := 1000000000 * 2 ^ 32 } } _ 63 0 _ rfl ?_ rfl ?_ <;> decide +kernel

/-! ## OrreryQueues: DispatchRefillAndSkip, OrreryDisables -/

theorem witness_DispatchRefillAndSkip_1 : ¬ (∀ (s u : State) (g : Fin 64) (n p q t left : Nat) (turn : Nat) (x : QItem), u = advance s n → pktUp u = true → dispQueue u g.val = some (p, q, turn, left) → eligible u q = some x → dispTarget u g.val = some t → unitErr u 11 x.uid = 0 → False) := by
  intro h
  refine h queued _ 63 0 _ _ _ _ _ _ rfl ?_ rfl rfl rfl ?_ <;> decide +kernel

theorem witness_DispatchRefillAndSkip_2 : ¬ (∀ (s u v : State) (q : Nat) (x : QItem) (r : List QItem), pktUp s = true → slotsFree s ≠ 0 → (rotateAfter (refillable s) s.ory.refilled).head? = some q → spillQ s q = x :: r → spillProbe s q = (false, u) → v = { setSpill u q r with ory := { (setSpill u q r).ory with refilled := q } } → False) := by
  intro h
  refine h { (queued.setFlag F.ORY_Q_CFG_POLICY 4095 true).setFld F.ORY_Q_ONCHIP_ONCHIP_MAX 4095 2 with ory := { queued.ory with spill := [(4095, [qi])] } } _ _ 4095 qi [] ?_ ?_ ?_ ?_ (pair _ ?_) rfl <;> decide +kernel

theorem witness_DispatchRefillAndSkip_3 : ¬ (∀ (s u : State) (d : BitVec 14) (n t e : Nat) (x : Tag), u = advance s n → (domTags u d.toNat).head? = some t → tagOf u t = some x → pktUp u = true → u.fld F.ORY_DOM_CFG_HOLD_LIMIT 0 ≠ 0xFFFFFFFF → x.heldFrom = some e → max 1 (u.fld F.ORY_DOM_CFG_HOLD_LIMIT 0 * 2 ^ 32) ≤ u.tim.elapsed - e → False) := by
  intro h
  refine h { up.setFld F.ORY_DOM_CFG_HOLD_LIMIT 0 1 with ory := { up.ory with tags := [(9, some ⟨16383, false, [], none, some 0⟩)], doms := [(16383, [9])] }, tim := { up.tim with elapsed := 2 ^ 32 } } _ 16383 0 _ _ _ rfl rfl rfl ?_ ?_ rfl ?_ <;> decide +kernel

theorem witness_DispatchRefillAndSkip_4 : ¬ (∀ (s u : State) (d : BitVec 14) (n t : Nat) (x : Tag), u = advance s n → (domTags u d.toNat).head? = some t → tagOf u t = some x → u.fld F.ORY_DOM_CFG_HOLD_LIMIT 0 = 0xFFFFFFFF → False) := by
  intro h
  refine h { up.setFld F.ORY_DOM_CFG_HOLD_LIMIT 0 0xFFFFFFFF with ory := { up.ory with tags := [(9, some ⟨16383, false, [], none, some 0⟩)], doms := [(16383, [9])] }, tim := { up.tim with elapsed := 2 ^ 32 } } _ 16383 0 _ _ rfl rfl rfl ?_
  decide +kernel

theorem witness_OrreryDisables_1 : ¬ (∀ (s : State) (q : BitVec 12), pktUp s = true → s.flag F.ORY_Q_CFG_EN q.toNat = true → False) := by
  intro h
  refine h (up.setFlag F.ORY_Q_CFG_EN 4095 true) 4095 ?_ ?_ <;> decide +kernel

theorem witness_OrreryDisables_2 : ¬ (∀ (s : State) (q : BitVec 12), pktUp s = true → s.flag F.ORY_Q_CFG_EN q.toNat = true → False) := by
  intro h
  refine h (up.setFlag F.ORY_Q_CFG_EN 4095 true) 4095 ?_ ?_ <;> decide +kernel

theorem witness_OrreryDisables_3 : ¬ (∀ (s : State) (q : BitVec 12), pktUp s = true → s.flag F.ORY_Q_CFG_EN q.toNat = false → False) := by
  intro h
  refine h (up) 4095 ?_ ?_ <;> decide +kernel

theorem witness_OrreryDisables_4 : ¬ (∀ (s : State) (q : BitVec 12), pktUp s = true → s.flag F.ORY_Q_STS_PURGE_BUSY q.toNat = true → False) := by
  intro h
  refine h (up.setFlag F.ORY_Q_STS_PURGE_BUSY 4095 true) 4095 ?_ ?_ <;> decide +kernel

theorem witness_OrreryDisables_5 : ¬ (∀ (s : State) (g : Fin 64) (v : W32), pktUp s = true → (∀ n < 32, v.getLsbD n = true → clusterPresent s n = true) → False) := by
  intro h
  refine h (up) 63 0xFFFFFFFF ?_ ?_ <;> decide +kernel

theorem witness_OrreryDisables_6 : ¬ (∀ s : State, pktUp s = true → s.flag F.ORY_CTL_EN 0 = true → False) := by
  intro h
  refine h (up.setFlag F.ORY_CTL_EN 0 true) ?_ ?_ <;> decide +kernel

theorem witness_OrreryDisables_7 : ¬ (∀ (s : State) (l : Fin 16), pktUp s = true → s.flag F.ORY_DLY_L_CFG_EN l.val = true → False) := by
  intro h
  refine h (up.setFlag F.ORY_DLY_L_CFG_EN 15 true) 15 ?_ ?_ <;> decide +kernel

theorem witness_OrreryDisables_8 : ¬ (∀ s : State, pktUp s = true → s.flag F.ORY_DLY_CTL_EN 0 = true → False) := by
  intro h
  refine h (up.setFlag F.ORY_DLY_CTL_EN 0 true) ?_ ?_ <;> decide +kernel

theorem witness_OrreryDisables_9 : ¬ (∀ (s u : State) (l : Fin 16) (n : Nat), u = advance s n → pktUp u = true → False) := by
  intro h
  refine h (up) _ 15 0 rfl ?_
  decide +kernel

/-! ## OrreryClass3 -/

theorem witness_OrreryClass3_1 : ¬ (∀ (s u : State) (c : Ctl) (it : Item), Starts s u c 0x301 → itForm it = false → False) := by
  intro h
  refine h queued _ (entry []) 0 ⟨?_, ?_, rfl⟩ ?_ <;> decide +kernel

theorem witness_OrreryClass3_2 : ¬ (∀ (s u v : State) (c : Ctl) (it : Item) (tag : Option Nat) (b : Nat), Starts s u c 0x301 → itForm it = true → itemWord it 0 = nullHandle → enqueue u false (bits (bodyWord c 0) 11 0) (bits (bodyWord c 0) 29 16) (c.body.getD 1 0) it none 0 = (.ok tag b, v) → False) := by
  intro h
  refine h queued _ _ (entry [4095]) formItem _ _ ⟨?_, ?_, rfl⟩ ?_ ?_ rfl <;> decide +kernel

theorem witness_OrreryClass3_3 : ¬ (∀ (s u v : State) (c : Ctl) (it : Item), Starts s u c 0x301 → itForm it = true → itemWord it 0 = nullHandle → enqueue u false (bits (bodyWord c 0) 11 0) (bits (bodyWord c 0) 29 16) (c.body.getD 1 0) it none 0 = (.qoff, v) → False) := by
  intro h
  refine h ringed _ _ (entry [4095]) formItem ⟨?_, ?_, rfl⟩ ?_ ?_ rfl <;> decide +kernel

theorem witness_OrreryClass3_4 : ¬ (∀ (s u v : State) (c : Ctl) (it : Item) (tick : Nat), Starts s u c 0x302 → itForm it = true → itemWord it 0 = nullHandle → dlyRefusal u (bits (bodyWord c 0) 15 12) = none → dlyInsert u (bits (bodyWord c 0) 15 12) (bodyDword c 2) (bits (bodyWord c 0) 11 0) (bits (bodyWord c 0) 29 16) (c.body.getD 1 0) it = (tick, v) → False) := by
  intro h
  refine h ((queued.setFlag F.ORY_DLY_CTL_EN 0 true).setFlag F.ORY_DLY_L_CFG_EN 15 true) _ _ (entry [0xFFFF]) formItem _ ⟨?_, ?_, rfl⟩ ?_ ?_ ?_ rfl <;> decide +kernel

theorem witness_OrreryClass3_5 : ¬ (∀ (s u : State) (c : Ctl) (it : Item), Starts s u c 0x302 → itForm it = true → itemWord it 0 = nullHandle → dlyRefusal u (bits (bodyWord c 0) 15 12) = some true → False) := by
  intro h
  refine h queued _ (entry [0xFFFF]) formItem ⟨?_, ?_, rfl⟩ ?_ ?_ ?_ <;> decide +kernel

/-! ## EgressAndCalendar: EgressStarts, CalendarCommands -/

theorem witness_EgressStarts_1_1 : ¬ (∀ (s u v w : State) (p : Fin 18) (n : Nat) (enters : Bool) (c : Choice) (x : EPkt) (rest : List EPkt), u = advance s n → pktUp u = true → choose u p = (v, some c) → egrQ v c.que = x :: rest → w = arrProbe v 3 c.que (fun y => putEgrQ y c.que (egrQ y c.que).tail) → egrQ w c.que = x :: rest → False) := by
  intro h
  refine h { up.setFld F.EGR_GRP_CFG_PORT 0 16 with egr := { up.egr with queues := [(7, [⟨7, 0, 64, 0, 0, false, 0⟩])] } } _ _ _ 16 0 true _ _ _ rfl ?_ rfl rfl rfl ?_ <;> decide +kernel

theorem witness_EgressStarts_1_2 : ¬ (∀ (s u v w : State) (p : Fin 18) (n : Nat) (enters : Bool) (c : Choice) (x : EPkt) (rest : List EPkt), u = advance s n → pktUp u = true → choose u p = (v, some c) → egrQ v c.que = x :: rest → w = arrProbe v 3 c.que (fun y => putEgrQ y c.que (egrQ y c.que).tail) → egrQ w c.que ≠ x :: rest → False) := by
  intro h
  refine h (setUnitErr { up.setFld F.EGR_GRP_CFG_PORT 0 16 with egr := { up.egr with queues := [(7, [⟨7, 0, 64, 0, 0, false, 0⟩])] } } 11 (arrUnit 3 7) 2) _ _ _ 16 0 true _ _ _ rfl ?_ rfl rfl rfl ?_ <;> decide +kernel

theorem witness_EgressStarts_2 : ¬ (∀ (s u v : State) (p : Fin 18) (n : Nat) (enters : Bool), u = advance s n → pktUp u = true → choose u p = (v, none) → False) := by
  intro h
  refine h (up) _ _ 17 0 true rfl ?_ rfl
  decide +kernel

theorem witness_EgressStarts_3 : ¬ (∀ (s u : State) (p : Fin 16) (i : Fin 8) (n : Nat), u = advance s n → pausedNow u p i = false → False) := by
  intro h
  refine h (up) _ 15 7 0 rfl ?_
  decide +kernel

theorem witness_EgressStarts_4 : ¬ (∀ (s u : State) (p : Fin 16) (i : Fin 8) (n : Nat), u = advance s n → pausedNow u p i = true → False) := by
  intro h
  refine h { up with egr := { up.egr with pauseEnd := [(127, 1)] } } _ 15 7 0 rfl ?_
  decide +kernel

theorem witness_CalendarCommands_1 : ¬ (∀ (s u : State) (p : Fin 16), pktUp s = true → lanePresent s p = true → s.flag F.MER_CFG_EN p = false → merRefused s p = false → s.fld F.MER_STS_STATE p = 0 → u = s.setFlag F.MER_CFG_EN p true → u.fld F.MER_STS_STATE p = 0 → False) := by
  intro h
  refine h (up) _ 15 ?_ ?_ ?_ ?_ ?_ rfl ?_ <;> decide +kernel

theorem witness_CalendarCommands_2 : ¬ (∀ (s : State) (p : Fin 16), pktUp s = true → lanePresent s p = true → s.flag F.MER_CFG_EN p = false → s.flag F.MER_CFG_MODE p = true → s.fld F.MER_SYNC_DELAY p < s.fld F.MER_CFG_GAP_GUARD p + 1000 → False) := by
  intro h
  refine h ((up.setFld F.MER_SYNC_DELAY 15 999).setFlag F.MER_CFG_MODE 15 true) 15 ?_ ?_ ?_ ?_ ?_ <;> decide +kernel

theorem witness_CalendarCommands_3_1 : ¬ (∀ (s u : State) (p : Fin 16), pktUp s = true → lanePresent s p = true → s.flag F.MER_CFG_EN p = true → u = s.setFlag F.MER_CFG_EN p false → s.fld F.MER_STS_STATE p = 2 → False) := by
  intro h
  refine h (calendar 2 mer0) _ 15 ?_ ?_ ?_ rfl ?_ <;> decide +kernel

theorem witness_CalendarCommands_3_2 : ¬ (∀ (s u : State) (p : Fin 16), pktUp s = true → lanePresent s p = true → s.flag F.MER_CFG_EN p = true → u = s.setFlag F.MER_CFG_EN p false → s.fld F.MER_STS_STATE p ≠ 2 → False) := by
  intro h
  refine h (calendar 1 mer0) _ 15 ?_ ?_ ?_ rfl ?_ <;> decide +kernel

theorem witness_CalendarCommands_4 : ¬ (∀ (s u : State) (p : Fin 16) (n : Nat), u = advance s n → pktUp u = true → (merOf u p).stopping = true → u.fld F.MER_STS_STATE p = 2 → periodOver u p = true → False) := by
  intro h
  refine h ((calendar 2 { mer0 with stopping := true }).setFld F.MER_NSLOTS_ACTIVE 15 1) _ 15 0 rfl ?_ ?_ ?_ ?_ <;> decide +kernel

theorem witness_CalendarCommands_5 : ¬ (∀ (s : State) (p : Fin 16), pktUp s = true → lanePresent s p = true → s.flag F.MER_CTL_SW_REQ p = false → False) := by
  intro h
  refine h (up) 15 ?_ ?_ ?_ <;> decide +kernel

theorem witness_CalendarCommands_6 : ¬ (∀ (s u : State) (p : Fin 16) (n a : Nat), u = advance s n → pktUp u = true → (merOf u p).next = some a → u.fld F.MER_STS_STATE p = 1 → (merOf u p).stopping = false → a ≤ nt64 u → False) := by
  intro h
  refine h (calendar 1 { mer0 with next := some 0 }) _ 15 0 _ rfl ?_ rfl ?_ ?_ ?_ <;> decide +kernel

theorem witness_CalendarCommands_7 : ¬ (∀ (s u : State) (p : Fin 16) (n a : Nat), u = advance s n → pktUp u = true → (merOf u p).next = some a → u.fld F.MER_STS_STATE p = 2 → (merOf u p).stopping = false → a ≤ nt64 u → periodOver u p = false → u.flag F.MER_CFG_MODE p = true → False) := by
  intro h
  refine h (((calendar 2 { mer0 with next := some 0, slotEnd := 100 }).setFld F.MER_NSLOTS_ACTIVE 15 1).setFlag F.MER_CFG_MODE 15 true) _ 15 0 _ rfl ?_ rfl ?_ ?_ ?_ ?_ ?_ <;> decide +kernel

theorem witness_CalendarCommands_8 : ¬ (∀ (s u : State) (p : Fin 16) (n : Nat), u = advance s n → pktUp u = true → u.fld F.MER_STS_STATE p = 2 → (merOf u p).slotEnd ≤ nt64 u → u.fld F.MER_STS_SLOT p + 1 < u.fld F.MER_NSLOTS_ACTIVE p → False) := by
  intro h
  refine h ((calendar 2 mer0).setFld F.MER_NSLOTS_ACTIVE 15 2) _ 15 0 rfl ?_ ?_ ?_ ?_ <;> decide +kernel

theorem witness_CalendarCommands_9 : ¬ (∀ (s u : State) (p : Fin 16) (n : Nat), u = advance s n → pktUp u = true → u.fld F.MER_STS_STATE p = 2 → (merOf u p).slotEnd ≤ nt64 u → u.fld F.MER_NSLOTS_ACTIVE p ≤ u.fld F.MER_STS_SLOT p + 1 → u.flag F.MER_CFG_MODE p = true → (merOf u p).stopping = false → False) := by
  intro h
  refine h (((calendar 2 mer0).setFld F.MER_NSLOTS_ACTIVE 15 1).setFlag F.MER_CFG_MODE 15 true) _ 15 0 rfl ?_ ?_ ?_ ?_ ?_ ?_ <;> decide +kernel

theorem witness_CalendarCommands_10 : ¬ (∀ (s u : State) (p : Fin 16) (n : Nat), u = advance s n → pktUp u = true → portFormed u p = true → False) := by
  intro h
  refine h (port 4) _ 15 0 rfl ?_ ?_ <;> decide +kernel

/-! ## DramServiceAndControl: DramService, DramControl -/

theorem witness_DramService_1 : ¬ (∀ (s u : State) (k : Fin 8) (b : BitVec 33) (o : Fin 64) (bs : List Byte) (l : Fin 16) (n : Nat), u = advance s n → drcReady u = true → drcCapacity u * 2 ^ 24 ≤ b.toNat → False) := by
  intro h
  refine h drammed _ 7 0xC0000000 0 [1] 0 0 rfl ?_ ?_ <;> decide +kernel

theorem witness_DramService_2 : ¬ (∀ (s u : State) (k : Fin 8) (b : BitVec 33) (l : Fin 16) (n : Nat), u = advance s n → drcReady u = true → k ≠ 0 → drcCapacity u * 2 ^ 24 ≤ b.toNat → False) := by
  intro h
  refine h drammed _ 7 0xC0000000 0 0 rfl ?_ ?_ ?_ <;> decide +kernel

theorem witness_DramService_3 : ¬ (∀ (s u : State) (k : Fin 8) (b : BitVec 33) (l : Fin 16) (n : Nat), u = advance s n → drcReady u = true → (k ≠ 0 ∨ pfNext u l.val = some b.toNat) → b.toNat < drcCapacity u * 2 ^ 24 → False) := by
  intro h
  refine h drammed _ 7 0xBFFFFFFF 0 0 rfl ?_ ?_ ?_ <;> decide +kernel

theorem witness_DramService_4_1 : ¬ (∀ (s u : State) (c : Fin 6) (pos : List (Fin 10)) (n : Nat) (x : DReq), u = advance s n → dramOn u = true → refAtLimit u c.val 0 = false → refAtLimit u c.val 1 = false → chooseNext u c.val = some x → isWrite x = false → False) := by
  intro h
  refine h { drammed with drc := { drammed.drc with rq := [(5, [⟨7, 0, none, 0, 0, 0, false⟩])] } } _ 5 [] 0 _ rfl ?_ ?_ ?_ rfl ?_ <;> decide +kernel

theorem witness_DramService_4_2 : ¬ (∀ (s u : State) (c : Fin 6) (pos : List (Fin 10)) (n : Nat) (x : DReq), u = advance s n → dramOn u = true → refAtLimit u c.val 0 = false → refAtLimit u c.val 1 = false → chooseNext u c.val = some x → isWrite x = true → False) := by
  intro h
  refine h { drammed with drc := { drammed.drc with wq := [(5, [⟨7, 0, some (0, [1]), 0, 0, 0, false⟩])] } } _ 5 [] 0 _ rfl ?_ ?_ ?_ rfl ?_ <;> decide +kernel

theorem witness_DramService_5 : ¬ (∀ (s u : State) (c : Fin 6) (pos : List (Fin 10)) (n : Nat), u = advance s n → dramOn u = true → refAtLimit u c.val 0 = true → False) :=
  fun h => h lateRefresh _ 5 [] 0 rfl lateRefresh_on lateRefresh_due

theorem witness_DramService_6_1 : ¬ (∀ (s : State) (c : Nat) (l : List DReq) (x : DReq), l = rqOf s c ++ (if drainMode s c = 0 then [] else freeWrites s c) → panicOn s = false → oldest (l.filter (agedReq s)) = some x → False) := by
  intro h
  refine h { drammed.setFld F.DRC_AGE_AGE_MAX 0 1 with drc := { drammed.drc with rq := [(5, [⟨7, 0, none, 0, 0, 0, false⟩])] }, tim := { up.tim with elapsed := 2 ^ 32 } } 5 _ _ rfl ?_ rfl
  decide +kernel

theorem witness_DramService_6_2 : ¬ (∀ (s : State) (c : Nat) (l : List DReq) (x : DReq), l = rqOf s c ++ (if drainMode s c = 0 then [] else freeWrites s c) → panicOn s = false → oldest (l.filter (agedReq s)) = none → oldest (l.filter (rowHit s)) = some x → False) := by
  intro h
  refine h { drammed with drc := { drammed.drc with rq := [(5, [⟨7, 0, none, 0, 0, 0, false⟩])], rows := [(dramBank drammed 0, 1)] } } 5 _ _ rfl ?_ ?_ rfl <;> decide +kernel

theorem witness_DramService_6_3 : ¬ (∀ (s : State) (c : Nat) (l : List DReq) (x : DReq), l = rqOf s c ++ (if drainMode s c = 0 then [] else freeWrites s c) → panicOn s = false → oldest (l.filter (agedReq s)) = none → oldest (l.filter (rowHit s)) = none → False) := by
  intro h
  refine h { drammed with drc := { drammed.drc with rq := [(5, [⟨7, 0, none, 0, 0, 0, false⟩])] } } 5 _ ⟨7, 0, none, 0, 0, 0, false⟩ rfl ?_ ?_ ?_ <;> decide +kernel

theorem witness_DramService_6_4 : ¬ (∀ (s : State) (c : Nat) (l : List DReq) (x : DReq), l = rqOf s c ++ (if drainMode s c = 0 then [] else freeWrites s c) → panicOn s = true → drainMode s c ≠ 2 → oldest ((rqOf s c).filter (·.port == 0)) = some x → False) := by
  intro h
  refine h { drammed.setFlag F.DRC_STS_PANIC 0 true with drc := { drammed.drc with rq := [(5, [⟨0, 0, none, 0, 0, 0, false⟩])] } } 5 _ _ rfl ?_ ?_ rfl <;> decide +kernel

theorem witness_DramService_7_1 : ¬ (∀ (s : State) (c : Fin 6) (r : Fin 2), dramOn s = true → chanInSet s c.val = true → ∀ (ns : W16) (hot : Bool), mget noNat s.drc.refInt (2 * c.val + r.val) ≠ 0 → False) := by
  intro h
  refine h { drammed with drc := { drammed.drc with refInt := [(10, 1)] } } 5 0 ?_ ?_ 0 false ?_ <;> decide +kernel

theorem witness_DramService_8_1 : ¬ (∀ (s u : State) (n b : Nat), drcReady s = true → s.flag F.DRC_SCRUB_EN 0 = true → panicOn s = false → n = drcCapacity s * 2 ^ 24 → 0 < n → b = s.drc.scrubPos % n → u = scrubBurst s b → b + 1 < n → False) := by
  intro h
  refine h (drammed.setFlag F.DRC_SCRUB_EN 0 true) _ 0xC0000000 _ ?_ ?_ ?_ ?_ ?_ rfl rfl ?_ <;> decide +kernel

theorem witness_DramService_8_2 : ¬ (∀ (s u : State) (n b : Nat), drcReady s = true → s.flag F.DRC_SCRUB_EN 0 = true → panicOn s = false → n = drcCapacity s * 2 ^ 24 → 0 < n → b = s.drc.scrubPos % n → u = scrubBurst s b → b + 1 = n → False) := by
  intro h
  refine h { drammed.setFlag F.DRC_SCRUB_EN 0 true with drc := { drammed.drc with scrubPos := 0xBFFFFFFF } } _ 0xC0000000 _ ?_ ?_ ?_ ?_ ?_ rfl rfl ?_ <;> decide +kernel

theorem witness_DramControl_1 : ¬ (∀ s : State, memUp s = true → s.flag F.DRC_CTL_EN 0 = false → dramOn s = true → s.flag F.DRC_CTL_INIT_GO 0 = false → False) := by
  intro h
  refine h (up.setFlag F.DRC_CTL_DRAM_RESET_N 0 true) ?_ ?_ ?_ ?_ <;> decide +kernel

theorem witness_DramControl_2 : ¬ (∀ s : State, memUp s = true → s.flag F.DRC_CTL_EN 0 = true → False) := by
  intro h
  refine h (up.setFlag F.DRC_CTL_EN 0 true) ?_ ?_ <;> decide +kernel

theorem witness_DramControl_3 : ¬ (∀ s : State, dramOn s = true → s.flag F.DRC_CTL_INIT_GO 0 = true → False) := by
  intro h
  refine h ((up.setFlag F.DRC_CTL_DRAM_RESET_N 0 true).setFlag F.DRC_CTL_INIT_GO 0 true) ?_ ?_ <;> decide +kernel

theorem witness_DramControl_4 : ¬ (∀ s : State, memUp s = true → s.flag F.DRC_CTL_EN 0 = false → drcCapacity s ≠ 0 → s.flag F.DRC_CTL_DRAM_RESET_N 0 = true → s.flag F.DRC_STS_INIT_DONE 0 = true → False) := by
  intro h
  refine h ((up.setFlag F.DRC_CTL_DRAM_RESET_N 0 true).setFlag F.DRC_STS_INIT_DONE 0 true) ?_ ?_ ?_ ?_ ?_ <;> decide +kernel

theorem witness_DramControl_5 : ¬ (∀ s : State, memUp s = true → s.flag F.DRC_CTL_EN 0 = false → s.flag F.DRC_STS_INIT_DONE 0 = false → False) := by
  intro h
  refine h (up) ?_ ?_ ?_ <;> decide +kernel

theorem witness_DramControl_6 : ¬ (∀ s : State, memUp s = true → s.flag F.DRC_CTL_EN 0 = true → s.flag F.CRN_DRAM_CFG_EN 0 = true → False) := by
  intro h
  refine h ((up.setFlag F.DRC_CTL_EN 0 true).setFlag F.CRN_DRAM_CFG_EN 0 true) ?_ ?_ ?_ <;> decide +kernel

theorem witness_DramControl_7 : ¬ (∀ s : State, memUp s = true → s.flag F.DRC_CTL_EN 0 = true → dramAreaOn s = false → False) := by
  intro h
  refine h (up.setFlag F.DRC_CTL_EN 0 true) ?_ ?_ ?_ <;> decide +kernel

theorem witness_DramControl_8 : ¬ (∀ (s : State) (c : Fin 6), memUp s = true → channelPresent s c.val = true → False) := by
  intro h
  refine h (up) 5 ?_ ?_ <;> decide +kernel

/-! ## DramEngineAndTraining: DramCommandEngine, DramTraining -/

theorem witness_DramCommandEngine_1 : ¬ (∀ (s u : State) (op : Fin 4) (ch : BitVec 3) (sub rank : Bool) (addr : BitVec 12) (data : Byte), memUp s = true → s.flag F.DRC_MRW_BUSY 0 = false → dramOn s = true → u = foldS [(F.DRC_MRW_OP, op.val), (F.DRC_MRW_CH, ch.toNat), (F.DRC_MRW_SUB, b2n sub), (F.DRC_MRW_RANK, b2n rank), (F.DRC_MRW_ADDR, addr.toNat), (F.DRC_MRW_DATA, data.toNat)] (fun v x => v.setFld x.1 0 x.2) s → False) := by
  intro h
  refine h ((up.setFlag F.DRC_CTL_DRAM_RESET_N 0 true)) _ 3 5 true true 0 0 ?_ ?_ ?_ rfl <;> decide +kernel

theorem witness_DramCommandEngine_2_1 : ¬ (∀ (s u : State) (v : Byte) (op ch sub rank addr data : Nat), memUp s = true → s.drc.mrw = some (op, ch, sub, rank, addr, data) → u = { s with drc := { s.drc with mrw := none } }.setFlag F.DRC_MRW_BUSY 0 false → op % 2 = 1 → False) := by
  intro h
  refine h { up with drc := { up.drc with mrw := some (1, 0, 0, 0, 0, 0) } } _ 0 _ _ _ _ _ _ ?_ rfl rfl ?_ <;> decide +kernel

theorem witness_DramCommandEngine_2_2 : ¬ (∀ (s u : State) (v : Byte) (op ch sub rank addr data : Nat), memUp s = true → s.drc.mrw = some (op, ch, sub, rank, addr, data) → u = { s with drc := { s.drc with mrw := none } }.setFlag F.DRC_MRW_BUSY 0 false → op % 2 = 0 → False) := by
  intro h
  refine h { up with drc := { up.drc with mrw := some (2, 0, 0, 0, 0, 0) } } _ 0 _ _ _ _ _ _ ?_ rfl rfl ?_ <;> decide +kernel

theorem witness_DramTraining_1 : ¬ (∀ (s u : State) (k : Fin 8) (ch : BitVec 3) (sub rank : Bool) (lo hi : Byte), memUp s = true → s.flag F.DRC_TRN_CTL_BUSY 0 = false → u = foldS [(F.DRC_TRN_CTL_STEP, k.val), (F.DRC_TRN_CTL_CH, ch.toNat), (F.DRC_TRN_CTL_SUB, b2n sub), (F.DRC_TRN_CTL_RANK, b2n rank), (F.DRC_TRN_CTL_SWEEP_LO, lo.toNat), (F.DRC_TRN_CTL_SWEEP_HI, hi.toNat)] (fun v x => v.setFld x.1 0 x.2) s → False) := by
  intro h
  refine h (up.setFlag F.DRC_CTL_DRAM_RESET_N 0 true) _ 7 5 true true 0 0 ?_ ?_ rfl <;> decide +kernel

theorem witness_DramTraining_2 : ¬ (∀ (s u : State) (k : Nat) (res : List (Byte × Byte × Bool)), memUp s = true → s.drc.trn = some k → u = foldS ((res.take (trnLanes k)).zipIdx) (fun v x => v.setReg .DRC_TRN_RES x.2 (x.1.1.toNat * 2 ^ 16 + x.1.2.1.toNat * 2 ^ 8 + b2n x.1.2.2 * 2 ^ 7)) s → False) := by
  intro h
  refine h { up with drc := { up.drc with trn := some 7 } } _ _ [(1, 2, true)] ?_ rfl rfl
  decide +kernel

/-! ## Interrupts: InterruptCommands, ClaimsAreGivenOnce -/

theorem witness_InterruptCommands_1 : ¬ (∀ (s v : State) (i : BitVec 10) (e : Nat), pktUp s = true → v = srcProbe s i.toNat → deliverable v i.toNat = true → routeChoice v i.toNat = some e → False) := by
  intro h
  refine h ((raised.setFlag F.ICU_TGT_CFG_EN 0 true).setFld F.ICU_ROUTE_EN 1022 128) _ 1022 7 ?_ rfl ?_ ?_ <;> decide +kernel

theorem witness_InterruptCommands_2_1 : ¬ (∀ (s : State) (i : Nat), unitErr s 11 (arrUnit 7 i) = 0 → False) := by
  intro h
  refine h (up) 0 ?_
  decide +kernel

theorem witness_InterruptCommands_2_2 : ¬ (∀ (s : State) (i : Nat), 2 ≤ unitErr s 11 (arrUnit 7 i) → False) := by
  intro h
  refine h (setUnitErr up 11 (arrUnit 7 0) 2) 0 ?_
  decide +kernel

theorem witness_InterruptCommands_3 : ¬ (∀ (s : State) (i : BitVec 10) (x : Flight), pktUp s = true → s.icu.flight.find? (·.src == i.toNat) = some x → False) := by
  intro h
  refine h { raised with icu := { raised.icu with flight := [⟨1022, 0⟩] } } 1022 _ ?_ rfl
  decide +kernel

theorem witness_InterruptCommands_4 : ¬ (∀ (s v u : State) (t : Fin 97) (i : BitVec 10), pktUp s = true → i.toNat < 1023 → v = srcProbe s i.toNat → outAt v i.toNat = some t.val → srcPending v i.toNat = true → u = dropOut v i.toNat → False) := by
  intro h
  refine h { raised with icu := { raised.icu with out := [(1022, some 96)] } } _ _ 96 1022 ?_ ?_ rfl ?_ ?_ rfl <;> decide +kernel

theorem witness_InterruptCommands_5 : ¬ (∀ (s v : State) (t : Fin 97) (i : BitVec 10), pktUp s = true → v = srcProbe s i.toNat → outAt v i.toNat ≠ some t.val ∨ srcPending v i.toNat = false ∨ i.toNat = 1023 → False) := by
  intro h
  refine h (up) _ 96 1023 ?_ rfl ?_ <;> decide +kernel

theorem witness_InterruptCommands_6 : ¬ (∀ (s : State) (j : Fin 32) (w : W32), pktUp s = true → False) := by
  intro h
  refine h (up) 31 0xFFFFFFFF ?_
  decide +kernel

theorem witness_InterruptCommands_7 : ¬ (∀ (s : State) (n : Fin 32) (w : W32), clUp s n.val = true → pktUp s = true → 512 ≤ w.toNat % 1024 → w.toNat % 1024 ≤ 1022 → srcPresent s (w.toNat % 1024) = true → False) := by
  intro h
  refine h (up) 31 1022 ?_ ?_ ?_ ?_ ?_ <;> decide +kernel

theorem witness_InterruptCommands_8 : ¬ (∀ (s : State) (n : Fin 32) (w : W32), (w.toNat % 1024 < 512 ∨ w.toNat % 1024 = 1023) → False) := by
  intro h
  refine h (up) 31 511 ?_
  decide +kernel

theorem witness_ClaimsAreGivenOnce : ¬ (∀ (s u : State) (t t' i : Nat), mwf noTgt s.icu.out = true → claimSrc s t i = (i, u) → i < 1023 → False) := by
  intro h
  refine h { raised with icu := { raised.icu with out := [(1022, some 96)] } } _ 96 95 1022 ?_ rfl ?_ <;> decide +kernel

/-! ## SleepAndIntegrity: MgtSleepAndWake, IntegrityCommands -/

theorem witness_MgtSleepAndWake_1 : ¬ (∀ s : State, mgtUp s = true → s.flag F.RST_MGT_PWR_SLEEP_EN 0 = true → s.flag F.RST_MGT_PWR_ASLEEP 0 = false → mgtQuiet s = true → False) := by
  intro h
  refine h ((foldS (List.range 8) (fun u k => setThr u (0x2000 + k) { noThread 0 with st := .stall, wait := .ev false 1 1 }) up).setFlag F.RST_MGT_PWR_SLEEP_EN 0 true) ?_ ?_ ?_ ?_ <;> decide +kernel

theorem witness_MgtSleepAndWake_2 : ¬ (∀ (s u v : State) (n : Nat), u = advance s n → mgtUp u = true → u.flag F.RST_MGT_PWR_ASLEEP 0 = true → wakeDue u = true → u.icu.retNew = false → v = { u with icu := { u.icu with out := u.icu.retOut.foldl (fun m i => mset noTgt m i (some 32)) u.icu.out, retOut := [], retNew := false } } → False) := by
  intro h
  refine h (setThr (up.setFlag F.RST_MGT_PWR_ASLEEP 0 true) 0x2007 { noThread 0 with st := .ready }) _ _ 0 rfl ?_ ?_ ?_ ?_ rfl <;> decide +kernel

theorem witness_IntegrityCommands_1 : ¬ (∀ (s : State) (h : Byte), pktUp s = true → nocStopped s h.toNat = false → False) := by
  intro h
  refine h (up) 255 ?_ ?_ <;> decide +kernel

theorem witness_IntegrityCommands_2 : ¬ (∀ (s : State) (h : Byte), pktUp s = true → nocStopped s h.toNat = false → nocFails s h.toNat < 255 → False) := by
  intro h
  refine h { up with integ := { up.integ with nocFail := [(255, 254)] } } 255 ?_ ?_ ?_ <;> decide +kernel

theorem witness_IntegrityCommands_3 : ¬ (∀ (s u : State) (h : Byte), pktUp s = true → nocStopped s h.toNat = false → nocFails s h.toNat = 255 → u = setNoc s h.toNat 0 → False) := by
  intro h
  refine h { up with integ := { up.integ with nocFail := [(255, 255)] } } _ 255 ?_ ?_ ?_ rfl <;> decide +kernel

theorem witness_IntegrityCommands_4 : ¬ (∀ s : State, pktUp s = true → s.flag F.RST_SCRUB_CFG_EN 0 = true → s.integ.scrubMem = 0 → unitErr s 0 s.integ.scrubPos = 0 → s.integ.scrubPos + 1 < 4194304 → False) := by
  intro h
  refine h (up.setFlag F.RST_SCRUB_CFG_EN 0 true) ?_ ?_ ?_ ?_ ?_ <;> decide +kernel

theorem witness_IntegrityCommands_5 : ¬ (∀ (s : State) (pos : Nat), pktUp s = true → s.flag F.RST_SCRUB_CFG_EN 0 = true → s.integ.scrubMem = 0 → pos = s.integ.scrubPos → pos + 1 < 4194304 → unitErr s 0 pos = 1 → False) := by
  intro h
  refine h { up.setFlag F.RST_SCRUB_CFG_EN 0 true with integ := { up.integ with bad := [(0, 1)] } } 0 ?_ ?_ ?_ ?_ ?_ ?_ <;> decide +kernel

theorem witness_IntegrityCommands_6 : ¬ (∀ (s u : State) (m : BitVec 4) (b : BitVec 2) (n : Fin 32) (x : Bool) (a : W64), pktUp s = true → u = foldS [(F.RST_EINJ_CTL_TARGET, m.toNat), (F.RST_EINJ_CTL_BITS, b.toNat), (F.RST_EINJ_CTL_CLUSTER, n.val), (F.RST_EINJ_CTL_MATCH, b2n x), (F.RST_EINJ_ADDR_ADDR, a.toNat)] (fun v x => v.setFld x.1 0 x.2) s → u.fld F.RST_EINJ_CTL_TARGET 0 < 12 → u.flag F.RST_EINJ_CTL_ARM 0 = false → False) := by
  intro h
  refine h (up) _ 11 3 31 true 1 ?_ rfl ?_ ?_ <;> decide +kernel

/-! ## ClusterCachesAndThreads: CachesAndStart, ThreadControl -/

theorem witness_CachesAndStart_1 : ¬ (∀ (s u v : State) (t : BitVec 14) (pc : Nat), thrUp s t.toNat = true → isMgt t.toNat = false → parked s (cluOf t.toNat) = false → (thrOf s t.toNat).wait = .fetch → (thrOf s t.toNat).fills = [] → pc = (thrOf s t.toNat).pc.toNat → placeRead s t.toNat (.shared (pc - 0x100000)) 4 = ((placeRead s t.toNat (.shared (pc - 0x100000)) 4).1, none, s) → (icOf s (coreOf t.toNat)).length < 4096 → u = { s with gar := { s.gar with icache := mset noWord s.gar.icache (icKey t.toNat pc) (some (icWord s (cluOf t.toNat) pc)) } } → v = noteWrite u 5 (cluOf t.toNat) (icKey t.toNat pc) (icKey t.toNat pc) true → False) := by
  intro h
  refine h (thr 8191 .stall .fetch) _ _ 8191 _ ?_ ?_ ?_ ?_ ?_ rfl rfl ?_ rfl rfl <;> decide +kernel

theorem witness_CachesAndStart_2 : ¬ (∀ (s w u : State) (t : BitVec 14) (p : W32) (r : List W32) (pc : Nat), thrUp s t.toNat = true → isMgt t.toNat = false → parked s (cluOf t.toNat) = false → (thrOf s t.toNat).fills = p :: r → pc = p.toNat → w = setThr s t.toNat { thrOf s t.toNat with fills := r } → placeRead w t.toNat (.shared (pc - 0x100000)) 4 = ((placeRead w t.toNat (.shared (pc - 0x100000)) 4).1, none, w) → (icOf w (coreOf t.toNat)).length < 4096 → u = { w with gar := { w.gar with icache := mset noWord w.gar.icache (icKey t.toNat pc) (some (icWord w (cluOf t.toNat) pc)) } } → False) := by
  intro h
  refine h (setThr up 8191 { noThread 0 with fills := [0x100000] }) _ _ 8191 0x100000 [] _ ?_ ?_ ?_ ?_ rfl rfl rfl ?_ rfl <;> decide +kernel

theorem witness_CachesAndStart_3 : ¬ (∀ (s : State) (n : Fin 32), clUp s n.val = true → False) := by
  intro h
  refine h (up) 31 ?_
  decide +kernel

theorem witness_CachesAndStart_4 : ¬ (∀ (s : State) (n : Fin 32), clUp s n.val = true → s.flag F.GCL_CTL_IC_INV n.val = true → False) := by
  intro h
  refine h (up.setFlag F.GCL_CTL_IC_INV 31 true) 31 ?_ ?_ <;> decide +kernel

theorem witness_CachesAndStart_5 : ¬ (∀ (s : State) (n : Fin 32), clUp s n.val = true → False) := by
  intro h
  refine h (up) 31 ?_
  decide +kernel

theorem witness_ThreadControl_1 : ¬ (∀ (s : State) (n : Fin 32), clUp s n.val = true → faultqOf s n.val = [] → False) := by
  intro h
  refine h (up) 31 ?_ ?_ <;> decide +kernel

theorem witness_ThreadControl_2 : ¬ (∀ (s u : State) (n : Fin 32) (r : List W32) (l : List (List W32)), clUp s n.val = true → faultqOf s n.val = r :: l → u = foldS [0, 1, 2, 3] (fun u k => u.setReg .GCL_FAULTQ_REC (4 * n.val + k) (r.getD k 0).toNat) { s with gar := { s.gar with faultq := mset noRecs s.gar.faultq n.val l } } → False) := by
  intro h
  refine h { up with gar := { up.gar with faultq := [(31, [[1, 2, 3, 4]])] } } _ 31 _ _ ?_ rfl rfl
  decide +kernel

theorem witness_ThreadControl_3 : ¬ (∀ (s : State) (n : Fin 32) (i : Byte) (t : Nat) (pc : W32), clUp s n.val = true → t = 256 * n.val + i.toNat → (thrOf s t).st ≠ .fault → False) := by
  intro h
  refine h (up) 31 255 _ 0 ?_ rfl ?_ <;> decide +kernel

theorem witness_ThreadControl_4_1 : ¬ (∀ (s : State) (n : Fin 32) (i : Byte) (t : Nat) (pc : W32), clUp s n.val = true → t = 256 * n.val + i.toNat → (thrOf s t).st = .fault → (thrOf s t).wait = .none → False) := by
  intro h
  refine h (thr 8191 .fault .none) 31 255 _ 0 ?_ rfl ?_ ?_ <;> decide +kernel

theorem witness_ThreadControl_4_2 : ¬ (∀ (s : State) (n : Fin 32) (i : Byte) (t : Nat) (pc : W32), clUp s n.val = true → t = 256 * n.val + i.toNat → (thrOf s t).st = .fault → ∀ h, (thrOf s t).item = some h → False) := by
  intro h
  refine h (setThr up 8191 { noThread 0 with st := .fault, item := some ⟨none, 0, 0, none, false, 0, 0⟩ }) 31 255 _ 0 ?_ rfl ?_ ⟨none, 0, 0, none, false, 0, 0⟩ ?_ <;> decide +kernel

theorem witness_ThreadControl_5_1 : ¬ (∀ (s : State) (n : Fin 32) (i : Byte) (t : Nat), clUp s n.val = true → t = 256 * n.val + i.toNat → isSupv s t = false → False) := by
  intro h
  refine h (up) 31 255 _ ?_ rfl ?_ <;> decide +kernel

theorem witness_ThreadControl_5_2 : ¬ (∀ (s : State) (n : Fin 32) (i : Byte) (t : Nat), clUp s n.val = true → t = 256 * n.val + i.toNat → isSupv s t = true → False) := by
  intro h
  refine h (up) 31 0 _ ?_ rfl ?_ <;> decide +kernel

theorem witness_ThreadControl_6_1 : ¬ (∀ (s : State) (n : Fin 32) (i sev : Byte) (t : Nat) (pc : W32), clUp s n.val = true → t = 256 * n.val + i.toNat → (thrOf s t).st = .dormant → False) := by
  intro h
  refine h (up) 31 255 255 _ 0 ?_ rfl ?_ <;> decide +kernel

theorem witness_ThreadControl_6_2 : ¬ (∀ (s : State) (n : Fin 32) (i sev : Byte) (t : Nat) (pc : W32), clUp s n.val = true → t = 256 * n.val + i.toNat → (thrOf s t).st ≠ .dormant → False) := by
  intro h
  refine h (thr 8191 .run .none) 31 255 255 _ 0 ?_ rfl ?_ <;> decide +kernel

theorem witness_ThreadControl_6_3 : ¬ (∀ (s : State) (n : Fin 32) (i sev : Byte) (t : Nat) (pc : W32), clUp s n.val = true → t = 256 * n.val + i.toNat → (thrOf s t).st ≠ .dormant → False) := by
  intro h
  refine h (thr 8191 .run .none) 31 255 255 _ 0 ?_ rfl ?_ <;> decide +kernel

theorem witness_ThreadControl_6_4 : ¬ (∀ (s : State) (n : Fin 32) (i sev : Byte) (t : Nat) (pc : W32), clUp s n.val = true → t = 256 * n.val + i.toNat → (thrOf s t).st = .dormant → False) := by
  intro h
  refine h (up) 31 255 255 _ 0 ?_ rfl ?_ <;> decide +kernel

theorem witness_ThreadControl_7 : ¬ (∀ (s : State) (n : Fin 32) (i : Byte), clUp s n.val = true → inAnyGroup s n.val i.toNat = false → (thrOf s (256 * n.val + s.fld F.GCL_SUPV_TID n.val)).st = .dormant → False) := by
  intro h
  refine h (up) 31 255 ?_ ?_ ?_ <;> decide +kernel

theorem witness_ThreadControl_8 : ¬ (∀ (s : State) (n : Fin 32) (i : Byte), clUp s n.val = true → inAnyGroup s n.val i.toNat = true → False) := by
  intro h
  refine h (up.setReg .GCL_WG_MEMBERS 2047 0x80000000) 31 255 ?_ ?_ <;> decide +kernel

/-! ## ClusterTimersAndStalls: ClusterTimers, ChannelEvents, LongStallsEnd -/

theorem witness_ClusterTimers_1 : ¬ (∀ (s u : State) (t : BitVec 14) (n : Nat) (v : W64), u = advance s n → thrUp u t.toNat = true → (isMgt t.toNat = true ∨ parked u (cluOf t.toNat) = false) → (thrOf u t.toNat).tcmp = some v → v.toNat ≤ nt64 u → False) := by
  intro h
  refine h (setThr up 8191 { noThread 0 with tcmp := some 0 }) _ 8191 0 _ rfl ?_ (.inr ?_) rfl ?_ <;> decide +kernel

theorem witness_ClusterTimers_2 : ¬ (∀ (s u : State) (t : BitVec 14) (n : Nat), u = advance s n → thrUp u t.toNat = true → budgetOut u t.toNat = true → ((thrOf u t.toNat).st = .run ∨ (thrOf u t.toNat).st = .ready) → False) := by
  intro h
  refine h (setThr up 8191 { noThread 0 with st := .run, budget := .run 0 }) _ 8191 0 rfl ?_ ?_ (.inl ?_) <;> decide +kernel

theorem witness_ClusterTimers_3 : ¬ (∀ (s u : State) (t : BitVec 14) (n : Nat), u = advance s n → thrUp u t.toNat = true → budgetOut u t.toNat = true → (thrOf u t.toNat).st = .stall → False) := by
  intro h
  refine h (setThr up 8191 { noThread 0 with st := .stall, budget := .run 0 }) _ 8191 0 rfl ?_ ?_ ?_ <;> decide +kernel

theorem witness_ClusterTimers_4 : ¬ (∀ (s u : State) (n : Fin 32) (w : Fin 8) (k : Nat), u = advance s k → clUp u n.val = true → parked u n.val = false → wgDue u n.val w.val = true → False) := by
  intro h
  refine h { up with clk := 10000000, gar := { up.gar with wg := [(255, ⟨some 0, 0, false⟩)] } } _ 31 7 0 rfl ?_ ?_ ?_ <;> decide +kernel

theorem witness_ChannelEvents_1 : ¬ (∀ (s u : State) (n : Fin 32) (c : Fin 64) (k : Nat), clUp s n.val = true → k = 64 * n.val + c.val → chanEn s k = true → u = sendersOff (s.setFlag F.GCL_CH_CFG_EN k false) (· == k) → False) := by
  intro h
  refine h (up.setFlag F.GCL_CH_CFG_EN 2047 true) _ 31 63 _ ?_ rfl ?_ rfl <;> decide +kernel

theorem witness_ChannelEvents_2 : ¬ (∀ (s u : State) (n : Fin 32) (c : Fin 64) (i k : Nat) (m : Msg), k = 64 * n.val + c.val → transitPick s k i = some (k, m) → u = { s with gar := { s.gar with transit := s.gar.transit.erase (k, m) } } → clUp u n.val = true → False) := by
  intro h
  refine h { up with gar := { up.gar with transit := [(2047, ⟨3, [1]⟩)] } } _ 31 63 0 2047 ⟨3, [1]⟩ ?_ ?_ rfl ?_ <;> decide +kernel

theorem witness_ChannelEvents_3 : ¬ (∀ (s u : State) (n : Fin 32) (c : Fin 64) (i k : Nat) (m : Msg), k = 64 * n.val + c.val → transitPick s k i = some (k, m) → u = { s with gar := { s.gar with transit := s.gar.transit.erase (k, m) } } → clUp u n.val = false → False) := by
  intro h
  refine h { up.setReg .RST_DOM_STS_CL 0 0x80000000 with gar := { up.gar with transit := [(2047, ⟨3, [1]⟩)] } } _ 31 63 0 2047 ⟨3, [1]⟩ ?_ ?_ rfl ?_ <;> decide +kernel

theorem witness_LongStallsEnd_1 : ¬ (∀ (s : State) (t : BitVec 14) (a : CellReq), thrUp s t.toNat = true → nextAcc (thrOf s t.toNat) false = some a → False) := by
  intro h
  refine h (setThr up 8191 { noThread 0 with st := .stall, wait := .cell, acc := [⟨0, [], [], none, 5, 8, true, true, false, false⟩] }) 8191 ⟨0, [], [], none, 5, 8, true, true, false, false⟩ ?_ ?_ <;> decide +kernel

theorem witness_LongStallsEnd_2 : ¬ (∀ (s : State) (t : BitVec 14) (a : CellReq) (data : List Byte) (err : Bool), thrUp s t.toNat = true → nextAcc (thrOf s t.toNat) true = some a → (∀ (p : Nat) (out : Bool) (fn : Option Nat) (n : Nat), a.xfer = some (p, out, fn, n) → out = true ∨ fn = none ∨ a.ok = false) → False) := by
  intro h
  refine h (setThr up 8191 { noThread 0 with st := .stall, wait := .dma, acc := [⟨0, [], [], some (0, true, none, 0), 5, 8, false, true, false, false⟩] }) 8191 ⟨0, [], [], some (0, true, none, 0), 5, 8, false, true, false, false⟩ [] false ?_ ?_ (fun _ _ _ _ e => .inl (by cases e; rfl)) <;> decide +kernel

theorem witness_LongStallsEnd_3 : ¬ (∀ (s : State) (t : BitVec 14) (a : CellReq) (data : List Byte) (p k n : Nat), thrUp s t.toNat = true → nextAcc (thrOf s t.toNat) true = some a → a.xfer = some (p, false, some k, n) → a.ok = true → data.length = n → False) := by
  intro h
  refine h (setThr up 8191 { noThread 0 with st := .stall, wait := .dma, acc := [⟨0, [], [], some (0, false, some 0, 1), 5, 8, true, true, false, false⟩] }) 8191 ⟨0, [], [], some (0, false, some 0, 1), 5, 8, true, true, false, false⟩ [7] 0 0 1 ?_ ?_ ?_ ?_ ?_ <;> decide +kernel

theorem witness_LongStallsEnd_4 : ¬ (∀ (s u v : State) (t : BitVec 14) (a b : CellReq) (data bs : List Byte) (p k n : Nat), thrUp s t.toNat = true → nextAcc (thrOf s t.toNat) true = some a → a.xfer = some (p, false, some k, n) → a.ok = true → freeBytes s n = (bs, u) → b = { a with val := 13, ok := false } → v = setThr u t.toNat { thrOf u t.toNat with acc := (thrOf u t.toNat).acc.map (fun c => if c = a then b else c) } → False) := by
  intro h
  refine h (setThr up 8191 { noThread 0 with st := .stall, wait := .dma, acc := [⟨0, [], [], some (0, false, some 0, 1), 5, 8, true, true, false, false⟩] }) _ _ 8191 ⟨0, [], [], some (0, false, some 0, 1), 5, 8, true, true, false, false⟩ _ [] _ 0 0 1 ?_ ?_ ?_ ?_ (pair0 _) rfl rfl <;> decide +kernel

theorem witness_LongStallsEnd_5 : ¬ (∀ (s u : State) (t : BitVec 14) (rd st : Nat) (qd flow : W32) (derived : Bool) (it : Item), thrUp s t.toNat = true → (thrOf s t.toNat).st = .stall → (thrOf s t.toNat).wait = .enq rd qd flow (derived, it) → thrEnqReady s t.toNat qd derived = true → thrEnq s t.toNat qd flow derived it = (st, u) → False) := by
  intro h
  refine h (thr 8191 .stall (.enq 5 0 0 (true, 0))) _ 8191 5 _ 0 0 true 0 ?_ ?_ ?_ ?_ (pair0 _) <;> decide +kernel

theorem witness_LongStallsEnd_6 : ¬ (∀ (s u : State) (t : BitVec 14) (rd st : Nat) (a b : W32) (final : Bool) (hdr : List Byte) (it : Item) (h : Held), thrUp s t.toNat = true → (thrOf s t.toNat).st = .stall → (thrOf s t.toNat).wait = .gate rd a b (final, hdr, it) → (thrOf s t.toNat).item = some h → emitWaits s h final it = false → emitRun s t.toNat h final a.toNat b hdr it = (st, u) → False) := by
  intro h
  refine h (setThr up 8191 { noThread 0 with st := .stall, wait := .gate 5 0 0 (false, [], formItem), item := some ⟨none, 0, 0, none, false, 0, 0⟩ }) _ 8191 5 _ 0 0 false [] formItem ⟨none, 0, 0, none, false, 0, 0⟩ ?_ ?_ ?_ ?_ ?_ (pair0 _) <;> decide +kernel

theorem witness_LongStallsEnd_7 : ¬ (∀ (s u : State) (t : BitVec 14) (rd c : Nat) (a : Nat × List W32) (ws : List W32), (thrOf s t.toNat).wait = .send rd c ws → (blockedSend s c).head? = some (t.toNat, a) → chanTakes s c = true → chanRoom s c = true → u = chanCommit s t.toNat c a.2 → False) := by
  intro h
  refine h (let u := setThr (up.setFlag F.GCL_CH_CFG_EN 2047 true) 8191 { noThread 0 with st := .stall, wait := .send 5 2047 [1] }; { u with gar := { u.gar with chq := [8191] } }) _ 8191 5 2047 (5, [1]) [1] ?_ ?_ ?_ ?_ rfl <;> decide +kernel

theorem witness_LongStallsEnd_8 : ¬ (∀ (s u : State) (t : BitVec 14) (rd c n : Nat) (a : W32) (b : Nat × W32), (thrOf s t.toNat).wait = .recv rd a c → (blockedRecv s c).head? = some (t.toNat, b) → chanTake s t.toNat c b.2.toNat = some (n, u) → False) := by
  intro h
  refine h (let u := thr 8191 .stall (.recv 5 0xE000 2047); { u with gar := { u.gar with chq := [8191], chan := [(2047, [⟨3, [1]⟩])] } }) _ 8191 5 2047 _ 0xE000 (5, 0xE000) ?_ ?_ rfl <;> decide +kernel

theorem witness_LongStallsEnd_9 : ¬ (∀ (s : State) (c t : Nat) (a : Nat × List W32), (t, a) ∈ blockedSend s c → False) := by
  intro h
  refine h (let u := setThr (up.setFlag F.GCL_CH_CFG_EN 2047 true) 8191 { noThread 0 with st := .stall, wait := .send 5 2047 [1] }; { u with gar := { u.gar with chq := [8191] } }) 2047 8191 (5, [1]) ?_
  decide +kernel

theorem witness_LongStallsEnd_10 : ¬ (∀ (s : State) (c t : Nat) (a : Nat × W32), (t, a) ∈ blockedRecv s c → False) := by
  intro h
  refine h (let u := thr 8191 .stall (.recv 5 0xE000 2047); { u with gar := { u.gar with chq := [8191] } }) 2047 8191 (5, 0xE000) ?_
  decide +kernel

/-! ## ClusterClocksAndCoprocessors: ClusterClocks, CoprocessorControl -/

theorem witness_ClusterClocks_1 : ¬ (∀ (s : State) (n : Fin 32), s.rst.aon = true → clusterPresent s n.val = true → parked s n.val = false → mget noNat s.rst.stepTo n.val = 0 → False) := by
  intro h
  refine h (up) 31 ?_ ?_ ?_ ?_ <;> decide +kernel

theorem witness_ClusterClocks_2 : ¬ (∀ (s : State) (n : Fin 32) (g : Nat), s.rst.aon = true → clusterPresent s n.val = true → parked s n.val = false → mget noNat s.rst.stepTo n.val = g + 1 → False) := by
  intro h
  refine h { up with rst := { up.rst with stepTo := [(31, 3)] } } 31 2 ?_ ?_ ?_ ?_ <;> decide +kernel

theorem witness_ClusterClocks_3 : ¬ (∀ (s : State) (n : Fin 32) (v : Nat), mwf regReset s.regs = true → v < 3 → False) := by
  intro h
  refine h (up) 31 2 ?_ ?_ <;> decide +kernel

theorem witness_ClusterClocks_4 : ¬ (∀ (s v u : State) (n : Fin 32), clUp s n.val = true → s.flag F.RST_CLU_CLK_PARK n.val = true → parked s n.val = false → cluDrained s n.val = true → v = (if mget noNat s.rst.stepTo n.val = 0 then s else stepApply s n.val) → u = (wgFold v n.val).setFlag F.RST_CLU_CLK_PARKED n.val true → False) := by
  intro h
  refine h (up.setFlag F.RST_CLU_CLK_PARK 31 true) _ _ 31 ?_ ?_ ?_ ?_ rfl rfl <;> decide +kernel

theorem witness_ClusterClocks_5 : ¬ (∀ (s u : State) (n : Fin 32), clUp s n.val = true → s.flag F.RST_CLU_CLK_PARK n.val = false → parked s n.val = true → u = (s.setFlag F.RST_CLU_CLK_PARKED n.val false).setFlag F.RST_CLU_CLK_PLL_LOCK n.val true → False) := by
  intro h
  refine h (up.setFlag F.RST_CLU_CLK_PARKED 31 true) _ 31 ?_ ?_ ?_ rfl <;> decide +kernel

theorem witness_CoprocessorControl_1 : ¬ (∀ (s : State) (n : Fin 32) (u : Fin 2) (l : Fin 16), cpxLive s n.val u.val = true → parked s n.val = false → False) := by
  intro h
  refine h (up) 31 1 15 ?_ ?_ <;> decide +kernel

theorem witness_CoprocessorControl_2 : ¬ (∀ (s : State) (n : Fin 32) (u : Fin 2) (l : Fin 16) (c : CpxCmd), cpxLive s n.val u.val = true → cpxNext s n.val u.val l.val = some c → c.move = none → isLock c = false → (laneOf s n.val u.val l.val).holder = some c.thr → c.cop ≠ 1 → False) := by
  intro h
  refine h { up with cpx := { up.cpx with queue := [(63, [⟨0, 15, 7, 3, 0, 0, 0, none, false, true⟩])], lane := [(1023, { noLane 0 with holder := some 7 })] } } 31 1 15 ⟨0, 15, 7, 3, 0, 0, 0, none, false, true⟩ ?_ ?_ ?_ ?_ ?_ ?_ <;> decide +kernel

theorem witness_CoprocessorControl_3 : ¬ (∀ (s : State) (n : Fin 32) (u : Fin 2) (l : Fin 16), cpxLive s n.val u.val = true → False) := by
  intro h
  refine h (up) 31 1 15 ?_
  decide +kernel

theorem witness_CoprocessorControl_4 : ¬ (∀ (s u : State) (n : Fin 32) (k : Fin 512) (k256 : Bool), cpxLive s n.val 0 = true → u = { s with cpx := { s.cpx with kbuf := mkeep (fun i => i / 8 != 512 * n.val + k.val) s.cpx.kbuf } } → False) := by
  intro h
  refine h (up) _ 31 511 true ?_ rfl
  decide +kernel

theorem witness_CoprocessorControl_5 : ¬ (∀ (s : State) (n : Fin 32) (u : Fin 2), cpxLive s n.val u.val = true → s.flag F.CPX_CFG_EN (2 * n.val + u.val) = true → False) := by
  intro h
  refine h (up.setFlag F.CPX_CFG_EN 63 true) 31 1 ?_ ?_ <;> decide +kernel

/-! ## FlintHostCommands -/

theorem witness_FlintHostCommands_1 : ¬ (∀ (s u v : State) (c : Ctl) (st : Nat) (x : Bool), Starts s u c 0x401 → bodyWord c 0 < 4096 → lockTry u (bodyWord c 0) (ownerOfFn (s.fld F.HIF_CTR_CFG_FN c.ring.val)) = (st, x, v) → False) := by
  intro h
  refine h ringed _ _ (entry [4095]) _ _ ⟨?_, ?_, rfl⟩ ?_ (triple _) <;> decide +kernel

theorem witness_FlintHostCommands_2 : ¬ (∀ (s u v : State) (c : Ctl) (st : Nat), Starts s u c 0x402 → bodyWord c 0 < 4096 → lockRel u (bodyWord c 0) (ownerOfFn (s.fld F.HIF_CTR_CFG_FN c.ring.val)) = (st, v) → False) := by
  intro h
  refine h ringed _ _ (entry [4095]) _ ⟨?_, ?_, rfl⟩ ?_ (pair _ rfl) <;> decide +kernel

theorem witness_FlintHostCommands_3 : ¬ (∀ (s u v : State) (c : Ctl) (st : Nat), Starts s u c 0x403 → bodyWord c 0 < 512 → 0 < bodyWord c 1 → bodyWord c 1 < 2 ^ 16 → semTry u (bodyWord c 0) (ownerOfFn (s.fld F.HIF_CTR_CFG_FN c.ring.val)) (bodyWord c 1) = (st, v) → False) := by
  intro h
  refine h ringed _ _ (entry [511, 0xFFFF]) _ ⟨?_, ?_, rfl⟩ ?_ ?_ ?_ (pair _ rfl) <;> decide +kernel

theorem witness_FlintHostCommands_4 : ¬ (∀ (s u v : State) (c : Ctl) (st : Nat), Starts s u c 0x404 → bodyWord c 0 < 512 → 0 < bodyWord c 1 → bodyWord c 1 < 2 ^ 16 → semRel u (bodyWord c 0) (ownerOfFn (s.fld F.HIF_CTR_CFG_FN c.ring.val)) (bodyWord c 1) = (st, v) → False) := by
  intro h
  refine h ringed _ _ (entry [511, 0xFFFF]) _ ⟨?_, ?_, rfl⟩ ?_ ?_ ?_ (pair _ rfl) <;> decide +kernel

theorem witness_FlintHostCommands_5 : ¬ (∀ (s u : State) (c : Ctl), Starts s u c 0x405 → bodyWord c 0 < 4096 → False) := by
  intro h
  refine h ringed _ (entry [4095]) ⟨?_, ?_, rfl⟩ ?_ <;> decide +kernel

theorem witness_FlintHostCommands_6 : ¬ (∀ (s u : State) (c : Ctl) (n : Nat), Starts s u c 0x405 → bodyWord c 0 = 2 ^ 31 + n → n < 512 → False) := by
  intro h
  refine h ringed _ (entry [0x800001FF]) 511 ⟨?_, ?_, rfl⟩ ?_ ?_ <;> decide +kernel

theorem witness_FlintHostCommands_7 : ¬ (∀ (s u : State) (w : W32), pktUp s = true → fltForce s (bitOf w.toNat 31) (bits w.toNat 27 16) (bits w.toNat 15 0) = (true, u) → False) := by
  intro h
  refine h { up with flt := { up.flt with lock := [(4095, ⟨some 7, false, false, []⟩)] } } _ 0x0FFF0007 ?_ (pair _ ?_) <;> decide +kernel

theorem witness_FlintHostCommands_8 : ¬ (∀ (s u : State) (w : W32), pktUp s = true → fltForce s (bitOf w.toNat 31) (bits w.toNat 27 16) (bits w.toNat 15 0) = (false, u) → False) := by
  intro h
  refine h (up) _ 0x0FFF0007 ?_ (pair _ ?_) <;> decide +kernel

/-! ## PowerOnPinsAndReleases: PowerOnAndBrownOut, ResetPins, PulsesAndReleases -/

theorem witness_PowerOnAndBrownOut_2 : ¬ (∀ (s : State) (m : BitVec 2), s.rst.aon = false → False) := by
  intro h
  refine h { up with rst := { up.rst with aon := false } } 3 ?_
  decide +kernel

theorem witness_PowerOnAndBrownOut_3 : ¬ (∀ (s : State) (m : BitVec 2), s.rst.aon = true → False) := by
  intro h
  refine h (up) 0 ?_
  decide +kernel

theorem witness_PowerOnAndBrownOut_4 : ¬ (∀ s : State, s.rst.aon = false → False) := by
  intro h
  refine h { up with rst := { up.rst with aon := false } } ?_
  decide +kernel

theorem witness_PowerOnAndBrownOut_5 : ¬ (∀ s : State, s.rst.aon = true → False) := by
  intro h
  refine h (up) ?_
  decide +kernel

theorem witness_ResetPins_1 : ¬ (∀ s : State, s.rst.aon = true → srcHeld s .resetN = false → False) := by
  intro h
  refine h (up) ?_ ?_ <;> decide +kernel

theorem witness_ResetPins_2 : ¬ (∀ s : State, s.rst.aon = false ∨ srcHeld s .resetN = true → False) := by
  intro h
  refine h { up with rst := { up.rst with aon := false } } ?_
  decide +kernel

theorem witness_ResetPins_4 : ¬ (∀ s : State, s.rst.aon = true → srcHeld s (.perst 0) = false → False) := by
  intro h
  refine h (up) ?_ ?_ <;> decide +kernel

theorem witness_ResetPins_5 : ¬ (∀ s : State, s.rst.aon = true → srcHeld s (.perst 1) = false → s.hif.bifur = true → False) := by
  intro h
  refine h { up with hif := { up.hif with bifur := true } } ?_ ?_ ?_ <;> decide +kernel

theorem witness_ResetPins_6 : ¬ (∀ s : State, s.rst.aon = true → srcHeld s (.perst 1) = false → s.hif.bifur = false → False) := by
  intro h
  refine h (up) ?_ ?_ ?_ <;> decide +kernel

theorem witness_ResetPins_7 : ¬ (∀ (s : State) (h : Fin 2), s.rst.aon = false ∨ srcHeld s (.perst h.val) = true → False) := by
  intro h
  refine h { up with rst := { up.rst with aon := false } } 0 ?_
  decide +kernel

theorem witness_PulsesAndReleases_1 : ¬ (∀ (s u : State) (n : Nat), u = advance s n → False) :=
  fun h => h (up) _ 0 rfl

theorem witness_PulsesAndReleases_2_1 : ¬ (∀ (s u : State) (n : Nat) (e : RelEvent) (d : Nat), u = advance s n → u.rst.aon = true → u.rst.events = [e] → eventDue u e = true → nextRelease u e = [d] → d ≠ 2 → ∀ ds, ds = e.doms.filter (fun x => !([d] : List Nat).contains x) → ds = [] → False) := by
  intro h
  refine h { up with rst := { up.rst with events := [⟨0, [3], none⟩] } } _ 0 ⟨0, [3], none⟩ 3 rfl ?_ ?_ ?_ ?_ ?_ _ ?_ rfl <;> decide +kernel

theorem witness_PulsesAndReleases_2_2 : ¬ (∀ (s u : State) (n : Nat) (e : RelEvent) (d : Nat), u = advance s n → u.rst.aon = true → u.rst.events = [e] → eventDue u e = true → nextRelease u e = [d] → d ≠ 2 → ∀ ds, ds = e.doms.filter (fun x => !([d] : List Nat).contains x) → ds ≠ [] → False) := by
  intro h
  refine h { up with rst := { up.rst with events := [⟨0, [3, 4], none⟩] } } _ 0 ⟨0, [3, 4], none⟩ 3 rfl ?_ ?_ ?_ ?_ ?_ _ rfl ?_ <;> decide +kernel

theorem witness_PulsesAndReleases_3 : ¬ (∀ (s u v : State) (n k : Nat) (ds : List Nat) (more : Bool), u = advance s n → u.rst.aon = true → u.rst.events.findIdx? (eventDue u) = some k → ds = nextRelease u ((u.rst.events[k]?).getD ⟨0, [], none⟩) → (v, more) = (if ds = [2] then sampleBifur u else (u, false)) → False) := by
  intro h
  refine h { up with rst := { up.rst with events := [⟨0, [3, 4], none⟩, ⟨0, [40], none⟩] } } _ _ 0 0 _ false rfl ?_ ?_ rfl (pair0 _) <;> decide +kernel

theorem witness_PulsesAndReleases_4 : ¬ (∀ (s u : State) (n : Nat), u = advance s n → u.rst.aon = false ∨ u.rst.events.findIdx? (eventDue u) = none → False) := by
  intro h
  refine h (up) _ 0 rfl ?_
  decide +kernel

/-! ## ResetsReachTheirDomains: ResetReach, SoftwareResets, BlockResets -/

theorem witness_SoftwareResets_1_1 : ¬ (∀ (s : State) (w : BitVec 9) (cl : W32) (r : Nat), s.rst.aon = true → r = swBits s w.toNat cl.toNat → r ≠ 0 → (bitOf r 4 = true → bitOf r 5 = true ∨ bitOf r 8 = true ∨ s.flag F.DRC_STS_DRAINED 0 = true) → (∀ n < 32, bitOf r (32 + n) = true → clUp s n = true → cluDrained s n = true) → s.flag F.RST_SWRST_CFG_HOLD 0 = false → False) := by
  intro h
  refine h (up) 2 0x80000000 _ ?_ rfl ?_ ?_ ?_ ?_ <;> decide +kernel

theorem witness_SoftwareResets_1_2 : ¬ (∀ (s : State) (w : BitVec 9) (cl : W32) (r : Nat), s.rst.aon = true → r = swBits s w.toNat cl.toNat → r ≠ 0 → (bitOf r 4 = true → bitOf r 5 = true ∨ bitOf r 8 = true ∨ s.flag F.DRC_STS_DRAINED 0 = true) → (∀ n < 32, bitOf r (32 + n) = true → clUp s n = true → cluDrained s n = true) → ∀ v : State, s.flag F.RST_SWRST_CFG_HOLD 0 = true → v = assertSrc s ⟨.sw, r, none⟩ 6 → (s.rst.holds.filter (fun h => h.src == RstSrc.sw && h.till.isNone)) = [] → False) := by
  intro h
  refine h (up.setFlag F.RST_SWRST_CFG_HOLD 0 true) 2 0x80000000 _ ?_ rfl ?_ ?_ ?_ _ ?_ rfl ?_ <;> decide +kernel

theorem witness_SoftwareResets_2 : ¬ (∀ (s : State) (w : BitVec 9) (cl : W32) (r : Nat), s.rst.aon = true → r = swBits s w.toNat cl.toNat → bitOf r 4 = true → bitOf r 5 = false → bitOf r 8 = false → s.flag F.DRC_STS_DRAINED 0 = false → False) := by
  intro h
  refine h (up.setFlag F.DRC_STS_DRAINED 0 false) 0x10 0 _ ?_ rfl ?_ ?_ ?_ ?_ <;> decide +kernel

theorem witness_SoftwareResets_3 : ¬ (∀ (s : State) (w : BitVec 9) (cl : W32), s.rst.aon = true → False) := by
  intro h
  refine h (up) 0 0 ?_
  decide +kernel

theorem witness_BlockResets_1 : ¬ (∀ (s : State) (b : Fin 8), s.rst.aon = true → s.flag (blkFld b.val) 0 = false → blkDrained s b.val = true → False) := by
  intro h
  refine h (up) 7 ?_ ?_ ?_ <;> decide +kernel

/-! ## WatchdogClocksAndThermal: Watchdog, ClockMonitors, ThermalLogic -/

theorem witness_Watchdog_1 : ¬ (∀ (s : State) (e : Nat), s.rst.aon = true → s.flag F.RST_WDT_CFG_EN 0 = true → s.rst.wdt = .run e → False) := by
  intro h
  refine h { up.setFlag F.RST_WDT_CFG_EN 0 true with rst := { up.rst with wdt := .run 0 } } _ ?_ ?_ rfl <;> decide +kernel

theorem witness_Watchdog_2 : ¬ (∀ (s : State) (k : W16), s.rst.aon = true → s.flag F.RST_WDT_CFG_EN 0 = true → k ≠ 0xC1A5 → False) := by
  intro h
  refine h (up.setFlag F.RST_WDT_CFG_EN 0 true) 0 ?_ ?_ ?_ <;> decide +kernel

theorem witness_Watchdog_3 : ¬ (∀ (s : State) (k : W16), s.flag F.RST_WDT_CFG_EN 0 = false → False) := by
  intro h
  refine h (up) 0 ?_
  decide +kernel

theorem witness_Watchdog_4 : ¬ (∀ (s u : State) (n e : Nat), u = advance s n → u.rst.aon = true → u.rst.wdt = .run e → u.flag F.RST_WDT_STS_WARNED 0 = false → u.fld F.RST_WDT_CFG_WARN_MS 0 < max 1 (u.fld F.RST_WDT_CFG_TIMEOUT_MS 0) → (max 1 (u.fld F.RST_WDT_CFG_TIMEOUT_MS 0) - u.fld F.RST_WDT_CFG_WARN_MS 0) * 1500000 ≤ u.clk - e → False) := by
  intro h
  refine h { ((up.setFlag F.RST_WDT_CFG_EN 0 true).setFld F.RST_WDT_CFG_TIMEOUT_MS 0 1).setFld F.RST_WDT_CFG_WARN_MS 0 0 with clk := 1500000, rst := { up.rst with wdt := .run 0 } } _ 0 _ rfl ?_ rfl ?_ ?_ ?_ <;> decide +kernel

theorem witness_Watchdog_5 : ¬ (∀ (s u v : State) (n e : Nat), u = advance s n → u.rst.aon = true → u.rst.wdt = .run e → max 1 (u.fld F.RST_WDT_CFG_TIMEOUT_MS 0) * 1500000 ≤ u.clk - e → v = { u with rst := { u.rst with wdt := .waiting } }.bump F.RST_WDT_STS_EXPIRED 0 1 → False) := by
  intro h
  refine h { (up.setFlag F.RST_WDT_CFG_EN 0 true).setFld F.RST_WDT_CFG_TIMEOUT_MS 0 1 with clk := 1500000, rst := { up.rst with wdt := .run 0 } } _ _ 0 _ rfl ?_ rfl ?_ rfl <;> decide +kernel

theorem witness_ClockMonitors_1 : ¬ (∀ (s u v : State) (k : Fin 48), s.rst.aon = true → clkExists s k.val = true → srcHeld s (.clk k.val) = false → u = clkCount (clkReport s k.val false) k.val → v = { u with rst := { u.rst with clkFail := some (clkCause k.val - 8) } } → False) := by
  intro h
  refine h (up) _ _ 47 ?_ ?_ ?_ rfl rfl <;> decide +kernel

theorem witness_ClockMonitors_2 : ¬ (∀ (s : State) (k : Fin 48), s.rst.aon = true → clkExists s k.val = true → False) := by
  intro h
  refine h (up) 47 ?_ ?_ <;> decide +kernel

theorem witness_ThermalLogic_1 : ¬ (∀ (s u v : State) (ts : List (BitVec 12)) (n : Nat), u = advance s n → u.rst.aon = true → v = takeTemps u ts → False) := by
  intro h
  refine h (up) _ _ [400] 0 rfl ?_ rfl
  decide +kernel

theorem witness_ThermalLogic_2 : ¬ (∀ s : State, (∀ i < 36, sensorAt s i 125 = false) → False) := by
  intro h
  refine h (up) ?_
  decide +kernel

theorem witness_ThermalLogic_3 : ¬ (∀ (s u v : State) (c : Fin 32) (n e : Nat), u = advance s n → u.rst.aon = true → u.flag F.RST_THERM_CFG_THR_EN 0 = true → 0 < u.fld F.RST_CLU_CLK_LIMIT c.val → mget noSince u.rst.hotAt c.val = some e → e + 150000 ≤ u.clk → v = { u with rst := { u.rst with hotAt := mset noSince u.rst.hotAt c.val (some u.clk) } } → False) := by
  intro h
  refine h { (up.setFlag F.RST_THERM_CFG_THR_EN 0 true).setFld F.RST_CLU_CLK_LIMIT 31 2 with clk := 1500000, rst := { up.rst with hotAt := [(31, some 0)] } } _ _ 31 0 _ rfl ?_ ?_ ?_ rfl ?_ rfl <;> decide +kernel

theorem witness_ThermalLogic_4 : ¬ (∀ (s u v : State) (c : Fin 32) (n e : Nat), u = advance s n → u.rst.aon = true → u.flag F.RST_THERM_CFG_THR_EN 0 = true → u.fld F.RST_CLU_CLK_LIMIT c.val < 2 → mget noSince u.rst.coolAt c.val = some e → e + 1500000 ≤ u.clk → v = { u with rst := { u.rst with coolAt := mset noSince u.rst.coolAt c.val (some u.clk) } } → False) := by
  intro h
  refine h { (up.setFlag F.RST_THERM_CFG_THR_EN 0 true).setFld F.RST_CLU_CLK_LIMIT 31 1 with clk := 1500000, rst := { up.rst with coolAt := [(31, some 0)] } } _ _ 31 0 _ rfl ?_ ?_ ?_ rfl ?_ rfl <;> decide +kernel

/-! ## Boot: BootStages, ImageChecks -/

theorem witness_BootStages_1 : ¬ (∀ (s u : State) (bs : List Byte), romRuns s = true → romAt s 1 = true → u = mgtWrite s 0xFFE00 (flashBytes bs 0 512) → hdrValid u = false → False) := by
  intro h
  refine h (rom 1) _ [] ?_ ?_ rfl ?_ <;> decide +kernel

theorem witness_BootStages_2 : ¬ (∀ (s u : State) (bs : List Byte), romRuns s = true → romAt s 1 = true → u = mgtWrite s 0xFFE00 (flashBytes bs 0 512) → hdrValid u = true → imgLoad u + imgLen u ≤ 0xFFE00 → False) := by
  intro h
  refine h (rom 1) _ (header.take 12) ?_ ?_ rfl ?_ ?_ <;> decide +kernel

theorem witness_BootStages_3 : ¬ (∀ s : State, romRuns s = true → romAt s 1 = true → False) := by
  intro h
  refine h (rom 1) ?_ ?_ <;> decide +kernel

theorem witness_BootStages_4 : ¬ (∀ s : State, romRuns s = true → romAt s 2 = true → False) := by
  intro h
  refine h (rom 2) ?_ ?_ <;> decide +kernel

theorem witness_BootStages_5 : ¬ (∀ s : State, romRuns s = true → romAt s 3 = true → imgCheck s = 0 → mwf noThread s.gar.thr = true → False) := by
  intro h
  refine h (rom 3) ?_ ?_ ?_ ?_ <;> decide +kernel

theorem witness_BootStages_6_1 : ¬ (∀ s u : State, romRuns s = true → romAt s 3 = true → imgCheck s ≠ 0 → u = s.setFld F.MGT_BOOT_STS_ERR 0 (imgCheck s) → u.fld F.MGT_BOOT_STS_MODE 0 = 0 ∧ u.flag F.MGT_BOOT_STS_FELLBACK 0 = false → False) := by
  intro h
  refine h { rom 3 with mgtMem := [] } _ ?_ ?_ ?_ rfl ?_ <;> decide +kernel

theorem witness_BootStages_6_2 : ¬ (∀ s u : State, romRuns s = true → romAt s 3 = true → imgCheck s ≠ 0 → u = s.setFld F.MGT_BOOT_STS_ERR 0 (imgCheck s) → u.fld F.MGT_BOOT_STS_MODE 0 ≠ 0 ∨ u.flag F.MGT_BOOT_STS_FELLBACK 0 = true → False) := by
  intro h
  refine h { (rom 3).setFld F.MGT_BOOT_STS_MODE 0 1 with mgtMem := [] } _ ?_ ?_ ?_ rfl ?_ <;> decide +kernel

theorem witness_BootStages_7 : ¬ (∀ s : State, romRuns s = true → s.fld F.MGT_BOOT_STS_STAGE 0 ≤ 3 → False) := by
  intro h
  refine h (rom 3) ?_ ?_ <;> decide +kernel

theorem witness_ImageChecks_2 : ¬ (∀ s : State, imgMagic s = false → False) := by
  intro h
  refine h up ?_
  decide +kernel

theorem witness_ImageChecks_3 : ¬ (∀ s : State, imgMagic s = true → imgZeros s = true → imgRange s = true → s.rst.fuse = 0 → False) := by
  intro h
  refine h { rom 3 with mgtMem := wrBytes [] 0xFFE00 (header.take 12), rst := { up.rst with fuse := 0 } } ?_ ?_ ?_ ?_ <;> decide +kernel

/-! ## ManagementController -/

theorem witness_ManagementController_1 : ¬ (∀ (s : State) (t : Fin 8), mgtUp s = true → False) := by
  intro h
  refine h (up) 7 ?_
  decide +kernel

theorem witness_ManagementController_2 : ¬ (∀ (s : State) (i : Fin 8) (pc : W32), mgtUp s = true → (thrOf s (0x2000 + i.val)).st = .dormant → False) := by
  intro h
  refine h (up) 7 0 ?_ ?_ <;> decide +kernel

theorem witness_ManagementController_3 : ¬ (∀ (s : State) (i : Fin 8) (pc : W32), mgtUp s = true → (thrOf s (0x2000 + i.val)).st ≠ .dormant → False) := by
  intro h
  refine h (thr 8199 .run .none) 7 0 ?_ ?_ <;> decide +kernel

theorem witness_ManagementController_4 : ¬ (∀ (s : State) (i : Fin 8), mgtUp s = true → False) := by
  intro h
  refine h (up) 7 ?_
  decide +kernel

theorem witness_ManagementController_5 : ¬ (∀ (s : State) (i : Fin 8) (sev : Byte), mgtUp s = true → (thrOf s (0x2000 + i.val)).st ≠ .dormant → False) := by
  intro h
  refine h (thr 8199 .run .none) 7 0 ?_ ?_ <;> decide +kernel

theorem witness_ManagementController_6 : ¬ (∀ (s : State) (ofs : W16) (v : W64), mgtUp s = true → ofs.toNat % 8 = 0 → winAllowed s true = true → False) := by
  intro h
  refine h (up.setFld F.MGT_CFG_HOST_MEM 0 2) 0xFFF8 0 ?_ ?_ ?_ <;> decide +kernel

theorem witness_ManagementController_7 : ¬ (∀ (s : State) (ofs : W16), mgtUp s = true → ofs.toNat % 4 = 0 → winAllowed s false = true → False) := by
  intro h
  refine h (up.setFld F.MGT_CFG_HOST_MEM 0 1) 0xFFFC ?_ ?_ ?_ <;> decide +kernel

theorem witness_ManagementController_8 : ¬ (∀ (s : State) (ofs : W16) (v : W64), mgtUp s = true → ofs.toNat % 4 = 0 → winAllowed s true = false → False) := by
  intro h
  refine h (up.setFld F.MGT_CFG_HOST_MEM 0 1) 0xFFFC 0 ?_ ?_ ?_ <;> decide +kernel

/-! ## TapAndSession: TapInstructions, DebugSession, DebugAccess -/

theorem witness_TapInstructions_1 : ¬ (∀ (s : State) (l n : BitVec 169), s.rst.aon = true → unlocked s = true → False) := by
  intro h
  refine h unlockedUp 0 0 ?_ ?_ <;> decide +kernel

theorem witness_TapInstructions_2 : ¬ (∀ (s : State) (l n : BitVec 169), s.rst.aon = true → unlocked s = false → False) := by
  intro h
  refine h (up) 0 0 ?_ ?_ <;> decide +kernel

theorem witness_TapInstructions_3 : ¬ (∀ (s : State) (l n : BitVec 169), s.rst.aon = true → False) := by
  intro h
  refine h (up) 0 0 ?_
  decide +kernel

theorem witness_TapInstructions_4 : ¬ (∀ s : State, s.rst.aon = true → False) := by
  intro h
  refine h (up) ?_
  decide +kernel

theorem witness_DebugSession_1 : ¬ (∀ (s : State) (j : Bool), s.rst.aon = true → s.fld F.DBG_SESSION_OWNER 0 = 0 → False) := by
  intro h
  refine h (up) true ?_ ?_ <;> decide +kernel

theorem witness_DebugSession_2 : ¬ (∀ (s : State) (j : Bool), s.fld F.DBG_SESSION_OWNER 0 ≠ 0 → False) := by
  intro h
  refine h (up.setFld F.DBG_SESSION_OWNER 0 1) true ?_
  decide +kernel

theorem witness_DebugSession_3 : ¬ (∀ (s : State) (j : Bool), s.rst.aon = true → s.fld F.DBG_SESSION_OWNER 0 = (if j then 1 else 2) → False) := by
  intro h
  refine h (up.setFld F.DBG_SESSION_OWNER 0 1) true ?_ ?_ <;> decide +kernel

theorem witness_DebugSession_4 : ¬ (∀ (s : State) (j : Bool), s.fld F.DBG_SESSION_OWNER 0 ≠ (if j then 1 else 2) → False) := by
  intro h
  refine h (up) true ?_
  decide +kernel

theorem witness_DebugSession_5 : ¬ (∀ (s : State) (j : Bool) (sc : BitVec 2) (t : BitVec 14), s.rst.aon = true → s.fld F.DBG_SESSION_OWNER 0 = (if j then 2 else 1) → False) := by
  intro h
  refine h (up.setFld F.DBG_SESSION_OWNER 0 2) true 0 8191 ?_ ?_ <;> decide +kernel

theorem witness_DebugAccess_1 : ¬ (∀ (s u v : State) (w : BitVec 96) (a : Nat), s.rst.aon = true → a = bits w.toNat 91 64 → bitOf w.toNat 95 = false → u = { s with dbg := { s.dbg with ir := 0x20 } } → (0x1300000 ≤ a ∧ a < 0x1400000) ∨ dbgScope u 1 = true → busAcc .jtag a (if bitOf w.toNat 94 then 8 else 4) none u = .next v → False) := by
  intro h
  refine h up _ _ (BitVec.ofNat 96 (0x1300000 * 2 ^ 64)) _ ?_ rfl ?_ rfl (.inl ?_) rfl <;> decide +kernel

theorem witness_DebugAccess_2 : ¬ (∀ (s u : State) (w : BitVec 96) (a : Nat), s.rst.aon = true → a = bits w.toNat 91 64 → a < 0x1300000 ∨ 0x1400000 ≤ a → u = { s with dbg := { s.dbg with ir := 0x20 } } → dbgScope u 1 = false → False) := by
  intro h
  refine h up _ 0 _ ?_ rfl ?_ rfl ?_ <;> decide +kernel

/-! ## Unlocking -/

theorem witness_Unlocking_1 : ¬ (∀ (s : State) (j : Bool), s.rst.aon = true → s.fld F.DBG_SESSION_OWNER 0 = 0 → s.dbg.lockout = none → False) := by
  intro h
  refine h (up) true ?_ ?_ ?_ <;> decide +kernel

theorem witness_Unlocking_2 : ¬ (∀ (s : State) (j : Bool), s.rst.aon = true → s.fld F.DBG_SESSION_OWNER 0 = 0 → s.dbg.lockout.isSome = true → False) := by
  intro h
  refine h { up with dbg := { up.dbg with lockout := some 5 } } true ?_ ?_ ?_ <;> decide +kernel

theorem witness_Unlocking_3 : ¬ (∀ (s : State) (j : Bool) (ws : List W32), s.rst.aon = true → s.fld F.DBG_SESSION_OWNER 0 = 0 → s.flag F.DBG_LOCK_BUSY 0 = false → ws = (List.range 64).map (fun j => BitVec.ofNat 32 (s.reg .DBG_TOKEN j)) → False) := by
  intro h
  refine h (up) true _ ?_ ?_ ?_ rfl <;> decide +kernel

theorem witness_Unlocking_4_1 : ¬ (∀ (s : State) (ws : List W32) (c : BitVec 256) (u : State), s.dbg.verify = some (ws, some c) → u = { s with dbg := { s.dbg with verify := none } }.setFlag F.DBG_LOCK_BUSY 0 false → tokenOk u ws c = true → False) := by
  intro h
  refine h { rom 4 with dbg := { up.dbg with verify := some (token, some 0) } } token 0 _ ?_ rfl ?_ <;> decide +kernel

theorem witness_Unlocking_4_2 : ¬ (∀ (s : State) (ws : List W32) (c : BitVec 256) (u : State), s.dbg.verify = some (ws, some c) → u = { s with dbg := { s.dbg with verify := none } }.setFlag F.DBG_LOCK_BUSY 0 false → tokenOk u ws c = false → False) := by
  intro h
  refine h { up with dbg := { up.dbg with verify := some (List.replicate 64 1, some 0) } } (List.replicate 64 1) _ _ rfl rfl ?_
  decide +kernel

theorem witness_Unlocking_5 : ¬ (∀ (s : State) (ws : List W32) (u : State), s.dbg.verify = some (ws, none) → u = { s with dbg := { s.dbg with verify := none } }.setFlag F.DBG_LOCK_BUSY 0 false → False) := by
  intro h
  refine h { up with dbg := { up.dbg with verify := some (token, none) } } token _ ?_ rfl
  decide +kernel

theorem witness_Unlocking_7 : ¬ (∀ (s u : State) (n e : Nat), u = advance s n → u.dbg.lockout = some e → e ≤ u.clk → False) := by
  intro h
  refine h { up with clk := 5, dbg := { up.dbg with lockout := some 5 } } _ 0 5 rfl ?_ ?_ <;> decide +kernel

theorem witness_Unlocking_8 : ¬ (∀ (s : State) (j : Bool), s.rst.aon = true → s.fld F.DBG_SESSION_OWNER 0 = 0 → False) := by
  intro h
  refine h (up) true ?_ ?_ <;> decide +kernel

/-! ## DebugThreadControl -/

theorem witness_DebugThreadControl_1_1 : ¬ (∀ (s u : State) (j : Bool) (t : BitVec 14), s.rst.aon = true → s.fld F.DBG_SESSION_OWNER 0 = 0 → unlocked s = true → thrExists s t.toNat = true → u = { s with dbg := { s.dbg with named := t.toNat } } → dbgScope s 0 = true → (thrOf s t.toNat).st ≠ .dormant → False) := by
  intro h
  refine h (setThr unlockedUp 8191 { noThread 0 with st := .run }) _ true 8191 ?_ ?_ ?_ ?_ rfl ?_ ?_ <;> decide +kernel

theorem witness_DebugThreadControl_1_2 : ¬ (∀ (s u : State) (j : Bool) (t : BitVec 14), s.rst.aon = true → s.fld F.DBG_SESSION_OWNER 0 = 0 → unlocked s = true → thrExists s t.toNat = true → u = { s with dbg := { s.dbg with named := t.toNat } } → dbgScope s 0 = true → (thrOf s t.toNat).st = .dormant → False) := by
  intro h
  refine h unlockedUp _ true 8191 ?_ ?_ ?_ ?_ rfl ?_ ?_ <;> decide +kernel

theorem witness_DebugThreadControl_1_3 : ¬ (∀ (s u : State) (j : Bool) (t : BitVec 14), s.rst.aon = true → s.fld F.DBG_SESSION_OWNER 0 = 0 → unlocked s = true → thrExists s t.toNat = true → u = { s with dbg := { s.dbg with named := t.toNat } } → dbgScope s 0 = true → (thrOf s t.toNat).halt.isSome = true → False) := by
  intro h
  refine h (setThr unlockedUp 8191 { noThread 0 with st := .run, halt := some ⟨0, .run⟩ }) _ true 8191 ?_ ?_ ?_ ?_ rfl ?_ ?_ <;> decide +kernel

theorem witness_DebugThreadControl_1_4 : ¬ (∀ (s u : State) (j : Bool) (t : BitVec 14), s.rst.aon = true → s.fld F.DBG_SESSION_OWNER 0 = 0 → unlocked s = true → thrExists s t.toNat = true → u = { s with dbg := { s.dbg with named := t.toNat } } → dbgScope s 0 = true → (thrOf s t.toNat).halt = none → False) := by
  intro h
  refine h unlockedUp _ true 8191 ?_ ?_ ?_ ?_ rfl ?_ ?_ <;> decide +kernel

theorem witness_DebugThreadControl_2 : ¬ (∀ (s u : State) (j : Bool) (t : BitVec 14), s.rst.aon = true → s.fld F.DBG_SESSION_OWNER 0 = 0 → unlocked s = true → thrExists s t.toNat = true → u = { s with dbg := { s.dbg with named := t.toNat } } → dbgScope s 0 = false → False) := by
  intro h
  refine h (unlockedUp.setFld F.DBG_LOCK_SCOPE 0 6) _ true 8191 ?_ ?_ ?_ ?_ rfl ?_ <;> decide +kernel

theorem witness_DebugThreadControl_3 : ¬ (∀ (s u : State) (j : Bool) (t : BitVec 14), s.rst.aon = true → s.fld F.DBG_SESSION_OWNER 0 = 0 → unlocked s = true → thrExists s t.toNat = true → u = { s with dbg := { s.dbg with named := t.toNat } } → dbgScope s 2 = true → isSupv u t.toNat = false → False) := by
  intro h
  refine h unlockedUp _ true 8191 ?_ ?_ ?_ ?_ rfl ?_ ?_ <;> decide +kernel

theorem witness_DebugThreadControl_4 : ¬ (∀ (s u : State) (j : Bool) (t : BitVec 14), s.rst.aon = true → s.fld F.DBG_SESSION_OWNER 0 = 0 → unlocked s = true → thrExists s t.toNat = true → u = { s with dbg := { s.dbg with named := t.toNat } } → dbgScope s 2 = true → ∀ rst cl : W32, False) := by
  intro h
  refine h unlockedUp _ true 8191 ?_ ?_ ?_ ?_ rfl ?_ 0 0 <;> decide +kernel

/-! ## RegisterAccesses: HostAccesses, RegisterPortLoads -/

theorem witness_HostAccesses_1_1 : ¬ (∀ (s : State) (h : Fin 2) (a : BitVec 28) (n : Nat), pf1Up s h.val = false → ∀ v : W64, False) := by
  intro h
  refine h (up) 1 0 0 ?_ 0
  decide +kernel

theorem witness_HostAccesses_2 : ¬ (∀ (s : State) (h : Fin 2) (a : BitVec 28) (n : Nat) (wr : Option W64), pf1Up s h.val = true → h = 0 ∨ wr = none ∨ s.flag F.HIF_LINK_CFG_PF1_HL1_ACC 0 = true → False) := by
  intro h
  refine h linked 0 0 0 none ?_ (.inr (.inl rfl))
  decide +kernel

theorem witness_HostAccesses_3 : ¬ (∀ (s : State) (a : BitVec 28) (n : Nat) (v : W64), pf1Up s 1 = true → s.flag F.HIF_LINK_CFG_PF1_HL1_ACC 0 = false → False) := by
  intro h
  refine h { linked with hif := { linked.hif with bifur := true } } 0 0 0 ?_ ?_ <;> decide +kernel

theorem witness_HostAccesses_4_1 : ¬ (∀ (s : State) (q : Req) (a : Nat), winAt a = none → regAt a = none → a % 4 = 0 → ¬(0x1210000 ≤ a ∧ a < 0x1220000) → ¬(0x4000000 ≤ a ∧ a < 0xC000000) → False) := by
  intro h
  refine h (up) (.host 0) 0xFFFFFFC ?_ ?_ ?_ ?_ ?_ <;> decide +kernel

theorem witness_HostAccesses_5_1_1 : ¬ (∀ (s : State) (q : Req) (a i : Nat) (r : RegName) (hi : Bool), winAt a = none → regAt a = some (r, i, hi) → a % 4 = 0 → ¬(0x1210000 ≤ a ∧ a < 0x1220000) → ¬(0x4000000 ≤ a ∧ a < 0xC000000 ∧ 0x200000 ≤ a % 0x400000 ∧ a % 0x400000 < 0x300000) → ∀ v : Nat, regLive s r i = false → False) := by
  intro h
  refine h (up.setReg .RST_DOM_STS_CL 0 0x80000000) (.host 0) 0xBC00010 31 .GCL_ENTRY false ?_ ?_ ?_ ?_ ?_ 0 ?_ <;> decide +kernel

theorem witness_HostAccesses_5_1_2 : ¬ (∀ (s : State) (q : Req) (a i : Nat) (r : RegName) (hi : Bool), winAt a = none → regAt a = some (r, i, hi) → a % 4 = 0 → ¬(0x1210000 ≤ a ∧ a < 0x1220000) → ¬(0x4000000 ≤ a ∧ a < 0xC000000 ∧ 0x200000 ≤ a % 0x400000 ∧ a % 0x400000 < 0x300000) → ∀ v : Nat, regLive s r i = true → r ∈ [RegName.GCL_ENTRY, .GCL_WG_WINDOW, .LPT_PRI, .ORY_DOM_CFG, .CRN_REQ_HARD, .RST_SCRUB_CFG] → False) := by
  intro h
  refine h up (.host 0) 0xBC00010 31 .GCL_ENTRY false ?_ ?_ ?_ ?_ ?_ 0 ?_ ?_ <;> decide +kernel

theorem witness_HostAccesses_6_1 : ¬ (∀ (s : State) (f : BitVec 9) (r : CfgReg) (v : W32), fnUp s f.toNat = true → False) := by
  intro h
  refine h linked 1 .devctl 0 ?_
  decide +kernel

theorem witness_HostAccesses_6_2 : ¬ (∀ (s : State) (f : BitVec 9) (r : CfgReg) (v : W32), fnUp s f.toNat = false → False) := by
  intro h
  refine h up 511 .devctl 0 ?_
  decide +kernel

theorem witness_HostAccesses_7 : ¬ (∀ (s : State) (f : BitVec 9) (k : BitVec 13) (v : W32), fnUp s f.toNat = true → k.toNat < tableWords f.toNat → k.toNat % 4 ≠ 3 → k.toNat % 4 ≠ 0 → False) := by
  intro h
  refine h linked 1 253 0 ?_ ?_ ?_ ?_ <;> decide +kernel

theorem witness_HostAccesses_9_1 : ¬ (∀ (s : State) (f : BitVec 9) (o : BitVec 20) (v : W64), fnUp s f.toNat = true → barPart f.toNat o.toNat = .page → o.toNat % 8 = 0 → False) := by
  intro h
  refine h linked 1 0xFF8 0 ?_ ?_ ?_ <;> decide +kernel

theorem witness_HostAccesses_9_2 : ¬ (∀ (s : State) (f : BitVec 9) (o : BitVec 20) (v : W64), fnUp s f.toNat = true → barPart f.toNat o.toNat = .empty → False) := by
  intro h
  refine h linked 1 0xFFFFF 0 ?_ ?_ <;> decide +kernel

theorem witness_HostAccesses_10 : ¬ (∀ (s : State) (f : BitVec 9) (o : BitVec 20) (n : Nat) (v : W64), fnUp s f.toNat = false → False) := by
  intro h
  refine h (up) 0 0 0 0 ?_
  decide +kernel

theorem witness_RegisterPortLoads : ¬ (∀ (s u : State) (k : Fin 8) (op rd : Nat) (a : W32), (thrOf s (0x2000 + k.val)).wait = .rport op rd a → busAcc (.mgt k) a.toNat (accBytes op) none s = .next u → False) := by
  intro h
  refine h (thr 8199 .stall (.rport 0 5 0xFFFFFFC)) _ 7 0 5 0xFFFFFFC ?_ rfl
  decide +kernel

/-! ## DrainsAndSerialControllers: ResourcesDrain, SerialControllers -/

theorem witness_ResourcesDrain_1 : ¬ (∀ s : State, pktUp s = true → s.flag F.PRS_CTL_EN 0 = false → s.prs.waiting = [] → False) := by
  intro h
  refine h (up) ?_ ?_ ?_ <;> decide +kernel

theorem witness_ResourcesDrain_2 : ¬ (∀ s : State, pktUp s = true → s.flag F.ORY_CTL_EN 0 = false → False) := by
  intro h
  refine h (up) ?_ ?_ <;> decide +kernel

theorem witness_ResourcesDrain_3 : ¬ (∀ s : State, memUp s = true → False) := by
  intro h
  refine h (up) ?_
  decide +kernel

theorem witness_ResourcesDrain_4 : ¬ (∀ (s : State) (n : Fin 32) (c : Fin 64), clUp s n.val = true → False) := by
  intro h
  refine h (up) 31 63 ?_
  decide +kernel

theorem witness_SerialControllers_1 : ¬ (∀ (s u : State) (ctl : W32) (c : Nat), s.rst.aon = true → s.flag F.PIO_SPI_CTL_ROM_OWN 0 = false → s.flag F.PIO_SPI_CTL_BUSY 0 = false → c = setBits ctl.toNat 31 29 0 → u = s.setReg .PIO_SPI_CTL 0 (c + 2 ^ 30) → False) := by
  intro h
  refine h (up.setFlag F.PIO_SPI_CTL_ROM_OWN 0 false) _ 0 _ ?_ ?_ ?_ rfl rfl <;> decide +kernel

theorem witness_SerialControllers_2 : ¬ (∀ (s : State) (ctl : W32), s.flag F.PIO_SPI_CTL_ROM_OWN 0 = true → False) := by
  intro h
  refine h (up.setFlag F.PIO_SPI_CTL_ROM_OWN 0 true) 0 ?_
  decide +kernel

theorem witness_SerialControllers_3_1 : ¬ (∀ (s u : State) (bs : List Byte) (x : Xfer), s.pio.spi = some x → u = { s with pio := { s.pio with spi := none, spiSent := x :: s.pio.spiSent } }.setFlag F.PIO_SPI_CTL_BUSY 0 false → x.ctl.getLsbD 25 = false → False) := by
  intro h
  refine h { up with pio := { up.pio with spi := some ⟨0, 0, []⟩ } } _ [] ⟨0, 0, []⟩ ?_ rfl ?_ <;> decide +kernel

theorem witness_SerialControllers_3_2 : ¬ (∀ (s u : State) (bs : List Byte) (x : Xfer), s.pio.spi = some x → u = { s with pio := { s.pio with spi := none, spiSent := x :: s.pio.spiSent } }.setFlag F.PIO_SPI_CTL_BUSY 0 false → x.ctl.getLsbD 25 = true → False) := by
  intro h
  refine h { up with pio := { up.pio with spi := some ⟨0x2000000, 0, []⟩ } } _ [] ⟨0x2000000, 0, []⟩ ?_ rfl ?_ <;> decide +kernel

theorem witness_SerialControllers_4 : ¬ (∀ (s u : State) (ctl : W32) (c : Nat), s.rst.aon = true → s.flag F.PIO_I2C1_CTL_BUSY 0 = false → c = setBits (setBits (setBits ctl.toNat 31 29 0) 25 14 0) 6 6 0 → u = s.setReg .PIO_I2C1_CTL 0 (c + 2 ^ 30 + b2n (s.flag F.PIO_I2C1_CTL_NACK 0 && !bitOf ctl.toNat 29) * 2 ^ 29) → False) := by
  intro h
  refine h (up) _ 0 _ ?_ ?_ rfl rfl <;> decide +kernel

theorem witness_SerialControllers_5_1 : ¬ (∀ (s u : State) (bs : List Byte) (x : Xfer), s.pio.i2c1 = some x → u = { s with pio := { s.pio with i2c1 := none, i2c1Sent := x :: s.pio.i2c1Sent } }.setFlag F.PIO_I2C1_CTL_BUSY 0 false → x.ctl.getLsbD 27 = false → False) := by
  intro h
  refine h { up with pio := { up.pio with i2c1 := some ⟨0, 0, []⟩ } } _ [] ⟨0, 0, []⟩ ?_ rfl ?_ <;> decide +kernel

theorem witness_SerialControllers_6 : ¬ (∀ (s : State) (ofs : W32) (n : Nat), s.rst.aon = true → s.flag F.PIO_I2C0_CFG_EN 0 = true → False) := by
  intro h
  refine h (up.setFlag F.PIO_I2C0_CFG_EN 0 true) 0 0 ?_ ?_ <;> decide +kernel

theorem witness_SerialControllers_7 : ¬ (∀ (s : State) (ofs : W32) (n : Nat), s.flag F.PIO_I2C0_CFG_EN 0 = false → False) := by
  intro h
  refine h (up.setFlag F.PIO_I2C0_CFG_EN 0 false) 0 0 ?_
  decide +kernel

/-! ## IssueRules -/

theorem witness_IssueRules_1 : ¬ (∀ (s : State) (t : Nat) (w : W32) (rds wrs : List Nat) (sq : State → State) (body : State → Res), canTurn s t = false → False) := by
  intro h
  refine h up 0 0 [] [] id (fun s => .done s []) ?_
  decide +kernel

theorem witness_IssueRules_2 : ¬ (∀ (s : State) (t : Nat) (w : W32) (rds wrs : List Nat) (sq : State → State) (body : State → Res), canTurn s t = true → budgetLate s t = true → False) := by
  intro h
  refine h (turning up 8191 { noThread 0 with budget := .run 0 } 0) 8191 0 [] [] id (fun s => .done s []) ?_ ?_ <;> decide +kernel

theorem witness_IssueRules_3_1 : ¬ (∀ (s : State) (t : Nat) (w : W32) (rds wrs : List Nat) (sq : State → State) (body : State → Res), canTurn s t = true → budgetLate s t = false → fetch s t = .miss → False) := by
  intro h
  refine h ((thr 8191 .run .none).setFld F.GCL_IMG_LIMIT 31 1) 8191 0 [] [] id (fun s => .done s []) ?_ ?_ ?_ <;> decide +kernel

theorem witness_IssueRules_3_2 : ¬ (∀ (s : State) (t : Nat) (w : W32) (rds wrs : List Nat) (sq : State → State) (body : State → Res), canTurn s t = true → budgetLate s t = false → fetch s t = .bad → False) := by
  intro h
  refine h (thr 8191 .run .none) 8191 0 [] [] id (fun s => .done s []) ?_ ?_ ?_ <;> decide +kernel

theorem witness_IssueRules_3_3 : ¬ (∀ (s : State) (t : Nat) (w : W32) (rds wrs : List Nat) (sq : State → State) (body : State → Res), canTurn s t = true → budgetLate s t = false → fetch s t = .rom → False) := by
  intro h
  refine h (rom 1) 0x2000 0 [] [] id (fun s => .done s []) ?_ ?_ ?_ <;> decide +kernel

theorem witness_IssueRules_4_1 : ¬ (∀ (s : State) (t : Nat) (w v : W32) (rds wrs : List Nat) (sq : State → State) (body : State → Res), Issues s t v → v ≠ w → undefinedWord v = false → False) := by
  intro h
  refine h (turning up 8191 (noThread 0) 0) 8191 1 0 [] [] id (fun s => .done s []) (by unfold Issues; decide +kernel) ?_ ?_ <;> decide +kernel

theorem witness_IssueRules_4_2 : ¬ (∀ (s : State) (t : Nat) (w v : W32) (rds wrs : List Nat) (sq : State → State) (body : State → Res), Issues s t v → v ≠ w → undefinedWord v = true → False) := by
  intro h
  refine h (turning up 8191 (noThread 0) 0xFFFFFFFF) 8191 1 0xFFFFFFFF [] [] id (fun s => .done s []) (by unfold Issues; decide +kernel) ?_ ?_ <;> decide +kernel

theorem witness_IssueRules_5 : ¬ (∀ (s : State) (t : Nat) (p : W32), (thrOf s t).st ≠ .dormant → (thrOf s t).stepping = false → mwf noThread s.gar.thr = true → (∀ j < 2, s.flag F.DBG_CORE_WPC_EN (2 * dbgCore t + j) = false) → False) := by
  intro h
  refine h (turning up 8191 (noThread 0) 0) 8191 0 ?_ ?_ ?_ ?_ <;> decide +kernel

/-! ## AluInstructions -/

theorem witness_AluInstructions_1 : ¬ (∀ (s : State) (t : BitVec 14) (f : FmtR) (a r : W32), Issues s t.toNat (wordR 0x00 25 f) → a = gv (thrOf s t.toNat) f.ra → r = BitVec.ofNat 32 (a.toNat / 2 ^ f.sh.toNat % 2 ^ (f.rb.toNat + 1)) → False) :=
  fun h => h (turning (up) 8191 { noThread 0 with g := regs [(6, 99)] } (wordR 0x00 25 (⟨5, 6, 7, 3⟩ : FmtR))) 8191 ⟨5, 6, 7, 3⟩ _ _ (by unfold Issues; decide +kernel) rfl rfl

theorem witness_AluInstructions_2 : ¬ (∀ (s : State) (t : BitVec 14) (f : FmtR) (a d m : W32), Issues s t.toNat (wordR 0x00 26 f) → a = gv (thrOf s t.toNat) f.ra → d = gv (thrOf s t.toNat) f.rd → m = BitVec.ofNat 32 ((2 ^ (f.rb.toNat + 1) - 1) * 2 ^ f.sh.toNat) → False) :=
  fun h => h (turning (up) 8191 { noThread 0 with g := regs [(6, 99)] } (wordR 0x00 26 (⟨5, 6, 7, 3⟩ : FmtR))) 8191 ⟨5, 6, 7, 3⟩ _ _ _ (by unfold Issues; decide +kernel) rfl rfl rfl

/-! ## ImmediateInstructions -/

theorem witness_ImmediateInstructions_1_1 : ¬ (∀ (s : State) (t : BitVec 14) (f : FmtI), Issues s t.toNat (wordI 0x05 f) → f.ra = 0 → False) := by
  intro h
  refine h (turning (up) 8191 { noThread 0 with g := [] } (wordI 0x05 (⟨5, 0, 7⟩ : FmtI))) 8191 ⟨5, 0, 7⟩ (by unfold Issues; decide +kernel) ?_
  decide +kernel

theorem witness_ImmediateInstructions_1_2 : ¬ (∀ (s : State) (t : BitVec 14) (f : FmtI), Issues s t.toNat (wordI 0x05 f) → f.ra ≠ 0 → False) := by
  intro h
  refine h (turning (up) 8191 { noThread 0 with g := [] } (wordI 0x05 (⟨5, 6, 7⟩ : FmtI))) 8191 ⟨5, 6, 7⟩ (by unfold Issues; decide +kernel) ?_
  decide +kernel

theorem witness_ImmediateInstructions_2_1 : ¬ (∀ (s : State) (t : BitVec 14) (f : FmtI) (a r : W32) (k n : Nat), Issues s t.toNat (wordI 0x06 f) → a = gv (thrOf s t.toNat) f.ra → k = f.imm.toNat / 32 % 4 → n = f.imm.toNat % 32 → r = (if k = 0 then a <<< n else if k = 1 then a >>> n else if k = 2 then a.sshiftRight n else a.rotateLeft n) → f.imm.toNat < 128 → False) := by
  intro h
  refine h (turning (up) 8191 { noThread 0 with g := [] } (wordI 0x06 (⟨5, 6, 127⟩ : FmtI))) 8191 ⟨5, 6, 127⟩ _ _ _ _ (by unfold Issues; decide +kernel) rfl rfl rfl rfl ?_
  decide +kernel

theorem witness_ImmediateInstructions_2_2 : ¬ (∀ (s : State) (t : BitVec 14) (f : FmtI) (a r : W32) (k n : Nat), Issues s t.toNat (wordI 0x06 f) → a = gv (thrOf s t.toNat) f.ra → k = f.imm.toNat / 32 % 4 → n = f.imm.toNat % 32 → r = (if k = 0 then a <<< n else if k = 1 then a >>> n else if k = 2 then a.sshiftRight n else a.rotateLeft n) → 128 ≤ f.imm.toNat → False) := by
  intro h
  refine h (turning (up) 8191 { noThread 0 with g := [] } (wordI 0x06 (⟨5, 6, 128⟩ : FmtI))) 8191 ⟨5, 6, 128⟩ _ _ _ _ (by unfold Issues; decide +kernel) rfl rfl rfl rfl ?_
  decide +kernel

theorem witness_ImmediateInstructions_3_1 : ¬ (∀ (s : State) (t : BitVec 14) (f : FmtI) (a b : W32), Issues s t.toNat (wordI 0x07 f) → a = gv (thrOf s t.toNat) f.ra → b = f.imm.signExtend 32 → f.rd = 0 → False) := by
  intro h
  refine h (turning (up) 8191 { noThread 0 with g := [] } (wordI 0x07 (⟨0, 6, 128⟩ : FmtI))) 8191 ⟨0, 6, 128⟩ _ _ (by unfold Issues; decide +kernel) rfl rfl ?_
  decide +kernel

theorem witness_ImmediateInstructions_3_2 : ¬ (∀ (s : State) (t : BitVec 14) (f : FmtI) (a b : W32), Issues s t.toNat (wordI 0x07 f) → a = gv (thrOf s t.toNat) f.ra → b = f.imm.signExtend 32 → f.rd ≠ 0 → False) := by
  intro h
  refine h (turning (up) 8191 { noThread 0 with g := [] } (wordI 0x07 (⟨5, 6, 128⟩ : FmtI))) 8191 ⟨5, 6, 128⟩ _ _ (by unfold Issues; decide +kernel) rfl rfl ?_
  decide +kernel

/-! ## LoadsAndStores -/

theorem witness_LoadsAndStores_1_1 : ¬ (∀ (s : State) (t : BitVec 14) (f : FmtI) (p : Place) (bs : List Byte), Issues s t.toNat (wordI 0x0F f) → Reaches s t.toNat f 8 false p → memRead s t.toNat p 8 = some bs → f.rd = 0 → False) := by
  intro h
  refine h (turning (up) 8191 { noThread 0 with g := [] } (wordI 0x0F (⟨0, 6, 8⟩ : FmtI))) 8191 ⟨0, 6, 8⟩ _ _ (by unfold Issues; decide +kernel) ⟨?_, rfl⟩ rfl ?_ <;> decide +kernel

theorem witness_LoadsAndStores_1_2 : ¬ (∀ (s : State) (t : BitVec 14) (f : FmtI) (p : Place) (bs : List Byte), Issues s t.toNat (wordI 0x0F f) → Reaches s t.toNat f 8 false p → memRead s t.toNat p 8 = some bs → f.rd = 1 → False) := by
  intro h
  refine h (turning (up) 8191 { noThread 0 with g := [] } (wordI 0x0F (⟨1, 6, 8⟩ : FmtI))) 8191 ⟨1, 6, 8⟩ _ _ (by unfold Issues; decide +kernel) ⟨?_, rfl⟩ rfl ?_ <;> decide +kernel

theorem witness_LoadsAndStores_2 : ¬ (∀ (s v : State) (t : BitVec 14) (f : FmtI) (p : Place), Issues s t.toNat (wordI 0x15 f) → f.rd.toNat < 2 → Reaches s t.toNat f 8 true p → memWrite s t.toNat p (leBytes 8 (accGet (thrOf s t.toNat) f.rd.toNat).toNat) = some v → False) := by
  intro h
  refine h (turning (up) 8191 { noThread 0 with g := [] } (wordI 0x15 (⟨1, 6, 8⟩ : FmtI))) _ 8191 ⟨1, 6, 8⟩ _ (by unfold Issues; decide +kernel) ?_ ⟨?_, rfl⟩ rfl <;> decide +kernel

theorem witness_LoadsAndStores_3 : ¬ (∀ (s : State) (t : BitVec 14) (f : FmtI), Issues s t.toNat (wordI 0x0F f) → 2 ≤ f.rd.toNat → False) := by
  intro h
  refine h (turning (up) 8191 { noThread 0 with g := [] } (wordI 0x0F (⟨2, 6, 8⟩ : FmtI))) 8191 ⟨2, 6, 8⟩ (by unfold Issues; decide +kernel) ?_
  decide +kernel

theorem witness_LoadsAndStores_4 : ¬ (∀ (s : State) (t : BitVec 14) (f : FmtI) (c : Nat), Issues s t.toNat (wordI 0x0C f) → accFault (takeTurn s t.toNat) t.toNat (effAddr (thrOf s t.toNat) f) 4 false = some c → False) := by
  intro h
  refine h (turning (up) 8191 { noThread 0 with g := regs [(6, 0x100000)] } (wordI 0x0C (⟨5, 6, 1⟩ : FmtI))) 8191 ⟨5, 6, 1⟩ cAlign (by unfold Issues; decide +kernel) ?_
  decide +kernel

/-! ## BranchesAndBits -/

theorem witness_BranchesAndBits_1_1 : ¬ (∀ (s : State) (t : BitVec 14) (f : FmtBB) (v : Bool) (p : W32), BitIs s t.toNat f.bit.toNat v → p = (thrOf s t.toNat).pc + 4 * f.off.signExtend 32 → p.toNat % 4 = 0 → Issues s t.toNat (wordBB 0x19 true f) → v = true → False) := by
  intro h
  refine h (turning (up) 8191 { noThread 0 with g := [], flags := BitVec.ofNat 1024 (2 ^ 1023) } (wordBB 0x19 true (⟨1023, 1⟩ : FmtBB))) 8191 ⟨1023, 1⟩ true _ (.inl ⟨?_, ?_⟩) rfl ?_ (by unfold Issues; decide +kernel) ?_ <;> decide +kernel

theorem witness_BranchesAndBits_1_2 : ¬ (∀ (s : State) (t : BitVec 14) (f : FmtBB) (v : Bool) (p : W32), BitIs s t.toNat f.bit.toNat v → p = (thrOf s t.toNat).pc + 4 * f.off.signExtend 32 → p.toNat % 4 = 0 → Issues s t.toNat (wordBB 0x19 true f) → v = false → False) := by
  intro h
  refine h (turning (up) 8191 { noThread 0 with g := [] } (wordBB 0x19 true (⟨1023, 1⟩ : FmtBB))) 8191 ⟨1023, 1⟩ false _ (.inl ⟨?_, ?_⟩) rfl ?_ (by unfold Issues; decide +kernel) ?_ <;> decide +kernel

theorem witness_BranchesAndBits_1_3 : ¬ (∀ (s : State) (t : BitVec 14) (f : FmtBB) (v : Bool) (p : W32), BitIs s t.toNat f.bit.toNat v → p = (thrOf s t.toNat).pc + 4 * f.off.signExtend 32 → p.toNat % 4 = 0 → Issues s t.toNat (wordBB 0x19 false f) → v = false → False) := by
  intro h
  refine h (turning (up) 8191 { noThread 0 with g := [] } (wordBB 0x19 false (⟨1023, 1⟩ : FmtBB))) 8191 ⟨1023, 1⟩ false _ (.inl ⟨?_, ?_⟩) rfl ?_ (by unfold Issues; decide +kernel) ?_ <;> decide +kernel

theorem witness_BranchesAndBits_1_4 : ¬ (∀ (s : State) (t : BitVec 14) (f : FmtBB) (v : Bool) (p : W32), BitIs s t.toNat f.bit.toNat v → p = (thrOf s t.toNat).pc + 4 * f.off.signExtend 32 → p.toNat % 4 = 0 → Issues s t.toNat (wordBB 0x19 false f) → v = true → False) := by
  intro h
  refine h (turning (up) 8191 { noThread 0 with g := [], flags := BitVec.ofNat 1024 (2 ^ 1023) } (wordBB 0x19 false (⟨1023, 1⟩ : FmtBB))) 8191 ⟨1023, 1⟩ true _ (.inl ⟨?_, ?_⟩) rfl ?_ (by unfold Issues; decide +kernel) ?_ <;> decide +kernel

theorem witness_BranchesAndBits_2_1 : ¬ (∀ (s : State) (t : BitVec 14) (f : FmtJ) (p : W32), p = (thrOf s t.toNat).pc + 4 * f.off.signExtend 32 → p.toNat % 4 = 0 → Issues s t.toNat (wordJ 0x1A f) → False) := by
  intro h
  refine h (turning (up) 8191 { noThread 0 with g := [] } (wordJ 0x1A (⟨1⟩ : FmtJ))) 8191 ⟨1⟩ _ rfl ?_ (by unfold Issues; decide +kernel)
  decide +kernel

theorem witness_BranchesAndBits_2_2 : ¬ (∀ (s : State) (t : BitVec 14) (f : FmtJ) (p : W32), p = (thrOf s t.toNat).pc + 4 * f.off.signExtend 32 → p.toNat % 4 = 0 → Issues s t.toNat (wordJ 0x1B f) → False) := by
  intro h
  refine h (turning (up) 8191 { noThread 0 with g := [] } (wordJ 0x1B (⟨1⟩ : FmtJ))) 8191 ⟨1⟩ _ rfl ?_ (by unfold Issues; decide +kernel)
  decide +kernel

theorem witness_BranchesAndBits_3_1_1 : ¬ (∀ (s : State) (t : BitVec 14) (f : FmtR) (p : W32), p = gv (thrOf s t.toNat) f.ra → Issues s t.toNat (wordR 0x1C 0 f) → f.rd = 0 → f.rb = 0 → f.sh = 0 → p.toNat % 4 = 0 → False) := by
  intro h
  refine h (turning (up) 8191 { noThread 0 with g := regs [(6, 0x100008)] } (wordR 0x1C 0 (⟨0, 6, 0, 0⟩ : FmtR))) 8191 ⟨0, 6, 0, 0⟩ _ rfl (by unfold Issues; decide +kernel) ?_ ?_ ?_ ?_ <;> decide +kernel

theorem witness_BranchesAndBits_3_1_2 : ¬ (∀ (s : State) (t : BitVec 14) (f : FmtR) (p : W32), p = gv (thrOf s t.toNat) f.ra → Issues s t.toNat (wordR 0x1C 0 f) → f.rd = 0 → f.rb = 0 → f.sh = 0 → p.toNat % 4 ≠ 0 → False) := by
  intro h
  refine h (turning (up) 8191 { noThread 0 with g := regs [(6, 0x100009)] } (wordR 0x1C 0 (⟨0, 6, 0, 0⟩ : FmtR))) 8191 ⟨0, 6, 0, 0⟩ _ rfl (by unfold Issues; decide +kernel) ?_ ?_ ?_ ?_ <;> decide +kernel

theorem witness_BranchesAndBits_3_2 : ¬ (∀ (s : State) (t : BitVec 14) (f : FmtR) (p : W32), p = gv (thrOf s t.toNat) f.ra → Issues s t.toNat (wordR 0x1C 1 f) → f.rb = 0 → f.sh = 0 → p.toNat % 4 = 0 → False) := by
  intro h
  refine h (turning (up) 8191 { noThread 0 with g := regs [(6, 0x100008)] } (wordR 0x1C 1 (⟨31, 6, 0, 0⟩ : FmtR))) 8191 ⟨31, 6, 0, 0⟩ _ rfl (by unfold Issues; decide +kernel) ?_ ?_ ?_ <;> decide +kernel

theorem witness_BranchesAndBits_4 : ¬ (∀ (s : State) (t : BitVec 14) (f : FmtBT) (b : Nat) (v : Bool), Issues s t.toNat (wordBT 0x1D 3 f) → f.zero = 0 → (f.idx = false → f.r = 0) → b = (if f.idx then (f.bit.toNat + (gv (thrOf s t.toNat) f.r).toNat) % 8192 else f.bit.toNat) → BitIs s t.toNat b v → False) := by
  intro h
  refine h (turning (up) 8191 { noThread 0 with g := regs [(5, 23)] } (wordBT 0x1D 3 (⟨5, true, 0, 1000⟩ : FmtBT))) 8191 ⟨5, true, 0, 1000⟩ _ false (by unfold Issues; decide +kernel) ?_ ?_ rfl (.inl ⟨?_, ?_⟩) <;> decide +kernel

theorem witness_BranchesAndBits_5 : ¬ (∀ (s : State) (t : BitVec 14) (f : FmtBT), Issues s t.toNat (wordBT 0x1D 6 f) → f.idx = false → f.zero = 0 → f.bit.toNat < 1024 → False) := by
  intro h
  refine h (turning (up) 8191 { noThread 0 with g := [] } (wordBT 0x1D 6 (⟨5, false, 0, 1023⟩ : FmtBT))) 8191 ⟨5, false, 0, 1023⟩ (by unfold Issues; decide +kernel) ?_ ?_ ?_ <;> decide +kernel

theorem witness_BranchesAndBits_6 : ¬ (∀ (s : State) (t : BitVec 14) (f : FmtBT) (v : Bool), Issues s t.toNat (wordBT 0x1D 7 f) → f.idx = false → f.zero = 0 → BitIs s t.toNat f.bit.toNat v → False) := by
  intro h
  refine h (turning (up) 8191 { noThread 0 with g := [] } (wordBT 0x1D 7 (⟨5, false, 0, 1023⟩ : FmtBT))) 8191 ⟨5, false, 0, 1023⟩ false (by unfold Issues; decide +kernel) ?_ ?_ (.inl ⟨?_, ?_⟩) <;> decide +kernel

theorem witness_BranchesAndBits_7 : ¬ (∀ (s : State) (t : BitVec 14) (f : FmtBT), Issues s t.toNat (wordBT 0x1D 0 f) → f.idx = false → f.zero = 0 → f.r = 0 → 1024 ≤ f.bit.toNat → f.bit.toNat < 4096 → False) := by
  intro h
  refine h (turning (up) 8191 { noThread 0 with g := [] } (wordBT 0x1D 0 (⟨0, false, 0, 4095⟩ : FmtBT))) 8191 ⟨0, false, 0, 4095⟩ (by unfold Issues; decide +kernel) ?_ ?_ ?_ ?_ ?_ <;> decide +kernel

/-! ## AccumulatorsAndCrc -/

theorem witness_AccumulatorsAndCrc_1 : ¬ (∀ (s : State) (t : BitVec 14) (f : FmtMD) (p q : List Byte), Issues s t.toNat (wordMD 0x1E f) → LocalIs s t.toNat (gv (thrOf s t.toNat) f.px).toNat (macSize f) p → LocalIs s t.toNat (gv (thrOf s t.toNat) f.py).toNat (macSize f) q → False) :=
  fun h => h (turning (up) 8191 { noThread 0 with g := regs [(5, 0xE000), (6, 0x1E000)] } (wordMD 0x1E (⟨5, 6, false, 1, true, 1, 1⟩ : FmtMD))) 8191 ⟨5, 6, false, 1, true, 1, 1⟩ _ _ (by unfold Issues; decide +kernel) ⟨_, rfl, rfl⟩ ⟨_, rfl, rfl⟩

theorem witness_AccumulatorsAndCrc_2_1 : ¬ (∀ (x : Thread) (f : FmtMD) (a b : Nat) (sum : Int), f.acc = false → sum = macVal f.ty.toNat x.a0 + macExt f.ty.toNat a * macExt f.ty.toNat b → f.sat = false → False) := by
  intro h
  refine h (noThread 0) ⟨5, 6, false, 0, false, 1, 1⟩ 0 0 _ ?_ rfl ?_ <;> decide +kernel

theorem witness_AccumulatorsAndCrc_2_2 : ¬ (∀ (x : Thread) (f : FmtMD) (a b : Nat) (sum : Int), f.acc = false → sum = macVal f.ty.toNat x.a0 + macExt f.ty.toNat a * macExt f.ty.toNat b → f.sat = true → macLo f.ty.toNat ≤ sum → sum ≤ macHi f.ty.toNat → False) := by
  intro h
  refine h (noThread 0) ⟨5, 6, false, 1, true, 1, 1⟩ 0 0 _ ?_ rfl ?_ ?_ ?_ <;> decide +kernel

theorem witness_AccumulatorsAndCrc_2_3 : ¬ (∀ (x : Thread) (f : FmtMD) (a b : Nat) (sum : Int), f.acc = false → sum = macVal f.ty.toNat x.a0 + macExt f.ty.toNat a * macExt f.ty.toNat b → f.sat = true → macHi f.ty.toNat < sum → False) := by
  intro h
  refine h { noThread 0 with a0 := 0x7FFFFFFFFFFFFFFF } ⟨5, 6, false, 1, true, 1, 1⟩ 1 1 _ ?_ rfl ?_ ?_ <;> decide +kernel

theorem witness_AccumulatorsAndCrc_2_4 : ¬ (∀ (x : Thread) (f : FmtMD) (a b : Nat) (sum : Int), f.acc = false → sum = macVal f.ty.toNat x.a0 + macExt f.ty.toNat a * macExt f.ty.toNat b → f.sat = true → sum < macLo f.ty.toNat → False) := by
  intro h
  refine h { noThread 0 with a0 := 0x8000000000000000 } ⟨5, 6, false, 1, true, 1, 1⟩ 1 0xFFFF _ ?_ rfl ?_ ?_ <;> decide +kernel

theorem witness_AccumulatorsAndCrc_3_1 : ¬ (∀ (s : State) (t : BitVec 14) (f : FmtR) (x : Thread) (a b : W32), x = ranOn (thrOf s t.toNat) ((thrOf s t.toNat).pc + 4) → a = gv (thrOf s t.toNat) f.ra → b = gv (thrOf s t.toNat) f.rb → Issues s t.toNat (wordR 0x1F 0 f) → f.rd = 0 → f.sh = 0 → False) := by
  intro h
  refine h (turning (up) 8191 { noThread 0 with g := [] } (wordR 0x1F 0 (⟨0, 5, 6, 0⟩ : FmtR))) 8191 ⟨0, 5, 6, 0⟩ _ _ _ rfl rfl rfl (by unfold Issues; decide +kernel) ?_ ?_ <;> decide +kernel

theorem witness_AccumulatorsAndCrc_3_2 : ¬ (∀ (s : State) (t : BitVec 14) (f : FmtR) (x : Thread) (a b : W32), x = ranOn (thrOf s t.toNat) ((thrOf s t.toNat).pc + 4) → a = gv (thrOf s t.toNat) f.ra → b = gv (thrOf s t.toNat) f.rb → Issues s t.toNat (wordR 0x1F 0 f) → f.rd = 1 → f.sh = 0 → False) := by
  intro h
  refine h (turning (up) 8191 { noThread 0 with g := [] } (wordR 0x1F 0 (⟨1, 5, 6, 0⟩ : FmtR))) 8191 ⟨1, 5, 6, 0⟩ _ _ _ rfl rfl rfl (by unfold Issues; decide +kernel) ?_ ?_ <;> decide +kernel

theorem witness_AccumulatorsAndCrc_3_3 : ¬ (∀ (s : State) (t : BitVec 14) (f : FmtR) (x : Thread) (a b : W32), x = ranOn (thrOf s t.toNat) ((thrOf s t.toNat).pc + 4) → a = gv (thrOf s t.toNat) f.ra → b = gv (thrOf s t.toNat) f.rb → Issues s t.toNat (wordR 0x1F 1 f) → f.rd = 0 → f.sh = 0 → False) := by
  intro h
  refine h (turning (up) 8191 { noThread 0 with g := [] } (wordR 0x1F 1 (⟨0, 5, 6, 0⟩ : FmtR))) 8191 ⟨0, 5, 6, 0⟩ _ _ _ rfl rfl rfl (by unfold Issues; decide +kernel) ?_ ?_ <;> decide +kernel

theorem witness_AccumulatorsAndCrc_3_4 : ¬ (∀ (s : State) (t : BitVec 14) (f : FmtR) (x : Thread) (a b : W32), x = ranOn (thrOf s t.toNat) ((thrOf s t.toNat).pc + 4) → a = gv (thrOf s t.toNat) f.ra → b = gv (thrOf s t.toNat) f.rb → Issues s t.toNat (wordR 0x1F 1 f) → f.rd = 1 → f.sh = 0 → False) := by
  intro h
  refine h (turning (up) 8191 { noThread 0 with g := [] } (wordR 0x1F 1 (⟨1, 5, 6, 0⟩ : FmtR))) 8191 ⟨1, 5, 6, 0⟩ _ _ _ rfl rfl rfl (by unfold Issues; decide +kernel) ?_ ?_ <;> decide +kernel

theorem witness_AccumulatorsAndCrc_3_5 : ¬ (∀ (s : State) (t : BitVec 14) (f : FmtR) (x : Thread) (a b : W32), x = ranOn (thrOf s t.toNat) ((thrOf s t.toNat).pc + 4) → a = gv (thrOf s t.toNat) f.ra → b = gv (thrOf s t.toNat) f.rb → Issues s t.toNat (wordR 0x1F 3 f) → f.rd = 0 → f.rb = 0 → f.sh = 0 → False) := by
  intro h
  refine h (turning (up) 8191 { noThread 0 with g := [] } (wordR 0x1F 3 (⟨0, 5, 0, 0⟩ : FmtR))) 8191 ⟨0, 5, 0, 0⟩ _ _ _ rfl rfl rfl (by unfold Issues; decide +kernel) ?_ ?_ ?_ <;> decide +kernel

theorem witness_AccumulatorsAndCrc_3_6 : ¬ (∀ (s : State) (t : BitVec 14) (f : FmtR) (x : Thread) (a b : W32), x = ranOn (thrOf s t.toNat) ((thrOf s t.toNat).pc + 4) → a = gv (thrOf s t.toNat) f.ra → b = gv (thrOf s t.toNat) f.rb → Issues s t.toNat (wordR 0x1F 3 f) → f.rd = 0 → f.rb = 0 → f.sh = 1 → False) := by
  intro h
  refine h (turning (up) 8191 { noThread 0 with g := [] } (wordR 0x1F 3 (⟨0, 5, 0, 1⟩ : FmtR))) 8191 ⟨0, 5, 0, 1⟩ _ _ _ rfl rfl rfl (by unfold Issues; decide +kernel) ?_ ?_ ?_ <;> decide +kernel

theorem witness_AccumulatorsAndCrc_3_7 : ¬ (∀ (s : State) (t : BitVec 14) (f : FmtR) (x : Thread) (a b : W32), x = ranOn (thrOf s t.toNat) ((thrOf s t.toNat).pc + 4) → a = gv (thrOf s t.toNat) f.ra → b = gv (thrOf s t.toNat) f.rb → Issues s t.toNat (wordR 0x1F 4 f) → f.rd = 0 → f.ra = 0 → f.rb = 0 → f.sh = 0 → False) := by
  intro h
  refine h (turning (up) 8191 { noThread 0 with g := [] } (wordR 0x1F 4 (⟨0, 0, 0, 0⟩ : FmtR))) 8191 ⟨0, 0, 0, 0⟩ _ _ _ rfl rfl rfl (by unfold Issues; decide +kernel) ?_ ?_ ?_ ?_ <;> decide +kernel

theorem witness_AccumulatorsAndCrc_3_8 : ¬ (∀ (s : State) (t : BitVec 14) (f : FmtR) (x : Thread) (a b : W32), x = ranOn (thrOf s t.toNat) ((thrOf s t.toNat).pc + 4) → a = gv (thrOf s t.toNat) f.ra → b = gv (thrOf s t.toNat) f.rb → Issues s t.toNat (wordR 0x1F 4 f) → f.rd = 1 → f.ra = 0 → f.rb = 0 → f.sh = 0 → False) := by
  intro h
  refine h (turning (up) 8191 { noThread 0 with g := [] } (wordR 0x1F 4 (⟨1, 0, 0, 0⟩ : FmtR))) 8191 ⟨1, 0, 0, 0⟩ _ _ _ rfl rfl rfl (by unfold Issues; decide +kernel) ?_ ?_ ?_ ?_ <;> decide +kernel

theorem witness_AccumulatorsAndCrc_4 : ¬ (∀ (s : State) (t : BitVec 14) (f : FmtR), Issues s t.toNat (wordR 0x1F 2 f) → f.ra = 0 → f.rb.toNat < 2 → f.sh.toNat < 2 → False) := by
  intro h
  refine h (turning (up) 8191 { noThread 0 with g := [] } (wordR 0x1F 2 (⟨5, 0, 1, 1⟩ : FmtR))) 8191 ⟨5, 0, 1, 1⟩ (by unfold Issues; decide +kernel) ?_ ?_ ?_ <;> decide +kernel

theorem witness_AccumulatorsAndCrc_5_1 : ¬ (∀ (s : State) (t : BitVec 14) (f : FmtR) (d a : Nat), d = (gv (thrOf s t.toNat) f.rd).toNat → a = (gv (thrOf s t.toNat) f.ra).toNat → f.rb = 0 → f.sh = 0 → Issues s t.toNat (wordR 0x29 0 f) → False) := by
  intro h
  refine h (turning (up) 8191 { noThread 0 with g := [] } (wordR 0x29 0 (⟨5, 6, 0, 0⟩ : FmtR))) 8191 ⟨5, 6, 0, 0⟩ _ _ rfl rfl ?_ ?_ (by unfold Issues; decide +kernel) <;> decide +kernel

theorem witness_AccumulatorsAndCrc_5_2 : ¬ (∀ (s : State) (t : BitVec 14) (f : FmtR) (d a : Nat), d = (gv (thrOf s t.toNat) f.rd).toNat → a = (gv (thrOf s t.toNat) f.ra).toNat → f.rb = 0 → f.sh = 0 → Issues s t.toNat (wordR 0x29 1 f) → False) := by
  intro h
  refine h (turning (up) 8191 { noThread 0 with g := [] } (wordR 0x29 1 (⟨5, 6, 0, 0⟩ : FmtR))) 8191 ⟨5, 6, 0, 0⟩ _ _ rfl rfl ?_ ?_ (by unfold Issues; decide +kernel) <;> decide +kernel

theorem witness_AccumulatorsAndCrc_5_3 : ¬ (∀ (s : State) (t : BitVec 14) (f : FmtR) (d a : Nat), d = (gv (thrOf s t.toNat) f.rd).toNat → a = (gv (thrOf s t.toNat) f.ra).toNat → f.rb = 0 → f.sh = 0 → Issues s t.toNat (wordR 0x29 2 f) → False) := by
  intro h
  refine h (turning (up) 8191 { noThread 0 with g := [] } (wordR 0x29 2 (⟨5, 6, 0, 0⟩ : FmtR))) 8191 ⟨5, 6, 0, 0⟩ _ _ rfl rfl ?_ ?_ (by unfold Issues; decide +kernel) <;> decide +kernel

/-! ## LookupsAndDma: Lookups, DmaInstruction -/

theorem witness_Lookups_1_1 : ¬ (∀ (s u v : State) (t : BitVec 14) (f : FmtU) (w : W32) (key : List Byte), isMgt t.toNat = false → f.rd = 0 → f.rc = 0 → u = takeTurn s t.toNat → w = gv (thrOf s t.toNat) f.rb → w.toNat / 64 % 4 = 0 → LocalIs s t.toNat (gv (thrOf s t.toNat) f.ra).toNat (lcLen w) key → v = setPend (agtAccept u (lookupOf u t.toNat w key)) t.toNat (lcSlot w) → Issues s t.toNat (wordU 0x20 0 f) → (thrOf s t.toNat).pend.getLsbD (lcSlot w) = false → False) := by
  intro h
  refine h (turning (up) 8191 { noThread 0 with g := [] } (wordU 0x20 0 (⟨0, 6, 7, 0⟩ : FmtU))) _ _ 8191 ⟨0, 6, 7, 0⟩ _ _ ?_ ?_ ?_ rfl rfl ?_ ⟨_, rfl, rfl⟩ rfl (by unfold Issues; decide +kernel) ?_ <;> decide +kernel

theorem witness_Lookups_1_2 : ¬ (∀ (s u v : State) (t : BitVec 14) (f : FmtU) (w : W32) (key : List Byte), isMgt t.toNat = false → f.rd = 0 → f.rc = 0 → u = takeTurn s t.toNat → w = gv (thrOf s t.toNat) f.rb → w.toNat / 64 % 4 = 0 → LocalIs s t.toNat (gv (thrOf s t.toNat) f.ra).toNat (lcLen w) key → v = setPend (agtAccept u (lookupOf u t.toNat w key)) t.toNat (lcSlot w) → Issues s t.toNat (wordU 0x20 0 f) → (thrOf s t.toNat).pend.getLsbD (lcSlot w) = true → False) := by
  intro h
  refine h (turning (up) 8191 { noThread 0 with g := [], pend := 15 } (wordU 0x20 0 (⟨0, 6, 7, 0⟩ : FmtU))) _ _ 8191 ⟨0, 6, 7, 0⟩ _ _ ?_ ?_ ?_ rfl rfl ?_ ⟨_, rfl, rfl⟩ rfl (by unfold Issues; decide +kernel) ?_ <;> decide +kernel

theorem witness_Lookups_1_3 : ¬ (∀ (s u v : State) (t : BitVec 14) (f : FmtU) (w : W32) (key : List Byte), isMgt t.toNat = false → f.rd = 0 → f.rc = 0 → u = takeTurn s t.toNat → w = gv (thrOf s t.toNat) f.rb → w.toNat / 64 % 4 = 0 → LocalIs s t.toNat (gv (thrOf s t.toNat) f.ra).toNat (lcLen w) key → v = setPend (agtAccept u (lookupOf u t.toNat w key)) t.toNat (lcSlot w) → Issues s t.toNat (wordU 0x20 1 f) → (thrOf s t.toNat).pend.getLsbD (lcSlot w) = false → False) := by
  intro h
  refine h (turning (up) 8191 { noThread 0 with g := [] } (wordU 0x20 1 (⟨0, 6, 7, 0⟩ : FmtU))) _ _ 8191 ⟨0, 6, 7, 0⟩ _ _ ?_ ?_ ?_ rfl rfl ?_ ⟨_, rfl, rfl⟩ rfl (by unfold Issues; decide +kernel) ?_ <;> decide +kernel

theorem witness_Lookups_1_4 : ¬ (∀ (s u v : State) (t : BitVec 14) (f : FmtU) (w : W32) (key : List Byte), isMgt t.toNat = false → f.rd = 0 → f.rc = 0 → u = takeTurn s t.toNat → w = gv (thrOf s t.toNat) f.rb → w.toNat / 64 % 4 = 0 → LocalIs s t.toNat (gv (thrOf s t.toNat) f.ra).toNat (lcLen w) key → v = setPend (agtAccept u (lookupOf u t.toNat w key)) t.toNat (lcSlot w) → Issues s t.toNat (wordU 0x20 1 f) → (thrOf s t.toNat).pend.getLsbD (lcSlot w) = true → False) := by
  intro h
  refine h (turning (up) 8191 { noThread 0 with g := [], pend := 15 } (wordU 0x20 1 (⟨0, 6, 7, 0⟩ : FmtU))) _ _ 8191 ⟨0, 6, 7, 0⟩ _ _ ?_ ?_ ?_ rfl rfl ?_ ⟨_, rfl, rfl⟩ rfl (by unfold Issues; decide +kernel) ?_ <;> decide +kernel

theorem witness_Lookups_2_1 : ¬ (∀ (s : State) (t : BitVec 14) (f : FmtUI), Issues s t.toNat (wordUI 0x20 2 f) → isMgt t.toNat = false → f.rd = 0 → f.ra = 0 → f.imm.toNat < 16 → (thrOf s t.toNat).pend.toNat &&& f.imm.toNat = 0 → False) := by
  intro h
  refine h (turning (up) 8191 { noThread 0 with g := [] } (wordUI 0x20 2 (⟨0, 0, 15⟩ : FmtUI))) 8191 ⟨0, 0, 15⟩ (by unfold Issues; decide +kernel) ?_ ?_ ?_ ?_ ?_ <;> decide +kernel

theorem witness_Lookups_2_2 : ¬ (∀ (s : State) (t : BitVec 14) (f : FmtUI), Issues s t.toNat (wordUI 0x20 2 f) → isMgt t.toNat = false → f.rd = 0 → f.ra = 0 → f.imm.toNat < 16 → (thrOf s t.toNat).pend.toNat &&& f.imm.toNat ≠ 0 → False) := by
  intro h
  refine h (turning (up) 8191 { noThread 0 with g := [], pend := 15 } (wordUI 0x20 2 (⟨0, 0, 15⟩ : FmtUI))) 8191 ⟨0, 0, 15⟩ (by unfold Issues; decide +kernel) ?_ ?_ ?_ ?_ ?_ <;> decide +kernel

theorem witness_DmaInstruction_1_1_1 : ¬ (∀ (s u : State) (t : BitVec 14) (f : FmtU) (a c n : Nat) (loc : W32) (bs : List Byte), Issues s t.toNat (wordU 0x26 0 f) → f.rb = 0 → f.rc = 0 → u = takeTurn s t.toNat → LocalIs s t.toNat (gv (thrOf s t.toNat) f.ra).toNat 16 bs → a = leNat (bs.take 8) → c = leNat ((bs.drop 8).take 4) → loc = BitVec.ofNat 32 (leNat (bs.drop 12)) → n = c % 4096 + 1 → ∀ data : List Byte, LocalIs s t.toNat loc.toNat n data → c / 2 ^ 21 % 2 ^ 9 = 0 → bitOf c 30 = false → inWindow u t.toNat a n = true → drcReady u = true → bitOf c 31 = true → inAreas u a n = false → False) := by
  intro h
  refine h (turning (desc windowed 0 0x80000000) 8191 { noThread 0 with g := regs [(6, 0x100)] } (wordU 0x26 0 (⟨5, 6, 0, 0⟩ : FmtU))) _ 8191 ⟨5, 6, 0, 0⟩ _ _ _ _ _ (by unfold Issues; decide +kernel) ?_ ?_ rfl ⟨_, rfl, rfl⟩ rfl rfl rfl rfl _ ⟨_, rfl, rfl⟩ ?_ ?_ ?_ ?_ ?_ ?_ <;> decide +kernel

theorem witness_DmaInstruction_1_1_2 : ¬ (∀ (s u : State) (t : BitVec 14) (f : FmtU) (a c n : Nat) (loc : W32) (bs : List Byte), Issues s t.toNat (wordU 0x26 0 f) → f.rb = 0 → f.rc = 0 → u = takeTurn s t.toNat → LocalIs s t.toNat (gv (thrOf s t.toNat) f.ra).toNat 16 bs → a = leNat (bs.take 8) → c = leNat ((bs.drop 8).take 4) → loc = BitVec.ofNat 32 (leNat (bs.drop 12)) → n = c % 4096 + 1 → ∀ data : List Byte, LocalIs s t.toNat loc.toNat n data → c / 2 ^ 21 % 2 ^ 9 = 0 → bitOf c 30 = false → inWindow u t.toNat a n = true → drcReady u = true → bitOf c 31 = true → inAreas u a n = true → False) := by
  intro h
  refine h (turning (desc (windowed.setFlag F.CRN_DRAM_CFG_EN 0 true) 0 0x80000000) 8191 { noThread 0 with g := regs [(6, 0x100)] } (wordU 0x26 0 (⟨5, 6, 0, 0⟩ : FmtU))) _ 8191 ⟨5, 6, 0, 0⟩ _ _ _ _ _ (by unfold Issues; decide +kernel) ?_ ?_ rfl ⟨_, rfl, rfl⟩ rfl rfl rfl rfl _ ⟨_, rfl, rfl⟩ ?_ ?_ ?_ ?_ ?_ ?_ <;> decide +kernel

theorem witness_DmaInstruction_1_1_3 : ¬ (∀ (s u : State) (t : BitVec 14) (f : FmtU) (a c n : Nat) (loc : W32) (bs : List Byte), Issues s t.toNat (wordU 0x26 0 f) → f.rb = 0 → f.rc = 0 → u = takeTurn s t.toNat → LocalIs s t.toNat (gv (thrOf s t.toNat) f.ra).toNat 16 bs → a = leNat (bs.take 8) → c = leNat ((bs.drop 8).take 4) → loc = BitVec.ofNat 32 (leNat (bs.drop 12)) → n = c % 4096 + 1 → ∀ data : List Byte, LocalIs s t.toNat loc.toNat n data → c / 2 ^ 21 % 2 ^ 9 = 0 → bitOf c 30 = false → inWindow u t.toNat a n = true → drcReady u = true → ∀ (v : State) (d : List Byte) (ps : List Bool), bitOf c 31 = false → dramRead u a n (if isMgt t.toNat then 6 else 5) = (d, ps, v) → False) := by
  intro h
  refine h (turning (desc windowed 0 0) 8191 { noThread 0 with g := regs [(6, 0x100)] } (wordU 0x26 0 (⟨5, 6, 0, 0⟩ : FmtU))) _ 8191 ⟨5, 6, 0, 0⟩ _ _ _ _ _ (by unfold Issues; decide +kernel) ?_ ?_ rfl ⟨_, rfl, rfl⟩ rfl rfl rfl rfl _ ⟨_, rfl, rfl⟩ ?_ ?_ ?_ ?_ _ _ _ ?_ (triple _) <;> decide +kernel

theorem witness_DmaInstruction_1_2 : ¬ (∀ (s u : State) (t : BitVec 14) (f : FmtU) (a c n : Nat) (loc : W32) (bs : List Byte), Issues s t.toNat (wordU 0x26 0 f) → f.rb = 0 → f.rc = 0 → u = takeTurn s t.toNat → LocalIs s t.toNat (gv (thrOf s t.toNat) f.ra).toNat 16 bs → a = leNat (bs.take 8) → c = leNat ((bs.drop 8).take 4) → loc = BitVec.ofNat 32 (leNat (bs.drop 12)) → n = c % 4096 + 1 → ∀ data : List Byte, LocalIs s t.toNat loc.toNat n data → c / 2 ^ 21 % 2 ^ 9 = 0 → bitOf c 30 = false → inWindow u t.toNat a n = true → drcReady u = false → False) := by
  intro h
  refine h (turning (desc (up.setReg .DRC_DMAWIN_SIZE 0 65536) 0 0) 8191 { noThread 0 with g := regs [(6, 0x100)] } (wordU 0x26 0 (⟨5, 6, 0, 0⟩ : FmtU))) _ 8191 ⟨5, 6, 0, 0⟩ _ _ _ _ _ (by unfold Issues; decide +kernel) ?_ ?_ rfl ⟨_, rfl, rfl⟩ rfl rfl rfl rfl _ ⟨_, rfl, rfl⟩ ?_ ?_ ?_ ?_ <;> decide +kernel

theorem witness_DmaInstruction_1_3_1 : ¬ (∀ (s u : State) (t : BitVec 14) (f : FmtU) (a c n : Nat) (loc : W32) (bs : List Byte), Issues s t.toNat (wordU 0x26 0 f) → f.rb = 0 → f.rc = 0 → u = takeTurn s t.toNat → LocalIs s t.toNat (gv (thrOf s t.toNat) f.ra).toNat 16 bs → a = leNat (bs.take 8) → c = leNat ((bs.drop 8).take 4) → loc = BitVec.ofNat 32 (leNat (bs.drop 12)) → n = c % 4096 + 1 → ∀ data : List Byte, LocalIs s t.toNat loc.toNat n data → c / 2 ^ 21 % 2 ^ 9 = 0 → bitOf c 30 = true → isS s t.toNat = true → fnRefuses u (c / 2 ^ 12 % 512) = false → bitOf c 31 = true → False) := by
  intro h
  refine h (turning (desc linked 0 0xC0001000) 8191 { noThread 0 with g := regs [(6, 0x100)], priv := true } (wordU 0x26 0 (⟨5, 6, 0, 0⟩ : FmtU))) _ 8191 ⟨5, 6, 0, 0⟩ _ _ _ _ _ (by unfold Issues; decide +kernel) ?_ ?_ rfl ⟨_, rfl, rfl⟩ rfl rfl rfl rfl _ ⟨_, rfl, rfl⟩ ?_ ?_ ?_ ?_ ?_ <;> decide +kernel

theorem witness_DmaInstruction_1_3_2 : ¬ (∀ (s u : State) (t : BitVec 14) (f : FmtU) (a c n : Nat) (loc : W32) (bs : List Byte), Issues s t.toNat (wordU 0x26 0 f) → f.rb = 0 → f.rc = 0 → u = takeTurn s t.toNat → LocalIs s t.toNat (gv (thrOf s t.toNat) f.ra).toNat 16 bs → a = leNat (bs.take 8) → c = leNat ((bs.drop 8).take 4) → loc = BitVec.ofNat 32 (leNat (bs.drop 12)) → n = c % 4096 + 1 → ∀ data : List Byte, LocalIs s t.toNat loc.toNat n data → c / 2 ^ 21 % 2 ^ 9 = 0 → bitOf c 30 = true → isS s t.toNat = true → fnRefuses u (c / 2 ^ 12 % 512) = false → bitOf c 31 = false → False) := by
  intro h
  refine h (turning (desc linked 0 0x40001000) 8191 { noThread 0 with g := regs [(6, 0x100)], priv := true } (wordU 0x26 0 (⟨5, 6, 0, 0⟩ : FmtU))) _ 8191 ⟨5, 6, 0, 0⟩ _ _ _ _ _ (by unfold Issues; decide +kernel) ?_ ?_ rfl ⟨_, rfl, rfl⟩ rfl rfl rfl rfl _ ⟨_, rfl, rfl⟩ ?_ ?_ ?_ ?_ ?_ <;> decide +kernel

theorem witness_DmaInstruction_1_4 : ¬ (∀ (s u : State) (t : BitVec 14) (f : FmtU) (a c n : Nat) (loc : W32) (bs : List Byte), Issues s t.toNat (wordU 0x26 0 f) → f.rb = 0 → f.rc = 0 → u = takeTurn s t.toNat → LocalIs s t.toNat (gv (thrOf s t.toNat) f.ra).toNat 16 bs → a = leNat (bs.take 8) → c = leNat ((bs.drop 8).take 4) → loc = BitVec.ofNat 32 (leNat (bs.drop 12)) → n = c % 4096 + 1 → ∀ data : List Byte, LocalIs s t.toNat loc.toNat n data → c / 2 ^ 21 % 2 ^ 9 = 0 → bitOf c 30 = true → isS s t.toNat = true → fnRefuses u (c / 2 ^ 12 % 512) = true → False) := by
  intro h
  refine h (turning (desc up 0 0x40001000) 8191 { noThread 0 with g := regs [(6, 0x100)], priv := true } (wordU 0x26 0 (⟨5, 6, 0, 0⟩ : FmtU))) _ 8191 ⟨5, 6, 0, 0⟩ _ _ _ _ _ (by unfold Issues; decide +kernel) ?_ ?_ rfl ⟨_, rfl, rfl⟩ rfl rfl rfl rfl _ ⟨_, rfl, rfl⟩ ?_ ?_ ?_ ?_ <;> decide +kernel

theorem witness_DmaInstruction_2 : ¬ (∀ (s u : State) (t : BitVec 14) (f : FmtU) (a c n : Nat) (loc : W32) (bs : List Byte), Issues s t.toNat (wordU 0x26 0 f) → f.rb = 0 → f.rc = 0 → u = takeTurn s t.toNat → LocalIs s t.toNat (gv (thrOf s t.toNat) f.ra).toNat 16 bs → a = leNat (bs.take 8) → c = leNat ((bs.drop 8).take 4) → loc = BitVec.ofNat 32 (leNat (bs.drop 12)) → n = c % 4096 + 1 → bitOf c 30 = true → isS s t.toNat = false → False) := by
  intro h
  refine h (turning (desc linked 0 0x40001000) 8191 { noThread 0 with g := regs [(6, 0x100)] } (wordU 0x26 0 (⟨5, 6, 0, 0⟩ : FmtU))) _ 8191 ⟨5, 6, 0, 0⟩ _ _ _ _ _ (by unfold Issues; decide +kernel) ?_ ?_ rfl ⟨_, rfl, rfl⟩ rfl rfl rfl rfl ?_ ?_ <;> decide +kernel

theorem witness_DmaInstruction_3 : ¬ (∀ (s u : State) (t : BitVec 14) (f : FmtU) (a c n : Nat) (loc : W32) (bs : List Byte), Issues s t.toNat (wordU 0x26 0 f) → f.rb = 0 → f.rc = 0 → u = takeTurn s t.toNat → LocalIs s t.toNat (gv (thrOf s t.toNat) f.ra).toNat 16 bs → a = leNat (bs.take 8) → c = leNat ((bs.drop 8).take 4) → loc = BitVec.ofNat 32 (leNat (bs.drop 12)) → n = c % 4096 + 1 → bitOf c 30 = false → (localOf t.toNat loc.toNat n).isSome = true → inWindow u t.toNat a n = false → False) := by
  intro h
  refine h (turning (desc drammed 0x8000000 0) 8191 { noThread 0 with g := regs [(6, 0x100)] } (wordU 0x26 0 (⟨5, 6, 0, 0⟩ : FmtU))) _ 8191 ⟨5, 6, 0, 0⟩ _ _ _ _ _ (by unfold Issues; decide +kernel) ?_ ?_ rfl ⟨_, rfl, rfl⟩ rfl rfl rfl rfl ?_ ?_ ?_ <;> decide +kernel

/-! ## CellInstructions -/

theorem witness_CellInstructions_1 : ¬ (∀ (s u v : State) (t : BitVec 14) (f : FmtU) (h a w : W32) (ch : Chain) (bad : List Nat), Issues s t.toNat (wordU 0x21 0 f) → isMgt t.toNat = false → u = takeTurn s t.toNat → h = gv (thrOf s t.toNat) f.ra → a = gv (thrOf s t.toNat) f.rb → w = gv (thrOf s t.toNat) f.rc → (localOf t.toNat a.toNat (xwLen w)).isSome = true → xwBad w = false → handleGood u h.toNat = true → chainAt u (h.toNat / 8) = some ch → probeChain u ch 2 (xwOfs w) (xwLen w) = (v, bad) → False) := by
  intro h
  refine h (turning (pooled) 8191 { noThread 0 with g := [] } (wordU 0x21 0 (⟨5, 6, 7, 8⟩ : FmtU))) _ _ 8191 ⟨5, 6, 7, 8⟩ _ _ _ _ _ (by unfold Issues; decide +kernel) ?_ rfl rfl rfl rfl ?_ ?_ ?_ rfl (pair0 _) <;> decide +kernel

theorem witness_CellInstructions_2 : ¬ (∀ (s u v : State) (t : BitVec 14) (f : FmtU) (h a w : W32) (ch : Chain) (bs : List Byte) (st : Nat), Issues s t.toNat (wordU 0x21 1 f) → isMgt t.toNat = false → u = takeTurn s t.toNat → h = gv (thrOf s t.toNat) f.ra → a = gv (thrOf s t.toNat) f.rb → w = gv (thrOf s t.toNat) f.rc → LocalIs s t.toNat a.toNat (xwLen w) bs → xwBad w = false → handleGood u h.toNat = true → chainAt u (h.toNat / 8) = some ch → cellStore u (cluOf t.toNat) (h.toNat / 8) ch (xwOfs w) bs = (st, v) → False) := by
  intro h
  refine h (turning (pooled) 8191 { noThread 0 with g := [] } (wordU 0x21 1 (⟨5, 6, 7, 8⟩ : FmtU))) _ _ 8191 ⟨5, 6, 7, 8⟩ _ _ _ _ _ _ (by unfold Issues; decide +kernel) ?_ rfl rfl rfl rfl ⟨_, rfl, rfl⟩ ?_ ?_ rfl (pair0 _) <;> decide +kernel

theorem witness_CellInstructions_3_1 : ¬ (∀ (s u v : State) (t : BitVec 14) (f : FmtU) (n h : Nat) (cells : List Nat), Issues s t.toNat (wordU 0x21 2 f) → isMgt t.toNat = false → f.rb = 0 → f.rc = 0 → u = takeTurn s t.toNat → n = (gv (thrOf s t.toNat) f.ra).toNat → 1 ≤ n → n ≤ 80 → requestCells u (clusterReq u (cluOf t.toNat)) n = (none, v) → False) := by
  intro h
  refine h (turning (up) 8191 { noThread 0 with g := regs [(6, 80)] } (wordU 0x21 2 (⟨5, 6, 0, 0⟩ : FmtU))) _ _ 8191 ⟨5, 6, 0, 0⟩ 80 0 [] (by unfold Issues; decide +kernel) ?_ ?_ ?_ rfl ?_ ?_ ?_ (pair _ ?_) <;> decide +kernel

theorem witness_CellInstructions_3_2 : ¬ (∀ (s u v : State) (t : BitVec 14) (f : FmtU) (n h : Nat) (cells : List Nat), Issues s t.toNat (wordU 0x21 2 f) → isMgt t.toNat = false → f.rb = 0 → f.rc = 0 → u = takeTurn s t.toNat → n = (gv (thrOf s t.toNat) f.ra).toNat → 1 ≤ n → n ≤ 80 → ∀ y : State, requestCells u (clusterReq u (cluOf t.toNat)) n = (some cells, y) → newChain y cells (128 * n) false (some (cluOf t.toNat)) = (h, v) → False) := by
  intro h
  refine h (turning (pooled.setFld F.CRN_REQ_HARD_HARD 159 100) 8191 { noThread 0 with g := regs [(6, 1)] } (wordU 0x21 2 (⟨5, 6, 0, 0⟩ : FmtU))) _ _ 8191 ⟨5, 6, 0, 0⟩ 1 _ _ (by unfold Issues; decide +kernel) ?_ ?_ ?_ rfl ?_ ?_ ?_ _ (pair _ (eqSome ?_)) (pair0 _) <;> decide +kernel

theorem witness_CellInstructions_4 : ¬ (∀ (s u : State) (t : BitVec 14) (f : FmtU) (n : Nat), Issues s t.toNat (wordU 0x21 2 f) → isMgt t.toNat = false → f.rb = 0 → f.rc = 0 → u = takeTurn s t.toNat → n = (gv (thrOf s t.toNat) f.ra).toNat → n = 0 ∨ 80 < n → False) := by
  intro h
  refine h (turning (up) 8191 { noThread 0 with g := regs [(6, 81)] } (wordU 0x21 2 (⟨5, 6, 0, 0⟩ : FmtU))) _ 8191 ⟨5, 6, 0, 0⟩ 81 (by unfold Issues; decide +kernel) ?_ ?_ ?_ rfl ?_ (.inr ?_) <;> decide +kernel

theorem witness_CellInstructions_5_1_1 : ¬ (∀ (s u : State) (t : BitVec 14) (f : FmtU) (h : Nat), isMgt t.toNat = false → f.rb = 0 → f.rc = 0 → u = takeTurn s t.toNat → h = (gv (thrOf s t.toNat) f.ra).toNat → Issues s t.toNat (wordU 0x21 3 f) → handleGood u h = true → (chainAt u (h / 8)).isSome = true → ∀ v : State, addRef u (h / 8) = some v → False) := by
  intro h
  refine h (turning (pooled) 8191 { noThread 0 with g := [] } (wordU 0x21 3 (⟨5, 6, 0, 0⟩ : FmtU))) _ 8191 ⟨5, 6, 0, 0⟩ _ ?_ ?_ ?_ rfl rfl (by unfold Issues; decide +kernel) ?_ ?_ _ rfl <;> decide +kernel

theorem witness_CellInstructions_5_1_2 : ¬ (∀ (s u : State) (t : BitVec 14) (f : FmtU) (h : Nat), isMgt t.toNat = false → f.rb = 0 → f.rc = 0 → u = takeTurn s t.toNat → h = (gv (thrOf s t.toNat) f.ra).toNat → Issues s t.toNat (wordU 0x21 3 f) → handleGood u h = true → (chainAt u (h / 8)).isSome = true → addRef u (h / 8) = none → False) := by
  intro h
  refine h (turning ({ pooled with crn := { pooled.crn with chains := [(0, some { chain1 with refs := 255 })] } }) 8191 { noThread 0 with g := [] } (wordU 0x21 3 (⟨5, 6, 0, 0⟩ : FmtU))) _ 8191 ⟨5, 6, 0, 0⟩ _ ?_ ?_ ?_ rfl rfl (by unfold Issues; decide +kernel) ?_ ?_ (Option.isNone_iff_eq_none.mp ?_) <;> decide +kernel

theorem witness_CellInstructions_5_2 : ¬ (∀ (s u : State) (t : BitVec 14) (f : FmtU) (h : Nat), isMgt t.toNat = false → f.rb = 0 → f.rc = 0 → u = takeTurn s t.toNat → h = (gv (thrOf s t.toNat) f.ra).toNat → Issues s t.toNat (wordU 0x21 3 f) → handleGood u h = false → False) := by
  intro h
  refine h (turning (up) 8191 { noThread 0 with g := [] } (wordU 0x21 3 (⟨5, 6, 0, 0⟩ : FmtU))) _ 8191 ⟨5, 6, 0, 0⟩ _ ?_ ?_ ?_ rfl rfl (by unfold Issues; decide +kernel) ?_ <;> decide +kernel

theorem witness_CellInstructions_5_3 : ¬ (∀ (s u : State) (t : BitVec 14) (f : FmtU) (h : Nat), isMgt t.toNat = false → f.rb = 0 → f.rc = 0 → u = takeTurn s t.toNat → h = (gv (thrOf s t.toNat) f.ra).toNat → Issues s t.toNat (wordU 0x21 4 f) → f.rd = 0 → handleGood u h = true → (chainAt u (h / 8)).isSome = true → False) := by
  intro h
  refine h (turning (pooled) 8191 { noThread 0 with g := [] } (wordU 0x21 4 (⟨0, 6, 0, 0⟩ : FmtU))) _ 8191 ⟨0, 6, 0, 0⟩ _ ?_ ?_ ?_ rfl rfl (by unfold Issues; decide +kernel) ?_ ?_ ?_ <;> decide +kernel

theorem witness_CellInstructions_5_4 : ¬ (∀ (s u : State) (t : BitVec 14) (f : FmtU) (h : Nat), isMgt t.toNat = false → f.rb = 0 → f.rc = 0 → u = takeTurn s t.toNat → h = (gv (thrOf s t.toNat) f.ra).toNat → Issues s t.toNat (wordU 0x21 4 f) → f.rd = 0 → handleForm u h = true → chainAt u (h / 8) = none → mget noReq u.crn.cellReq (h / 8) = none → False) := by
  intro h
  refine h (turning (pooled) 8191 { noThread 0 with g := regs [(6, 8)] } (wordU 0x21 4 (⟨0, 6, 0, 0⟩ : FmtU))) _ 8191 ⟨0, 6, 0, 0⟩ _ ?_ ?_ ?_ rfl rfl (by unfold Issues; decide +kernel) ?_ ?_ ?_ ?_ <;> decide +kernel

theorem witness_CellInstructions_5_5 : ¬ (∀ (s u : State) (t : BitVec 14) (f : FmtU) (h : Nat), isMgt t.toNat = false → f.rb = 0 → f.rc = 0 → u = takeTurn s t.toNat → h = (gv (thrOf s t.toNat) f.ra).toNat → Issues s t.toNat (wordU 0x21 4 f) → f.rd = 0 → handleGood u h = false → handleForm u h = false ∨ (chainAt u (h / 8)).isSome = true ∨ mget noReq u.crn.cellReq (h / 8) ≠ none → False) := by
  intro h
  refine h (turning (up) 8191 { noThread 0 with g := [] } (wordU 0x21 4 (⟨0, 0, 0, 0⟩ : FmtU))) _ 8191 ⟨0, 0, 0, 0⟩ _ ?_ ?_ ?_ rfl rfl (by unfold Issues; decide +kernel) ?_ ?_ ?_ <;> decide +kernel

/-! ## GetsEnqueuesAndEmits: GetsAndEnqueues, EmitsAndDisposals -/

theorem witness_GetsAndEnqueues_1_1 : ¬ (∀ (s u : State) (t : BitVec 14) (f : FmtUI), Issues s t.toNat (wordUI 0x22 0 f) → isMgt t.toNat = false → f.rd = 0 → f.ra = 0 → f.imm.toNat < 64 → u = takeTurn s t.toNat → (thrOf s t.toNat).item = none → False) := by
  intro h
  refine h (turning (up) 8191 { noThread 0 with g := [] } (wordUI 0x22 0 (⟨0, 0, 63⟩ : FmtUI))) _ 8191 ⟨0, 0, 63⟩ (by unfold Issues; decide +kernel) ?_ ?_ ?_ ?_ rfl ?_ <;> decide +kernel

theorem witness_GetsAndEnqueues_1_2 : ¬ (∀ (s u : State) (t : BitVec 14) (f : FmtUI), Issues s t.toNat (wordUI 0x22 0 f) → isMgt t.toNat = false → f.rd = 0 → f.ra = 0 → f.imm.toNat < 64 → u = takeTurn s t.toNat → (thrOf s t.toNat).item ≠ none → False) := by
  intro h
  refine h (turning (up) 8191 { noThread 0 with g := [], item := some held } (wordUI 0x22 0 (⟨0, 0, 63⟩ : FmtUI))) _ 8191 ⟨0, 0, 63⟩ (by unfold Issues; decide +kernel) ?_ ?_ ?_ ?_ rfl ?_ <;> decide +kernel

theorem witness_GetsAndEnqueues_2_1_1 : ¬ (∀ (s u : State) (t : BitVec 14) (f : FmtU) (a b : W32) (h : Held) (bs : List Byte) (it : Item), isMgt t.toNat = false → f.rc = 0 → u = takeTurn s t.toNat → a = gv (thrOf s t.toNat) f.ra → b = gv (thrOf s t.toNat) f.rb → qdBad a = false → (thrOf s t.toNat).item = some h → LocalIs s t.toNat (thrBlk t.toNat) 64 bs → it = itemOfBytes bs → itemWord it 0 = nullHandle ∨ handleGood u (itemWord it 0) = true → Issues s t.toNat (wordU 0x22 1 f) → h.late = true → False) := by
  intro h
  refine h (turning (blockAt queued formItem) 8191 { noThread 0 with g := regs [(6, 4095)], item := some { held with late := true } } (wordU 0x22 1 (⟨5, 6, 7, 0⟩ : FmtU))) _ 8191 ⟨5, 6, 7, 0⟩ _ _ { held with late := true } _ _ ?_ ?_ rfl rfl rfl ?_ ?_ ⟨_, rfl, rfl⟩ rfl (.inl ?_) (by unfold Issues; decide +kernel) ?_ <;> decide +kernel

theorem witness_GetsAndEnqueues_2_1_2 : ¬ (∀ (s u : State) (t : BitVec 14) (f : FmtU) (a b : W32) (h : Held) (bs : List Byte) (it : Item), isMgt t.toNat = false → f.rc = 0 → u = takeTurn s t.toNat → a = gv (thrOf s t.toNat) f.ra → b = gv (thrOf s t.toNat) f.rb → qdBad a = false → (thrOf s t.toNat).item = some h → LocalIs s t.toNat (thrBlk t.toNat) 64 bs → it = itemOfBytes bs → itemWord it 0 = nullHandle ∨ handleGood u (itemWord it 0) = true → Issues s t.toNat (wordU 0x22 1 f) → h.late = false → thrEnqReady u t.toNat a false = false → False) := by
  intro h
  refine h (turning (blockAt (queued.setFlag F.ORY_Q_STS_XOFF_ACT 4095 true) formItem) 8191 { noThread 0 with g := regs [(6, 4095)], item := some held } (wordU 0x22 1 (⟨5, 6, 7, 0⟩ : FmtU))) _ 8191 ⟨5, 6, 7, 0⟩ _ _ held _ _ ?_ ?_ rfl rfl rfl ?_ ?_ ⟨_, rfl, rfl⟩ rfl (.inl ?_) (by unfold Issues; decide +kernel) ?_ ?_ <;> decide +kernel

theorem witness_GetsAndEnqueues_2_1_3 : ¬ (∀ (s u : State) (t : BitVec 14) (f : FmtU) (a b : W32) (h : Held) (bs : List Byte) (it : Item), isMgt t.toNat = false → f.rc = 0 → u = takeTurn s t.toNat → a = gv (thrOf s t.toNat) f.ra → b = gv (thrOf s t.toNat) f.rb → qdBad a = false → (thrOf s t.toNat).item = some h → LocalIs s t.toNat (thrBlk t.toNat) 64 bs → it = itemOfBytes bs → itemWord it 0 = nullHandle ∨ handleGood u (itemWord it 0) = true → Issues s t.toNat (wordU 0x22 1 f) → ∀ (v : State) (st : Nat), h.late = false → thrEnqReady u t.toNat a false = true → thrEnq u t.toNat a b false it = (st, v) → False) := by
  intro h
  refine h (turning (blockAt queued formItem) 8191 { noThread 0 with g := regs [(6, 4095)], item := some held } (wordU 0x22 1 (⟨5, 6, 7, 0⟩ : FmtU))) _ 8191 ⟨5, 6, 7, 0⟩ _ _ held _ _ ?_ ?_ rfl rfl rfl ?_ ?_ ⟨_, rfl, rfl⟩ rfl (.inl ?_) (by unfold Issues; decide +kernel) _ _ ?_ ?_ (pair0 _) <;> decide +kernel

theorem witness_GetsAndEnqueues_2_2_1 : ¬ (∀ (s u : State) (t : BitVec 14) (f : FmtU) (a b : W32) (h : Held) (bs : List Byte) (it : Item), isMgt t.toNat = false → f.rc = 0 → u = takeTurn s t.toNat → a = gv (thrOf s t.toNat) f.ra → b = gv (thrOf s t.toNat) f.rb → qdBad a = false → (thrOf s t.toNat).item = some h → LocalIs s t.toNat (thrBlk t.toNat) 64 bs → it = itemOfBytes bs → itemWord it 0 = nullHandle ∨ handleGood u (itemWord it 0) = true → Issues s t.toNat (wordU 0x22 2 f) → h.late = true → False) := by
  intro h
  refine h (turning (blockAt queued formItem) 8191 { noThread 0 with g := regs [(6, 4095)], item := some { held with late := true } } (wordU 0x22 2 (⟨5, 6, 7, 0⟩ : FmtU))) _ 8191 ⟨5, 6, 7, 0⟩ _ _ { held with late := true } _ _ ?_ ?_ rfl rfl rfl ?_ ?_ ⟨_, rfl, rfl⟩ rfl (.inl ?_) (by unfold Issues; decide +kernel) ?_ <;> decide +kernel

theorem witness_GetsAndEnqueues_2_2_2 : ¬ (∀ (s u : State) (t : BitVec 14) (f : FmtU) (a b : W32) (h : Held) (bs : List Byte) (it : Item), isMgt t.toNat = false → f.rc = 0 → u = takeTurn s t.toNat → a = gv (thrOf s t.toNat) f.ra → b = gv (thrOf s t.toNat) f.rb → qdBad a = false → (thrOf s t.toNat).item = some h → LocalIs s t.toNat (thrBlk t.toNat) 64 bs → it = itemOfBytes bs → itemWord it 0 = nullHandle ∨ handleGood u (itemWord it 0) = true → Issues s t.toNat (wordU 0x22 2 f) → h.late = false → u.flag F.ORY_CTL_EN 0 = true → u.flag F.ORY_Q_CFG_EN (qdQueue a) = true → queueXoff u (qdQueue a) = true → False) := by
  intro h
  refine h (turning (blockAt (queued.setFlag F.ORY_Q_STS_XOFF_ACT 4095 true) formItem) 8191 { noThread 0 with g := regs [(6, 4095)], item := some held } (wordU 0x22 2 (⟨5, 6, 7, 0⟩ : FmtU))) _ 8191 ⟨5, 6, 7, 0⟩ _ _ held _ _ ?_ ?_ rfl rfl rfl ?_ ?_ ⟨_, rfl, rfl⟩ rfl (.inl ?_) (by unfold Issues; decide +kernel) ?_ ?_ ?_ ?_ <;> decide +kernel

theorem witness_GetsAndEnqueues_2_2_3 : ¬ (∀ (s u : State) (t : BitVec 14) (f : FmtU) (a b : W32) (h : Held) (bs : List Byte) (it : Item), isMgt t.toNat = false → f.rc = 0 → u = takeTurn s t.toNat → a = gv (thrOf s t.toNat) f.ra → b = gv (thrOf s t.toNat) f.rb → qdBad a = false → (thrOf s t.toNat).item = some h → LocalIs s t.toNat (thrBlk t.toNat) 64 bs → it = itemOfBytes bs → itemWord it 0 = nullHandle ∨ handleGood u (itemWord it 0) = true → Issues s t.toNat (wordU 0x22 2 f) → ∀ (v : State) (st : Nat), h.late = false → u.flag F.ORY_CTL_EN 0 = false ∨ u.flag F.ORY_Q_CFG_EN (qdQueue a) = false ∨ queueXoff u (qdQueue a) = false → thrEnq u t.toNat a b false it = (st, v) → False) := by
  intro h
  refine h (turning (blockAt queued formItem) 8191 { noThread 0 with g := regs [(6, 4095)], item := some held } (wordU 0x22 2 (⟨5, 6, 7, 0⟩ : FmtU))) _ 8191 ⟨5, 6, 7, 0⟩ _ _ held _ _ ?_ ?_ rfl rfl rfl ?_ ?_ ⟨_, rfl, rfl⟩ rfl (.inl ?_) (by unfold Issues; decide +kernel) _ _ ?_ ?_ (pair0 _) <;> decide +kernel

theorem witness_GetsAndEnqueues_4_1_1 : ¬ (∀ (s u v : State) (t : BitVec 14) (f : FmtU) (a b : W32) (bs : List Byte) (it : Item) (st : Nat), isMgt t.toNat = false → u = takeTurn s t.toNat → a = gv (thrOf s t.toNat) f.ra → b = gv (thrOf s t.toNat) f.rb → qdBad a = false → LocalIs s t.toNat (gv (thrOf s t.toNat) f.rc).toNat 64 bs → it = itemOfBytes bs → itForm it = true → itemWord it 0 = nullHandle ∨ handleGood u (itemWord it 0) = true → thrEnq u t.toNat a b true it = (st, v) → Issues s t.toNat (wordU 0x22 3 f) → thrEnqReady u t.toNat a true = true → False) := by
  intro h
  refine h (turning (blockAt queued formItem) 8191 { noThread 0 with g := regs [(6, 4095), (8, 0x1FF00)] } (wordU 0x22 3 (⟨5, 6, 7, 8⟩ : FmtU))) _ _ 8191 ⟨5, 6, 7, 8⟩ _ _ _ _ _ ?_ rfl rfl rfl ?_ ⟨_, rfl, rfl⟩ rfl ?_ (.inl ?_) (pair0 _) (by unfold Issues; decide +kernel) ?_ <;> decide +kernel

theorem witness_GetsAndEnqueues_4_1_2 : ¬ (∀ (s u v : State) (t : BitVec 14) (f : FmtU) (a b : W32) (bs : List Byte) (it : Item) (st : Nat), isMgt t.toNat = false → u = takeTurn s t.toNat → a = gv (thrOf s t.toNat) f.ra → b = gv (thrOf s t.toNat) f.rb → qdBad a = false → LocalIs s t.toNat (gv (thrOf s t.toNat) f.rc).toNat 64 bs → it = itemOfBytes bs → itForm it = true → itemWord it 0 = nullHandle ∨ handleGood u (itemWord it 0) = true → thrEnq u t.toNat a b true it = (st, v) → Issues s t.toNat (wordU 0x22 3 f) → thrEnqReady u t.toNat a true = false → False) := by
  intro h
  refine h (turning (blockAt (queued.setFlag F.ORY_Q_STS_XOFF_ACT 4095 true) formItem) 8191 { noThread 0 with g := regs [(6, 4095), (8, 0x1FF00)] } (wordU 0x22 3 (⟨5, 6, 7, 8⟩ : FmtU))) _ _ 8191 ⟨5, 6, 7, 8⟩ _ _ _ _ _ ?_ rfl rfl rfl ?_ ⟨_, rfl, rfl⟩ rfl ?_ (.inl ?_) (pair0 _) (by unfold Issues; decide +kernel) ?_ <;> decide +kernel

theorem witness_GetsAndEnqueues_4_2_1 : ¬ (∀ (s u v : State) (t : BitVec 14) (f : FmtU) (a b : W32) (bs : List Byte) (it : Item) (st : Nat), isMgt t.toNat = false → u = takeTurn s t.toNat → a = gv (thrOf s t.toNat) f.ra → b = gv (thrOf s t.toNat) f.rb → qdBad a = false → LocalIs s t.toNat (gv (thrOf s t.toNat) f.rc).toNat 64 bs → it = itemOfBytes bs → itForm it = true → itemWord it 0 = nullHandle ∨ handleGood u (itemWord it 0) = true → thrEnq u t.toNat a b true it = (st, v) → Issues s t.toNat (wordU 0x22 4 f) → u.flag F.ORY_CTL_EN 0 = false ∨ u.flag F.ORY_Q_CFG_EN (qdQueue a) = false ∨ queueXoff u (qdQueue a) = false → False) := by
  intro h
  refine h (turning (blockAt queued formItem) 8191 { noThread 0 with g := regs [(6, 4095), (8, 0x1FF00)] } (wordU 0x22 4 (⟨5, 6, 7, 8⟩ : FmtU))) _ _ 8191 ⟨5, 6, 7, 8⟩ _ _ _ _ _ ?_ rfl rfl rfl ?_ ⟨_, rfl, rfl⟩ rfl ?_ (.inl ?_) (pair0 _) (by unfold Issues; decide +kernel) ?_ <;> decide +kernel

theorem witness_GetsAndEnqueues_4_2_2 : ¬ (∀ (s u v : State) (t : BitVec 14) (f : FmtU) (a b : W32) (bs : List Byte) (it : Item) (st : Nat), isMgt t.toNat = false → u = takeTurn s t.toNat → a = gv (thrOf s t.toNat) f.ra → b = gv (thrOf s t.toNat) f.rb → qdBad a = false → LocalIs s t.toNat (gv (thrOf s t.toNat) f.rc).toNat 64 bs → it = itemOfBytes bs → itForm it = true → itemWord it 0 = nullHandle ∨ handleGood u (itemWord it 0) = true → thrEnq u t.toNat a b true it = (st, v) → Issues s t.toNat (wordU 0x22 4 f) → u.flag F.ORY_CTL_EN 0 = true → u.flag F.ORY_Q_CFG_EN (qdQueue a) = true → queueXoff u (qdQueue a) = true → False) := by
  intro h
  refine h (turning (blockAt (queued.setFlag F.ORY_Q_STS_XOFF_ACT 4095 true) formItem) 8191 { noThread 0 with g := regs [(6, 4095), (8, 0x1FF00)] } (wordU 0x22 4 (⟨5, 6, 7, 8⟩ : FmtU))) _ _ 8191 ⟨5, 6, 7, 8⟩ _ _ _ _ _ ?_ rfl rfl rfl ?_ ⟨_, rfl, rfl⟩ rfl ?_ (.inl ?_) (pair0 _) (by unfold Issues; decide +kernel) ?_ ?_ ?_ <;> decide +kernel

theorem witness_GetsAndEnqueues_5 : ¬ (∀ (s : State) (t : BitVec 14) (f : FmtU), Issues s t.toNat (wordU 0x22 1 f) → isMgt t.toNat = false → f.rc = 0 → qdBad (gv (thrOf s t.toNat) f.ra) = false → (thrOf s t.toNat).item = none → False) := by
  intro h
  refine h (turning (up) 8191 { noThread 0 with g := [] } (wordU 0x22 1 (⟨5, 6, 7, 0⟩ : FmtU))) 8191 ⟨5, 6, 7, 0⟩ (by unfold Issues; decide +kernel) ?_ ?_ ?_ ?_ <;> decide +kernel

theorem witness_EmitsAndDisposals_1_1_1 : ¬ (∀ (s u : State) (t : BitVec 14) (f : FmtU) (a b : W32) (h : Held) (bs hdr : List Byte) (it : Item), isMgt t.toNat = false → f.rc = 0 → u = takeTurn s t.toNat → a = gv (thrOf s t.toNat) f.ra → b = gv (thrOf s t.toNat) f.rb → a.toNat < 16384 → wbBad b = false → (thrOf s t.toNat).item = some h → LocalIs s t.toNat (thrBlk t.toNat) 64 bs → it = itemOfBytes bs → itemWord it 0 = nullHandle ∨ handleGood u (itemWord it 0) = true → LocalIs s t.toNat (hdrBuf t.toNat) (wbNew b) hdr → Issues s t.toNat (wordU 0x22 5 f) → emitWaits u h true it = true → False) := by
  intro h
  refine h (turning (gateStuck) 8191 { noThread 0 with g := regs [(6, 16383)], item := some heldTag } (wordU 0x22 5 (⟨5, 6, 7, 0⟩ : FmtU))) _ 8191 ⟨5, 6, 7, 0⟩ _ _ heldTag _ _ _ ?_ ?_ rfl rfl rfl ?_ ?_ ?_ ⟨_, rfl, rfl⟩ rfl (.inl ?_) ⟨_, rfl, rfl⟩ (by unfold Issues; decide +kernel) (emitWaits_stuck rfl rfl ?_) <;> decide +kernel

theorem witness_EmitsAndDisposals_1_1_2 : ¬ (∀ (s u : State) (t : BitVec 14) (f : FmtU) (a b : W32) (h : Held) (bs hdr : List Byte) (it : Item), isMgt t.toNat = false → f.rc = 0 → u = takeTurn s t.toNat → a = gv (thrOf s t.toNat) f.ra → b = gv (thrOf s t.toNat) f.rb → a.toNat < 16384 → wbBad b = false → (thrOf s t.toNat).item = some h → LocalIs s t.toNat (thrBlk t.toNat) 64 bs → it = itemOfBytes bs → itemWord it 0 = nullHandle ∨ handleGood u (itemWord it 0) = true → LocalIs s t.toNat (hdrBuf t.toNat) (wbNew b) hdr → Issues s t.toNat (wordU 0x22 5 f) → ∀ (v : State) (st : Nat), emitWaits u h true it = false → emitRun u t.toNat h true a.toNat b hdr it = (st, v) → False) := by
  intro h
  refine h (turning (blockAt up formItem) 8191 { noThread 0 with g := regs [(6, 16383)], item := some held } (wordU 0x22 5 (⟨5, 6, 7, 0⟩ : FmtU))) _ 8191 ⟨5, 6, 7, 0⟩ _ _ held _ _ _ ?_ ?_ rfl rfl rfl ?_ ?_ ?_ ⟨_, rfl, rfl⟩ rfl (.inl ?_) ⟨_, rfl, rfl⟩ (by unfold Issues; decide +kernel) _ _ ?_ (pair0 _) <;> decide +kernel

theorem witness_EmitsAndDisposals_1_2_1 : ¬ (∀ (s u : State) (t : BitVec 14) (f : FmtU) (a b : W32) (h : Held) (bs hdr : List Byte) (it : Item), isMgt t.toNat = false → f.rc = 0 → u = takeTurn s t.toNat → a = gv (thrOf s t.toNat) f.ra → b = gv (thrOf s t.toNat) f.rb → a.toNat < 16384 → wbBad b = false → (thrOf s t.toNat).item = some h → LocalIs s t.toNat (thrBlk t.toNat) 64 bs → it = itemOfBytes bs → itemWord it 0 = nullHandle ∨ handleGood u (itemWord it 0) = true → LocalIs s t.toNat (hdrBuf t.toNat) (wbNew b) hdr → Issues s t.toNat (wordU 0x22 6 f) → emitWaits u h false it = true → False) := by
  intro h
  refine h (turning (gateStuck) 8191 { noThread 0 with g := regs [(6, 16383)], item := some heldTag } (wordU 0x22 6 (⟨5, 6, 7, 0⟩ : FmtU))) _ 8191 ⟨5, 6, 7, 0⟩ _ _ heldTag _ _ _ ?_ ?_ rfl rfl rfl ?_ ?_ ?_ ⟨_, rfl, rfl⟩ rfl (.inl ?_) ⟨_, rfl, rfl⟩ (by unfold Issues; decide +kernel) (emitWaits_stuck rfl rfl ?_) <;> decide +kernel

theorem witness_EmitsAndDisposals_1_2_2 : ¬ (∀ (s u : State) (t : BitVec 14) (f : FmtU) (a b : W32) (h : Held) (bs hdr : List Byte) (it : Item), isMgt t.toNat = false → f.rc = 0 → u = takeTurn s t.toNat → a = gv (thrOf s t.toNat) f.ra → b = gv (thrOf s t.toNat) f.rb → a.toNat < 16384 → wbBad b = false → (thrOf s t.toNat).item = some h → LocalIs s t.toNat (thrBlk t.toNat) 64 bs → it = itemOfBytes bs → itemWord it 0 = nullHandle ∨ handleGood u (itemWord it 0) = true → LocalIs s t.toNat (hdrBuf t.toNat) (wbNew b) hdr → Issues s t.toNat (wordU 0x22 6 f) → ∀ (v : State) (st : Nat), emitWaits u h false it = false → emitRun u t.toNat h false a.toNat b hdr it = (st, v) → False) := by
  intro h
  refine h (turning (blockAt up formItem) 8191 { noThread 0 with g := regs [(6, 16383)], item := some held } (wordU 0x22 6 (⟨5, 6, 7, 0⟩ : FmtU))) _ 8191 ⟨5, 6, 7, 0⟩ _ _ held _ _ _ ?_ ?_ rfl rfl rfl ?_ ?_ ?_ ⟨_, rfl, rfl⟩ rfl (.inl ?_) ⟨_, rfl, rfl⟩ (by unfold Issues; decide +kernel) _ _ ?_ (pair0 _) <;> decide +kernel

theorem witness_EmitsAndDisposals_2_1 : ¬ (∀ (s u : State) (t : BitVec 14) (f : FmtU) (h : Held) (bs : List Byte) (it : Item), isMgt t.toNat = false → f = ⟨0, 0, 0, 0⟩ → u = takeTurn s t.toNat → (thrOf s t.toNat).item = some h → LocalIs s t.toNat (thrBlk t.toNat) 64 bs → it = itemOfBytes bs → Issues s t.toNat (wordU 0x22 7 f) → itemWord it 0 = nullHandle ∨ handleGood u (itemWord it 0) = true → False) := by
  intro h
  refine h (turning (blockAt up formItem) 8191 { noThread 0 with g := [], item := some held } (wordU 0x22 7 (⟨0, 0, 0, 0⟩ : FmtU))) _ 8191 ⟨0, 0, 0, 0⟩ held _ _ ?_ ?_ rfl ?_ ⟨_, rfl, rfl⟩ rfl (by unfold Issues; decide +kernel) (.inl ?_) <;> decide +kernel

theorem witness_EmitsAndDisposals_2_2 : ¬ (∀ (s u : State) (t : BitVec 14) (f : FmtU) (h : Held) (bs : List Byte) (it : Item), isMgt t.toNat = false → f = ⟨0, 0, 0, 0⟩ → u = takeTurn s t.toNat → (thrOf s t.toNat).item = some h → LocalIs s t.toNat (thrBlk t.toNat) 64 bs → it = itemOfBytes bs → Issues s t.toNat (wordU 0x22 8 f) → False) := by
  intro h
  refine h (turning (up) 8191 { noThread 0 with g := [], item := some held } (wordU 0x22 8 (⟨0, 0, 0, 0⟩ : FmtU))) _ 8191 ⟨0, 0, 0, 0⟩ held _ _ ?_ ?_ rfl ?_ ⟨_, rfl, rfl⟩ rfl (by unfold Issues; decide +kernel) <;> decide +kernel

theorem witness_EmitsAndDisposals_2_3 : ¬ (∀ (s u : State) (t : BitVec 14) (f : FmtU) (h : Held) (bs : List Byte) (it : Item), isMgt t.toNat = false → f = ⟨0, 0, 0, 0⟩ → u = takeTurn s t.toNat → (thrOf s t.toNat).item = some h → LocalIs s t.toNat (thrBlk t.toNat) 64 bs → it = itemOfBytes bs → Issues s t.toNat (wordU 0x22 10 f) → itForm it = true → False) := by
  intro h
  refine h (turning (blockAt up formItem) 8191 { noThread 0 with g := [], item := some held } (wordU 0x22 10 (⟨0, 0, 0, 0⟩ : FmtU))) _ 8191 ⟨0, 0, 0, 0⟩ held _ _ ?_ ?_ rfl ?_ ⟨_, rfl, rfl⟩ rfl (by unfold Issues; decide +kernel) ?_ <;> decide +kernel

theorem witness_EmitsAndDisposals_2_4 : ¬ (∀ (s u : State) (t : BitVec 14) (f : FmtU) (h : Held) (bs : List Byte) (it : Item), isMgt t.toNat = false → f = ⟨0, 0, 0, 0⟩ → u = takeTurn s t.toNat → (thrOf s t.toNat).item = some h → LocalIs s t.toNat (thrBlk t.toNat) 64 bs → it = itemOfBytes bs → Issues s t.toNat (wordU 0x22 10 f) → itForm it = false → False) := by
  intro h
  refine h (turning (up) 8191 { noThread 0 with g := [], item := some held } (wordU 0x22 10 (⟨0, 0, 0, 0⟩ : FmtU))) _ 8191 ⟨0, 0, 0, 0⟩ held _ _ ?_ ?_ rfl ?_ ⟨_, rfl, rfl⟩ rfl (by unfold Issues; decide +kernel) ?_ <;> decide +kernel

theorem witness_EmitsAndDisposals_3 : ¬ (∀ (s u : State) (t : BitVec 14) (f : FmtU) (bs : List Byte) (it : Item) (w0 : Nat), Issues s t.toNat (wordU 0x22 9 f) → isMgt t.toNat = false → f.rb = 0 → f.rc = 0 → u = takeTurn s t.toNat → LocalIs s t.toNat (gv (thrOf s t.toNat) f.ra).toNat 80 bs → w0 = leNat (bs.take 4) → it = itemOfBytes (bs.drop 16) → w0 < 2 ^ 30 → itForm it = true → itemWord it 0 = nullHandle ∨ handleGood u (itemWord it 0) = true → ∀ (v : State) (st : Nat), thrDly u w0 (BitVec.ofNat 32 (leNat ((bs.drop 4).take 4))) (leNat ((bs.drop 8).take 8)) it = (st, v) → False) := by
  intro h
  refine h (turning (bytesAt up 0x110 (leBytes 64 formItem.toNat)) 8191 { noThread 0 with g := regs [(6, 0x100)] } (wordU 0x22 9 (⟨5, 6, 0, 0⟩ : FmtU))) _ 8191 ⟨5, 6, 0, 0⟩ _ _ _ (by unfold Issues; decide +kernel) ?_ ?_ ?_ rfl ⟨_, rfl, rfl⟩ rfl rfl ?_ ?_ (.inl ?_) _ _ (pair0 _) <;> decide +kernel

/-! ## FlintInstructions -/

theorem witness_FlintInstructions_1_1_1 : ¬ (∀ (s u : State) (t : BitVec 14) (f : FmtU) (k o : Nat), f.rb = 0 → f.rc = 0 → u = takeTurn s t.toNat → k = (gv (thrOf s t.toNat) f.ra).toNat → k < 4096 → o = ownerOfThr t.toNat → ∀ (i : Instr) (fn : Nat), (i = .fla t f ∧ fn = 0) ∨ (i = .flt t f ∧ fn = 1) → Issues s t.toNat (wordU 0x23 fn f) → fltAllowed u false k o = false → False) := by
  intro h
  refine h (turning (up.setReg .FLT_LGRP_CLU 0 0) 8191 { noThread 0 with g := regs [(6, 63)] } (wordU 0x23 0 (⟨5, 6, 0, 0⟩ : FmtU))) _ 8191 ⟨5, 6, 0, 0⟩ _ _ ?_ ?_ rfl rfl ?_ rfl (.fla 8191 ⟨5, 6, 0, 0⟩) 0 (.inl ⟨rfl, rfl⟩) (by unfold Issues; decide +kernel) ?_ <;> decide +kernel

theorem witness_FlintInstructions_1_1_2 : ¬ (∀ (s u : State) (t : BitVec 14) (f : FmtU) (k o : Nat), f.rb = 0 → f.rc = 0 → u = takeTurn s t.toNat → k = (gv (thrOf s t.toNat) f.ra).toNat → k < 4096 → o = ownerOfThr t.toNat → ∀ (i : Instr) (fn : Nat), (i = .fla t f ∧ fn = 0) ∨ (i = .flt t f ∧ fn = 1) → Issues s t.toNat (wordU 0x23 fn f) → fltAllowed u false k o = true → (lockOf u k).owner = some o → False) := by
  intro h
  refine h (turning (locked 8191) 8191 { noThread 0 with g := regs [(6, 63)] } (wordU 0x23 1 (⟨5, 6, 0, 0⟩ : FmtU))) _ 8191 ⟨5, 6, 0, 0⟩ _ _ ?_ ?_ rfl rfl ?_ ?_ (.flt 8191 ⟨5, 6, 0, 0⟩) 1 (.inr ⟨rfl, rfl⟩) (by unfold Issues; decide +kernel) ?_ rfl <;> decide +kernel

theorem witness_FlintInstructions_1_1_3 : ¬ (∀ (s u : State) (t : BitVec 14) (f : FmtU) (k o : Nat), f.rb = 0 → f.rc = 0 → u = takeTurn s t.toNat → k = (gv (thrOf s t.toNat) f.ra).toNat → k < 4096 → o = ownerOfThr t.toNat → ∀ (i : Instr) (fn : Nat), (i = .fla t f ∧ fn = 0) ∨ (i = .flt t f ∧ fn = 1) → Issues s t.toNat (wordU 0x23 fn f) → fltAllowed u false k o = true → (lockOf u k).owner = none → (lockOf u k).queue = [] → False) := by
  intro h
  refine h (turning (flinted) 8191 { noThread 0 with g := regs [(6, 63)] } (wordU 0x23 0 (⟨5, 6, 0, 0⟩ : FmtU))) _ 8191 ⟨5, 6, 0, 0⟩ _ _ ?_ ?_ rfl rfl ?_ rfl (.fla 8191 ⟨5, 6, 0, 0⟩) 0 (.inl ⟨rfl, rfl⟩) (by unfold Issues; decide +kernel) ?_ ?_ ?_ <;> decide +kernel

theorem witness_FlintInstructions_1_2 : ¬ (∀ (s u : State) (t : BitVec 14) (f : FmtU) (k o : Nat), f.rb = 0 → f.rc = 0 → u = takeTurn s t.toNat → k = (gv (thrOf s t.toNat) f.ra).toNat → k < 4096 → o = ownerOfThr t.toNat → Issues s t.toNat (wordU 0x23 0 f) → fltAllowed u false k o = true → (lockOf u k).owner ≠ some o → (lockOf u k).owner ≠ none → False) := by
  intro h
  refine h (turning (locked 7) 8191 { noThread 0 with g := regs [(6, 63)] } (wordU 0x23 0 (⟨5, 6, 0, 0⟩ : FmtU))) _ 8191 ⟨5, 6, 0, 0⟩ _ _ ?_ ?_ rfl rfl ?_ rfl (by unfold Issues; decide +kernel) ?_ ?_ ?_ <;> decide +kernel

theorem witness_FlintInstructions_1_3 : ¬ (∀ (s u : State) (t : BitVec 14) (f : FmtU) (k o : Nat), f.rb = 0 → f.rc = 0 → u = takeTurn s t.toNat → k = (gv (thrOf s t.toNat) f.ra).toNat → k < 4096 → o = ownerOfThr t.toNat → Issues s t.toNat (wordU 0x23 1 f) → fltAllowed u false k o = true → (lockOf u k).owner ≠ some o → (lockOf u k).owner ≠ none → False) := by
  intro h
  refine h (turning (locked 7) 8191 { noThread 0 with g := regs [(6, 63)] } (wordU 0x23 1 (⟨5, 6, 0, 0⟩ : FmtU))) _ 8191 ⟨5, 6, 0, 0⟩ _ _ ?_ ?_ rfl rfl ?_ rfl (by unfold Issues; decide +kernel) ?_ ?_ ?_ <;> decide +kernel

theorem witness_FlintInstructions_1_4_1 : ¬ (∀ (s u : State) (t : BitVec 14) (f : FmtU) (k o : Nat), f.rb = 0 → f.rc = 0 → u = takeTurn s t.toNat → k = (gv (thrOf s t.toNat) f.ra).toNat → k < 4096 → o = ownerOfThr t.toNat → Issues s t.toNat (wordU 0x23 2 f) → (lockOf u k).owner = some o → False) := by
  intro h
  refine h (turning (locked 8191) 8191 { noThread 0 with g := regs [(6, 63)] } (wordU 0x23 2 (⟨5, 6, 0, 0⟩ : FmtU))) _ 8191 ⟨5, 6, 0, 0⟩ _ _ ?_ ?_ rfl rfl ?_ ?_ (by unfold Issues; decide +kernel) rfl <;> decide +kernel

theorem witness_FlintInstructions_1_4_2 : ¬ (∀ (s u : State) (t : BitVec 14) (f : FmtU) (k o : Nat), f.rb = 0 → f.rc = 0 → u = takeTurn s t.toNat → k = (gv (thrOf s t.toNat) f.ra).toNat → k < 4096 → o = ownerOfThr t.toNat → Issues s t.toNat (wordU 0x23 2 f) → (lockOf u k).owner ≠ some o → False) := by
  intro h
  refine h (turning (locked 7) 8191 { noThread 0 with g := regs [(6, 63)] } (wordU 0x23 2 (⟨5, 6, 0, 0⟩ : FmtU))) _ 8191 ⟨5, 6, 0, 0⟩ _ _ ?_ ?_ rfl rfl ?_ rfl (by unfold Issues; decide +kernel) ?_ <;> decide +kernel

theorem witness_FlintInstructions_1_5 : ¬ (∀ (s u : State) (t : BitVec 14) (f : FmtU) (k o : Nat), f.rb = 0 → f.rc = 0 → u = takeTurn s t.toNat → k = (gv (thrOf s t.toNat) f.ra).toNat → k < 4096 → o = ownerOfThr t.toNat → ∀ (v : State) (st : Nat), Issues s t.toNat (wordU 0x23 6 f) → fltRegister u k o = (st, v) → False) := by
  intro h
  refine h (turning (flinted) 8191 { noThread 0 with g := regs [(6, 4095)] } (wordU 0x23 6 (⟨5, 6, 0, 0⟩ : FmtU))) _ 8191 ⟨5, 6, 0, 0⟩ _ _ ?_ ?_ rfl rfl ?_ rfl _ _ (by unfold Issues; decide +kernel) (pair0 _) <;> decide +kernel

theorem witness_FlintInstructions_1_6_1 : ¬ (∀ (s u : State) (t : BitVec 14) (f : FmtU) (k o : Nat), f.rb = 0 → f.rc = 0 → u = takeTurn s t.toNat → k = (gv (thrOf s t.toNat) f.ra).toNat → k < 4096 → o = ownerOfThr t.toNat → Issues s t.toNat (wordU 0x23 7 f) → (k, o) ∈ u.flt.regs → False) := by
  intro h
  refine h (turning ({ flinted with flt := { flinted.flt with regs := [(4095, 8191)] } }) 8191 { noThread 0 with g := regs [(6, 4095)] } (wordU 0x23 7 (⟨5, 6, 0, 0⟩ : FmtU))) _ 8191 ⟨5, 6, 0, 0⟩ _ _ ?_ ?_ rfl rfl ?_ rfl (by unfold Issues; decide +kernel) ?_ <;> decide +kernel

theorem witness_FlintInstructions_1_6_2 : ¬ (∀ (s u : State) (t : BitVec 14) (f : FmtU) (k o : Nat), f.rb = 0 → f.rc = 0 → u = takeTurn s t.toNat → k = (gv (thrOf s t.toNat) f.ra).toNat → k < 4096 → o = ownerOfThr t.toNat → Issues s t.toNat (wordU 0x23 7 f) → (k, o) ∉ u.flt.regs → False) := by
  intro h
  refine h (turning (flinted) 8191 { noThread 0 with g := regs [(6, 4095)] } (wordU 0x23 7 (⟨5, 6, 0, 0⟩ : FmtU))) _ 8191 ⟨5, 6, 0, 0⟩ _ _ ?_ ?_ rfl rfl ?_ rfl (by unfold Issues; decide +kernel) ?_ <;> decide +kernel

theorem witness_FlintInstructions_2_1_1 : ¬ (∀ (s u : State) (t : BitVec 14) (f : FmtU) (k n o : Nat), f.rc = 0 → u = takeTurn s t.toNat → k = (gv (thrOf s t.toNat) f.ra).toNat → k < 512 → n = (gv (thrOf s t.toNat) f.rb).toNat → 1 ≤ n → n < 65536 → o = ownerOfThr t.toNat → ∀ (i : Instr) (fn : Nat), (i = .fsa t f ∧ fn = 3) ∨ (i = .fst t f ∧ fn = 4) → Issues s t.toNat (wordU 0x23 fn f) → fltAllowed u true k o = false → False) := by
  intro h
  refine h (turning (up.setReg .FLT_SGRP_CLU 0 0) 8191 { noThread 0 with g := regs [(6, 63), (7, 1)] } (wordU 0x23 3 (⟨5, 6, 7, 0⟩ : FmtU))) _ 8191 ⟨5, 6, 7, 0⟩ _ _ _ ?_ rfl rfl ?_ rfl ?_ ?_ rfl (.fsa 8191 ⟨5, 6, 7, 0⟩) 3 (.inl ⟨rfl, rfl⟩) (by unfold Issues; decide +kernel) ?_ <;> decide +kernel

theorem witness_FlintInstructions_2_1_2 : ¬ (∀ (s u : State) (t : BitVec 14) (f : FmtU) (k n o : Nat), f.rc = 0 → u = takeTurn s t.toNat → k = (gv (thrOf s t.toNat) f.ra).toNat → k < 512 → n = (gv (thrOf s t.toNat) f.rb).toNat → 1 ≤ n → n < 65536 → o = ownerOfThr t.toNat → ∀ (i : Instr) (fn : Nat), (i = .fsa t f ∧ fn = 3) ∨ (i = .fst t f ∧ fn = 4) → Issues s t.toNat (wordU 0x23 fn f) → fltAllowed u true k o = true → (semOf u k).queue = [] → semCan u k o n = true → False) := by
  intro h
  refine h (turning (flinted.setFld F.FLT_SEM_CFG_MAX 63 5) 8191 { noThread 0 with g := regs [(6, 63), (7, 1)] } (wordU 0x23 4 (⟨5, 6, 7, 0⟩ : FmtU))) _ 8191 ⟨5, 6, 7, 0⟩ _ _ _ ?_ rfl rfl ?_ rfl ?_ ?_ rfl (.fst 8191 ⟨5, 6, 7, 0⟩) 4 (.inr ⟨rfl, rfl⟩) (by unfold Issues; decide +kernel) ?_ ?_ ?_ <;> decide +kernel

theorem witness_FlintInstructions_2_2_1 : ¬ (∀ (s u : State) (t : BitVec 14) (f : FmtU) (k n o : Nat), f.rc = 0 → u = takeTurn s t.toNat → k = (gv (thrOf s t.toNat) f.ra).toNat → k < 512 → n = (gv (thrOf s t.toNat) f.rb).toNat → 1 ≤ n → n < 65536 → o = ownerOfThr t.toNat → fltAllowed u true k o = true → (semOf u k).queue ≠ [] ∨ semCan u k o n = false → Issues s t.toNat (wordU 0x23 3 f) → False) := by
  intro h
  refine h (turning (flinted) 8191 { noThread 0 with g := regs [(6, 63), (7, 65535)] } (wordU 0x23 3 (⟨5, 6, 7, 0⟩ : FmtU))) _ 8191 ⟨5, 6, 7, 0⟩ _ _ _ ?_ rfl rfl ?_ rfl ?_ ?_ rfl ?_ (.inr ?_) (by unfold Issues; decide +kernel) <;> decide +kernel

theorem witness_FlintInstructions_2_2_2 : ¬ (∀ (s u : State) (t : BitVec 14) (f : FmtU) (k n o : Nat), f.rc = 0 → u = takeTurn s t.toNat → k = (gv (thrOf s t.toNat) f.ra).toNat → k < 512 → n = (gv (thrOf s t.toNat) f.rb).toNat → 1 ≤ n → n < 65536 → o = ownerOfThr t.toNat → fltAllowed u true k o = true → (semOf u k).queue ≠ [] ∨ semCan u k o n = false → Issues s t.toNat (wordU 0x23 4 f) → False) := by
  intro h
  refine h (turning (flinted) 8191 { noThread 0 with g := regs [(6, 63), (7, 65535)] } (wordU 0x23 4 (⟨5, 6, 7, 0⟩ : FmtU))) _ 8191 ⟨5, 6, 7, 0⟩ _ _ _ ?_ rfl rfl ?_ rfl ?_ ?_ rfl ?_ (.inr ?_) (by unfold Issues; decide +kernel) <;> decide +kernel

theorem witness_FlintInstructions_2_3_1 : ¬ (∀ (s u : State) (t : BitVec 14) (f : FmtU) (k n o : Nat), f.rc = 0 → u = takeTurn s t.toNat → k = (gv (thrOf s t.toNat) f.ra).toNat → k < 512 → n = (gv (thrOf s t.toNat) f.rb).toNat → 1 ≤ n → n < 65536 → o = ownerOfThr t.toNat → Issues s t.toNat (wordU 0x23 5 f) → unitsOfOwner (semOf u k) o < n → False) := by
  intro h
  refine h (turning (flinted) 8191 { noThread 0 with g := regs [(6, 63), (7, 1)] } (wordU 0x23 5 (⟨5, 6, 7, 0⟩ : FmtU))) _ 8191 ⟨5, 6, 7, 0⟩ _ _ _ ?_ rfl rfl ?_ rfl ?_ ?_ rfl (by unfold Issues; decide +kernel) ?_ <;> decide +kernel

theorem witness_FlintInstructions_2_3_2 : ¬ (∀ (s u : State) (t : BitVec 14) (f : FmtU) (k n o : Nat), f.rc = 0 → u = takeTurn s t.toNat → k = (gv (thrOf s t.toNat) f.ra).toNat → k < 512 → n = (gv (thrOf s t.toNat) f.rb).toNat → 1 ≤ n → n < 65536 → o = ownerOfThr t.toNat → Issues s t.toNat (wordU 0x23 5 f) → ∀ (v : State) (st : Nat), n ≤ unitsOfOwner (semOf u k) o → semRel u k o n = (st, v) → False) := by
  intro h
  refine h (turning ({ flinted with flt := { flinted.flt with sem := [(63, ⟨false, [⟨8191, 5, false⟩], []⟩)] } }) 8191 { noThread 0 with g := regs [(6, 63), (7, 1)] } (wordU 0x23 5 (⟨5, 6, 7, 0⟩ : FmtU))) _ 8191 ⟨5, 6, 7, 0⟩ _ _ _ ?_ rfl rfl ?_ rfl ?_ ?_ rfl (by unfold Issues; decide +kernel) _ _ ?_ (pair0 _) <;> decide +kernel

theorem witness_FlintInstructions_3_1 : ¬ (∀ (s u : State) (t : BitVec 14) (f : FmtU) (a : W32), Issues s t.toNat (wordU 0x23 2 f) → f.rb = 0 → f.rc = 0 → u = takeTurn s t.toNat → a = gv (thrOf s t.toNat) f.ra → a.getLsbD 31 = true → isSupv u t.toNat = false → False) := by
  intro h
  refine h (turning (up) 8191 { noThread 0 with g := regs [(6, 0x80000000)] } (wordU 0x23 2 (⟨5, 6, 0, 0⟩ : FmtU))) _ 8191 ⟨5, 6, 0, 0⟩ _ (by unfold Issues; decide +kernel) ?_ ?_ rfl rfl ?_ ?_ <;> decide +kernel

theorem witness_FlintInstructions_3_2 : ¬ (∀ (s u : State) (t : BitVec 14) (f : FmtU) (a : W32), Issues s t.toNat (wordU 0x23 2 f) → f.rb = 0 → f.rc = 0 → u = takeTurn s t.toNat → a = gv (thrOf s t.toNat) f.ra → a.getLsbD 31 = true → ∀ h : Nat, isSupv u t.toNat = true → a.toNat % 2 ^ 31 < 4096 → (lockOf u (a.toNat % 2 ^ 31)).owner = some h → h < 8192 → cluOf h = cluOf t.toNat → False) := by
  intro h
  refine h (turning ((locked 7937).setFld F.GCL_SUPV_TID 31 255) 8191 { noThread 0 with g := regs [(6, 0x8000003F)] } (wordU 0x23 2 (⟨5, 6, 0, 0⟩ : FmtU))) _ 8191 ⟨5, 6, 0, 0⟩ _ (by unfold Issues; decide +kernel) ?_ ?_ rfl rfl ?_ 7937 ?_ ?_ ?_ ?_ ?_ <;> decide +kernel

/-! ## ChannelsAndEvents: ChannelInstructions, EventInstructions -/

theorem witness_ChannelInstructions_1_1_1 : ¬ (∀ (s u v : State) (t : BitVec 14) (f : FmtU) (a : W32) (c : Nat) (ws : List W32), isMgt t.toNat = false → f.rb = 0 → f.rc = 0 → u = takeTurn s t.toNat → a = gv (thrOf s t.toNat) f.ra → swBad a = false → c = a.toNat % 2048 → v = serveSenders u c → ws = (List.range (a.toNat / 2 ^ 16 % 8 + 1)).map (stageWord (thrOf s t.toNat)) → ∀ (i : Instr) (fn : Nat), (i = .chsend t f ∧ fn = 0) ∨ (i = .chsendNb t f ∧ fn = 1) → Issues s t.toNat (wordU 0x24 fn f) → chanTakes u c = false → False) := by
  intro h
  refine h (turning (up) 8191 { noThread 0 with g := regs [(6, 2047)] } (wordU 0x24 0 (⟨5, 6, 0, 0⟩ : FmtU))) _ _ 8191 ⟨5, 6, 0, 0⟩ _ _ _ ?_ ?_ ?_ rfl rfl ?_ rfl rfl rfl (.chsend 8191 ⟨5, 6, 0, 0⟩) 0 (.inl ⟨rfl, rfl⟩) (by unfold Issues; decide +kernel) ?_ <;> decide +kernel

theorem witness_ChannelInstructions_1_1_2 : ¬ (∀ (s u v : State) (t : BitVec 14) (f : FmtU) (a : W32) (c : Nat) (ws : List W32), isMgt t.toNat = false → f.rb = 0 → f.rc = 0 → u = takeTurn s t.toNat → a = gv (thrOf s t.toNat) f.ra → swBad a = false → c = a.toNat % 2048 → v = serveSenders u c → ws = (List.range (a.toNat / 2 ^ 16 % 8 + 1)).map (stageWord (thrOf s t.toNat)) → ∀ (i : Instr) (fn : Nat), (i = .chsend t f ∧ fn = 0) ∨ (i = .chsendNb t f ∧ fn = 1) → Issues s t.toNat (wordU 0x24 fn f) → chanTakes u c = true → chanRoom v c = true → False) := by
  intro h
  refine h (turning (chan 0) 8191 { noThread 0 with g := regs [(6, 0x707FF)] } (wordU 0x24 1 (⟨5, 6, 0, 0⟩ : FmtU))) _ _ 8191 ⟨5, 6, 0, 0⟩ _ _ _ ?_ ?_ ?_ rfl rfl ?_ rfl rfl rfl (.chsendNb 8191 ⟨5, 6, 0, 0⟩) 1 (.inr ⟨rfl, rfl⟩) (by unfold Issues; decide +kernel) ?_ ?_ <;> decide +kernel

theorem witness_ChannelInstructions_1_2_1 : ¬ (∀ (s u v : State) (t : BitVec 14) (f : FmtU) (a : W32) (c : Nat) (ws : List W32), isMgt t.toNat = false → f.rb = 0 → f.rc = 0 → u = takeTurn s t.toNat → a = gv (thrOf s t.toNat) f.ra → swBad a = false → c = a.toNat % 2048 → v = serveSenders u c → ws = (List.range (a.toNat / 2 ^ 16 % 8 + 1)).map (stageWord (thrOf s t.toNat)) → chanTakes u c = true → chanRoom v c = false → Issues s t.toNat (wordU 0x24 0 f) → False) := by
  intro h
  refine h (turning (chan 16) 8191 { noThread 0 with g := regs [(6, 0x707FF)] } (wordU 0x24 0 (⟨5, 6, 0, 0⟩ : FmtU))) _ _ 8191 ⟨5, 6, 0, 0⟩ _ _ _ ?_ ?_ ?_ rfl rfl ?_ rfl rfl rfl ?_ ?_ (by unfold Issues; decide +kernel) <;> decide +kernel

theorem witness_ChannelInstructions_1_2_2 : ¬ (∀ (s u v : State) (t : BitVec 14) (f : FmtU) (a : W32) (c : Nat) (ws : List W32), isMgt t.toNat = false → f.rb = 0 → f.rc = 0 → u = takeTurn s t.toNat → a = gv (thrOf s t.toNat) f.ra → swBad a = false → c = a.toNat % 2048 → v = serveSenders u c → ws = (List.range (a.toNat / 2 ^ 16 % 8 + 1)).map (stageWord (thrOf s t.toNat)) → chanTakes u c = true → chanRoom v c = false → Issues s t.toNat (wordU 0x24 1 f) → False) := by
  intro h
  refine h (turning (chan 16) 8191 { noThread 0 with g := regs [(6, 0x707FF)] } (wordU 0x24 1 (⟨5, 6, 0, 0⟩ : FmtU))) _ _ 8191 ⟨5, 6, 0, 0⟩ _ _ _ ?_ ?_ ?_ rfl rfl ?_ rfl rfl rfl ?_ ?_ (by unfold Issues; decide +kernel) <;> decide +kernel

theorem witness_ChannelInstructions_2_1 : ¬ (∀ (s : State) (c : Nat), blockedSend s c = [] → False) := by
  intro h
  refine h (up) 0 ?_
  decide +kernel

theorem witness_ChannelInstructions_2_2 : ¬ (∀ (s : State) (c : Nat), blockedRecv s c = [] → chanEn s c = true → False) := by
  intro h
  refine h (chan 0) 2047 ?_ ?_ <;> decide +kernel

theorem witness_ChannelInstructions_3_1_1 : ¬ (∀ (s u v : State) (t : BitVec 14) (f : FmtU) (a : W32) (c : Nat), isMgt t.toNat = false → f.rc = 0 → u = takeTurn s t.toNat → a = gv (thrOf s t.toNat) f.ra → (localOf t.toNat a.toNat 32).isSome = true → (gv (thrOf s t.toNat) f.rb).toNat < 64 → c = 64 * cluOf t.toNat + (gv (thrOf s t.toNat) f.rb).toNat → v = serveReceivers u c → ∀ (i : Instr) (fn : Nat), (i = .chrecv t f ∧ fn = 2) ∨ (i = .chrecvNb t f ∧ fn = 3) → Issues s t.toNat (wordU 0x24 fn f) → ∀ (w : State) (n : Nat), chanTake v t.toNat c a.toNat = some (n, w) → False) := by
  intro h
  refine h (turning (chan 1) 8191 { noThread 0 with g := regs [(6, 0xE000), (7, 63)] } (wordU 0x24 2 (⟨5, 6, 7, 0⟩ : FmtU))) _ _ 8191 ⟨5, 6, 7, 0⟩ _ _ ?_ ?_ rfl rfl ?_ ?_ rfl rfl (.chrecv 8191 ⟨5, 6, 7, 0⟩) 2 (.inl ⟨rfl, rfl⟩) (by unfold Issues; decide +kernel) _ _ rfl <;> decide +kernel

theorem witness_ChannelInstructions_3_1_2 : ¬ (∀ (s u v : State) (t : BitVec 14) (f : FmtU) (a : W32) (c : Nat), isMgt t.toNat = false → f.rc = 0 → u = takeTurn s t.toNat → a = gv (thrOf s t.toNat) f.ra → (localOf t.toNat a.toNat 32).isSome = true → (gv (thrOf s t.toNat) f.rb).toNat < 64 → c = 64 * cluOf t.toNat + (gv (thrOf s t.toNat) f.rb).toNat → v = serveReceivers u c → ∀ (i : Instr) (fn : Nat), (i = .chrecv t f ∧ fn = 2) ∨ (i = .chrecvNb t f ∧ fn = 3) → Issues s t.toNat (wordU 0x24 fn f) → chanOf v c = [] → chanEn v c = false → False) := by
  intro h
  refine h (turning (up) 8191 { noThread 0 with g := regs [(6, 0xE000), (7, 63)] } (wordU 0x24 3 (⟨5, 6, 7, 0⟩ : FmtU))) _ _ 8191 ⟨5, 6, 7, 0⟩ _ _ ?_ ?_ rfl rfl ?_ ?_ rfl rfl (.chrecvNb 8191 ⟨5, 6, 7, 0⟩) 3 (.inr ⟨rfl, rfl⟩) (by unfold Issues; decide +kernel) ?_ ?_ <;> decide +kernel

theorem witness_ChannelInstructions_3_2_1 : ¬ (∀ (s u v : State) (t : BitVec 14) (f : FmtU) (a : W32) (c : Nat), isMgt t.toNat = false → f.rc = 0 → u = takeTurn s t.toNat → a = gv (thrOf s t.toNat) f.ra → (localOf t.toNat a.toNat 32).isSome = true → (gv (thrOf s t.toNat) f.rb).toNat < 64 → c = 64 * cluOf t.toNat + (gv (thrOf s t.toNat) f.rb).toNat → v = serveReceivers u c → chanOf v c = [] → chanEn v c = true → Issues s t.toNat (wordU 0x24 2 f) → False) := by
  intro h
  refine h (turning (chan 0) 8191 { noThread 0 with g := regs [(6, 0xE000), (7, 63)] } (wordU 0x24 2 (⟨5, 6, 7, 0⟩ : FmtU))) _ _ 8191 ⟨5, 6, 7, 0⟩ _ _ ?_ ?_ rfl rfl ?_ ?_ rfl rfl ?_ ?_ (by unfold Issues; decide +kernel) <;> decide +kernel

theorem witness_ChannelInstructions_3_2_2 : ¬ (∀ (s u v : State) (t : BitVec 14) (f : FmtU) (a : W32) (c : Nat), isMgt t.toNat = false → f.rc = 0 → u = takeTurn s t.toNat → a = gv (thrOf s t.toNat) f.ra → (localOf t.toNat a.toNat 32).isSome = true → (gv (thrOf s t.toNat) f.rb).toNat < 64 → c = 64 * cluOf t.toNat + (gv (thrOf s t.toNat) f.rb).toNat → v = serveReceivers u c → chanOf v c = [] → chanEn v c = true → Issues s t.toNat (wordU 0x24 3 f) → False) := by
  intro h
  refine h (turning (chan 0) 8191 { noThread 0 with g := regs [(6, 0xE000), (7, 63)] } (wordU 0x24 3 (⟨5, 6, 7, 0⟩ : FmtU))) _ _ 8191 ⟨5, 6, 7, 0⟩ _ _ ?_ ?_ rfl rfl ?_ ?_ rfl rfl ?_ ?_ (by unfold Issues; decide +kernel) <;> decide +kernel

theorem witness_ChannelInstructions_4_1 : ¬ (∀ (s : State) (t : BitVec 14) (f : FmtUI) (x : Thread), isMgt t.toNat = false → x = ranOn (thrOf s t.toNat) ((thrOf s t.toNat).pc + 4) → f.imm.toNat < 8 → Issues s t.toNat (wordUI 0x24 4 f) → f.rd = 0 → False) := by
  intro h
  refine h (turning (up) 8191 { noThread 0 with g := [] } (wordUI 0x24 4 (⟨0, 6, 7⟩ : FmtUI))) 8191 ⟨0, 6, 7⟩ _ ?_ rfl ?_ (by unfold Issues; decide +kernel) ?_ <;> decide +kernel

theorem witness_ChannelInstructions_4_2 : ¬ (∀ (s : State) (t : BitVec 14) (f : FmtUI) (x : Thread), isMgt t.toNat = false → x = ranOn (thrOf s t.toNat) ((thrOf s t.toNat).pc + 4) → f.imm.toNat < 8 → Issues s t.toNat (wordUI 0x24 6 f) → f.ra = 0 → False) := by
  intro h
  refine h (turning (up) 8191 { noThread 0 with g := [] } (wordUI 0x24 6 (⟨5, 0, 7⟩ : FmtUI))) 8191 ⟨5, 0, 7⟩ _ ?_ rfl ?_ (by unfold Issues; decide +kernel) ?_ <;> decide +kernel

theorem witness_ChannelInstructions_5 : ¬ (∀ (s : State) (t : BitVec 14) (f : FmtUI) (x : Thread) (bs : List Byte), Issues s t.toNat (wordUI 0x24 5 f) → isMgt t.toNat = false → f.rd = 0 → 1 ≤ f.imm.toNat → f.imm.toNat ≤ 8 → x = ranOn (thrOf s t.toNat) ((thrOf s t.toNat).pc + 4) → LocalIs s t.toNat (gv x f.ra).toNat (4 * f.imm.toNat) bs → False) := by
  intro h
  refine h (turning (up) 8191 { noThread 0 with g := [] } (wordUI 0x24 5 (⟨0, 6, 8⟩ : FmtUI))) 8191 ⟨0, 6, 8⟩ _ _ (by unfold Issues; decide +kernel) ?_ ?_ ?_ ?_ rfl ⟨_, rfl, rfl⟩ <;> decide +kernel

theorem witness_ChannelInstructions_6 : ¬ (∀ (s u : State) (t : BitVec 14) (f : FmtU), Issues s t.toNat (wordU 0x24 7 f) → isMgt t.toNat = false → f.rd = 0 → f.rc = 0 → u = takeTurn s t.toNat → False) := by
  intro h
  refine h (turning (up) 8191 { noThread 0 with g := [] } (wordU 0x24 7 (⟨0, 6, 7, 0⟩ : FmtU))) _ 8191 ⟨0, 6, 7, 0⟩ (by unfold Issues; decide +kernel) ?_ ?_ ?_ rfl <;> decide +kernel

theorem witness_EventInstructions_1_1 : ¬ (∀ (s u : State) (t : BitVec 14) (f : FmtU) (m got : W16) (x : Thread), Issues s t.toNat (wordU 0x25 0 f) → f.rb = 0 → f.rc = 0 → u = takeTurn s t.toNat → m = (gv (thrOf s t.toNat) f.ra).setWidth 16 → got = evBits u t.toNat &&& m → x = ranOn (thrOf s t.toNat) ((thrOf s t.toNat).pc + 4) → m = 0 ∨ got ≠ 0 → False) := by
  intro h
  refine h (turning (up) 8191 { noThread 0 with g := [] } (wordU 0x25 0 (⟨5, 6, 0, 0⟩ : FmtU))) _ 8191 ⟨5, 6, 0, 0⟩ 0 _ _ (by unfold Issues; decide +kernel) ?_ ?_ rfl ?_ rfl rfl (.inl ?_) <;> decide +kernel

theorem witness_EventInstructions_1_2 : ¬ (∀ (s u : State) (t : BitVec 14) (f : FmtU) (m got : W16) (x : Thread), Issues s t.toNat (wordU 0x25 0 f) → f.rb = 0 → f.rc = 0 → u = takeTurn s t.toNat → m = (gv (thrOf s t.toNat) f.ra).setWidth 16 → got = evBits u t.toNat &&& m → x = ranOn (thrOf s t.toNat) ((thrOf s t.toNat).pc + 4) → m ≠ 0 → got = 0 → False) := by
  intro h
  refine h (turning (up) 8191 { noThread 0 with g := regs [(6, 1)] } (wordU 0x25 0 (⟨5, 6, 0, 0⟩ : FmtU))) _ 8191 ⟨5, 6, 0, 0⟩ _ _ _ (by unfold Issues; decide +kernel) ?_ ?_ rfl rfl ?_ rfl ?_ rfl <;> decide +kernel

theorem witness_EventInstructions_2_1 : ¬ (∀ (s u : State) (t : BitVec 14) (f : FmtU) (m got : W16) (v : W64) (x : Thread), Issues s t.toNat (wordU 0x25 1 f) → f.rc = 0 → f.ra.toNat % 2 = 0 → f.ra ≠ 0 → v = gPair (thrOf s t.toNat) f.ra.toNat → u = armCompare (takeTurn s t.toNat) t.toNat v → m = (gv (thrOf s t.toNat) f.rb).setWidth 16 ||| 1 → got = evBits u t.toNat &&& m → x = ranOn (thrOf u t.toNat) ((thrOf s t.toNat).pc + 4) → got ≠ 0 → False) := by
  intro h
  refine h (turning (up) 8191 { noThread 0 with g := regs [(8, 0x100)], ev := 0x100 } (wordU 0x25 1 (⟨5, 6, 8, 0⟩ : FmtU))) _ 8191 ⟨5, 6, 8, 0⟩ _ _ _ _ (by unfold Issues; decide +kernel) ?_ ?_ ?_ rfl rfl rfl rfl rfl ?_ <;> decide +kernel

theorem witness_EventInstructions_2_2 : ¬ (∀ (s u : State) (t : BitVec 14) (f : FmtU) (m got : W16) (v : W64) (x : Thread), Issues s t.toNat (wordU 0x25 1 f) → f.rc = 0 → f.ra.toNat % 2 = 0 → f.ra ≠ 0 → v = gPair (thrOf s t.toNat) f.ra.toNat → u = armCompare (takeTurn s t.toNat) t.toNat v → m = (gv (thrOf s t.toNat) f.rb).setWidth 16 ||| 1 → got = evBits u t.toNat &&& m → x = ranOn (thrOf u t.toNat) ((thrOf s t.toNat).pc + 4) → got = 0 → False) := by
  intro h
  refine h (turning (up) 8191 { noThread 0 with g := [] } (wordU 0x25 1 (⟨5, 6, 8, 0⟩ : FmtU))) _ 8191 ⟨5, 6, 8, 0⟩ _ _ _ _ (by unfold Issues; decide +kernel) ?_ ?_ ?_ rfl rfl rfl ?_ rfl rfl <;> decide +kernel

theorem witness_EventInstructions_3_1 : ¬ (∀ (s : State) (t : BitVec 14) (f : FmtU) (x : Thread), f.rd = 0 → f.rb = 0 → f.rc = 0 → x = ranOn (thrOf s t.toNat) ((thrOf s t.toNat).pc + 4) → Issues s t.toNat (wordU 0x25 2 f) → f.ra.toNat % 2 = 0 → f.ra ≠ 0 → False) := by
  intro h
  refine h (turning (up) 8191 { noThread 0 with g := [] } (wordU 0x25 2 (⟨0, 6, 0, 0⟩ : FmtU))) 8191 ⟨0, 6, 0, 0⟩ _ ?_ ?_ ?_ rfl (by unfold Issues; decide +kernel) ?_ ?_ <;> decide +kernel

theorem witness_EventInstructions_3_2 : ¬ (∀ (s : State) (t : BitVec 14) (f : FmtU) (x : Thread), f.rd = 0 → f.rb = 0 → f.rc = 0 → x = ranOn (thrOf s t.toNat) ((thrOf s t.toNat).pc + 4) → Issues s t.toNat (wordU 0x25 3 f) → f.ra = 0 → False) := by
  intro h
  refine h (turning (up) 8191 { noThread 0 with g := [] } (wordU 0x25 3 (⟨0, 0, 0, 0⟩ : FmtU))) 8191 ⟨0, 0, 0, 0⟩ _ ?_ ?_ ?_ rfl (by unfold Issues; decide +kernel) ?_ <;> decide +kernel

theorem witness_EventInstructions_4_1 : ¬ (∀ (s u : State) (t : BitVec 14) (f : FmtU) (i m : Nat), Issues s t.toNat (wordU 0x25 4 f) → f.rd = 0 → f.rc = 0 → u = takeTurn s t.toNat → i = (gv (thrOf s t.toNat) f.ra).toNat % 8192 → m = (gv (thrOf s t.toNat) f.rb).toNat % 256 → clUp u (cluOf i) = true → False) := by
  intro h
  refine h (turning (up) 8191 { noThread 0 with g := regs [(6, 8191), (7, 255)] } (wordU 0x25 4 (⟨0, 6, 7, 0⟩ : FmtU))) _ 8191 ⟨0, 6, 7, 0⟩ _ _ (by unfold Issues; decide +kernel) ?_ ?_ rfl rfl rfl ?_ <;> decide +kernel

theorem witness_EventInstructions_4_2 : ¬ (∀ (s u : State) (t : BitVec 14) (f : FmtU) (i m : Nat), Issues s t.toNat (wordU 0x25 4 f) → f.rd = 0 → f.rc = 0 → u = takeTurn s t.toNat → i = (gv (thrOf s t.toNat) f.ra).toNat % 8192 → m = (gv (thrOf s t.toNat) f.rb).toNat % 256 → clUp u (cluOf i) = false → False) := by
  intro h
  refine h (turning (up.setReg .RST_DOM_STS_CL 0 1) 8191 { noThread 0 with g := [] } (wordU 0x25 4 (⟨0, 6, 7, 0⟩ : FmtU))) _ 8191 ⟨0, 6, 7, 0⟩ _ _ (by unfold Issues; decide +kernel) ?_ ?_ rfl rfl rfl ?_ <;> decide +kernel

theorem witness_EventInstructions_5 : ¬ (∀ (s : State) (t : BitVec 14) (f : FmtU) (x : Thread), Issues s t.toNat (wordU 0x25 5 f) → f.ra = 0 → f.rb = 0 → f.rc = 0 → f.rd.toNat % 2 = 0 → f.rd ≠ 0 → x = ranOn (thrOf s t.toNat) ((thrOf s t.toNat).pc + 4) → False) := by
  intro h
  refine h (turning (up) 8191 { noThread 0 with g := [] } (wordU 0x25 5 (⟨6, 0, 0, 0⟩ : FmtU))) 8191 ⟨6, 0, 0, 0⟩ _ (by unfold Issues; decide +kernel) ?_ ?_ ?_ ?_ ?_ rfl <;> decide +kernel

/-! ## CoprocessorInstructions: CoprocessorMoves, CoprocessorOperations -/

theorem witness_CoprocessorMoves_1_1_1 : ¬ (∀ (s v : State) (t : BitVec 14) (f : FmtX2) (u n : Nat) (c d : CpxCmd), v = takeTurn s t.toNat → u = unitNo f.unit → n = cluOf t.toNat → isMgt t.toNat = false → f.zero = 0 → unitPresent s u = true → cpxEnabled v t.toNat u = true → cpxReason v t.toNat u f.lane.toNat moveNeed = none → c = moveCmd t.toNat f.lane f.c 0 f.w.toNat 0 ((gv (thrOf s t.toNat) f.g).setWidth 128) false → d = moveCmd t.toNat f.lane f.c 1 f.w.toNat (f.g.setWidth 32) 0 false → Issues s t.toNat (wordX2 0x27 false f) → cpxRoom v n u c = true → False) := by
  intro h
  refine h (turning (laneHeld) 8191 { noThread 0 with g := [] } (wordX2 0x27 false (⟨true, 15, 3, 5, 2, 0⟩ : FmtX2))) _ 8191 ⟨true, 15, 3, 5, 2, 0⟩ _ _ _ _ rfl rfl rfl ?_ ?_ ?_ ?_ ?_ rfl rfl (by unfold Issues; decide +kernel) ?_ <;> decide +kernel

theorem witness_CoprocessorMoves_1_1_2 : ¬ (∀ (s v : State) (t : BitVec 14) (f : FmtX2) (u n : Nat) (c d : CpxCmd), v = takeTurn s t.toNat → u = unitNo f.unit → n = cluOf t.toNat → isMgt t.toNat = false → f.zero = 0 → unitPresent s u = true → cpxEnabled v t.toNat u = true → cpxReason v t.toNat u f.lane.toNat moveNeed = none → c = moveCmd t.toNat f.lane f.c 0 f.w.toNat 0 ((gv (thrOf s t.toNat) f.g).setWidth 128) false → d = moveCmd t.toNat f.lane f.c 1 f.w.toNat (f.g.setWidth 32) 0 false → Issues s t.toNat (wordX2 0x27 false f) → cpxRoom v n u c = false → False) := by
  intro h
  refine h (turning (queuesFull) 8191 { noThread 0 with g := [] } (wordX2 0x27 false (⟨true, 15, 3, 5, 2, 0⟩ : FmtX2))) _ 8191 ⟨true, 15, 3, 5, 2, 0⟩ _ _ _ _ rfl rfl rfl ?_ ?_ ?_ ?_ ?_ rfl rfl (by unfold Issues; decide +kernel) ?_ <;> decide +kernel

theorem witness_CoprocessorMoves_1_2_1 : ¬ (∀ (s v : State) (t : BitVec 14) (f : FmtX2) (u n : Nat) (c d : CpxCmd), v = takeTurn s t.toNat → u = unitNo f.unit → n = cluOf t.toNat → isMgt t.toNat = false → f.zero = 0 → unitPresent s u = true → cpxEnabled v t.toNat u = true → cpxReason v t.toNat u f.lane.toNat moveNeed = none → c = moveCmd t.toNat f.lane f.c 0 f.w.toNat 0 ((gv (thrOf s t.toNat) f.g).setWidth 128) false → d = moveCmd t.toNat f.lane f.c 1 f.w.toNat (f.g.setWidth 32) 0 false → Issues s t.toNat (wordX2 0x27 true f) → ∀ (g : Nat) (w : State), cpxRoom v n u d = true → cpxSend v n u d = (g, w) → False) := by
  intro h
  refine h (turning (laneHeld) 8191 { noThread 0 with g := [] } (wordX2 0x27 true (⟨true, 15, 3, 5, 2, 0⟩ : FmtX2))) _ 8191 ⟨true, 15, 3, 5, 2, 0⟩ _ _ _ _ rfl rfl rfl ?_ ?_ ?_ ?_ ?_ rfl rfl (by unfold Issues; decide +kernel) _ _ ?_ (pair0 _) <;> decide +kernel

theorem witness_CoprocessorMoves_1_2_2 : ¬ (∀ (s v : State) (t : BitVec 14) (f : FmtX2) (u n : Nat) (c d : CpxCmd), v = takeTurn s t.toNat → u = unitNo f.unit → n = cluOf t.toNat → isMgt t.toNat = false → f.zero = 0 → unitPresent s u = true → cpxEnabled v t.toNat u = true → cpxReason v t.toNat u f.lane.toNat moveNeed = none → c = moveCmd t.toNat f.lane f.c 0 f.w.toNat 0 ((gv (thrOf s t.toNat) f.g).setWidth 128) false → d = moveCmd t.toNat f.lane f.c 1 f.w.toNat (f.g.setWidth 32) 0 false → Issues s t.toNat (wordX2 0x27 true f) → cpxRoom v n u d = false → False) := by
  intro h
  refine h (turning (queuesFull) 8191 { noThread 0 with g := [] } (wordX2 0x27 true (⟨true, 15, 3, 5, 2, 0⟩ : FmtX2))) _ 8191 ⟨true, 15, 3, 5, 2, 0⟩ _ _ _ _ rfl rfl rfl ?_ ?_ ?_ ?_ ?_ rfl rfl (by unfold Issues; decide +kernel) ?_ <;> decide +kernel

theorem witness_CoprocessorMoves_2_1_1 : ¬ (∀ (s v : State) (t : BitVec 14) (f : FmtX3) (u n : Nat) (c d : CpxCmd) (a : W32) (bs : List Byte), v = takeTurn s t.toNat → u = unitNo f.unit → n = cluOf t.toNat → isMgt t.toNat = false → f.mid = 0 → f.zero = 0 → unitPresent s u = true → cpxEnabled v t.toNat u = true → cpxReason v t.toNat u f.lane.toNat moveNeed = none → a = gv (thrOf s t.toNat) f.g → LocalIs s t.toNat a.toNat 16 bs → c = moveCmd t.toNat f.lane f.c 2 0 0 (bytesReg bs) false → d = moveCmd t.toNat f.lane f.c 3 0 a 0 false → Issues s t.toNat (wordX3 0x27 false f) → cpxRoom v n u { c with move := some (2, 0, 0, 0) } = true → False) := by
  intro h
  refine h (turning (laneHeld) 8191 { noThread 0 with g := [] } (wordX3 0x27 false (⟨true, 15, 3, 5, 0, 0⟩ : FmtX3))) _ 8191 ⟨true, 15, 3, 5, 0, 0⟩ _ _ _ _ _ _ rfl rfl rfl ?_ ?_ ?_ ?_ ?_ ?_ rfl ⟨_, rfl, rfl⟩ rfl rfl (by unfold Issues; decide +kernel) ?_ <;> decide +kernel

theorem witness_CoprocessorMoves_2_1_2 : ¬ (∀ (s v : State) (t : BitVec 14) (f : FmtX3) (u n : Nat) (c d : CpxCmd) (a : W32) (bs : List Byte), v = takeTurn s t.toNat → u = unitNo f.unit → n = cluOf t.toNat → isMgt t.toNat = false → f.mid = 0 → f.zero = 0 → unitPresent s u = true → cpxEnabled v t.toNat u = true → cpxReason v t.toNat u f.lane.toNat moveNeed = none → a = gv (thrOf s t.toNat) f.g → LocalIs s t.toNat a.toNat 16 bs → c = moveCmd t.toNat f.lane f.c 2 0 0 (bytesReg bs) false → d = moveCmd t.toNat f.lane f.c 3 0 a 0 false → Issues s t.toNat (wordX3 0x27 false f) → cpxRoom v n u { c with move := some (2, 0, 0, 0) } = false → False) := by
  intro h
  refine h (turning (queuesFull) 8191 { noThread 0 with g := [] } (wordX3 0x27 false (⟨true, 15, 3, 5, 0, 0⟩ : FmtX3))) _ 8191 ⟨true, 15, 3, 5, 0, 0⟩ _ _ _ _ _ _ rfl rfl rfl ?_ ?_ ?_ ?_ ?_ ?_ rfl ⟨_, rfl, rfl⟩ rfl rfl (by unfold Issues; decide +kernel) ?_ <;> decide +kernel

theorem witness_CoprocessorMoves_2_2_1 : ¬ (∀ (s v : State) (t : BitVec 14) (f : FmtX3) (u n : Nat) (c d : CpxCmd) (a : W32) (bs : List Byte), v = takeTurn s t.toNat → u = unitNo f.unit → n = cluOf t.toNat → isMgt t.toNat = false → f.mid = 0 → f.zero = 0 → unitPresent s u = true → cpxEnabled v t.toNat u = true → cpxReason v t.toNat u f.lane.toNat moveNeed = none → a = gv (thrOf s t.toNat) f.g → LocalIs s t.toNat a.toNat 16 bs → c = moveCmd t.toNat f.lane f.c 2 0 0 (bytesReg bs) false → d = moveCmd t.toNat f.lane f.c 3 0 a 0 false → Issues s t.toNat (wordX3 0x27 true f) → ∀ (g : Nat) (w : State), cpxRoom v n u d = true → cpxSend v n u d = (g, w) → False) := by
  intro h
  refine h (turning (laneHeld) 8191 { noThread 0 with g := [] } (wordX3 0x27 true (⟨true, 15, 3, 5, 0, 0⟩ : FmtX3))) _ 8191 ⟨true, 15, 3, 5, 0, 0⟩ _ _ _ _ _ _ rfl rfl rfl ?_ ?_ ?_ ?_ ?_ ?_ rfl ⟨_, rfl, rfl⟩ rfl rfl (by unfold Issues; decide +kernel) _ _ ?_ (pair0 _) <;> decide +kernel

theorem witness_CoprocessorMoves_2_2_2 : ¬ (∀ (s v : State) (t : BitVec 14) (f : FmtX3) (u n : Nat) (c d : CpxCmd) (a : W32) (bs : List Byte), v = takeTurn s t.toNat → u = unitNo f.unit → n = cluOf t.toNat → isMgt t.toNat = false → f.mid = 0 → f.zero = 0 → unitPresent s u = true → cpxEnabled v t.toNat u = true → cpxReason v t.toNat u f.lane.toNat moveNeed = none → a = gv (thrOf s t.toNat) f.g → LocalIs s t.toNat a.toNat 16 bs → c = moveCmd t.toNat f.lane f.c 2 0 0 (bytesReg bs) false → d = moveCmd t.toNat f.lane f.c 3 0 a 0 false → Issues s t.toNat (wordX3 0x27 true f) → cpxRoom v n u d = false → False) := by
  intro h
  refine h (turning (queuesFull) 8191 { noThread 0 with g := [] } (wordX3 0x27 true (⟨true, 15, 3, 5, 0, 0⟩ : FmtX3))) _ 8191 ⟨true, 15, 3, 5, 0, 0⟩ _ _ _ _ _ _ rfl rfl rfl ?_ ?_ ?_ ?_ ?_ ?_ rfl ⟨_, rfl, rfl⟩ rfl rfl (by unfold Issues; decide +kernel) ?_ <;> decide +kernel

theorem witness_CoprocessorMoves_3_1 : ¬ (∀ (s v : State) (t : BitVec 14) (f : FmtX4) (u n : Nat) (busy : Bool), Issues s t.toNat (wordX4 0x27 f) → v = takeTurn s t.toNat → u = unitNo f.unit → n = cluOf t.toNat → isMgt t.toNat = false → f.mid = 0 → f.zero = 0 → unitPresent s u = true → cpxEnabled v t.toNat u = true → cpxReason v t.toNat u f.lane.toNat ⟨false, false, false, 0⟩ = none → busy = (laneCmds (cpxQ s n u) f.lane.toNat).any (fun c => c.thr == t.toNat % 256 && c.confirmed) → busy = false → False) := by
  intro h
  refine h (turning (laneHeld) 8191 { noThread 0 with g := [] } (wordX4 0x27 (⟨true, 15, 0, 0⟩ : FmtX4))) _ 8191 ⟨true, 15, 0, 0⟩ _ _ _ (by unfold Issues; decide +kernel) rfl rfl rfl ?_ ?_ ?_ ?_ ?_ ?_ ?_ rfl <;> decide +kernel

theorem witness_CoprocessorMoves_3_2 : ¬ (∀ (s v : State) (t : BitVec 14) (f : FmtX4) (u n : Nat) (busy : Bool), Issues s t.toNat (wordX4 0x27 f) → v = takeTurn s t.toNat → u = unitNo f.unit → n = cluOf t.toNat → isMgt t.toNat = false → f.mid = 0 → f.zero = 0 → unitPresent s u = true → cpxEnabled v t.toNat u = true → cpxReason v t.toNat u f.lane.toNat ⟨false, false, false, 0⟩ = none → busy = (laneCmds (cpxQ s n u) f.lane.toNat).any (fun c => c.thr == t.toNat % 256 && c.confirmed) → busy = true → False) := by
  intro h
  refine h (turning (queuesFull) 8191 { noThread 0 with g := [] } (wordX4 0x27 (⟨true, 15, 0, 0⟩ : FmtX4))) _ 8191 ⟨true, 15, 0, 0⟩ _ _ true (by unfold Issues; decide +kernel) rfl rfl rfl ?_ ?_ ?_ ?_ ?_ ?_ ?_ ?_ <;> decide +kernel

theorem witness_CoprocessorMoves_4_1 : ¬ (∀ (s v : State) (t : BitVec 14) (f : FmtX1) (u : Nat), Issues s t.toNat (wordX1 0x27 0x05 f) → v = takeTurn s t.toNat → u = unitNo f.unit → isMgt t.toNat = true → False) := by
  intro h
  refine h (turning (up) 0x2000 { noThread 0 with g := [] } (wordX1 0x27 0x05 (⟨false, 0, 0, 0, 0⟩ : FmtX1))) _ 0x2000 ⟨false, 0, 0, 0, 0⟩ _ (by unfold Issues; decide +kernel) rfl rfl ?_
  decide +kernel

theorem witness_CoprocessorMoves_4_2 : ¬ (∀ (s v : State) (t : BitVec 14) (f : FmtX1) (u : Nat), Issues s t.toNat (wordX1 0x27 0x05 f) → v = takeTurn s t.toNat → u = unitNo f.unit → isMgt t.toNat = false → unitPresent s u = false → False) := by
  intro h
  refine h (turning ({ up with variant := .n1600 }) 8191 { noThread 0 with g := [] } (wordX1 0x27 0x05 (⟨false, 0, 0, 0, 0⟩ : FmtX1))) _ 8191 ⟨false, 0, 0, 0, 0⟩ _ (by unfold Issues; decide +kernel) rfl rfl ?_ ?_ <;> decide +kernel

theorem witness_CoprocessorMoves_4_3 : ¬ (∀ (s v : State) (t : BitVec 14) (f : FmtX1) (u : Nat), Issues s t.toNat (wordX1 0x27 0x05 f) → v = takeTurn s t.toNat → u = unitNo f.unit → isMgt t.toNat = false → unitPresent s u = true → cpxEnabled v t.toNat u = false → False) := by
  intro h
  refine h (turning (up) 8191 { noThread 0 with g := [] } (wordX1 0x27 0x05 (⟨false, 0, 0, 0, 0⟩ : FmtX1))) _ 8191 ⟨false, 0, 0, 0, 0⟩ _ (by unfold Issues; decide +kernel) rfl rfl ?_ ?_ ?_ <;> decide +kernel

theorem witness_CoprocessorMoves_4_4 : ¬ (∀ (s v : State) (t : BitVec 14) (f : FmtX1) (u : Nat), Issues s t.toNat (wordX1 0x27 0x05 f) → v = takeTurn s t.toNat → u = unitNo f.unit → isMgt t.toNat = false → unitPresent s u = true → cpxEnabled v t.toNat u = true → ownsLane v t.toNat u f.lane.toNat = false → False) := by
  intro h
  refine h (turning (laneHeld) 8191 { noThread 0 with g := [] } (wordX1 0x27 0x05 (⟨true, 14, 0, 0, 0⟩ : FmtX1))) _ 8191 ⟨true, 14, 0, 0, 0⟩ _ (by unfold Issues; decide +kernel) rfl rfl ?_ ?_ ?_ ?_ <;> decide +kernel

/-! ## SystemInstructions -/

theorem witness_SystemInstructions_1_1 : ¬ (∀ (s : State) (t : BitVec 14) (f : FmtUI), Issues s t.toNat (wordUI 0x28 0 f) → f.ra = 0 → f.imm.toNat < 8 → False) := by
  intro h
  refine h (turning (up) 8191 { noThread 0 with g := [] } (wordUI 0x28 0 (⟨5, 0, 7⟩ : FmtUI))) 8191 ⟨5, 0, 7⟩ (by unfold Issues; decide +kernel) ?_ ?_ <;> decide +kernel

theorem witness_SystemInstructions_1_2 : ¬ (∀ (s : State) (t : BitVec 14) (f : FmtUI), Issues s t.toNat (wordUI 0x28 0 f) → f.ra = 0 → 8 ≤ f.imm.toNat → False) := by
  intro h
  refine h (turning (up) 8191 { noThread 0 with g := [] } (wordUI 0x28 0 (⟨5, 0, 8⟩ : FmtUI))) 8191 ⟨5, 0, 8⟩ (by unfold Issues; decide +kernel) ?_ ?_ <;> decide +kernel

theorem witness_SystemInstructions_2_1 : ¬ (∀ (s : State) (t i : Nat), isMgt t = false → False) := by
  intro h
  refine h up 8191 0 ?_
  decide +kernel

theorem witness_SystemInstructions_2_2 : ¬ (∀ (s : State) (t i : Nat), 7 ≤ i → False) := by
  intro h
  refine h up 8191 7 ?_
  decide +kernel

theorem witness_SystemInstructions_3_1 : ¬ (∀ (s : State) (t : BitVec 14) (f : FmtU) (a : Nat), Issues s t.toNat (wordU 0x28 1 f) → isMgt t.toNat = false → f.rd = 0 → f.rc = 0 → a = (gv (thrOf s t.toNat) f.ra).toNat → a ≤ 4091 → False) := by
  intro h
  refine h (turning (up) 8191 { noThread 0 with g := regs [(6, 4091), (7, 5)] } (wordU 0x28 1 (⟨0, 6, 7, 0⟩ : FmtU))) 8191 ⟨0, 6, 7, 0⟩ _ (by unfold Issues; decide +kernel) ?_ ?_ ?_ rfl ?_ <;> decide +kernel

theorem witness_SystemInstructions_3_2 : ¬ (∀ (s : State) (t : BitVec 14) (f : FmtU) (a : Nat), Issues s t.toNat (wordU 0x28 1 f) → isMgt t.toNat = false → f.rd = 0 → f.rc = 0 → a = (gv (thrOf s t.toNat) f.ra).toNat → 4091 < a → False) := by
  intro h
  refine h (turning (up) 8191 { noThread 0 with g := regs [(6, 4092), (7, 5)] } (wordU 0x28 1 (⟨0, 6, 7, 0⟩ : FmtU))) 8191 ⟨0, 6, 7, 0⟩ _ (by unfold Issues; decide +kernel) ?_ ?_ ?_ rfl ?_ <;> decide +kernel

theorem witness_SystemInstructions_4 : ¬ (∀ (s : State) (t : BitVec 14) (f : FmtU), Issues s t.toNat (wordU 0x28 2 f) → f.ra = 0 → f.rb = 0 → f.rc = 0 → False) := by
  intro h
  refine h (turning (up) 8191 { noThread 0 with g := [] } (wordU 0x28 2 (⟨5, 0, 0, 0⟩ : FmtU))) 8191 ⟨5, 0, 0, 0⟩ (by unfold Issues; decide +kernel) ?_ ?_ ?_ <;> decide +kernel

theorem witness_SystemInstructions_5 : ¬ (∀ (s : State) (t : BitVec 14) (f : FmtUI), Issues s t.toNat (wordUI 0x28 3 f) → f.rd = 0 → f.ra = 0 → False) := by
  intro h
  refine h (turning (up) 8191 { noThread 0 with g := [] } (wordUI 0x28 3 (⟨0, 0, 1023⟩ : FmtUI))) 8191 ⟨0, 0, 1023⟩ (by unfold Issues; decide +kernel) ?_ ?_ <;> decide +kernel

theorem witness_SystemInstructions_6_1 : ¬ (∀ (s u : State) (t : BitVec 14) (f : FmtU), Issues s t.toNat (wordU 0x28 4 f) → f = ⟨0, 0, 0, 0⟩ → u = takeTurn s t.toNat → s.flag F.DBG_CTL_BRK_EN 0 = true → dbgScope s 0 = true → False) := by
  intro h
  refine h (turning (unlockedUp.setFlag F.DBG_CTL_BRK_EN 0 true) 8191 { noThread 0 with g := [] } (wordU 0x28 4 (⟨0, 0, 0, 0⟩ : FmtU))) _ 8191 ⟨0, 0, 0, 0⟩ (by unfold Issues; decide +kernel) ?_ rfl ?_ ?_ <;> decide +kernel

theorem witness_SystemInstructions_6_2 : ¬ (∀ (s u : State) (t : BitVec 14) (f : FmtU), Issues s t.toNat (wordU 0x28 4 f) → f = ⟨0, 0, 0, 0⟩ → u = takeTurn s t.toNat → s.flag F.DBG_CTL_BRK_EN 0 = false ∨ dbgScope s 0 = false → False) := by
  intro h
  refine h (turning (up) 8191 { noThread 0 with g := [] } (wordU 0x28 4 (⟨0, 0, 0, 0⟩ : FmtU))) _ 8191 ⟨0, 0, 0, 0⟩ (by unfold Issues; decide +kernel) ?_ rfl (.inl ?_) <;> decide +kernel

/-! ## IngressPriority -/

theorem witness_IngressPriority_1 : ¬ (∀ (s : State) (p : Nat) (frame : List Byte) (tpid pcp : Nat), tpid = beNat ((frame.drop 12).take 2) → pcp = beNat ((frame.drop 14).take 2) / 2 ^ 13 → frame.length ≥ 18 → tpid = 0x8100 ∨ tpid = 0x88A8 → False) := by
  intro h
  refine h up 15 (List.replicate 12 0 ++ [0x81, 0, 0xE0, 0, 0, 0]) 0x8100 7 ?_ ?_ ?_ (.inl ?_) <;> decide +kernel

theorem witness_IngressPriority_2 : ¬ (∀ (s : State) (p : Nat) (frame : List Byte) (tpid pcp : Nat), tpid = beNat ((frame.drop 12).take 2) → pcp = beNat ((frame.drop 14).take 2) / 2 ^ 13 → frame.length ≥ 18 → tpid ≠ 0x8100 → tpid ≠ 0x88A8 → False) := by
  intro h
  refine h up 15 (List.replicate 18 0) _ _ rfl rfl ?_ ?_ ?_ <;> decide +kernel

/-! ## CellsAreGrantedWithinQuota -/

theorem witness_CellsAreGrantedWithinQuota_1 : ¬ (∀ (s : State) (r k : Nat), k = s.fld F.CRN_REQ_POOL_POOL r → False) :=
  fun h => h pooled 128 _ rfl

theorem witness_CellsAreGrantedWithinQuota_2 : ¬ (∀ (s : State) (k : Nat), s.fld F.CRN_POOL_CFG_BASE k + s.fld F.CRN_POOL_SIZE_SIZE k ≤ spaceEnd s (s.fld F.CRN_POOL_CFG_SPACE k) → False) := by
  intro h
  refine h (up) 0 ?_
  decide +kernel

theorem witness_CellsAreGrantedWithinQuota_3_1 : ¬ (∀ (s u : State) (r c : Nat), mwf regReset s.regs = true → mwf noReq s.crn.cellReq = true → r < 512 → grantCell s r = some (c, u) → ∀ d, d ≠ c → False) := by
  intro h
  refine h pooled _ 128 _ ?_ ?_ ?_ (eqPair ?_) (((grantCell pooled 128).get ?_).1 + 1) (Nat.succ_ne_self _) <;> decide +kernel

theorem witness_CellsAreGrantedWithinQuota_4_1 : ¬ (∀ (s u : State) (r n : Nat) (l : List Nat), grantCells s r n = (l, u) → l.length < n → False) := by
  intro h
  refine h up _ 128 1 [] (pair _ ?_) ?_ <;> decide +kernel

theorem witness_CellsAreGrantedWithinQuota_4_2_1 : ¬ (∀ (s u : State) (r n : Nat) (l : List Nat), grantCells s r n = (l, u) → l.length = n → grantCell u r = none → False) := by
  intro h
  refine h up up 128 0 [] rfl ?_ (Option.isNone_iff_eq_none.mp ?_) <;> decide +kernel

theorem witness_CellsAreGrantedWithinQuota_4_2_2 : ¬ (∀ (s u : State) (r n : Nat) (l : List Nat), grantCells s r n = (l, u) → l.length = n → ∀ (c : Nat) (v : State), grantCell u r = some (c, v) → False) := by
  intro h
  refine h pooled pooled 128 0 [] rfl ?_ _ _ (eqPair ?_) <;> decide +kernel

/-! ## RegisterPairs -/

theorem witness_RegisterPairs_2 : ¬ (∀ (x : Thread) (r : BitVec 5) (v : W64), mwf noW32 x.g = true → r.toNat % 2 = 0 → r ≠ 0 → False) := by
  intro h
  refine h (noThread 0) 30 0 ?_ ?_ ?_ <;> decide +kernel

theorem witness_RegisterPairs_3_1 : ¬ (∀ (s : State) (t : BitVec 14) (f : FmtU), f.ra.toNat % 2 = 1 ∨ f.ra = 0 → Issues s t.toNat (wordU 0x25 1 f) → False) := by
  intro h
  refine h (turning (up) 8191 { noThread 0 with g := [] } (wordU 0x25 1 (⟨5, 31, 0, 0⟩ : FmtU))) 8191 ⟨5, 31, 0, 0⟩ (.inl ?_) (by unfold Issues; decide +kernel)
  decide +kernel

theorem witness_RegisterPairs_3_2 : ¬ (∀ (s : State) (t : BitVec 14) (f : FmtU), f.ra.toNat % 2 = 1 ∨ f.ra = 0 → Issues s t.toNat (wordU 0x25 2 f) → False) := by
  intro h
  refine h (turning (up) 8191 { noThread 0 with g := [] } (wordU 0x25 2 (⟨0, 0, 0, 0⟩ : FmtU))) 8191 ⟨0, 0, 0, 0⟩ (.inr ?_) (by unfold Issues; decide +kernel)
  decide +kernel

theorem witness_RegisterPairs_4 : ¬ (∀ (s : State) (t : BitVec 14) (f : FmtU), f.rd.toNat % 2 = 1 ∨ f.rd = 0 → Issues s t.toNat (wordU 0x25 5 f) → False) := by
  intro h
  refine h (turning (up) 8191 { noThread 0 with g := [] } (wordU 0x25 5 (⟨31, 0, 0, 0⟩ : FmtU))) 8191 ⟨31, 0, 0, 0⟩ (.inl ?_) (by unfold Issues; decide +kernel)
  decide +kernel

/-! ## BitSpace -/

theorem witness_BitSpace_1_1 : ¬ (∀ (s : State) (t : BitVec 14) (f : FmtBT) (b : Nat) (x : Thread) (v : Bool), Issues s t.toNat (wordBT 0x1D 3 f) → isMgt t.toNat = false → f.zero = 0 → f.idx = false → f.r = 0 → b = f.bit.toNat → x = ranOn (thrOf s t.toNat) ((thrOf s t.toNat).pc + 4) → b < 1024 → v = x.flags.getLsbD b → False) := by
  intro h
  refine h (turning (up) 8191 { noThread 0 with g := [] } (wordBT 0x1D 3 (⟨0, false, 0, 1023⟩ : FmtBT))) 8191 ⟨0, false, 0, 1023⟩ _ _ _ (by unfold Issues; decide +kernel) ?_ ?_ ?_ ?_ rfl rfl ?_ rfl <;> decide +kernel

theorem witness_BitSpace_1_2 : ¬ (∀ (s : State) (t : BitVec 14) (f : FmtBT) (b : Nat) (x : Thread) (v : Bool), Issues s t.toNat (wordBT 0x1D 3 f) → isMgt t.toNat = false → f.zero = 0 → f.idx = false → f.r = 0 → b = f.bit.toNat → x = ranOn (thrOf s t.toNat) ((thrOf s t.toNat).pc + 4) → 1024 ≤ b → b < 1280 → v = bitOf (leNat (rdBytes s.gar.lmem (bankKey (coreOf t.toNat) (thrBlk t.toNat + 4 * (8 + (b - 1024) / 32))) 4)) ((b - 1024) % 32) → False) := by
  intro h
  refine h (turning (up) 8191 { noThread 0 with g := [] } (wordBT 0x1D 3 (⟨0, false, 0, 1279⟩ : FmtBT))) 8191 ⟨0, false, 0, 1279⟩ _ _ _ (by unfold Issues; decide +kernel) ?_ ?_ ?_ ?_ rfl rfl ?_ ?_ rfl <;> decide +kernel

theorem witness_BitSpace_1_3 : ¬ (∀ (s : State) (t : BitVec 14) (f : FmtBT) (b : Nat) (x : Thread) (v : Bool), Issues s t.toNat (wordBT 0x1D 3 f) → isMgt t.toNat = false → f.zero = 0 → f.idx = false → f.r = 0 → b = f.bit.toNat → x = ranOn (thrOf s t.toNat) ((thrOf s t.toNat).pc + 4) → 1280 ≤ b → b < 4096 → False) := by
  intro h
  refine h (turning (up) 8191 { noThread 0 with g := [] } (wordBT 0x1D 3 (⟨0, false, 0, 4095⟩ : FmtBT))) 8191 ⟨0, false, 0, 4095⟩ _ _ false (by unfold Issues; decide +kernel) ?_ ?_ ?_ ?_ rfl rfl ?_ ?_ <;> decide +kernel

theorem witness_BitSpace_1_4 : ¬ (∀ (s : State) (t : BitVec 14) (f : FmtBT) (b : Nat) (x : Thread) (v : Bool), Issues s t.toNat (wordBT 0x1D 3 f) → isMgt t.toNat = false → f.zero = 0 → f.idx = false → f.r = 0 → b = f.bit.toNat → x = ranOn (thrOf s t.toNat) ((thrOf s t.toNat).pc + 4) → 4096 ≤ b → v = mget noBool s.gar.sbits (sbitKey t.toNat b) → False) := by
  intro h
  refine h (turning (up) 8191 { noThread 0 with g := [] } (wordBT 0x1D 3 (⟨0, false, 0, 4096⟩ : FmtBT))) 8191 ⟨0, false, 0, 4096⟩ _ _ _ (by unfold Issues; decide +kernel) ?_ ?_ ?_ ?_ rfl rfl ?_ rfl <;> decide +kernel

theorem witness_BitSpace_2_1 : ¬ (∀ (s : State) (t : BitVec 14) (f : FmtBT) (b : Nat) (x : Thread), Issues s t.toNat (wordBT 0x1D 0 f) → isMgt t.toNat = false → f.zero = 0 → f.idx = false → f.r = 0 → b = f.bit.toNat → x = ranOn (thrOf s t.toNat) ((thrOf s t.toNat).pc + 4) → b < 1024 → False) := by
  intro h
  refine h (turning (up) 8191 { noThread 0 with g := [] } (wordBT 0x1D 0 (⟨0, false, 0, 1023⟩ : FmtBT))) 8191 ⟨0, false, 0, 1023⟩ _ _ (by unfold Issues; decide +kernel) ?_ ?_ ?_ ?_ rfl rfl ?_ <;> decide +kernel

theorem witness_BitSpace_2_2 : ¬ (∀ (s : State) (t : BitVec 14) (f : FmtBT) (b : Nat) (x : Thread), Issues s t.toNat (wordBT 0x1D 0 f) → isMgt t.toNat = false → f.zero = 0 → f.idx = false → f.r = 0 → b = f.bit.toNat → x = ranOn (thrOf s t.toNat) ((thrOf s t.toNat).pc + 4) → 1024 ≤ b → b < 4096 → False) := by
  intro h
  refine h (turning (up) 8191 { noThread 0 with g := [] } (wordBT 0x1D 0 (⟨0, false, 0, 1024⟩ : FmtBT))) 8191 ⟨0, false, 0, 1024⟩ _ _ (by unfold Issues; decide +kernel) ?_ ?_ ?_ ?_ rfl rfl ?_ ?_ <;> decide +kernel

theorem witness_BitSpace_2_3 : ¬ (∀ (s : State) (t : BitVec 14) (f : FmtBT) (b : Nat) (x : Thread), Issues s t.toNat (wordBT 0x1D 0 f) → isMgt t.toNat = false → f.zero = 0 → f.idx = false → f.r = 0 → b = f.bit.toNat → x = ranOn (thrOf s t.toNat) ((thrOf s t.toNat).pc + 4) → 4096 ≤ b → False) := by
  intro h
  refine h (turning (up) 8191 { noThread 0 with g := [] } (wordBT 0x1D 0 (⟨0, false, 0, 8191⟩ : FmtBT))) 8191 ⟨0, false, 0, 8191⟩ _ _ (by unfold Issues; decide +kernel) ?_ ?_ ?_ ?_ rfl rfl ?_ <;> decide +kernel

theorem witness_BitSpace_3 : ¬ (∀ (x : Thread) (i j : Nat) (v : Bool), j < 1024 → False) := by
  intro h
  refine h (noThread 0) 1023 1023 true ?_
  decide +kernel

/-! ## CallocAnswers -/

theorem witness_CallocAnswers_1_1 : ¬ (∀ (s u v : State) (t : BitVec 14) (f : FmtU) (n h : Nat) (cells : List Nat), Issues s t.toNat (wordU 0x21 2 f) → isMgt t.toNat = false → f.rb = 0 → f.rc = 0 → u = takeTurn s t.toNat → n = (gv (thrOf s t.toNat) f.ra).toNat → 1 ≤ n → n ≤ 80 → requestCells u (clusterReq u (cluOf t.toNat)) n = (none, v) → False) := by
  intro h
  refine h (turning (up) 8191 { noThread 0 with g := regs [(6, 80)] } (wordU 0x21 2 (⟨5, 6, 0, 0⟩ : FmtU))) _ _ 8191 ⟨5, 6, 0, 0⟩ 80 0 [] (by unfold Issues; decide +kernel) ?_ ?_ ?_ rfl ?_ ?_ ?_ (pair _ ?_) <;> decide +kernel

theorem witness_CallocAnswers_1_2 : ¬ (∀ (s u v : State) (t : BitVec 14) (f : FmtU) (n h : Nat) (cells : List Nat), Issues s t.toNat (wordU 0x21 2 f) → isMgt t.toNat = false → f.rb = 0 → f.rc = 0 → u = takeTurn s t.toNat → n = (gv (thrOf s t.toNat) f.ra).toNat → 1 ≤ n → n ≤ 80 → ∀ y : State, requestCells u (clusterReq u (cluOf t.toNat)) n = (some cells, y) → newChain y cells (128 * n) false (some (cluOf t.toNat)) = (h, v) → False) := by
  intro h
  refine h (turning (pooled.setFld F.CRN_REQ_HARD_HARD 159 100) 8191 { noThread 0 with g := regs [(6, 1)] } (wordU 0x21 2 (⟨5, 6, 0, 0⟩ : FmtU))) _ _ 8191 ⟨5, 6, 0, 0⟩ 1 _ _ (by unfold Issues; decide +kernel) ?_ ?_ ?_ rfl ?_ ?_ ?_ _ (pair _ (eqSome ?_)) (pair0 _) <;> decide +kernel

theorem witness_CallocAnswers_2 : ¬ (∀ (s : State) (t : BitVec 14) (x : Thread) (rd : BitVec 5) (val : W32) (ok : Bool), thrUp s t.toNat = true → x = thrOf s t.toNat → nextAcc x false = some (cellAnswer 0 [] [] rd.toNat val ok) → faulted x = false → False) := by
  intro h
  refine h (setThr up 8191 { noThread 0 with st := .stall, wait := .cell, acc := [cellAnswer 0 [] [] 5 7 true] }) 8191 _ 5 7 true ?_ rfl ?_ ?_ <;> decide +kernel

theorem witness_CallocAnswers_3 : ¬ (∀ (x : Thread) (rd r : BitVec 5) (val : W32) (ok : Bool) (i : Nat), mwf noW32 x.g = true → i < 1024 → False) := by
  intro h
  refine h (noThread 0) 0 0 0 true 1023 ?_ ?_ <;> decide +kernel

/-! ## ClaimWidth -/

theorem witness_ClaimWidth_1 : ¬ (∀ (s : State) (q : Req) (a size : Nat), claimShown s a = true → a < 0x1210000 → size ≠ 4 → False) := by
  intro h
  refine h up (.host 0) 0x3E0FFC 8 ?_ ?_ ?_ <;> decide +kernel

theorem witness_ClaimWidth_2 : ¬ (∀ (s : State) (q : Req) (a size : Nat), claimShown s a = false → size ≠ 4 → size ≠ 8 → False) := by
  intro h
  refine h up (.host 0) 0 2 ?_ ?_ ?_ <;> decide +kernel

theorem witness_ClaimWidth_3 : ¬ (∀ (s : State) (h : Fin 2) (a : BitVec 28) (size : Nat), pf1Up s h.val = true → claimShown s a.toNat = true → a.toNat < 0x1210000 → size ≠ 4 → False) := by
  intro h
  refine h linked 0 0x3E0FFC 8 ?_ ?_ ?_ ?_ <;> decide +kernel

theorem witness_ClaimWidth_4 : ¬ (∀ (s : State) (t ofs size : Nat), isSupv s t = true → pktUp s = true → 0x9000 ≤ ofs → ofs < 0xA000 → size ≠ 4 → False) := by
  intro h
  refine h (up.setFld F.GCL_SUPV_TID 31 255) 8191 0x9FFF 8 ?_ ?_ ?_ ?_ ?_ <;> decide +kernel

theorem witness_ClaimWidth_5 : ¬ (∀ (s u : State) (t i n : Nat), claimSrc (srcProbe s i) t i = (n, u) → False) :=
  fun h => h (up) _ 0 0 _ (pair0 _)

/-! ## StepTakesTheFront -/

theorem witness_StepTakesTheFront_1 : ¬ (∀ (c : Instr) (r : List Instr) (s : State), s.pending = c :: r → False) := by
  intro h
  refine h .brownOut [] { up with pending := [.brownOut] } ?_
  decide +kernel

theorem witness_StepTakesTheFront_2 : ¬ (∀ s : State, s.pending = [] → False) := by
  intro h
  refine h up ?_
  decide +kernel

theorem witness_StepTakesTheFront_3 : ¬ (∀ s u : State, u = advance s 1 → pktUp u = false ∨ (∀ q, u.flag F.ORY_Q_STS_PURGE_BUSY q = false) → False) := by
  intro h
  refine h (State.reset) _ rfl (.inl ?_)
  decide +kernel

/-! ## ResetValues -/

theorem witness_ResetValues_1 : ¬ (∀ p < 16, False) := by
  intro h
  refine h 0 ?_
  decide +kernel

theorem witness_ResetValues_2 : ¬ (∀ c < 64, False) := by
  intro h
  refine h 0 ?_
  decide +kernel

theorem witness_ResetValues_3 : ¬ (∀ n < 32, False) := by
  intro h
  refine h 0 ?_
  decide +kernel

theorem witness_ResetValues_5 : ¬ (∀ i < 1024, False) := by
  intro h
  refine h 0 ?_
  decide +kernel

/-! ## EncodingsAgree -/

theorem witness_EncodingsAgree_1 : ¬ (∀ (i : Instr) (t : BitVec 14) (w : W32), isaWord i = some (t, w) → False) := by
  intro h
  refine h (.brk 5 ⟨0, 0, 0, 0⟩) 5 (wordU 0x28 4 ⟨0, 0, 0, 0⟩) ?_
  decide +kernel

theorem witness_EncodingsAgree_2 : ¬ (∀ (i : Instr) (t : BitVec 14) (w : W32), isaDecode t w = some i → False) := by
  intro h
  refine h (.brk 5 ⟨0, 0, 0, 0⟩) 5 (wordU 0x28 4 ⟨0, 0, 0, 0⟩) ?_
  decide +kernel

theorem witness_EncodingsAgree_3 : ¬ (∀ (t : BitVec 14) (w : W32), isaDecode t w = none → False) := by
  intro h
  refine h 5 0xFFFFFFFF ?_
  decide +kernel

/-! ## EncodingSamples -/

/-! ## StoreThenLoad -/

theorem witness_StoreThenLoad : ¬ (∀ (s v u : State) (t : BitVec 14) (f g : FmtI) (p : Place), Issues s t.toNat (wordI 0x12 f) → Reaches s t.toNat f 4 true p → mwf zeroByte s.gar.lmem = true → mwf zeroByte s.gar.smem = true → mwf zeroByte s.mgtMem = true → memWrite s t.toNat p (leBytes 4 (gv (thrOf s t.toNat) f.rd).toNat) = some v → u = setThr v t.toNat (ranOn (thrOf s t.toNat) ((thrOf s t.toNat).pc + 4)) → Issues u t.toNat (wordI 0x0C g) → Reaches u t.toNat g 4 false p → False) := by
  intro h
  refine h storing _ _ 8191 ⟨5, 6, 0⟩ ⟨7, 6, 0⟩ (.bank 0xE000) (by unfold Issues; decide +kernel) ⟨?_, rfl⟩ ?_ ?_ ?_ rfl rfl (by unfold Issues; decide +kernel) ⟨?_, rfl⟩ <;> decide +kernel

/-! ## MemoriesAreCanonical -/

theorem witness_MemoriesAreCanonical_1_1 : ¬ (∀ (m : SMap Byte) (a : Nat) (bs : List Byte), mwf zeroByte m = true → ∀ j : Nat, j < a ∨ a + bs.length ≤ j → False) := by
  intro h
  refine h [(5, 1)] 5 [0, 3] ?_ 7 (.inr ?_) <;> decide +kernel

theorem witness_MemoriesAreCanonical_2 : ¬ (∀ m n : SMap Byte, mwf zeroByte m = true → mwf zeroByte n = true → (∀ j : Nat, mget zeroByte m j = mget zeroByte n j) → False) := by
  intro h
  refine h [(5, 1)] [(5, 1)] ?_ ?_ (fun _ => rfl) <;> decide +kernel

/-! ## FlintExcludes -/

theorem witness_FlintExcludes_1 : ¬ (∀ (s u : State) (k o n st : Nat), mwf regReset s.regs = true → semHeld (semOf s k) ≤ s.fld F.FLT_SEM_CFG_MAX k → mwf noSem s.flt.sem = true → (∀ h ∈ (semOf s k).holds, ∀ g ∈ (semOf s k).holds, h.owner = g.owner → h = g) → (semOf s k).holds.Nodup → (∀ h ∈ (semOf s k).holds, 0 < h.units) → semTry s k o n = (st, u) → False) := by
  intro h
  refine h ({ flinted with flt := { flinted.flt with sem := [(63, ⟨false, [⟨8191, 5, false⟩], []⟩)] } }.setFld F.FLT_SEM_CFG_MAX 63 5) _ 63 7 1 _ ?_ ?_ ?_ ?_ ?_ ?_ (pair0 _) <;> decide +kernel

theorem witness_FlintExcludes_2 : ¬ (∀ (s : State) (k o p : Nat), unitErr s 11 (arrUnit 5 k) = 0 → (lockOf s k).owner = some p → p ≠ o → False) := by
  intro h
  refine h (locked 7) 63 8191 7 ?_ ?_ ?_ <;> decide +kernel

/-! ## The shapes of instructions, for every operation that has one -/

theorem witness_AluRuns_1 : ∀ fn : Fin 30, ¬ (∀ (s : State) (t : BitVec 14) (f : FmtR) (k : Bool) (a b : W32), Issues s t.toNat (wordR 0x00 fn.val f) →
    k = (thrOf s t.toNat).flags.getLsbD 0 → a = gv (thrOf s t.toNat) f.ra → b = gv (thrOf s t.toNat) f.rb → f.sh = 0 → False) := fun fn h =>
  h (turning up 8191 { noThread 0 with g := regs [(6, 7), (7, 9)] } (wordR 0x00 fn.val ⟨5, 6, 7, 0⟩)) 8191 ⟨5, 6, 7, 0⟩ _ _ _
    (by clear h; revert fn; unfold Issues; decide +kernel) rfl rfl rfl rfl

theorem witness_AluRuns_2 : ∀ fn : Fin 30, ¬ (∀ (s : State) (t : BitVec 14) (f : FmtR) (k : Bool) (a b : W32), Issues s t.toNat (wordR 0x00 fn.val f) →
    k = (thrOf s t.toNat).flags.getLsbD 0 → a = gv (thrOf s t.toNat) f.ra → b = gv (thrOf s t.toNat) f.rb → f.sh ≠ 0 → False) := fun fn h =>
  h (turning up 8191 { noThread 0 with g := regs [(6, 7), (7, 9)] } (wordR 0x00 fn.val ⟨5, 6, 7, 1⟩)) 8191 ⟨5, 6, 7, 1⟩ _ _ _
    (by clear h; revert fn; unfold Issues; decide +kernel) rfl rfl rfl (by decide)

theorem witness_AluRuns1_1 : ∀ fn : Fin 30, ¬ (∀ (s : State) (t : BitVec 14) (f : FmtR) (a : W32), Issues s t.toNat (wordR 0x00 fn.val f) →
    a = gv (thrOf s t.toNat) f.ra → f.rb = 0 → f.sh = 0 → False) := fun fn h =>
  h (turning up 8191 { noThread 0 with g := regs [(6, 7)] } (wordR 0x00 fn.val ⟨5, 6, 0, 0⟩)) 8191 ⟨5, 6, 0, 0⟩ _
    (by clear h; revert fn; unfold Issues; decide +kernel) rfl rfl rfl

theorem witness_AluRuns1_2 : ∀ fn : Fin 30, ¬ (∀ (s : State) (t : BitVec 14) (f : FmtR) (a : W32), Issues s t.toNat (wordR 0x00 fn.val f) →
    a = gv (thrOf s t.toNat) f.ra → f.rb ≠ 0 ∨ f.sh ≠ 0 → False) := fun fn h =>
  h (turning up 8191 { noThread 0 with g := regs [(6, 7)] } (wordR 0x00 fn.val ⟨5, 6, 1, 0⟩)) 8191 ⟨5, 6, 1, 0⟩ _
    (by clear h; revert fn; unfold Issues; decide +kernel) rfl (.inl (by decide))

theorem witness_ImmRuns : ∀ op : Fin 5, ¬ (∀ (s : State) (t : BitVec 14) (f : FmtI) (a : W32), Issues s t.toNat (wordI op.val f) →
    a = gv (thrOf s t.toNat) f.ra → False) := fun op h =>
  h (turning up 8191 { noThread 0 with g := regs [(6, 7)] } (wordI op.val ⟨5, 6, 0xFFFF⟩)) 8191 ⟨5, 6, 0xFFFF⟩ _
    (by clear h; revert op; unfold Issues; decide +kernel) rfl

theorem witness_LoadRuns : ∀ p ∈ [(0x08, 1), (0x09, 1), (0x0A, 2), (0x0B, 2), (0x0C, 4), (0x0D, 2), (0x0E, 4), (0x16, 4)],
    ¬ (∀ (s : State) (t : BitVec 14) (f : FmtI) (q : Place) (bs : List Byte), Issues s t.toNat (wordI p.1 f) →
      Reaches s t.toNat f p.2 false q → memRead s t.toNat q p.2 = some bs → False) := fun p m h =>
  h (turning up 8191 { noThread 0 with g := regs [(6, 0x1FFFC)] } (wordI p.1 ⟨5, 6, 0⟩)) 8191 ⟨5, 6, 0⟩ (.bank 0x1FFFC) _
    (by clear h; revert p; unfold Issues; decide +kernel) ⟨by clear h; revert p; decide +kernel, by clear h; revert p; decide +kernel⟩ rfl

theorem witness_StoreRuns : ∀ p ∈ [(0x10, 1), (0x11, 2), (0x12, 4), (0x13, 2), (0x14, 4)], ∀ bs : W32 → List Byte,
    ¬ (∀ (s v : State) (t : BitVec 14) (f : FmtI) (q : Place), Issues s t.toNat (wordI p.1 f) → Reaches s t.toNat f p.2 true q →
      memWrite s t.toNat q (bs (gv (thrOf s t.toNat) f.rd)) = some v → False) := fun p m _ h =>
  h (turning up 8191 { noThread 0 with g := regs [(5, 0xFFFFFFFF), (6, 0x1FFFC)] } (wordI p.1 ⟨5, 6, 0⟩)) _ 8191 ⟨5, 6, 0⟩ (.bank 0x1FFFC)
    (by clear h; revert p; unfold Issues; decide +kernel) ⟨by clear h; revert p; decide +kernel, by clear h; revert p; decide +kernel⟩ rfl

/-- The conditions of the branches, with operands for which each holds, and for which it does not. -/
def taken : List (Nat × Nat × Nat) := [(0, 5, 5), (1, 5, 6), (2, 0xFFFFFFFF, 0), (3, 0, 0xFFFFFFFF), (4, 0, 0xFFFFFFFF), (5, 0xFFFFFFFF, 0)]
def untaken : List (Nat × Nat × Nat) := [(0, 5, 6), (1, 5, 5), (2, 0, 0xFFFFFFFF), (3, 0xFFFFFFFF, 0), (4, 0xFFFFFFFF, 0), (5, 0, 0xFFFFFFFF)]
def holds (c : Nat) (a b : W32) : Prop :=
  (c = 0 ∧ a = b) ∨ (c = 1 ∧ a ≠ b) ∨ (c = 2 ∧ a.toInt < b.toInt) ∨ (c = 3 ∧ b.toInt ≤ a.toInt) ∨ (c = 4 ∧ a.toNat < b.toNat) ∨
  (c = 5 ∧ b.toNat ≤ a.toNat)

theorem witness_BranchRuns_1 : ∀ p ∈ taken, ¬ (∀ (s : State) (t : BitVec 14) (f : FmtBR) (d : W32), Issues s t.toNat (wordBR 0x18 p.1 f) →
    d = (thrOf s t.toNat).pc + 4 * f.off.signExtend 32 → holds p.1 (gv (thrOf s t.toNat) f.ra) (gv (thrOf s t.toNat) f.rb) → d.toNat % 4 = 0 →
    False) := fun p m h =>
  h (turning up 8191 { noThread 0 with g := regs [(6, p.2.1), (7, p.2.2)] } (wordBR 0x18 p.1 ⟨6, 7, 0x1FFF⟩)) 8191 ⟨6, 7, 0x1FFF⟩ _
    (by clear h; revert p; unfold Issues; decide +kernel) rfl (by clear h; revert p; unfold holds; decide +kernel) (by clear h; revert p; decide +kernel)

/-- A pc that is no multiple of 4 is none that a run reaches; the clause is stated for it too. -/
theorem witness_BranchRuns_2 : ∀ p ∈ taken, ¬ (∀ (s : State) (t : BitVec 14) (f : FmtBR) (d : W32), Issues s t.toNat (wordBR 0x18 p.1 f) →
    d = (thrOf s t.toNat).pc + 4 * f.off.signExtend 32 → holds p.1 (gv (thrOf s t.toNat) f.ra) (gv (thrOf s t.toNat) f.rb) → d.toNat % 4 ≠ 0 →
    False) := fun p m h =>
  h (setThr (turning up 8191 (noThread 0) (wordBR 0x18 p.1 ⟨6, 7, 0x1FFF⟩)) 8191
    { noThread 0 with st := .run, pc := 0x100002, g := regs [(6, p.2.1), (7, p.2.2)] }) 8191 ⟨6, 7, 0x1FFF⟩ _
    (by clear h; revert p; unfold Issues; decide +kernel) rfl (by clear h; revert p; unfold holds; decide +kernel)
    (by clear h; revert p; decide +kernel)

theorem witness_BranchRuns_3 : ∀ p ∈ untaken, ¬ (∀ (s : State) (t : BitVec 14) (f : FmtBR) (d : W32), Issues s t.toNat (wordBR 0x18 p.1 f) →
    d = (thrOf s t.toNat).pc + 4 * f.off.signExtend 32 → ¬ holds p.1 (gv (thrOf s t.toNat) f.ra) (gv (thrOf s t.toNat) f.rb) →
    False) := fun p m h =>
  h (turning up 8191 { noThread 0 with g := regs [(6, p.2.1), (7, p.2.2)] } (wordBR 0x18 p.1 ⟨6, 7, 0x1FFF⟩)) 8191 ⟨6, 7, 0x1FFF⟩ _
    (by clear h; revert p; unfold Issues; decide +kernel) rfl (by clear h; revert p; unfold holds; decide +kernel)

theorem witness_BitRuns_1 : ∀ fn : Fin 6, ¬ (∀ (s : State) (t : BitVec 14) (f : FmtBT) (b : Nat) (v : Bool) (x : Thread),
    Issues s t.toNat (wordBT 0x1D fn.val f) → f.zero = 0 → (f.idx = false → f.r = 0) →
    b = (if f.idx then (f.bit.toNat + (gv (thrOf s t.toNat) f.r).toNat) % 8192 else f.bit.toNat) → BitIs s t.toNat b v →
    x = ranOn (thrOf s t.toNat) ((thrOf s t.toNat).pc + 4) → b < 1024 → False) := fun fn h =>
  h (turning up 8191 { noThread 0 with g := regs [(5, 1)] } (wordBT 0x1D fn.val ⟨5, true, 0, 1022⟩)) 8191 ⟨5, true, 0, 1022⟩ _ false _
    (by clear h; revert fn; unfold Issues; decide +kernel) rfl (by decide) rfl (.inl ⟨by clear h; revert fn; decide +kernel, by clear h; revert fn; decide +kernel⟩) rfl
    (by clear h; revert fn; decide +kernel)

theorem witness_BitRuns_2 : ∀ fn : Fin 6, ¬ (∀ (s : State) (t : BitVec 14) (f : FmtBT) (b : Nat) (v : Bool) (x : Thread),
    Issues s t.toNat (wordBT 0x1D fn.val f) → f.zero = 0 → (f.idx = false → f.r = 0) →
    b = (if f.idx then (f.bit.toNat + (gv (thrOf s t.toNat) f.r).toNat) % 8192 else f.bit.toNat) → BitIs s t.toNat b v →
    x = ranOn (thrOf s t.toNat) ((thrOf s t.toNat).pc + 4) → 4096 ≤ b → isMgt t.toNat = false → False) := fun fn h =>
  h (turning up 8191 (noThread 0) (wordBT 0x1D fn.val ⟨0, false, 0, 8191⟩)) 8191 ⟨0, false, 0, 8191⟩ _ false _
    (by clear h; revert fn; unfold Issues; decide +kernel) rfl (by decide) rfl
    (.inr (.inr ⟨by clear h; revert fn; decide +kernel,
      by clear h; revert fn; decide +kernel, by decide +kernel, by clear h; revert fn; decide +kernel⟩)) rfl
    (by clear h; revert fn; decide +kernel) (by decide +kernel)

/-- The operations of the coprocessors. -/
def cpops : List CpopSpec :=
  [⟨0x00, true, true, true, false, false, false, false, 1⟩, ⟨0x01, true, true, false, false, false, true, false, 0⟩, ⟨0x02, true, true, false, false, false, true, false, 0⟩, ⟨0x03, true, true, true, false, false, true, false, 1⟩,
   ⟨0x04, true, true, true, true, false, true, false, 1⟩, ⟨0x05, true, true, true, true, true, true, false, 1⟩, ⟨0x10, true, false, false, true, true, true, false, 0⟩, ⟨0x11, true, false, false, true, false, true, false, 0⟩,
   ⟨0x12, true, false, false, true, true, true, false, 0⟩, ⟨0x13, true, false, true, true, false, true, false, 1⟩, ⟨0x14, true, false, true, true, true, true, false, 1⟩, ⟨0x15, true, false, true, true, false, true, false, 1⟩,
   ⟨0x16, true, false, true, true, true, true, false, 1⟩, ⟨0x17, true, false, true, false, false, true, false, 1⟩, ⟨0x18, true, false, true, true, true, true, false, 1⟩, ⟨0x20, true, false, false, true, false, true, false, 0⟩,
   ⟨0x21, true, false, false, true, false, true, false, 0⟩, ⟨0x22, true, false, true, true, true, true, false, 1⟩, ⟨0x30, true, false, true, true, true, true, true, 0⟩, ⟨0x31, true, false, true, false, false, true, true, 0⟩,
   ⟨0x40, false, true, false, false, false, true, false, 0⟩, ⟨0x41, false, true, false, false, false, true, false, 0⟩, ⟨0x42, false, true, false, true, false, true, false, 0⟩, ⟨0x43, false, true, false, true, true, true, false, 0⟩,
   ⟨0x44, false, true, true, false, false, true, false, 2⟩, ⟨0x45, false, true, true, false, false, true, false, 3⟩, ⟨0x50, false, true, false, false, false, true, false, 0⟩, ⟨0x51, false, true, false, false, false, true, false, 0⟩,
   ⟨0x52, false, true, false, true, false, true, false, 0⟩, ⟨0x53, false, true, false, true, true, true, false, 0⟩, ⟨0x54, false, true, true, false, false, true, false, 1⟩, ⟨0x55, false, true, false, true, false, true, false, 0⟩]

/-- A `cpop` of a spec: on the first unit that has it, on the held lane if it needs it. -/
def cpopOf (p : CpopSpec) : FmtX1 := ⟨!p.inC, if p.own then 15 else 14, 0, 0, 0⟩

theorem witness_CpopRuns_1 : ∀ p ∈ cpops, ¬ (∀ (s v : State) (t : BitVec 14) (f : FmtX1) (u n : Nat) (c : CpxCmd),
    Issues s t.toNat (wordX1 0x27 p.cop f) → v = takeTurn s t.toNat → u = unitNo f.unit → n = cluOf t.toNat → isMgt t.toNat = false →
    cpopBad p f = false → unitPresent s u = true → cpxEnabled v t.toNat u = true →
    cpxReason v t.toNat u f.lane.toNat ⟨p.own, !p.own, p.slevel, f.cd.toNat + p.span - 1⟩ = none →
    c = ⟨0, f.lane.toNat, t.toNat % 256, p.cop, f.cd.toNat, f.ca.toNat, f.cb.toNat, none, false, true⟩ → cpxRoom v n u c = true →
    False) := fun p m h =>
  h (turning laneHeld 8191 { noThread 0 with priv := true } (wordX1 0x27 p.cop (cpopOf p))) _ 8191 (cpopOf p) _ _ _
    (by clear h; revert p; unfold Issues; decide +kernel) rfl rfl rfl (by decide) (by clear h; revert p; decide +kernel)
    (by clear h; revert p; decide +kernel) (by clear h; revert p; decide +kernel) (by clear h; revert p; decide +kernel) rfl
    (by clear h; revert p; decide +kernel)

theorem witness_CpopRuns_2 : ∀ p ∈ cpops, ¬ (∀ (s v : State) (t : BitVec 14) (f : FmtX1) (u n : Nat) (c : CpxCmd),
    Issues s t.toNat (wordX1 0x27 p.cop f) → v = takeTurn s t.toNat → u = unitNo f.unit → n = cluOf t.toNat → isMgt t.toNat = false →
    cpopBad p f = false → unitPresent s u = true → cpxEnabled v t.toNat u = true →
    cpxReason v t.toNat u f.lane.toNat ⟨p.own, !p.own, p.slevel, f.cd.toNat + p.span - 1⟩ = none →
    c = ⟨0, f.lane.toNat, t.toNat % 256, p.cop, f.cd.toNat, f.ca.toNat, f.cb.toNat, none, false, true⟩ → cpxRoom v n u c = false →
    False) := fun p m h =>
  h (turning queuesFull 8191 { noThread 0 with priv := true } (wordX1 0x27 p.cop (cpopOf p))) _ 8191 (cpopOf p) _ _ _
    (by clear h; revert p; unfold Issues; decide +kernel) rfl rfl rfl (by decide) (by clear h; revert p; decide +kernel)
    (by clear h; revert p; decide +kernel) (by clear h; revert p; decide +kernel) (by clear h; revert p; decide +kernel) rfl
    (by clear h; revert p; decide +kernel)

/-! ## Well-formed commands: each check refuses a term -/

theorem test_wf_thread : wellFormed (.rdtid 0x2008 ⟨1, 0, 0, 0⟩) = false := by decide
theorem test_wf_thread_ok : wellFormed (.rdtid 0x2007 ⟨1, 0, 0, 0⟩) = true := by decide
theorem test_wf_control_body : wellFormed (.chainFree ⟨0, false, false, 0, List.replicate 11 0⟩) = false := by decide
theorem test_wf_control_body_ok : wellFormed (.chainFree ⟨0, false, false, 0, List.replicate 12 0⟩) = true := by decide
theorem test_wf_access_aligned : wellFormed (.registerWrite (.pf1 0 4 8 none)) = false := by decide
theorem test_wf_access_size : wellFormed (.registerWrite (.pf1 0 4 2 none)) = false := by decide
theorem test_wf_access_data : wellFormed (.registerWrite (.pf1 0 4 4 (some 0x100000000))) = false := by decide
theorem test_wf_opcode : wellFormed (.nop ⟨0, false, false, 0, List.replicate 12 0⟩ 0x101) = false := by decide
theorem test_wf_ring : wellFormed (.ringEnable 3 64) = false := by decide
theorem test_wf_ring_ok : wellFormed (.ringEnable 3 63) = true := by decide
theorem test_wf_resource : wellFormed (.resourceDrainComplete (.ring 4 16)) = false := by decide
theorem test_wf_descriptors : wellFormed (.txPacketFetch 0 ⟨[], []⟩) = false := by decide
theorem test_wf_descriptor_bytes : wellFormed (.txPacketFetch 0 ⟨[{ txd with data := [] }], []⟩) = false := by decide
theorem test_wf_frame : wellFormed (.rxFrame 0 [] 0 0 0) = false := by decide
theorem test_wf_image : wellFormed (.tblInsert ⟨0, false, false, 0, List.replicate 12 0⟩ (List.replicate 65 0)) = false := by decide
theorem test_wf_taps : wellFormed (.trainComplete 0 (List.replicate 9 (0, 0, 0, 0))) = false := by decide
theorem test_wf_burst : burstOk (some (60, List.replicate 5 0)) = false := by decide
theorem test_wf_channel : chanOk 6 = false := by decide
theorem test_wf_lanes : wellFormed (.trainingStepDone (List.replicate 41 (0, 0, true))) = false := by decide
theorem test_wf_sensors : wellFormed (.thermalSample (List.replicate 35 0) 0) = false := by decide
theorem test_wf_injection : einjOk 14 = false := by decide

/-! ## Instruction words bit by bit (R303–R333): OP, then the fields from the left -/

theorem test_decode_add : isaDecode 5 0b000000_00010_00011_00001_000000_00000 = some (.add 5 ⟨2, 3, 1, 0⟩) := by decide +kernel
theorem test_decode_ext : isaDecode 5 0b000000_00010_00011_00111_011001_00100 = some (.ext 5 ⟨2, 3, 7, 4⟩) := by decide +kernel
theorem test_decode_lui : isaDecode 5 0b000101_11111_00000_1000000000000001 = some (.lui 5 ⟨31, 0, 0x8001⟩) := by decide +kernel
theorem test_decode_ld : isaDecode 5 0b001001_00001_00010_1111111111111111 = some (.ldBs 5 ⟨1, 2, 0xFFFF⟩) := by decide +kernel
theorem test_decode_st : isaDecode 5 0b010010_00001_00010_0000000000000100 = some (.stW 5 ⟨1, 2, 4⟩) := by decide +kernel
theorem test_decode_blt : isaDecode 5 0b011000_00001_00010_010_1000000000001 = some (.blt 5 ⟨1, 2, 0x1001⟩) := by decide +kernel
theorem test_decode_bb : isaDecode 5 0b011001_1_1000000000001_100000000001 = some (.bbS 5 ⟨0x1001, 0x801⟩) := by decide +kernel
theorem test_decode_call : isaDecode 5 0b011011_10000000000000000000000001 = some (.call 5 ⟨0x2000001⟩) := by decide +kernel
theorem test_decode_lkpw : isaDecode 5 0b100000_00000_00001_00010_00000_000001 = some (.lkpw 5 ⟨0, 1, 2, 0⟩) := by decide +kernel
theorem test_decode_cld : isaDecode 5 0b100001_00001_00010_00011_00100_000000 = some (.cld 5 ⟨1, 2, 3, 4⟩) := by decide +kernel
theorem test_decode_emit : isaDecode 5 0b100010_00001_00010_00011_00000_000101 = some (.emit 5 ⟨1, 2, 3, 0⟩) := by decide +kernel
theorem test_decode_fsa : isaDecode 5 0b100011_00001_00010_00011_00000_000011 = some (.fsa 5 ⟨1, 2, 3, 0⟩) := by decide +kernel
theorem test_decode_stw : isaDecode 5 0b100100_00000_00010_0000000111_000100 = some (.stw 5 ⟨0, 2, 7⟩) := by decide +kernel
theorem test_decode_waitt : isaDecode 5 0b100101_00001_00010_00011_00000_000001 = some (.waitt 5 ⟨1, 2, 3, 0⟩) := by decide +kernel
theorem test_decode_dma : isaDecode 5 0b100110_00001_00010_00000_00000_000000 = some (.dma 5 ⟨1, 2, 0, 0⟩) := by decide +kernel
theorem test_decode_crcw : isaDecode 5 0b101001_00001_00010_00000_000010_00000 = some (.crcw 5 ⟨1, 2, 0, 0⟩) := by decide +kernel
theorem test_decode_undefined : isaDecode 5 0xFFFFFFFF = none := by decide +kernel

/-! ## A few values from outside the model -/

/-- The check value of CRC-32C over "123456789". -/
theorem test_crc32c : (crc32cRun 0xFFFFFFFF [0x31, 0x32, 0x33, 0x34, 0x35, 0x36, 0x37, 0x38, 0x39]) ^^^ 0xFFFFFFFF = 0xE3069283 := by decide +kernel

/-- A command leaves the queue as it runs. -/
theorem test_front_leaves : (match step { up with pending := [.wdtKick 0, .wdtKick 1] } with | .next u => u.pending.length | _ => 9) = 1 := by
  decide +kernel

end Sys2Proof.Tests
end

/-!
PROOF. The ingress priority of a frame (R67): where the frame holds the bytes of its tag, the model's padded reads are the bytes themselves,
and a 3-bit field of PCP_MAP is an octal digit of it.
-/

namespace Sys2Proof.Machine

/-- A big-endian read that lies within the bytes needs none of the zeros that `beAt` pads with. -/
theorem beAt_eq_beNat_of_le_length {win : List Byte} {x n : Nat} (h : x + n ≤ win.length) :
    beAt win x n = beNat ((win.drop x).take n) := by
  have fits : n ≤ (win.drop x).length := by rw [List.length_drop]; omega
  rw [beAt, List.take_append_of_le_length fits]

theorem bits_three_eq_octal_digit (w i : Nat) : bits w (3 * i + 2) (3 * i) = w / 8 ^ i % 8 := by
  have width : 2 ^ (3 * i + 2 + 1 - 3 * i) = 8 := by simp [Nat.add_assoc]
  have octal : 8 ^ i = 2 ^ (3 * i) := (Nat.pow_mul 2 3 i).symm
  rw [bits, width, Nat.shiftRight_eq_div_pow, octal]

theorem framePri_of_tagged (s : State) (p : Nat) {frame : List Byte} (h : beAt frame 12 2 = 0x8100 ∨ beAt frame 12 2 = 0x88A8) :
    framePri s p frame = s.fld F.LPT_PRI_PCP_MAP p / 8 ^ (beAt frame 14 2 / 2 ^ 13) % 8 := by
  simp only [framePri, bits_three_eq_octal_digit, Bool.or_eq_true, decide_eq_true_eq, if_pos h]

theorem framePri_of_untagged (s : State) (p : Nat) {frame : List Byte} (h : ¬ (beAt frame 12 2 = 0x8100 ∨ beAt frame 12 2 = 0x88A8)) :
    framePri s p frame = s.fld F.LPT_PRI_DEF_PRI p := by
  simp only [framePri, Bool.or_eq_true, decide_eq_true_eq, if_neg h]

/-- Settles O48: a frame of 18 bytes or more holds the TPID and the PCP, so the model reads them and no padding. -/
theorem ingressPriority : Obligations.IngressPriority := by
  rintro s p frame tpid pcp rfl rfl long
  have tpidRead : beAt frame 12 2 = beNat ((frame.drop 12).take 2) := beAt_eq_beNat_of_le_length (by omega)
  have pcpRead : beAt frame 14 2 = beNat ((frame.drop 14).take 2) := beAt_eq_beNat_of_le_length (by omega)
  rw [← tpidRead, ← pcpRead]
  exact ⟨framePri_of_tagged s p, fun hc hs => framePri_of_untagged s p (not_or.mpr ⟨hc, hs⟩)⟩

end Sys2Proof.Machine

/-!
PROOF. Register pairs (R298): a pair is the two registers side by side, a write of the pair is read back half by half, and an instruction
that names no pair has a field that must not be.
-/

namespace Sys2Proof.Machine

theorem exec_waitt (t : BitVec 14) (f : FmtU) (s : State) : exec (.waitt t f) s = execWaitt t f s := rfl
theorem exec_tarm (t : BitVec 14) (f : FmtU) (s : State) : exec (.tarm t f) s = execTarm t f s := rfl
theorem exec_rdnt (t : BitVec 14) (f : FmtU) (s : State) : exec (.rdnt t f) s = execRdnt t f s := rfl

/-- A pair holds its even register in the low half (R298). -/
theorem gPair_eq_append (x : Thread) (r : BitVec 5) : gPair x r.toNat = gGet x (r.toNat + 1) ++ gv x r := by
  have low : (gv x r).toNat < 2 ^ 32 := (gv x r).isLt
  have high : (gGet x (r.toNat + 1)).toNat < 2 ^ 32 := (gGet x (r.toNat + 1)).isLt
  refine BitVec.eq_of_toNat_eq ?_
  calc (gPair x r.toNat).toNat = 2 ^ 32 * (gGet x (r.toNat + 1)).toNat + (gv x r).toNat := by
        rw [gPair, BitVec.toNat_ofNat, ← gv]
        omega
    _ = (gGet x (r.toNat + 1) ++ gv x r).toNat := by
        rw [BitVec.toNat_append, Nat.two_pow_add_eq_or_of_lt low, Nat.shiftLeft_eq, Nat.mul_comm]

theorem gSet_wf {x : Thread} (h : mwf noW32 x.g = true) (r : Nat) (v : W32) : mwf noW32 (gSet x r v).g = true := by
  unfold gSet
  split
  · exact h
  · exact mset_wf noW32 r v h

theorem gv_gSetPair {x : Thread} (h : mwf noW32 x.g = true) {r : BitVec 5} (hr : r ≠ 0) (v : W64) :
    gv (gSetPair x r.toNat v) r = v.setWidth 32 := by
  have next : ¬ (r.toNat = r.toNat + 1 ∧ r.toNat + 1 ≠ 0) := by omega
  have low : gv (gSet x r.toNat (BitVec.ofNat 32 v.toNat)) r = BitVec.ofNat 32 v.toNat := by rw [gv_gSet h, if_pos ⟨rfl, hr⟩]
  rw [gv, gSetPair, gGet_gSet (gSet_wf h _ _), if_neg next, ← gv, low, BitVec.ofNat_toNat]

theorem gGet_gSetPair_succ {x : Thread} (h : mwf noW32 x.g = true) (r : Nat) (v : W64) :
    gGet (gSetPair x r v) (r + 1) = (v >>> 32).setWidth 32 := by
  have high : v.toNat / 2 ^ 32 = (v >>> 32).toNat := by rw [BitVec.toNat_ushiftRight, Nat.shiftRight_eq_div_pow]
  rw [gSetPair, gGet_gSet (gSet_wf h _ _), if_pos ⟨rfl, Nat.succ_ne_zero r⟩, high, BitVec.ofNat_toNat]

theorem pairOk_eq_false {r : BitVec 5} (h : r.toNat % 2 = 1 ∨ r = 0) : pairOk r = false := by
  rcases h with odd | rfl
  · simp [pairOk, odd]
  · rfl

theorem waitt_faults_of_noPair {s : State} {t : BitVec 14} {f : FmtU} (hp : pairOk f.ra = false)
    (h : Issues s t.toNat (wordU 0x25 1 f)) : Faults s (exec (.waitt t f) s) t.toNat cIllegal (wordU 0x25 1 f).toNat := by
  rw [exec_waitt, execWaitt]
  exact issue_fault h (if_pos (by simp [hp])) _ _ _

theorem tarm_faults_of_noPair {s : State} {t : BitVec 14} {f : FmtU} (hp : pairOk f.ra = false)
    (h : Issues s t.toNat (wordU 0x25 2 f)) : Faults s (exec (.tarm t f) s) t.toNat cIllegal (wordU 0x25 2 f).toNat := by
  rw [exec_tarm, execTarm]
  exact issue_fault h (if_pos (by simp [hp])) _ _ _

theorem rdnt_faults_of_noPair {s : State} {t : BitVec 14} {f : FmtU} (hp : pairOk f.rd = false)
    (h : Issues s t.toNat (wordU 0x25 5 f)) : Faults s (exec (.rdnt t f) s) t.toNat cIllegal (wordU 0x25 5 f).toNat := by
  rw [exec_rdnt, execRdnt]
  exact issue_fault h (if_pos (by simp [hp])) _ _ _

/-- Settles O50: reads and writes of a pair half by half, and ILLEGAL by each of the three instructions whose field names no pair. -/
theorem registerPairs : Obligations.RegisterPairs := by
  refine ⟨gPair_eq_append, fun x r v hx _ hr => ⟨gv_gSetPair hx hr v, gGet_gSetPair_succ hx r.toNat v⟩, fun s t f hn => ?_, fun s t f hn => ?_⟩
  · have hp := pairOk_eq_false hn
    exact ⟨waitt_faults_of_noPair hp, tarm_faults_of_noPair hp⟩
  · exact rdnt_faults_of_noPair (pairOk_eq_false hn)

end Sys2Proof.Machine

/-!
PROOF. The bit space (R300): what a read of each part of it finds, and what `btst` and `bset` make of it.
-/

namespace Sys2Proof.Machine

theorem exec_btst (t : BitVec 14) (f : FmtBT) (s : State) : exec (.btst t f) s = execBtst t f s := rfl
theorem exec_bset (t : BitVec 14) (f : FmtBT) (s : State) : exec (.bset t f) s = execBset t f s := rfl

/-! ## Undisturbed issues -/

theorem Issues.threads_wf {s : State} {t : Nat} {w : W32} (h : Issues s t w) : mwf noThread s.gar.thr = true := by
  obtain ⟨_, _, _, _, _, _, _, _, _, threads, _⟩ := h
  exact threads

theorem Issues.notStepping {s : State} {t : Nat} {w : W32} (h : Issues s t w) : (thrOf s t).stepping = false := by
  obtain ⟨_, _, _, _, _, _, _, notStepping, _⟩ := h
  exact notStepping

/-- An undisturbed instruction that is done with no thread's record, register or check unit changed: its thread goes on in the state that it
leaves. -/
theorem issue_next_of_thr_eq {s v : State} {t : Nat} {w : W32} {body : State → Res} (h : Issues s t w)
    (hb : body (takeTurn s t) = .done v []) (hthr : v.gar.thr = (takeTurn s t).gar.thr) (hregs : v.regs = s.regs)
    (hbad : v.integ.bad = s.integ.bad) (rds wrs : List Nat) (sq : State → State) :
    issueAt t w rds wrs sq body s = .next (setThr v t (ranOn (thrOf s t) ((thrOf s t).pc + 4))) := by
  have quiet : (takeTurn s t).integ.bad = [] := h.quiet.1
  have turn : thrOf v t = turned (thrOf s t) (thrOf s t).flags := by
    rw [thrOf, hthr, ← thrOf, takeTurn_turned h]
  have threads : mwf noThread v.gar.thr = true := by
    rw [hthr]
    exact setThr_wf h.threads_wf t _
  rw [issueAt_eq h, hb, finish_done quiet (h.quiet.of_regs hregs hbad) threads (by rw [turn]; exact ThrSt.noConfusion)
    (by rw [turn]; exact h.notStepping), turn]
  rfl

/-! ## Addresses of format BT -/

/-- A bit operation that names its bit outright, with every unused field 0. -/
def BtDirect (f : FmtBT) : Prop := f.zero = 0 ∧ f.idx = false ∧ f.r = 0

theorem BtDirect.btBad {f : FmtBT} (h : BtDirect f) : btBad f = false := by
  obtain ⟨hzero, hidx, hr⟩ := h
  rw [Machine.btBad, hzero, hidx, hr]
  rfl

theorem BtDirect.btAddr {f : FmtBT} (h : BtDirect f) (x : Thread) : btAddr x f = f.bit.toNat := by
  obtain ⟨_, hidx, _⟩ := h
  rw [Machine.btAddr, hidx, if_neg Bool.false_ne_true]

theorem bitReadable_of_flag {t b : Nat} (h : b < 1024) : bitReadable t b = true := by
  have belowReserved : b < 1280 := by omega
  cases hm : isMgt t
  · simp [bitReadable, hm, belowReserved]
  · simp [bitReadable, hm, h]

theorem bitReadable_of_itemFlag {t b : Nat} (hm : isMgt t = false) (h : b < 1280) : bitReadable t b = true := by
  simp [bitReadable, hm, h]

theorem bitReadable_of_shared {t b : Nat} (hm : isMgt t = false) (lo : 4096 ≤ b) (hi : b < 8192) : bitReadable t b = true := by
  simp [bitReadable, hm, lo, hi]

theorem bitReadable_eq_false {t b : Nat} (hm : isMgt t = false) (lo : 1280 ≤ b) (hi : b < 4096) : bitReadable t b = false := by
  simp [bitReadable, hm, lo, hi]

theorem bitWritable_eq_false {t b : Nat} (lo : 1024 ≤ b) (hi : b < 4096) : bitWritable t b = false := by
  simp [bitWritable, lo, hi]

theorem bitWritable_of_flag {t b : Nat} (h : b < 1024) : bitWritable t b = true := by simp [bitWritable, h]

theorem bitWritable_of_shared {t b : Nat} (hm : isMgt t = false) (lo : 4096 ≤ b) (hi : b < 8192) : bitWritable t b = true := by
  simp [bitWritable, hm, lo, hi]

/-! ## Reads and writes at a thread's turn -/

/-- A thread's turn changes no bit variable: what an instruction reads is the bit as it stands at issue. -/
theorem bitRead_takeTurn {s : State} {t b : Nat} {w : W32} {v : Bool} (h : Issues s t w) (hb : BitIs s t b v) (k : State → Bool → Res) :
    bitRead (takeTurn s t) t b k = k (takeTurn s t) v := by
  have quiet : (takeTurn s t).integ.bad = [] := h.quiet.1
  rcases hb with ⟨flag, rfl⟩ | ⟨lo, hi, hm, rfl⟩ | ⟨lo, hi, hm, rfl⟩
  · simp only [bitRead, bitReadable_of_flag flag, flag, takeTurn_thr h, Bool.not_true, Bool.false_eq_true, if_false, if_true]
  · have block : memRead (takeTurn s t) t (.bank (thrBlk t + 32 + 4 * ((b - 1024) / 32))) 4 =
        some (rdBytes s.gar.lmem (bankKey (coreOf t) (thrBlk t + 32 + 4 * ((b - 1024) / 32))) 4) := rfl
    simp only [bitRead, bitReadable_of_itemFlag hm hi, Nat.not_lt.mpr lo, hi, placeRead_quiet quiet block, Bool.not_true,
      Bool.false_eq_true, if_false, if_true]
  · have noFlag : ¬ b < 1024 := by omega
    have noItem : ¬ b < 1280 := by omega
    simp only [bitRead, bitReadable_of_shared hm lo hi, noFlag, noItem, Bool.not_true, Bool.false_eq_true, if_false]
    rfl

theorem bitRead_of_reserved {s : State} {t b : Nat} (hm : isMgt t = false) (lo : 1280 ≤ b) (hi : b < 4096) (k : State → Bool → Res) :
    bitRead s t b k = .fault s cBadBit b := by
  rw [bitRead, bitReadable_eq_false hm lo hi, Bool.not_false, if_pos rfl]

theorem bitWrite_of_flag {b : Nat} (h : b < 1024) (s : State) (t : Nat) (v : Bool) :
    bitWrite s t b v = setThr s t (setFlagBit (thrOf s t) b v) := if_pos h

theorem bitWrite_of_shared {b : Nat} (h : 4096 ≤ b) (s : State) (t : Nat) (v : Bool) :
    bitWrite s t b v = { s with gar := { s.gar with sbits := mset noBool s.gar.sbits (sbitKey t b) v } } := if_neg (by omega)

/-- Bit f of the work item is bit f mod 32 of word 8 + (f div 32) of the thread block (R267, R300). -/
theorem bitIs_itemFlag {s : State} {t b : Nat} {v : Bool} (hm : isMgt t = false) (lo : 1024 ≤ b) (hi : b < 1280)
    (hv : v = bitOf (leNat (rdBytes s.gar.lmem (bankKey (coreOf t) (thrBlk t + 4 * (8 + (b - 1024) / 32))) 4)) ((b - 1024) % 32)) :
    BitIs s t b v := by
  have word : thrBlk t + 4 * (8 + (b - 1024) / 32) = thrBlk t + 32 + 4 * ((b - 1024) / 32) := by omega
  have bit : (b - 1024) % 32 = b % 32 := by omega
  rw [word, bit] at hv
  exact .inr (.inl ⟨lo, hi, hm, hv⟩)

/-! ## btst -/

/-- `btst` of a bit that is `v` sets C to it and Z to its complement, and changes nothing else. -/
theorem btst_ends {s : State} {t : BitVec 14} {f : FmtBT} {v : Bool} (h : Issues s t.toNat (wordBT 0x1D 3 f)) (hf : BtDirect f)
    (hb : BitIs s t.toNat f.bit.toNat v) :
    Ends s (exec (.btst t f) s) t.toNat
      (setFlagBit (setFlagBit (ranOn (thrOf s t.toNat) ((thrOf s t.toNat).pc + 4)) 0 v) 2 !v) := by
  rw [exec_btst, execBtst]
  refine issue_ends (x := setFlagBit (setFlagBit (turned (thrOf s t.toNat) (thrOf s t.toNat).flags) 0 v) 2 !v) h ?_ ThrSt.noConfusion
    h.notStepping _ _ _
  simp only [hf.btBad, hf.btAddr, bitRead_takeTurn h hb, bitFlags, takeTurn_turned h, doneThr, Bool.false_eq_true, if_false]

theorem btst_faults {s : State} {t : BitVec 14} {f : FmtBT} (h : Issues s t.toNat (wordBT 0x1D 3 f)) (hf : BtDirect f)
    (hm : isMgt t.toNat = false) (lo : 1280 ≤ f.bit.toNat) (hi : f.bit.toNat < 4096) :
    Faults s (exec (.btst t f) s) t.toNat cBadBit f.bit.toNat := by
  rw [exec_btst, execBtst]
  refine issue_fault h ?_ _ _ _
  simp only [hf.btBad, hf.btAddr, bitRead_of_reserved hm lo hi, Bool.false_eq_true, if_false]

/-! ## Bit operations that write -/

/-- A bit operation that writes a bit that is `v`, with no flags of its own, is done with `g v` written. -/
theorem bitRow_ends_of_flag {s : State} {t : BitVec 14} {f : FmtBT} {fn : Nat} {v : Bool} (h : Issues s t.toNat (wordBT 0x1D fn f))
    (hf : BtDirect f) (hlt : f.bit.toNat < 1024) (hb : BitIs s t.toNat f.bit.toNat v) (g : Bool → Bool) :
    Ends s (bitRow fn g false t f s) t.toNat
      (setFlagBit (ranOn (thrOf s t.toNat) ((thrOf s t.toNat).pc + 4)) f.bit.toNat (g v)) := by
  rw [bitRow]
  refine issue_ends (x := setFlagBit (turned (thrOf s t.toNat) (thrOf s t.toNat).flags) f.bit.toNat (g v)) h ?_ ThrSt.noConfusion
    h.notStepping _ _ _
  simp only [hf.btBad, hf.btAddr, bitWritable_of_flag hlt, bitRead_takeTurn h hb, bitWrite_of_flag hlt, takeTurn_turned h, doneThr,
    Bool.not_true, Bool.false_eq_true, if_false]

theorem bitRow_next_of_shared {s : State} {t : BitVec 14} {f : FmtBT} {fn : Nat} {v : Bool} (h : Issues s t.toNat (wordBT 0x1D fn f))
    (hf : BtDirect f) (hm : isMgt t.toNat = false) (lo : 4096 ≤ f.bit.toNat) (hb : BitIs s t.toNat f.bit.toNat v) (g : Bool → Bool) :
    bitRow fn g false t f s = .next (setThr (bitWrite (takeTurn s t.toNat) t.toNat f.bit.toNat (g v)) t.toNat
      (ranOn (thrOf s t.toNat) ((thrOf s t.toNat).pc + 4))) := by
  rw [bitRow]
  refine issue_next_of_thr_eq h ?_ (by rw [bitWrite_of_shared lo]) (by rw [bitWrite_of_shared lo]; rfl)
    (by rw [bitWrite_of_shared lo]; rfl) _ _ _
  simp only [hf.btBad, hf.btAddr, bitWritable_of_shared hm lo f.bit.isLt, bitRead_takeTurn h hb, Bool.not_true, Bool.false_eq_true,
    if_false]

theorem bitRow_faults {s : State} {t : BitVec 14} {f : FmtBT} {fn : Nat} (h : Issues s t.toNat (wordBT 0x1D fn f)) (hf : BtDirect f)
    (lo : 1024 ≤ f.bit.toNat) (hi : f.bit.toNat < 4096) (g : Bool → Bool) (fl : Bool) :
    Faults s (bitRow fn g fl t f s) t.toNat cBadBit f.bit.toNat := by
  rw [bitRow]
  refine issue_fault h ?_ _ _ _
  simp only [hf.btBad, hf.btAddr, bitWritable_eq_false lo hi, Bool.not_false, Bool.false_eq_true, if_false, if_true]

/-- A cluster-shared bit is all that a write of it changes beside the thread itself (R300). -/
theorem bitRow_writes_shared {s : State} {t : BitVec 14} {f : FmtBT} {fn : Nat} (h : Issues s t.toNat (wordBT 0x1D fn f))
    (hf : BtDirect f) (hm : isMgt t.toNat = false) (lo : 4096 ≤ f.bit.toNat) (g : Bool → Bool) :
    ∃ u : State, bitRow fn g false t f s = .next u ∧ thrOf u t.toNat = ranOn (thrOf s t.toNat) ((thrOf s t.toNat).pc + 4) ∧
      (∀ j, j ≠ t.toNat → thrOf u j = thrOf s j) ∧
      u = { s with gar := { s.gar with
        thr := u.gar.thr,
        sbits := mset noBool s.gar.sbits (sbitKey t.toNat f.bit.toNat) (g (mget noBool s.gar.sbits (sbitKey t.toNat f.bit.toNat))) } } := by
  refine ⟨_, bitRow_next_of_shared h hf hm lo (.inr (.inr ⟨lo, f.bit.isLt, hm, rfl⟩)) g, ?_, fun j hj => ?_, ?_⟩
  · rw [bitWrite_of_shared lo]
    exact thrOf_setThr (setThr_wf h.threads_wf _ _) _ _
  · rw [thrOf_setThr_ne _ hj, bitWrite_of_shared lo]
    exact thrOf_setThr_ne s hj _
  · rw [bitWrite_of_shared lo]
    rfl

/-- Settles O51: each row of R300's table is a read that finds the bit there or none, and a write that may be made or not. -/
theorem bitSpace : Obligations.BitSpace := by
  refine ⟨?_, ?_, fun x i j v hj => setFlagBit_get x v hj⟩
  · rintro s t f _ _ v h hm hzero hidx hr rfl rfl
    have hf : BtDirect f := ⟨hzero, hidx, hr⟩
    refine ⟨fun hlt hv => ?_, fun lo hi hv => ?_, btst_faults h hf hm, fun lo hv => ?_⟩
    · exact btst_ends h hf (.inl ⟨hlt, hv⟩)
    · exact btst_ends h hf (bitIs_itemFlag hm lo hi hv)
    · exact btst_ends h hf (.inr (.inr ⟨lo, f.bit.isLt, hm, hv⟩))
  · rintro s t f _ _ h hm hzero hidx hr rfl rfl
    have hf : BtDirect f := ⟨hzero, hidx, hr⟩
    rw [exec_bset, execBset]
    exact ⟨fun hlt => bitRow_ends_of_flag h hf hlt (.inl ⟨hlt, rfl⟩) _, fun lo hi => bitRow_faults h hf lo hi _ _,
      fun lo => bitRow_writes_shared h hf hm lo _⟩

end Sys2Proof.Machine

/-!
PROOF. What `calloc` writes (R319): the grant is made as the instruction issues and its answer waits for the completion (log entry 44),
which writes the handle and Z.
-/

namespace Sys2Proof.Machine

theorem exec_calloc (t : BitVec 14) (f : FmtU) (s : State) : exec (.calloc t f) s = execCalloc t f s := rfl
theorem exec_cellOpComplete (t : BitVec 14) (s : State) : exec (.cellOpComplete t) s = execCellOpComplete t s := rfl

/-- An undisturbed instruction whose request a unit accepts: its thread waits for the answer. -/
theorem issue_asks {s v : State} {t : Nat} {w : W32} {body : State → Res} {a : CellReq} {x : Wait} (h : Issues s t w)
    (hb : body (takeTurn s t) = accept v t a x) (rds wrs : List Nat) (sq : State → State) :
    Asks (issueAt t w rds wrs sq body s) v t a x :=
  issue_waits h hb rds wrs sq

/-! ## Issue -/

theorem gv_takeTurn {s : State} {t : Nat} {w : W32} (h : Issues s t w) (r : BitVec 5) : gv (thrOf (takeTurn s t) t) r = gv (thrOf s t) r := by
  rw [takeTurn_thr h]
  rfl

/-- The operands that `calloc` takes: it runs on a packet thread, its unused fields are 0, and gA names 1 to 80 cells. -/
def CallocOk (s : State) (t : Nat) (f : FmtU) (n : Nat) : Prop :=
  isMgt t = false ∧ f.rb = 0 ∧ f.rc = 0 ∧ n = (gv (thrOf s t) f.ra).toNat ∧ 1 ≤ n ∧ n ≤ 80

section
variable {s v : State} {t : BitVec 14} {f : FmtU} {n : Nat} (h : Issues s t.toNat (wordU 0x21 2 f)) (hf : CallocOk s t.toNat f n)
include h hf

theorem calloc_refused (hreq : requestCells (takeTurn s t.toNat) (clusterReq (takeTurn s t.toNat) (cluOf t.toNat)) n = (none, v)) :
    Asks (exec (.calloc t f) s) v t.toNat (cellAnswer 0 [] [] f.rd.toNat (BitVec.ofNat 32 nullHandle) false) .cell := by
  obtain ⟨hm, hrb, hrc, rfl, lo, hi⟩ := hf
  have notZero : (gv (thrOf s t.toNat) f.ra).toNat ≠ 0 := by omega
  rw [exec_calloc, execCalloc]
  refine issue_asks h ?_ _ _ _
  simp [hm, hrb, hrc, gv_takeTurn h, notZero, hi, hreq]

theorem calloc_granted {y : State} {c : Nat} {cells : List Nat}
    (hreq : requestCells (takeTurn s t.toNat) (clusterReq (takeTurn s t.toNat) (cluOf t.toNat)) n = (some cells, y))
    (hchain : newChain y cells (128 * n) false (some (cluOf t.toNat)) = (c, v)) :
    Asks (exec (.calloc t f) s) v t.toNat (cellAnswer 0 [] [] f.rd.toNat (BitVec.ofNat 32 (handleOf c)) true) .cell := by
  obtain ⟨hm, hrb, hrc, rfl, lo, hi⟩ := hf
  have notZero : (gv (thrOf s t.toNat) f.ra).toNat ≠ 0 := by omega
  rw [exec_calloc, execCalloc]
  refine issue_asks h ?_ _ _ _
  simp [hm, hrb, hrc, gv_takeTurn h, notZero, hi, hreq, hchain]

end

/-! ## Completion -/

/-- An answer with no bytes leaves memory as it is. -/
theorem landLocal_nil (s : State) (t : Nat) : landLocal s t 0 [] [] = s := by
  have none_touched : ∀ a, wordsOf a 0 = [] := fun _ => rfl
  cases hm : isMgt t
  · have bank : localOf t 0 0 = some (.bank 0) := by simp [localOf, hm]
    simp [landLocal, bank, bankWrite, bankPoison, none_touched, foldS, wrBytes]
  · have memory : localOf t 0 0 = some (.mgt 0) := by simp [localOf, hm]
    simp [landLocal, memory, placeWrite, wrBytes]

/-- The answer without bytes of a cell operation whose thread waits for it and is not in FAULT goes to gD and Z, and the wait ends
(R318, R336). -/
theorem cellOpComplete_of_noData {s : State} {t : BitVec 14} {a : CellReq} (hdst : a.dst = 0) (hdata : a.data = []) (hpoison : a.poison = [])
    (live : a.live = true) (up : thrUp s t.toNat = true) (next : nextAcc (thrOf s t.toNat) false = some a)
    (running : faulted (thrOf s t.toNat) = false) :
    exec (.cellOpComplete t) s = .next (settleAll (endWaitNext s t.toNat (accWrite (dropAcc (thrOf s t.toNat) a) a))) := by
  have nothingLands : landLocal s t.toNat a.dst.toNat a.data a.poison = s := by
    rw [hdst, hdata, hpoison]
    exact landLocal_nil s t.toNat
  rw [exec_cellOpComplete, execCellOpComplete]
  simp only [up, next, nothingLands, accFinish, live, running, Bool.not_true, Bool.false_eq_true, if_false]

theorem gv_accWrite {x : Thread} {a : CellReq} {rd : BitVec 5} (h : mwf noW32 x.g = true) (ha : a.rd = rd.toNat) (r : BitVec 5) :
    gv (accWrite x a) r = if r = rd ∧ r ≠ 0 then a.val else gv x r := by
  rw [← gv_gSet h rd r a.val, ← ha]
  rfl

theorem accWrite_flags (x : Thread) (a : CellReq) {i : Nat} (hi : i < 1024) :
    (accWrite x a).flags.getLsbD i = if i = 2 then a.ok else x.flags.getLsbD i := by
  rw [accWrite, setZ, setFlagBit_get _ _ hi, gSet_flags]

/-- Settles O52: both answers of the grant as `calloc` issues, what the completion of either does, and the register and flag it writes. -/
theorem callocAnswers : Obligations.CallocAnswers := by
  refine ⟨?_, ?_, fun x rd r val ok i hx hi => ⟨gv_accWrite hx rfl r, accWrite_flags x _ hi⟩⟩
  · rintro s _ v t f n c cells h hm hrb hrc rfl hn lo hi
    have hf : CallocOk s t.toNat f n := ⟨hm, hrb, hrc, hn, lo, hi⟩
    exact ⟨calloc_refused h hf, fun _ => calloc_granted h hf⟩
  · rintro s t _ rd val ok up rfl next running
    exact cellOpComplete_of_noData rfl rfl rfl rfl up next running

end Sys2Proof.Machine

/-!
PROOF. A claim address read with another width (R443): every width that no register takes ends in `accNone`, and so does an 8-byte read of
the register that the address is, on each path to the bus; a supervisor's claim addresses have their own row in `ctlAcc`
(log entry 47).
-/

namespace Sys2Proof.Machine

theorem exec_registerWrite (x : RegAcc) (s : State) : exec (.registerWrite x) s = execRegisterWrite x s := rfl

/-! ## Widths that reach nothing -/

theorem accNone_read_of_shown {s : State} {a : Nat} (h : claimShown s a = true) : accNone s a none = { s with rdata := 1023 } := by
  simp [accNone, h, setRdata]

theorem accNone_read_of_notShown {s : State} {a : Nat} (h : claimShown s a = false) : accNone s a none = { s with rdata := 0 } := by
  simp [accNone, h, setRdata]

theorem regAt_of_claimShown {s : State} {a : Nat} (h : claimShown s a = true) : ∃ i hi, regAt (a / 4 * 4) = some (.ICU_CLAIM, i, hi) := by
  unfold claimShown at h
  split at h
  case h_1 i hi isClaim => exact ⟨i, hi, isClaim⟩
  case h_2 => contradiction

/-- An 8-byte access to a claim address reaches no register. -/
theorem acc8_of_claimReg {a i : Nat} {hi : Bool} (h : regAt a = some (.ICU_CLAIM, i, hi)) (q : Req) (wr : Option Nat) (s : State) :
    acc8 q a wr s = .next (accNone s a wr) := by
  unfold acc8
  cases winAt a with
  | some => rfl
  | none => simp only [h]

/-- Register space takes aligned accesses of 4 or 8 bytes only. -/
theorem busAcc_of_badWidth {a size : Nat} (h : ((size = 4 || size = 8) && a % size == 0) = false) (q : Req) (wr : Option Nat) (s : State) :
    busAcc q a size wr s = .next (accNone s a wr) := by
  rw [busAcc, h]
  rfl

/-- Below the windows of MGT memory and of the clusters an aligned 8-byte access is one of a register or of a 4-byte window. -/
theorem busAcc_eight_of_lt {a : Nat} (lt : a < 0x1210000) (aligned : a % 8 = 0) (q : Req) (wr : Option Nat) (s : State) :
    busAcc q a 8 wr s = acc8 q a wr s := by
  have notMgt : ¬ 0x1210000 ≤ a := by omega
  have notCluster : ¬ 0x4000000 ≤ a := by omega
  simp [busAcc, aligned, notMgt, notCluster]

/-! ## The paths to a claim address -/

theorem busAcc_readsClaim {s : State} {a size : Nat} (shown : claimShown s a = true) (lt : a < 0x1210000) (width : size ≠ 4) (q : Req) :
    busAcc q a size none s = .next { s with rdata := 1023 } := by
  have reachesNothing : busAcc q a size none s = .next (accNone s a none) := by
    by_cases h : size = 8 ∧ a % 8 = 0
    · obtain ⟨rfl, aligned⟩ := h
      obtain ⟨i, hi, isClaim⟩ := regAt_of_claimShown shown
      have here : a / 4 * 4 = a := by omega
      rw [here] at isClaim
      rw [busAcc_eight_of_lt lt aligned, acc8_of_claimReg isClaim]
    · refine busAcc_of_badWidth ?_ q none s
      simp only [width, decide_false, Bool.false_or, Bool.and_eq_false_imp, decide_eq_true_eq, beq_eq_false_iff_ne]
      rintro rfl aligned
      exact h ⟨rfl, aligned⟩
  rw [reachesNothing, accNone_read_of_shown shown]

theorem busAcc_readsZero {s : State} {a size : Nat} (notShown : claimShown s a = false) (not4 : size ≠ 4) (not8 : size ≠ 8) (q : Req) :
    busAcc q a size none s = .next { s with rdata := 0 } := by
  rw [busAcc_of_badWidth (by simp [not4, not8]), accNone_read_of_notShown notShown]

/-- A read by a host's PF1 that reaches BAR0 is a read of the register bus. -/
theorem exec_registerWrite_pf1_read {s : State} {h : Fin 2} (up : pf1Up s h.val = true) (a : BitVec 28) (size : Nat) :
    exec (.registerWrite (.pf1 h a size none)) s = busAcc (.host h) a.toNat size none s := by
  simp [exec_registerWrite, execRegisterWrite, up]

/-- A supervisor's read of one of its claim addresses: a claim with 4 bytes, and 1,023 with any other width. -/
theorem ctlAcc_readsClaim {s : State} {t ofs : Nat} (supv : isSupv s t = true) (up : pktUp s = true) (lo : 0x9000 ≤ ofs) (hi : ofs < 0xA000)
    (size : Nat) :
    ctlAcc t ofs size none s = .next (if size = 4 then claimRead s (cluOf t) ((ofs - 0x9000) / 4) else { s with rdata := 1023 }) := by
  have inPage : 0x8000 ≤ ofs := by omega
  simp [ctlAcc, supv, up, lo, hi, inPage, setRdata]

/-- Settles O53: the register bus answers 1,023 without a step into the register, a host's read is one of the bus, and a supervisor's page
has the same rule; a 4-byte read claims after the probe of the source's entry (log entry 61). -/
theorem claimWidth : Obligations.ClaimWidth := by
  refine ⟨?_, ?_, ?_, ?_, ?_⟩
  · exact fun s q a size shown lt width => busAcc_readsClaim shown lt width q
  · exact fun s q a size notShown not4 not8 => busAcc_readsZero notShown not4 not8 q
  · intro s h a size up shown lt width
    rw [exec_registerWrite_pf1_read up, busAcc_readsClaim shown lt width]
  · intro s t ofs size supv up lo hi width
    rw [ctlAcc_readsClaim supv up lo hi, if_neg width]
  · intro s u t i n claimed
    rw [claimRead, claimed]

end Sys2Proof.Machine

/-!
PROOF. Encoding and decoding of the instruction set agree (R303, R304). In each format the fields of a word are the digits of its number:
the word made of fields has those fields, and a word is made of its own.
-/

namespace Sys2Proof.Machine

/-! ## Fields as digits -/

theorem toNat_extract (w : W32) (i k : Nat) : (w.extractLsb' i k).toNat = w.toNat / 2 ^ i % 2 ^ k := by
  rw [BitVec.extractLsb'_toNat, Nat.shiftRight_eq_div_pow]

theorem b2n_getLsbD (w : W32) (i : Nat) : b2n (w.getLsbD i) = w.toNat / 2 ^ i % 2 := by
  rw [BitVec.getLsbD, Nat.testBit_eq_decide_div_mod_eq]
  rcases Nat.mod_two_eq_zero_or_one (w.toNat / 2 ^ i) with h | h <;> rw [h] <;> rfl

theorem b2n_injective : ∀ {a b : Bool}, b2n a = b2n b → a = b := by decide

theorem getLsbD_eq_iff (w : W32) (i : Nat) (b : Bool) : w.getLsbD i = b ↔ w.toNat / 2 ^ i % 2 = b2n b := by
  rw [← b2n_getLsbD]
  exact ⟨congrArg b2n, b2n_injective⟩

theorem b2n_lt_two (b : Bool) : b2n b < 2 := by cases b <;> decide

/-- The number of a word that is spelt as a sum of digits. -/
theorem toNat_of_eq_ofNat {w : W32} {n : Nat} (hw : w = BitVec.ofNat 32 n) (lt : n < 2 ^ 32) : w.toNat = n := by
  rw [hw, BitVec.toNat_ofNat, Nat.mod_eq_of_lt lt]

/-! ## The thirteen formats -/

theorem wordR_fields {w : W32} {op fn : Nat} {f : FmtR} (hw : w = wordR op fn f) (hop : op < 64) (hfn : fn < 64) :
    (w.extractLsb' 26 6).toNat = op ∧ (w.extractLsb' 5 6).toNat = fn ∧ decR w = f := by
  obtain ⟨rd, ra, rb, sh⟩ := f
  have digits := toNat_of_eq_ofNat hw (by dsimp only; omega)
  dsimp only at digits
  simp only [decR, FmtR.mk.injEq, ← BitVec.toNat_inj, toNat_extract]
  omega

theorem wordR_decR {w : W32} {op fn : Nat} (hop : (w.extractLsb' 26 6).toNat = op) (hfn : (w.extractLsb' 5 6).toNat = fn) :
    wordR op fn (decR w) = w := by
  subst hop hfn
  apply BitVec.eq_of_toNat_eq
  simp only [wordR, decR, toNat_extract, BitVec.toNat_ofNat]
  omega

theorem wordI_fields {w : W32} {op : Nat} {f : FmtI} (hw : w = wordI op f) (hop : op < 64) :
    (w.extractLsb' 26 6).toNat = op ∧ decI w = f := by
  obtain ⟨rd, ra, imm⟩ := f
  have digits := toNat_of_eq_ofNat hw (by dsimp only; omega)
  dsimp only at digits
  simp only [decI, FmtI.mk.injEq, ← BitVec.toNat_inj, toNat_extract]
  omega

theorem wordI_decI {w : W32} {op : Nat} (hop : (w.extractLsb' 26 6).toNat = op) :
    wordI op (decI w) = w := by
  subst hop
  apply BitVec.eq_of_toNat_eq
  simp only [wordI, decI, toNat_extract, BitVec.toNat_ofNat]
  omega

theorem wordU_fields {w : W32} {op fn : Nat} {f : FmtU} (hw : w = wordU op fn f) (hop : op < 64) (hfn : fn < 64) :
    (w.extractLsb' 26 6).toNat = op ∧ (w.extractLsb' 0 6).toNat = fn ∧ decU w = f := by
  obtain ⟨rd, ra, rb, rc⟩ := f
  have digits := toNat_of_eq_ofNat hw (by dsimp only; omega)
  dsimp only at digits
  simp only [decU, FmtU.mk.injEq, ← BitVec.toNat_inj, toNat_extract]
  omega

theorem wordU_decU {w : W32} {op fn : Nat} (hop : (w.extractLsb' 26 6).toNat = op) (hfn : (w.extractLsb' 0 6).toNat = fn) :
    wordU op fn (decU w) = w := by
  subst hop hfn
  apply BitVec.eq_of_toNat_eq
  simp only [wordU, decU, toNat_extract, BitVec.toNat_ofNat]
  omega

theorem wordUI_fields {w : W32} {op fn : Nat} {f : FmtUI} (hw : w = wordUI op fn f) (hop : op < 64) (hfn : fn < 64) :
    (w.extractLsb' 26 6).toNat = op ∧ (w.extractLsb' 0 6).toNat = fn ∧ decUI w = f := by
  obtain ⟨rd, ra, imm⟩ := f
  have digits := toNat_of_eq_ofNat hw (by dsimp only; omega)
  dsimp only at digits
  simp only [decUI, FmtUI.mk.injEq, ← BitVec.toNat_inj, toNat_extract]
  omega

theorem wordUI_decUI {w : W32} {op fn : Nat} (hop : (w.extractLsb' 26 6).toNat = op) (hfn : (w.extractLsb' 0 6).toNat = fn) :
    wordUI op fn (decUI w) = w := by
  subst hop hfn
  apply BitVec.eq_of_toNat_eq
  simp only [wordUI, decUI, toNat_extract, BitVec.toNat_ofNat]
  omega

theorem wordBR_fields {w : W32} {op cond : Nat} {f : FmtBR} (hw : w = wordBR op cond f) (hop : op < 64) (hcond : cond < 8) :
    (w.extractLsb' 26 6).toNat = op ∧ (w.extractLsb' 13 3).toNat = cond ∧ decBR w = f := by
  obtain ⟨ra, rb, off⟩ := f
  have digits := toNat_of_eq_ofNat hw (by dsimp only; omega)
  dsimp only at digits
  simp only [decBR, FmtBR.mk.injEq, ← BitVec.toNat_inj, toNat_extract]
  omega

theorem wordBR_decBR {w : W32} {op cond : Nat} (hop : (w.extractLsb' 26 6).toNat = op) (hcond : (w.extractLsb' 13 3).toNat = cond) :
    wordBR op cond (decBR w) = w := by
  subst hop hcond
  apply BitVec.eq_of_toNat_eq
  simp only [wordBR, decBR, toNat_extract, BitVec.toNat_ofNat]
  omega

theorem wordBB_fields {w : W32} {op : Nat} {sense : Bool} {f : FmtBB} (hw : w = wordBB op sense f) (hop : op < 64) :
    (w.extractLsb' 26 6).toNat = op ∧ w.getLsbD 25 = sense ∧ decBB w = f := by
  obtain ⟨bit, off⟩ := f
  have := b2n_lt_two sense
  have digits := toNat_of_eq_ofNat hw (by dsimp only; omega)
  dsimp only at digits
  simp only [decBB, FmtBB.mk.injEq, ← BitVec.toNat_inj, toNat_extract, getLsbD_eq_iff]
  omega

theorem wordBB_decBB {w : W32} {op : Nat} {sense : Bool} (hop : (w.extractLsb' 26 6).toNat = op) (hsense : w.getLsbD 25 = sense) :
    wordBB op sense (decBB w) = w := by
  subst hop hsense
  apply BitVec.eq_of_toNat_eq
  simp only [wordBB, decBB, toNat_extract, b2n_getLsbD, BitVec.toNat_ofNat]
  omega

theorem wordJ_fields {w : W32} {op : Nat} {f : FmtJ} (hw : w = wordJ op f) (hop : op < 64) :
    (w.extractLsb' 26 6).toNat = op ∧ decJ w = f := by
  obtain ⟨off⟩ := f
  have digits := toNat_of_eq_ofNat hw (by dsimp only; omega)
  dsimp only at digits
  simp only [decJ, FmtJ.mk.injEq, ← BitVec.toNat_inj, toNat_extract]
  omega

theorem wordJ_decJ {w : W32} {op : Nat} (hop : (w.extractLsb' 26 6).toNat = op) :
    wordJ op (decJ w) = w := by
  subst hop
  apply BitVec.eq_of_toNat_eq
  simp only [wordJ, decJ, toNat_extract, BitVec.toNat_ofNat]
  omega

theorem wordBT_fields {w : W32} {op fn : Nat} {f : FmtBT} (hw : w = wordBT op fn f) (hop : op < 64) (hfn : fn < 16) :
    (w.extractLsb' 26 6).toNat = op ∧ (w.extractLsb' 22 4).toNat = fn ∧ decBT w = f := by
  obtain ⟨r, idx, zero, bit⟩ := f
  have := b2n_lt_two idx
  have digits := toNat_of_eq_ofNat hw (by dsimp only; omega)
  dsimp only at digits
  simp only [decBT, FmtBT.mk.injEq, ← BitVec.toNat_inj, toNat_extract, getLsbD_eq_iff]
  omega

theorem wordBT_decBT {w : W32} {op fn : Nat} (hop : (w.extractLsb' 26 6).toNat = op) (hfn : (w.extractLsb' 22 4).toNat = fn) :
    wordBT op fn (decBT w) = w := by
  subst hop hfn
  apply BitVec.eq_of_toNat_eq
  simp only [wordBT, decBT, toNat_extract, b2n_getLsbD, BitVec.toNat_ofNat]
  omega

theorem wordMD_fields {w : W32} {op : Nat} {f : FmtMD} (hw : w = wordMD op f) (hop : op < 64) :
    (w.extractLsb' 26 6).toNat = op ∧ decMD w = f := by
  obtain ⟨px, py, acc, ty, sat, sx, sy⟩ := f
  have := b2n_lt_two acc; have := b2n_lt_two sat
  have digits := toNat_of_eq_ofNat hw (by dsimp only; omega)
  dsimp only at digits
  simp only [decMD, FmtMD.mk.injEq, ← BitVec.toNat_inj, toNat_extract, getLsbD_eq_iff]
  omega

theorem wordMD_decMD {w : W32} {op : Nat} (hop : (w.extractLsb' 26 6).toNat = op) :
    wordMD op (decMD w) = w := by
  subst hop
  apply BitVec.eq_of_toNat_eq
  simp only [wordMD, decMD, toNat_extract, b2n_getLsbD, BitVec.toNat_ofNat]
  omega

theorem wordX1_fields {w : W32} {op cop : Nat} {f : FmtX1} (hw : w = wordX1 op cop f) (hop : op < 64) (hcop : cop < 128) :
    (w.extractLsb' 26 6).toNat = op ∧ (w.extractLsb' 7 2).toNat = 0 ∧ (w.extractLsb' 0 7).toNat = cop ∧ decX1 w = f := by
  obtain ⟨unit, lane, cd, ca, cb⟩ := f
  have := b2n_lt_two unit
  have digits := toNat_of_eq_ofNat hw (by dsimp only; omega)
  dsimp only at digits
  simp only [decX1, FmtX1.mk.injEq, ← BitVec.toNat_inj, toNat_extract, getLsbD_eq_iff]
  omega

theorem wordX1_decX1 {w : W32} {op cop : Nat} (hop : (w.extractLsb' 26 6).toNat = op) (hkind : (w.extractLsb' 7 2).toNat = 0) (hcop : (w.extractLsb' 0 7).toNat = cop) :
    wordX1 op cop (decX1 w) = w := by
  subst hop hcop
  rw [toNat_extract] at hkind
  apply BitVec.eq_of_toNat_eq
  simp only [wordX1, decX1, toNat_extract, b2n_getLsbD, BitVec.toNat_ofNat]
  omega

theorem wordX2_fields {w : W32} {op : Nat} {dir : Bool} {f : FmtX2} (hw : w = wordX2 op dir f) (hop : op < 64) :
    (w.extractLsb' 26 6).toNat = op ∧ (w.extractLsb' 7 2).toNat = 1 ∧ w.getLsbD 9 = dir ∧ decX2 w = f := by
  obtain ⟨unit, lane, c, g, w, zero⟩ := f
  have := b2n_lt_two unit; have := b2n_lt_two dir
  have digits := toNat_of_eq_ofNat hw (by dsimp only; omega)
  dsimp only at digits
  simp only [decX2, FmtX2.mk.injEq, ← BitVec.toNat_inj, toNat_extract, getLsbD_eq_iff]
  omega

theorem wordX2_decX2 {w : W32} {op : Nat} {dir : Bool} (hop : (w.extractLsb' 26 6).toNat = op) (hkind : (w.extractLsb' 7 2).toNat = 1) (hdir : w.getLsbD 9 = dir) :
    wordX2 op dir (decX2 w) = w := by
  subst hop hdir
  rw [toNat_extract] at hkind
  apply BitVec.eq_of_toNat_eq
  simp only [wordX2, decX2, toNat_extract, b2n_getLsbD, BitVec.toNat_ofNat]
  omega

theorem wordX3_fields {w : W32} {op : Nat} {dir : Bool} {f : FmtX3} (hw : w = wordX3 op dir f) (hop : op < 64) :
    (w.extractLsb' 26 6).toNat = op ∧ (w.extractLsb' 7 2).toNat = 2 ∧ w.getLsbD 6 = dir ∧ decX3 w = f := by
  obtain ⟨unit, lane, c, g, mid, zero⟩ := f
  have := b2n_lt_two unit; have := b2n_lt_two dir
  have digits := toNat_of_eq_ofNat hw (by dsimp only; omega)
  dsimp only at digits
  simp only [decX3, FmtX3.mk.injEq, ← BitVec.toNat_inj, toNat_extract, getLsbD_eq_iff]
  omega

theorem wordX3_decX3 {w : W32} {op : Nat} {dir : Bool} (hop : (w.extractLsb' 26 6).toNat = op) (hkind : (w.extractLsb' 7 2).toNat = 2) (hdir : w.getLsbD 6 = dir) :
    wordX3 op dir (decX3 w) = w := by
  subst hop hdir
  rw [toNat_extract] at hkind
  apply BitVec.eq_of_toNat_eq
  simp only [wordX3, decX3, toNat_extract, b2n_getLsbD, BitVec.toNat_ofNat]
  omega

theorem wordX4_fields {w : W32} {op : Nat} {f : FmtX4} (hw : w = wordX4 op f) (hop : op < 64) :
    (w.extractLsb' 26 6).toNat = op ∧ (w.extractLsb' 7 2).toNat = 3 ∧ decX4 w = f := by
  obtain ⟨unit, lane, mid, zero⟩ := f
  have := b2n_lt_two unit
  have digits := toNat_of_eq_ofNat hw (by dsimp only; omega)
  dsimp only at digits
  simp only [decX4, FmtX4.mk.injEq, ← BitVec.toNat_inj, toNat_extract, getLsbD_eq_iff]
  omega

theorem wordX4_decX4 {w : W32} {op : Nat} (hop : (w.extractLsb' 26 6).toNat = op) (hkind : (w.extractLsb' 7 2).toNat = 3) :
    wordX4 op (decX4 w) = w := by
  subst hop
  rw [toNat_extract] at hkind
  apply BitVec.eq_of_toNat_eq
  simp only [wordX4, decX4, toNat_extract, b2n_getLsbD, BitVec.toNat_ofNat]
  omega

/-! ## The opcodes that select by FN, COND or KIND -/

section
variable {t : BitVec 14} {w : W32}

theorem isaDecode_alu (h : (w.extractLsb' 26 6).toNat = 0x00) : isaDecode t w = decAlu t w := by rw [isaDecode, h]; rfl
theorem isaDecode_branch (h : (w.extractLsb' 26 6).toNat = 0x18) : isaDecode t w = decBranch t w := by rw [isaDecode, h]; rfl
theorem isaDecode_bitBranch (h : (w.extractLsb' 26 6).toNat = 0x19) :
    isaDecode t w = some (if w.getLsbD 25 then .bbS t (decBB w) else .bbC t (decBB w)) := by rw [isaDecode, h]; rfl
theorem isaDecode_jumpReg (h : (w.extractLsb' 26 6).toNat = 0x1C) : isaDecode t w = decJumpReg t w := by rw [isaDecode, h]; rfl
theorem isaDecode_bit (h : (w.extractLsb' 26 6).toNat = 0x1D) : isaDecode t w = decBit t w := by rw [isaDecode, h]; rfl
theorem isaDecode_acc (h : (w.extractLsb' 26 6).toNat = 0x1F) : isaDecode t w = decAcc t w := by rw [isaDecode, h]; rfl
theorem isaDecode_lookup (h : (w.extractLsb' 26 6).toNat = 0x20) : isaDecode t w = decLookup t w := by rw [isaDecode, h]; rfl
theorem isaDecode_cell (h : (w.extractLsb' 26 6).toNat = 0x21) : isaDecode t w = decCell t w := by rw [isaDecode, h]; rfl
theorem isaDecode_item (h : (w.extractLsb' 26 6).toNat = 0x22) : isaDecode t w = decItem t w := by rw [isaDecode, h]; rfl
theorem isaDecode_flint (h : (w.extractLsb' 26 6).toNat = 0x23) : isaDecode t w = decFlint t w := by rw [isaDecode, h]; rfl
theorem isaDecode_channel (h : (w.extractLsb' 26 6).toNat = 0x24) : isaDecode t w = decChannel t w := by rw [isaDecode, h]; rfl
theorem isaDecode_event (h : (w.extractLsb' 26 6).toNat = 0x25) : isaDecode t w = decEvent t w := by rw [isaDecode, h]; rfl
theorem isaDecode_dma (h : (w.extractLsb' 26 6).toNat = 0x26) : isaDecode t w = decDma t w := by rw [isaDecode, h]; rfl
theorem isaDecode_cpx (h : (w.extractLsb' 26 6).toNat = 0x27) : isaDecode t w = decCpx t w := by rw [isaDecode, h]; rfl
theorem isaDecode_sys (h : (w.extractLsb' 26 6).toNat = 0x28) : isaDecode t w = decSys t w := by rw [isaDecode, h]; rfl
theorem isaDecode_crc (h : (w.extractLsb' 26 6).toNat = 0x29) : isaDecode t w = decCrc t w := by rw [isaDecode, h]; rfl

end

/-! ## A row's word decodes to the row -/

theorem isaDecode_of_isaWord {i : Instr} {t : BitVec 14} {w : W32} (h : isaWord i = some (t, w)) : isaDecode t w = some i := by
  generalize hp : (t, w) = p at h
  cases i <;> cases h <;> obtain ⟨rfl, hw⟩ := Prod.mk.inj hp
  case add | sub | and | or | xor | shl | shr | sar | rol | ror | mul | mulhu | mulhs | min | max | minu | maxu | slt | sltu | clz | popc
      | bswap | csum | csumf | ext | ins | addc | subb | sel =>
    obtain ⟨hop, hfn, hdec⟩ := wordR_fields hw (by decide) (by decide)
    rw [isaDecode_alu hop, decAlu, hfn, hdec]
    rfl
  case addi | andi | ori | xori | lui | shi | cmpi | ldB | ldBs | ldH | ldHs | ldW | ldnH | ldnW | lda | stB | stH | stW | stnH | stnW | sta
      | csld =>
    obtain ⟨hop, hdec⟩ := wordI_fields hw (by decide)
    rw [isaDecode, hop, hdec]
    rfl
  case beq | bne | blt | bge | bltu | bgeu =>
    obtain ⟨hop, hcond, hdec⟩ := wordBR_fields hw (by decide) (by decide)
    rw [isaDecode_branch hop, decBranch, hcond, hdec]
    rfl
  case bbS | bbC =>
    obtain ⟨hop, hsense, hdec⟩ := wordBB_fields hw (by decide)
    rw [isaDecode_bitBranch hop, hsense, hdec]
    rfl
  case jmp | call =>
    obtain ⟨hop, hdec⟩ := wordJ_fields hw (by decide)
    rw [isaDecode, hop, hdec]
    rfl
  case jr | jalr =>
    obtain ⟨hop, hfn, hdec⟩ := wordR_fields hw (by decide) (by decide)
    rw [isaDecode_jumpReg hop, decJumpReg, hfn, hdec]
    rfl
  case bset | bclr | bnot | btst | btas | btac | bput | bget =>
    obtain ⟨hop, hfn, hdec⟩ := wordBT_fields hw (by decide) (by decide)
    rw [isaDecode_bit hop, decBit, hfn, hdec]
    rfl
  case macd =>
    obtain ⟨hop, hdec⟩ := wordMD_fields hw (by decide)
    rw [isaDecode, hop, hdec]
    rfl
  case mac | macu | mfa | mta | clra =>
    obtain ⟨hop, hfn, hdec⟩ := wordR_fields hw (by decide) (by decide)
    rw [isaDecode_acc hop, decAcc, hfn, hdec]
    rfl
  case crcb | crch | crcw =>
    obtain ⟨hop, hfn, hdec⟩ := wordR_fields hw (by decide) (by decide)
    rw [isaDecode_crc hop, decCrc, hfn, hdec]
    rfl
  case lkp | lkpw =>
    obtain ⟨hop, hfn, hdec⟩ := wordU_fields hw (by decide) (by decide)
    rw [isaDecode_lookup hop, decLookup, hfn, hdec]
    rfl
  case lkw =>
    obtain ⟨hop, hfn, hdec⟩ := wordUI_fields hw (by decide) (by decide)
    rw [isaDecode_lookup hop, decLookup, hfn, hdec]
    rfl
  case cld | cst | calloc | cref | cfree =>
    obtain ⟨hop, hfn, hdec⟩ := wordU_fields hw (by decide) (by decide)
    rw [isaDecode_cell hop, decCell, hfn, hdec]
    rfl
  case get =>
    obtain ⟨hop, hfn, hdec⟩ := wordUI_fields hw (by decide) (by decide)
    rw [isaDecode_item hop, decItem, hfn, hdec]
    rfl
  case enqInstruction | enqNb | enqd | enqdNb | emit | emitk | drop | aend | dly | wfrm =>
    obtain ⟨hop, hfn, hdec⟩ := wordU_fields hw (by decide) (by decide)
    rw [isaDecode_item hop, decItem, hfn, hdec]
    rfl
  case fla | flt | flr | fsa | fst | fsr | fwr | fwc =>
    obtain ⟨hop, hfn, hdec⟩ := wordU_fields hw (by decide) (by decide)
    rw [isaDecode_flint hop, decFlint, hfn, hdec]
    rfl
  case chsend | chsendNb | chrecv | chrecvNb | chwatch =>
    obtain ⟨hop, hfn, hdec⟩ := wordU_fields hw (by decide) (by decide)
    rw [isaDecode_channel hop, decChannel, hfn, hdec]
    rfl
  case stw | stgm | stgr =>
    obtain ⟨hop, hfn, hdec⟩ := wordUI_fields hw (by decide) (by decide)
    rw [isaDecode_channel hop, decChannel, hfn, hdec]
    rfl
  case wait | waitt | tarm | tdis | sev | rdnt =>
    obtain ⟨hop, hfn, hdec⟩ := wordU_fields hw (by decide) (by decide)
    rw [isaDecode_event hop, decEvent, hfn, hdec]
    rfl
  case dma =>
    obtain ⟨hop, hfn, hdec⟩ := wordU_fields hw (by decide) (by decide)
    rw [isaDecode_dma hop, decDma, hfn, hdec]
    rfl
  case feat | trap =>
    obtain ⟨hop, hfn, hdec⟩ := wordUI_fields hw (by decide) (by decide)
    rw [isaDecode_sys hop, decSys, hfn, hdec]
    rfl
  case cnt | rdtid | brk =>
    obtain ⟨hop, hfn, hdec⟩ := wordU_fields hw (by decide) (by decide)
    rw [isaDecode_sys hop, decSys, hfn, hdec]
    rfl
  case mtc | mfc =>
    obtain ⟨hop, hkind, hdir, hdec⟩ := wordX2_fields hw (by decide)
    rw [isaDecode_cpx hop, decCpx, hkind, hdir, hdec]
    rfl
  case lcq | scq =>
    obtain ⟨hop, hkind, hdir, hdec⟩ := wordX3_fields hw (by decide)
    rw [isaDecode_cpx hop, decCpx, hkind, hdir, hdec]
    rfl
  case cpwait =>
    obtain ⟨hop, hkind, hdec⟩ := wordX4_fields hw (by decide)
    rw [isaDecode_cpx hop, decCpx, hkind, hdec]
    rfl
  all_goals
    obtain ⟨hop, hkind, hcop, hdec⟩ := wordX1_fields hw (by decide) (by decide)
    rw [isaDecode_cpx hop, decCpx, hkind]
    show decCpop _ _ = _
    rw [decCpop, hcop, hdec]
    rfl

/-! ## A word that decodes is the word of its row -/

section
variable {t : BitVec 14} {w : W32} {i : Instr}

theorem isaWord_of_decAlu (hop : (w.extractLsb' 26 6).toNat = 0x00) (h : decAlu t w = some i) : isaWord i = some (t, w) := by
  unfold decAlu at h
  split at h <;> cases h <;> exact congrArg (fun v => some (t, v)) (wordR_decR hop ‹_›)

theorem isaWord_of_decBranch (hop : (w.extractLsb' 26 6).toNat = 0x18) (h : decBranch t w = some i) : isaWord i = some (t, w) := by
  unfold decBranch at h
  split at h <;> cases h <;> exact congrArg (fun v => some (t, v)) (wordBR_decBR hop ‹_›)

theorem isaWord_of_decJumpReg (hop : (w.extractLsb' 26 6).toNat = 0x1C) (h : decJumpReg t w = some i) : isaWord i = some (t, w) := by
  unfold decJumpReg at h
  split at h <;> cases h <;> exact congrArg (fun v => some (t, v)) (wordR_decR hop ‹_›)

theorem isaWord_of_decBit (hop : (w.extractLsb' 26 6).toNat = 0x1D) (h : decBit t w = some i) : isaWord i = some (t, w) := by
  unfold decBit at h
  split at h <;> cases h <;> exact congrArg (fun v => some (t, v)) (wordBT_decBT hop ‹_›)

theorem isaWord_of_decAcc (hop : (w.extractLsb' 26 6).toNat = 0x1F) (h : decAcc t w = some i) : isaWord i = some (t, w) := by
  unfold decAcc at h
  split at h <;> cases h <;> exact congrArg (fun v => some (t, v)) (wordR_decR hop ‹_›)

theorem isaWord_of_decLookup (hop : (w.extractLsb' 26 6).toNat = 0x20) (h : decLookup t w = some i) : isaWord i = some (t, w) := by
  unfold decLookup at h
  split at h <;> cases h <;> simp only [isaWord, wordU_decU hop ‹_›, wordUI_decUI hop ‹_›]

theorem isaWord_of_decCell (hop : (w.extractLsb' 26 6).toNat = 0x21) (h : decCell t w = some i) : isaWord i = some (t, w) := by
  unfold decCell at h
  split at h <;> cases h <;> exact congrArg (fun v => some (t, v)) (wordU_decU hop ‹_›)

theorem isaWord_of_decItem (hop : (w.extractLsb' 26 6).toNat = 0x22) (h : decItem t w = some i) : isaWord i = some (t, w) := by
  unfold decItem at h
  split at h <;> cases h <;> simp only [isaWord, wordU_decU hop ‹_›, wordUI_decUI hop ‹_›]

theorem isaWord_of_decFlint (hop : (w.extractLsb' 26 6).toNat = 0x23) (h : decFlint t w = some i) : isaWord i = some (t, w) := by
  unfold decFlint at h
  split at h <;> cases h <;> exact congrArg (fun v => some (t, v)) (wordU_decU hop ‹_›)

theorem isaWord_of_decChannel (hop : (w.extractLsb' 26 6).toNat = 0x24) (h : decChannel t w = some i) : isaWord i = some (t, w) := by
  unfold decChannel at h
  split at h <;> cases h <;> simp only [isaWord, wordU_decU hop ‹_›, wordUI_decUI hop ‹_›]

theorem isaWord_of_decEvent (hop : (w.extractLsb' 26 6).toNat = 0x25) (h : decEvent t w = some i) : isaWord i = some (t, w) := by
  unfold decEvent at h
  split at h <;> cases h <;> exact congrArg (fun v => some (t, v)) (wordU_decU hop ‹_›)

theorem isaWord_of_decDma (hop : (w.extractLsb' 26 6).toNat = 0x26) (h : decDma t w = some i) : isaWord i = some (t, w) := by
  unfold decDma at h
  split at h <;> cases h
  exact congrArg (fun v => some (t, v)) (wordU_decU hop ‹_›)

theorem isaWord_of_decSys (hop : (w.extractLsb' 26 6).toNat = 0x28) (h : decSys t w = some i) : isaWord i = some (t, w) := by
  unfold decSys at h
  split at h <;> cases h <;> simp only [isaWord, wordU_decU hop ‹_›, wordUI_decUI hop ‹_›]

theorem isaWord_of_decCrc (hop : (w.extractLsb' 26 6).toNat = 0x29) (h : decCrc t w = some i) : isaWord i = some (t, w) := by
  unfold decCrc at h
  split at h <;> cases h <;> exact congrArg (fun v => some (t, v)) (wordR_decR hop ‹_›)

theorem isaWord_of_decCpop (hop : (w.extractLsb' 26 6).toNat = 0x27) (hkind : (w.extractLsb' 7 2).toNat = 0) (h : decCpop t w = some i) :
    isaWord i = some (t, w) := by
  unfold decCpop at h
  split at h <;> cases h <;> exact congrArg (fun v => some (t, v)) (wordX1_decX1 hop hkind ‹_›)

theorem isaWord_of_decCpx (hop : (w.extractLsb' 26 6).toNat = 0x27) (h : decCpx t w = some i) : isaWord i = some (t, w) := by
  have kinds := (w.extractLsb' 7 2).isLt
  unfold decCpx at h
  split at h
  next hkind => exact isaWord_of_decCpop hop hkind h
  next hkind =>
    cases hdir : w.getLsbD 9 <;> rw [hdir] at h <;> cases h <;> exact congrArg (fun v => some (t, v)) (wordX2_decX2 hop hkind hdir)
  next hkind =>
    cases hdir : w.getLsbD 6 <;> rw [hdir] at h <;> cases h <;> exact congrArg (fun v => some (t, v)) (wordX3_decX3 hop hkind hdir)
  next not0 not1 not2 =>
    simp only [imp_false] at not0 not1 not2
    have hkind : (w.extractLsb' 7 2).toNat = 3 := by omega
    cases h
    exact congrArg (fun v => some (t, v)) (wordX4_decX4 hop hkind)

theorem isaWord_of_isaDecode (h : isaDecode t w = some i) : isaWord i = some (t, w) := by
  unfold isaDecode at h
  split at h
  case h_1 hop => exact isaWord_of_decAlu hop h
  case h_24 hop => exact isaWord_of_decBranch hop h
  case h_25 hop =>
    cases hsense : w.getLsbD 25 <;> rw [hsense] at h <;> cases h <;> exact congrArg (fun v => some (t, v)) (wordBB_decBB hop hsense)
  case h_26 hop | h_27 hop =>
    cases h
    exact congrArg (fun v => some (t, v)) (wordJ_decJ hop)
  case h_28 hop => exact isaWord_of_decJumpReg hop h
  case h_29 hop => exact isaWord_of_decBit hop h
  case h_30 hop =>
    cases h
    exact congrArg (fun v => some (t, v)) (wordMD_decMD hop)
  case h_31 hop => exact isaWord_of_decAcc hop h
  case h_32 hop => exact isaWord_of_decLookup hop h
  case h_33 hop => exact isaWord_of_decCell hop h
  case h_34 hop => exact isaWord_of_decItem hop h
  case h_35 hop => exact isaWord_of_decFlint hop h
  case h_36 hop => exact isaWord_of_decChannel hop h
  case h_37 hop => exact isaWord_of_decEvent hop h
  case h_38 hop => exact isaWord_of_decDma hop h
  case h_39 hop => exact isaWord_of_decCpx hop h
  case h_40 hop => exact isaWord_of_decSys hop h
  case h_41 hop => exact isaWord_of_decCrc hop h
  case h_42 => contradiction
  all_goals
    cases h
    exact congrArg (fun v => some (t, v)) (wordI_decI ‹_›)

end

/-! ## A word that no row has -/

theorem bits_eq_extract (v : W32) (hi lo : Nat) : bits v.toNat hi lo = (v.extractLsb' lo (hi + 1 - lo)).toNat := by
  rw [BitVec.extractLsb'_toNat]
  rfl

section
variable {t : BitVec 14} {w : W32}

theorem undefinedWord_of_isaDecode (h : isaDecode t w = none) : undefinedWord w = true := by
  unfold isaDecode at h
  split at h
  case h_1 hop | h_24 hop | h_28 hop | h_29 hop | h_31 hop | h_32 hop | h_33 hop | h_34 hop | h_35 hop | h_36 hop | h_37 hop | h_38 hop
      | h_40 hop | h_41 hop =>
    simp only [decAlu, decBranch, decJumpReg, decBit, decAcc, decLookup, decCell, decItem, decFlint, decChannel, decEvent, decDma, decSys,
      decCrc] at h
    split at h <;> cases h
    simp only [imp_false] at *
    simp [undefinedWord, bits_eq_extract, hop, -BitVec.extractLsb'_toNat]
    omega
  case h_39 hop =>
    unfold decCpx at h
    split at h
    case h_1 hkind =>
      unfold decCpop at h
      split at h <;> cases h
      simp only [imp_false] at *
      simp [undefinedWord, bits_eq_extract, hop, hkind, copDefined, -BitVec.extractLsb'_toNat]
      split <;> omega
    all_goals cases h
  case h_42 =>
    simp only [imp_false] at *
    have undefinedOp : (w.extractLsb' 26 6).toNat = 0x17 ∨ 0x2A ≤ (w.extractLsb' 26 6).toNat := by omega
    simp_all [undefinedWord, bits_eq_extract, -BitVec.extractLsb'_toNat]
  all_goals cases h

end

/-- Settles O56: the fields of each format are the digits of the word, so the decoder's table is the encoder's read backwards, row by row. -/
theorem encodingsAgree : Obligations.EncodingsAgree :=
  ⟨fun _ _ _ => isaDecode_of_isaWord, fun _ _ _ => isaWord_of_isaDecode, fun _ _ => undefinedWord_of_isaDecode⟩

end Sys2Proof.Machine

/-!
PROOF. The ALU instructions (R305). Every row is one of a few shapes: the result with Z and N, with Z alone, with no flag, with the bit
that a shift puts out, or a sum or difference with all four flags; each shape has one lemma, and each instruction is one use of it.
-/

namespace Sys2Proof.Machine

/-! ## Sums and differences with a carry -/

theorem setCVZN_eq (x : Thread) (c v : Bool) (r : W32) : { x with flags := (setCVZN x c v r).flags } = setCVZN x c v r := rfl

theorem addInto_eq (x : Thread) (d : Nat) (a b : W32) (k : Bool) : addInto x d a b k =
    gSet { x with flags := (setCVZN x (decide (2 ^ 32 ≤ a.toNat + b.toNat + b2n k))
      (decide (a.toInt + b.toInt + b2n k ≠ (a + b + BitVec.ofNat 32 (b2n k)).toInt)) (a + b + BitVec.ofNat 32 (b2n k))).flags } d
      (a + b + BitVec.ofNat 32 (b2n k)) := by
  rw [setCVZN_eq, addInto]

theorem subInto_eq (x : Thread) (d : Nat) (a b : W32) (k : Bool) : subInto x d a b k =
    gSet { x with flags := (setCVZN x (decide (a.toNat < b.toNat + b2n k))
      (decide (a.toInt - b.toInt - b2n k ≠ (a - b - BitVec.ofNat 32 (b2n k)).toInt)) (a - b - BitVec.ofNat 32 (b2n k))).flags } d
      (a - b - BitVec.ofNat 32 (b2n k)) := by
  rw [setCVZN_eq, subInto]

/-! ## Shapes of OP 0x00 -/

section
variable {i : BitVec 14 → FmtR → Instr} {fn : Nat}

theorem aluRuns_of_putZN {r : W32 → W32 → W32} (hi : ∀ t f s, exec (i t f) s = aluRow fn (fun x d a b => putZN x d (r a b)) t f s) :
    AluRuns i fn (fun _ a b => r a b) (fun _ _ _ => none) (fun _ _ _ => none) (fun _ a b => some (r a b == 0))
      (fun _ a b => some (r a b).msb) :=
  aluRow_runs hi (fun x a b => (setZN x (r a b)).flags) (fun _ _ _ _ => rfl) (fun x _ _ _ hj => setZN_get x _ hj)

theorem aluRuns_of_gSet {r : Bool → W32 → W32 → W32}
    (hi : ∀ t f s, exec (i t f) s = aluRow fn (fun x d a b => gSet x d (r (flagC x) a b)) t f s) :
    AluRuns i fn r (fun _ _ _ => none) (fun _ _ _ => none) (fun _ _ _ => none) (fun _ _ _ => none) :=
  aluRow_runs hi (fun x _ _ => x.flags) (fun _ _ _ _ => rfl) (fun x _ _ j _ => noFlag_get x.flags j)

/-- A shift of gA by gB[4:0] that puts out bit `out a n`. -/
theorem aluRuns_of_shift {r : W32 → Nat → W32} {out : W32 → Nat → Bool}
    (hi : ∀ t f s, exec (i t f) s = aluRow fn (fun x d a b => putZN (shiftC x (shiftBy b) (out a (shiftBy b))) d (r a (shiftBy b))) t f s) :
    AluRuns i fn (fun _ a b => r a (b.toNat % 32)) (fun _ a b => if b.toNat % 32 = 0 then none else some (out a (b.toNat % 32)))
      (fun _ _ _ => none) (fun _ a b => some (r a (b.toNat % 32) == 0)) (fun _ a b => some (r a (b.toNat % 32)).msb) :=
  aluRow_runs hi (fun x a b => (setZN (shiftC x (shiftBy b) (out a (shiftBy b))) (r a (shiftBy b))).flags)
    (fun _ _ _ _ => putShift_eq ..) (fun x _ _ _ hj => shift_get x _ _ _ hj)

theorem aluRuns_of_addInto (hi : ∀ t f s, exec (i t f) s = aluRow fn (fun x d a b => addInto x d a b false) t f s) :
    AluRuns i fn (fun _ a b => a + b) (fun _ a b => some (decide (2 ^ 32 ≤ a.toNat + b.toNat)))
      (fun _ a b => some (decide (a.toInt + b.toInt ≠ (a + b).toInt))) (fun _ a b => some (a + b == 0)) (fun _ a b => some (a + b).msb) :=
  aluRow_runs hi (fun x a b => (setCVZN x (decide (2 ^ 32 ≤ a.toNat + b.toNat)) (decide (a.toInt + b.toInt ≠ (a + b).toInt)) (a + b)).flags)
    addInto_false (fun x _ _ _ hj => setCVZN_get x _ _ _ hj)

theorem aluRuns_of_subInto (hi : ∀ t f s, exec (i t f) s = aluRow fn (fun x d a b => subInto x d a b false) t f s) :
    AluRuns i fn (fun _ a b => a - b) (fun _ a b => some (decide (a.toNat < b.toNat)))
      (fun _ a b => some (decide (a.toInt - b.toInt ≠ (a - b).toInt))) (fun _ a b => some (a - b == 0)) (fun _ a b => some (a - b).msb) :=
  aluRow_runs hi (fun x a b => (setCVZN x (decide (a.toNat < b.toNat)) (decide (a.toInt - b.toInt ≠ (a - b).toInt)) (a - b)).flags)
    subInto_false (fun x _ _ _ hj => setCVZN_get x _ _ _ hj)

theorem aluRuns_of_addInto_carry (hi : ∀ t f s, exec (i t f) s = aluRow fn (fun x d a b => addInto x d a b (flagC x)) t f s) :
    AluRuns i fn (fun k a b => a + b + BitVec.ofNat 32 (b2n k)) (fun k a b => some (decide (2 ^ 32 ≤ a.toNat + b.toNat + b2n k)))
      (fun k a b => some (decide (a.toInt + b.toInt + b2n k ≠ (a + b + BitVec.ofNat 32 (b2n k)).toInt)))
      (fun k a b => some (a + b + BitVec.ofNat 32 (b2n k) == 0)) (fun k a b => some (a + b + BitVec.ofNat 32 (b2n k)).msb) :=
  aluRow_runs hi (fun x a b => (setCVZN x (decide (2 ^ 32 ≤ a.toNat + b.toNat + b2n (flagC x)))
      (decide (a.toInt + b.toInt + b2n (flagC x) ≠ (a + b + BitVec.ofNat 32 (b2n (flagC x))).toInt))
      (a + b + BitVec.ofNat 32 (b2n (flagC x)))).flags)
    (fun x d a b => addInto_eq x d a b (flagC x)) (fun x _ _ _ hj => setCVZN_get x _ _ _ hj)

theorem aluRuns_of_subInto_borrow (hi : ∀ t f s, exec (i t f) s = aluRow fn (fun x d a b => subInto x d a b (flagC x)) t f s) :
    AluRuns i fn (fun k a b => a - b - BitVec.ofNat 32 (b2n k)) (fun k a b => some (decide (a.toNat < b.toNat + b2n k)))
      (fun k a b => some (decide (a.toInt - b.toInt - b2n k ≠ (a - b - BitVec.ofNat 32 (b2n k)).toInt)))
      (fun k a b => some (a - b - BitVec.ofNat 32 (b2n k) == 0)) (fun k a b => some (a - b - BitVec.ofNat 32 (b2n k)).msb) :=
  aluRow_runs hi (fun x a b => (setCVZN x (decide (a.toNat < b.toNat + b2n (flagC x)))
      (decide (a.toInt - b.toInt - b2n (flagC x) ≠ (a - b - BitVec.ofNat 32 (b2n (flagC x))).toInt))
      (a - b - BitVec.ofNat 32 (b2n (flagC x)))).flags)
    (fun x d a b => subInto_eq x d a b (flagC x)) (fun x _ _ _ hj => setCVZN_get x _ _ _ hj)

theorem aluRuns1_of_putZ {r : W32 → W32} (hi : ∀ t f s, exec (i t f) s = aluRow1 fn (fun x d a => putZ x d (r a)) t f s) :
    AluRuns1 i fn r (fun a => some (r a == 0)) :=
  aluRow1_runs hi (fun x a => (setZ x (r a == 0)).flags) (fun _ _ _ => rfl) (fun x _ _ hj => setZ_get x _ hj)

theorem aluRuns1_of_gSet {r : W32 → W32} (hi : ∀ t f s, exec (i t f) s = aluRow1 fn (fun x d a => gSet x d (r a)) t f s) :
    AluRuns1 i fn r (fun _ => none) :=
  aluRow1_runs hi (fun x _ => x.flags) (fun _ _ _ => rfl) (fun x _ j _ => noFlag_get x.flags j)

end

/-! ## Bit fields -/

theorem exec_ext (t : BitVec 14) (f : FmtR) (s : State) : exec (.ext t f) s = execExt t f s := rfl
theorem exec_ins (t : BitVec 14) (f : FmtR) (s : State) : exec (.ins t f) s = execIns t f s := rfl

theorem ext_wrote {s : State} {t : BitVec 14} {f : FmtR} (h : Issues s t.toNat (wordR 0x00 25 f)) :
    Wrote s (exec (.ext t f) s) t.toNat f.rd (extOf (gv (thrOf s t.toNat) f.ra) f.sh.toNat (f.rb.toNat + 1)) none none
      (some (extOf (gv (thrOf s t.toNat) f.ra) f.sh.toNat (f.rb.toNat + 1) == 0)) none := by
  rw [exec_ext, execExt, aluRowField]
  refine issue_wrote h ?_ (fun j hj => setZ_get (turned (thrOf s t.toNat) (thrOf s t.toNat).flags)
    (extOf (gv (thrOf s t.toNat) f.ra) f.sh.toNat (f.rb.toNat + 1) == 0) hj) _ _ _
  rw [takeTurn_turned h]
  rfl

theorem ins_wrote {s : State} {t : BitVec 14} {f : FmtR} (h : Issues s t.toNat (wordR 0x00 26 f)) :
    Wrote s (exec (.ins t f) s) t.toNat f.rd
      (insOf (gv (thrOf s t.toNat) f.rd) (gv (thrOf s t.toNat) f.ra) f.sh.toNat (f.rb.toNat + 1)) none none none none := by
  rw [exec_ins, execIns, aluRowField]
  refine issue_wrote h ?_ (fun j _ => noFlag_get (thrOf s t.toNat).flags j) _ _ _
  rw [takeTurn_turned h]
  rfl

/-- Settles O36: each instruction has the shape that its definition names. -/
theorem aluInstructions : Obligations.AluInstructions := by
  refine ⟨aluRuns_of_addInto fun _ _ _ => rfl, aluRuns_of_subInto fun _ _ _ => rfl, aluRuns_of_putZN fun _ _ _ => rfl,
    aluRuns_of_putZN fun _ _ _ => rfl, aluRuns_of_putZN fun _ _ _ => rfl,
    aluRuns_of_shift (r := fun a n => a <<< n) (out := fun a n => a.getLsbD (32 - n)) fun _ _ _ => rfl,
    aluRuns_of_shift (r := fun a n => a >>> n) (out := fun a n => a.getLsbD (n - 1)) fun _ _ _ => rfl,
    aluRuns_of_shift (r := fun a n => a.sshiftRight n) (out := fun a n => a.getLsbD (n - 1)) fun _ _ _ => rfl, aluRuns_of_putZN fun _ _ _ => rfl, aluRuns_of_putZN fun _ _ _ => rfl, aluRuns_of_putZN fun _ _ _ => rfl,
    aluRuns_of_putZN fun _ _ _ => rfl, aluRuns_of_putZN fun _ _ _ => rfl, aluRuns_of_gSet fun _ _ _ => rfl, aluRuns_of_gSet fun _ _ _ => rfl,
    aluRuns_of_gSet fun _ _ _ => rfl, aluRuns_of_gSet fun _ _ _ => rfl, aluRuns_of_gSet fun _ _ _ => rfl, aluRuns_of_gSet fun _ _ _ => rfl,
    aluRuns1_of_putZ fun _ _ _ => rfl, aluRuns1_of_putZ fun _ _ _ => rfl, aluRuns1_of_gSet fun _ _ _ => rfl, aluRuns_of_gSet fun _ _ _ => rfl,
    aluRuns1_of_putZ fun _ _ _ => rfl, aluRuns_of_addInto_carry fun _ _ _ => rfl, aluRuns_of_subInto_borrow fun _ _ _ => rfl,
    aluRuns_of_gSet fun _ _ _ => rfl, ?_, ?_⟩
  · rintro s t f _ _ h rfl rfl
    exact ext_wrote h
  · rintro s t f _ _ _ h rfl rfl rfl
    exact ins_wrote h

end Sys2Proof.Machine

/-!
PROOF. The ALU instructions with an immediate (R305): the shapes of OP 0x00 over format I, and the three rows with a field that must be 0.
-/

namespace Sys2Proof.Machine

@[simp] theorem turned_flags (x : Thread) (fl : BitVec 1024) : (turned x fl).flags = fl := rfl

/-! ## Shapes of format I -/

section
variable {i : BitVec 14 → FmtI → Instr} {op : Nat}

theorem immRuns_of_putZN {r : W32 → BitVec 16 → W32}
    (hi : ∀ t f s, exec (i t f) s = aluRowI op false [f.rd.toNat] (fun x a => putZN x f.rd.toNat (r a f.imm)) t f s) :
    ImmRuns i op r (fun _ _ => none) (fun _ _ => none) (fun a m => some (r a m == 0)) (fun a m => some (r a m).msb) :=
  aluRowI_runs hi (fun x a m => (setZN x (r a m)).flags) (fun _ _ _ => rfl) (fun x _ _ _ hj => setZN_get x _ hj)

theorem addi_runs : ImmRuns .addi 0x01 (fun a i => a + i.signExtend 32) (fun a i => some (decide (2 ^ 32 ≤ a.toNat + (i.signExtend 32).toNat)))
    (fun a i => some (decide (a.toInt + (i.signExtend 32).toInt ≠ (a + i.signExtend 32).toInt)))
    (fun a i => some (a + i.signExtend 32 == 0)) (fun a i => some (a + i.signExtend 32).msb) :=
  aluRowI_runs (g := fun f x a => addInto x f.rd.toNat a (f.imm.signExtend 32) false) (fun _ _ _ => rfl)
    (fun x a i => (setCVZN x (decide (2 ^ 32 ≤ a.toNat + (i.signExtend 32).toNat))
      (decide (a.toInt + (i.signExtend 32).toInt ≠ (a + i.signExtend 32).toInt)) (a + i.signExtend 32)).flags)
    (fun f x a => addInto_false x f.rd.toNat a (f.imm.signExtend 32)) (fun x _ _ _ hj => setCVZN_get x _ _ _ hj)

end

/-- A row whose fields are good writes `v` to `rd` and leaves the flags `fl`. -/
theorem aluRowI_wrote {s : State} {t : BitVec 14} {f : FmtI} {op : Nat} {bad : Bool} {g : Thread → W32 → Thread} {rd : BitVec 5} {v : W32}
    {fl : BitVec 1024} {c ov z n : Option Bool} (h : Issues s t.toNat (wordI op f)) (hbad : bad = false)
    (hg : g (turned (thrOf s t.toNat) (thrOf s t.toNat).flags) (gv (thrOf s t.toNat) f.ra) = gSet (turned (thrOf s t.toNat) fl) rd.toNat v)
    (hf : ∀ j < 1024, fl.getLsbD j = flagOr c ov z n (thrOf s t.toNat).flags j) (wrs : List Nat) :
    Wrote s (aluRowI op bad wrs g t f s) t.toNat rd v c ov z n := by
  rw [aluRowI]
  refine issue_wrote (fl := fl) h ?_ hf _ _ _
  rw [if_neg (by simp [hbad]), takeTurn_turned h]
  exact congrArg (doneThr (takeTurn s t.toNat) t.toNat) hg

theorem aluRowI_faults {s : State} {t : BitVec 14} {f : FmtI} {op : Nat} {bad : Bool} (h : Issues s t.toNat (wordI op f)) (hbad : bad = true)
    (g : Thread → W32 → Thread) (wrs : List Nat) : Faults s (aluRowI op bad wrs g t f s) t.toNat cIllegal (wordI op f).toNat := by
  rw [aluRowI]
  exact issue_fault h (if_pos hbad) _ _ _

/-! ## Rows with a field that must be 0 -/

theorem exec_lui (t : BitVec 14) (f : FmtI) (s : State) : exec (.lui t f) s = execLui t f s := rfl
theorem exec_shi (t : BitVec 14) (f : FmtI) (s : State) : exec (.shi t f) s = execShi t f s := rfl
theorem exec_cmpi (t : BitVec 14) (f : FmtI) (s : State) : exec (.cmpi t f) s = execCmpi t f s := rfl

/-- IMM16[6:5] of `shi` names a shift by IMM16[4:0], which puts out a bit, or a rotation. -/
theorem shi_wrote {s : State} {t : BitVec 14} {f : FmtI} (h : Issues s t.toNat (wordI 0x06 f)) (himm : f.imm.toNat < 128) {a r : W32} {k n : Nat}
    (ha : a = gv (thrOf s t.toNat) f.ra) (hk : k = f.imm.toNat / 32 % 4) (hn : n = f.imm.toNat % 32)
    (hr : r = (if k = 0 then a <<< n else if k = 1 then a >>> n else if k = 2 then a.sshiftRight n else a.rotateLeft n)) :
    Wrote s (exec (.shi t f) s) t.toNat f.rd r
      (if n = 0 ∨ k = 3 then none else some (a.getLsbD (if k = 0 then 32 - n else n - 1))) none (some (r == 0)) (some r.msb) := by
  have good : decide (f.imm.toNat / 128 ≠ 0) = false := by simp; omega
  have hk4 : k < 4 := by omega
  have shifts (out : Bool) (j : Nat) (hj : j < 1024) := shift_get (turned (thrOf s t.toNat) (thrOf s t.toNat).flags) n out r hj
  rw [exec_shi, execShi]
  obtain rfl | rfl | rfl | rfl : k = 0 ∨ k = 1 ∨ k = 2 ∨ k = 3 := by omega
  · refine aluRowI_wrote h good (fl := (setZN (shiftC (turned (thrOf s t.toNat) (thrOf s t.toNat).flags) n (a.getLsbD (32 - n))) r).flags) ?_ ?_ _
    · simp only [← hk, ← hn, ← ha, hr, if_true, shlInto]
      exact putShift_eq ..
    · simpa using shifts _
  · refine aluRowI_wrote h good (fl := (setZN (shiftC (turned (thrOf s t.toNat) (thrOf s t.toNat).flags) n (a.getLsbD (n - 1))) r).flags) ?_ ?_ _
    · simp only [← hk, ← hn, ← ha, hr, if_true, shrInto, one_ne_zero, if_false]
      exact putShift_eq ..
    · simpa using shifts _
  · refine aluRowI_wrote h good (fl := (setZN (shiftC (turned (thrOf s t.toNat) (thrOf s t.toNat).flags) n (a.getLsbD (n - 1))) r).flags) ?_ ?_ _
    · simp only [← hk, ← hn, ← ha, hr, if_true, sarInto, OfNat.ofNat_ne_zero, OfNat.ofNat_ne_one, if_false]
      exact putShift_eq ..
    · simpa using shifts _
  · refine aluRowI_wrote h good (fl := (setZN (turned (thrOf s t.toNat) (thrOf s t.toNat).flags) r).flags) ?_ ?_ _
    · simp only [← hk, ← hn, ← ha, hr, rolInto, OfNat.ofNat_ne_zero, OfNat.ofNat_ne_one, if_false]
      rfl
    · simpa using fun j hj => setZN_get (turned (thrOf s t.toNat) (thrOf s t.toNat).flags) r hj

/-- Settles O37: `addi` and the logic rows have the shapes of OP 0x00; `lui`, `shi` and `cmpi` check a field first. -/
theorem immediateInstructions : Obligations.ImmediateInstructions := by
  refine ⟨addi_runs, immRuns_of_putZN fun _ _ _ => rfl, immRuns_of_putZN fun _ _ _ => rfl, immRuns_of_putZN fun _ _ _ => rfl, ?_, ?_, ?_⟩
  · intro s t f h
    rw [exec_lui, execLui]
    exact ⟨fun hra => aluRowI_wrote h (by simp [hra]) rfl (fun j _ => noFlag_get _ j) _, fun hra => aluRowI_faults h (bne_iff_ne.mpr hra) _ _⟩
  · intro s t f a r k n h ha hk hn hr
    refine ⟨fun himm => shi_wrote h himm ha hk hn hr, fun himm => ?_⟩
    rw [exec_shi, execShi]
    exact aluRowI_faults h (by simp; omega) _ _
  · rintro s t f a b h rfl rfl
    rw [exec_cmpi, execCmpi]
    refine ⟨fun hrd => ?_, fun hrd => aluRowI_faults h (bne_iff_ne.mpr hrd) _ _⟩
    exact aluRowI_wrote h (by simp [hrd]) (subInto_false ..) (fun j hj => setCVZN_get (turned _ _) _ _ _ hj) _

end Sys2Proof.Machine

/-!
PROOF. A few words taken apart (R303–R333).
-/

namespace Sys2Proof.Machine

/-- Settles O57: the decoder is run on each word. -/
theorem encodingSamples : Obligations.EncodingSamples := by
  unfold Obligations.EncodingSamples
  decide

end Sys2Proof.Machine

/-!
PROOF. What a turn comes to before an instruction has its effect (R262, R264, R269, R276, R304), case by case of `issueAt`.
-/

namespace Sys2Proof.Machine

section
variable {s : State} {t : Nat} {w : W32} {rds wrs : List Nat} {sq : State → State} {body : State → Res}

theorem issueAt_of_noTurn (h : canTurn s t = false) : issueAt t w rds wrs sq body s = .next s := by
  simp [issueAt, h]

theorem issueAt_of_budgetLate (h : canTurn s t = true) (hb : budgetLate s t = true) :
    issueAt t w rds wrs sq body s = .next (thrFault s t cBudget 0) := by
  simp [issueAt, h, hb]

theorem issueAt_of_miss (h : canTurn s t = true) (hb : budgetLate s t = false) (hf : fetch s t = .miss) :
    issueAt t w rds wrs sq body s = .next (settleAll (stall (takeTurn s t) t .fetch)) := by
  simp [issueAt, h, hb, hf]

theorem issueAt_of_bad (h : canTurn s t = true) (hb : budgetLate s t = false) (hf : fetch s t = .bad) :
    issueAt t w rds wrs sq body s = .next (thrFault s t cBadAddr (thrOf s t).pc.toNat) := by
  simp [issueAt, h, hb, hf]

theorem issueAt_of_rom (h : canTurn s t = true) (hb : budgetLate s t = false) (hf : fetch s t = .rom) :
    issueAt t w rds wrs sq body s = .next s := by
  simp [issueAt, h, hb, hf]

theorem issueAt_of_otherWord {v : W32} (h : Issues s t v) (hne : v ≠ w) (hd : undefinedWord v = false) :
    issueAt t w rds wrs sq body s = .next s := by
  obtain ⟨turn, inBudget, fetched, _⟩ := h
  simp [issueAt, turn, inBudget, fetched, hne, hd]

theorem issueAt_of_undefinedWord {v : W32} (h : Issues s t v) (hne : v ≠ w) (hd : undefinedWord v = true) :
    Faults s (issueAt t w rds wrs sq body s) t cIllegal v.toNat := by
  obtain ⟨turn, inBudget, fetched, _, _, noBreakpoint, _⟩ := h
  simp [Faults, issueAt, turn, inBudget, fetched, hne, hd, bpMatch_quiet noBreakpoint]

end

/-- A thread that no watchpoint and no step stops goes on at `p`. -/
theorem retire_of_unwatched {s : State} {t : Nat} (live : (thrOf s t).st ≠ .dormant) (running : (thrOf s t).stepping = false)
    (wf : mwf noThread s.gar.thr = true) (unwatched : ∀ j < 2, s.flag F.DBG_CORE_WPC_EN (2 * dbgCore t + j) = false) (p : W32)
    (ts : List Touch) : retire s t p ts = setThr s t { thrOf s t with pc := p, requeued := false } := by
  have unwatchedThen : ∀ j < 2, (setThr s t { thrOf s t with pc := p, requeued := false }).flag F.DBG_CORE_WPC_EN (2 * dbgCore t + j) = false :=
    unwatched
  rw [retire, if_neg live]
  simp only [watch_quiet unwatchedThen, thrOf_setThr wf]
  rw [if_neg (by rw [running]; exact Bool.false_ne_true)]

/-- Settles O35: each way a turn can go is one branch of `issueAt`. -/
theorem issueRules : Obligations.IssueRules :=
  ⟨fun _ _ _ _ _ _ _ h => issueAt_of_noTurn h, fun _ _ _ _ _ _ _ h hb => issueAt_of_budgetLate h hb,
    fun _ _ _ _ _ _ _ h hb => ⟨issueAt_of_miss h hb, issueAt_of_bad h hb, issueAt_of_rom h hb⟩,
    fun _ _ _ _ _ _ _ _ h => ⟨issueAt_of_otherWord h, issueAt_of_undefinedWord h⟩,
    fun _ _ p live running wf unwatched => retire_of_unwatched live running wf unwatched p []⟩

end Sys2Proof.Machine

/-!
PROOF. Loads and stores of plain memory (R265, R306, R307). A place of plain memory is a bank, shared memory or MGT memory; with no check
unit marked and no injection armed, an access there reads or writes the bytes and nothing else.
-/

namespace Sys2Proof.Machine

/-! ## Plain places in a quiet state -/

theorem foldS_noteWrite_quiet {s : State} (h : s.integ.bad = []) (ha : s.flag F.RST_EINJ_CTL_ARM 0 = false) (m c : Nat) (unit addr : Nat → Nat)
    (whole : Nat → Bool) (ws : List Nat) : foldS ws (fun u w => noteWrite u m c (unit w) (addr w) (whole w)) s = s := by
  induction ws with
  | nil => rfl
  | cons w l ih =>
    rw [foldS, List.foldl_cons, noteWrite_quiet h ha]
    exact ih

theorem placeWrite_quiet {s v : State} (h : s.integ.bad = []) (ha : s.flag F.RST_EINJ_CTL_ARM 0 = false) {t : Nat} {p : Place} {bs : List Byte}
    (hw : memWrite s t p bs = some v) : placeWrite s t p bs = v := by
  cases p with
  | bank a =>
    cases hw
    exact foldS_noteWrite_quiet (s := { s with gar := { s.gar with lmem := wrBytes s.gar.lmem (bankKey (coreOf t) a) bs } }) h ha ..
  | shared o =>
    cases hw
    exact foldS_noteWrite_quiet (s := { s with gar := { s.gar with smem := wrBytes s.gar.smem (sharedKey (cluOf t) o) bs } }) h ha ..
  | mgt a =>
    cases hw
    rfl
  | _ => cases hw

/-- A thread's turn changes no memory. -/
theorem memRead_takeTurn (s : State) (t : Nat) (p : Place) (n : Nat) : memRead (takeTurn s t) t p n = memRead s t p n := by
  cases p <;> rfl

theorem memWrite_takeTurn {s v : State} {t : Nat} {p : Place} {bs : List Byte} (hw : memWrite s t p bs = some v) :
    memWrite (takeTurn s t) t p bs = some (takeTurn v t) := by
  cases p <;> cases hw <;> rfl

theorem loadAt_of_plain {s : State} {t op rd ea : Nat} {p : Place} {bs : List Byte} (h : s.integ.bad = [])
    (hacc : accFault s t ea (accBytes op) false = none) (hp : placeOf t ea (accBytes op) = some p)
    (hr : memRead s t p (accBytes op) = some bs) :
    loadAt t op rd ea s = .done (setThr s t (loadInto (thrOf s t) op rd (leNat bs))) [⟨ea, accBytes op, false⟩] := by
  have read := placeRead_quiet h hr
  cases p with
  | bank | shared | mgt => simp only [loadAt, hacc, hp, read]
  | _ => cases hr

theorem storeAt_of_plain {s v : State} {t ea : Nat} {p : Place} {bs : List Byte} (h : s.integ.bad = [])
    (ha : s.flag F.RST_EINJ_CTL_ARM 0 = false) (hacc : accFault s t ea bs.length true = none) (hp : placeOf t ea bs.length = some p)
    (hw : memWrite s t p bs = some v) : storeAt t ea bs s = .done v [⟨ea, bs.length, true⟩] := by
  have written := placeWrite_quiet h ha hw
  cases p with
  | bank | shared | mgt => simp only [storeAt, hacc, hp, written]
  | _ => cases hw

theorem effAddr_takeTurn {s : State} {t : Nat} {w : W32} (h : Issues s t w) (f : FmtI) :
    effAddr (thrOf (takeTurn s t) t) f = effAddr (thrOf s t) f := by
  rw [effAddr, gv_takeTurn h, effAddr]

/-! ## Issues that watchpoints could see -/

/-- An undisturbed instruction that is done in a state of its own thread `x`. -/
theorem issue_done {s v : State} {t : Nat} {w : W32} {body : State → Res} {ts : List Touch} {x : Thread} (h : Issues s t w)
    (hb : body (takeTurn s t) = .done v ts) (hv : Quiet v t) (hw : mwf noThread v.gar.thr = true) (hx : thrOf v t = x) (hd : x.st ≠ .dormant)
    (hs : x.stepping = false) (rds wrs : List Nat) (sq : State → State) :
    issueAt t w rds wrs sq body s = .next (setThr v t { x with pc := x.pc + 4, requeued := false }) := by
  subst hx
  rw [issueAt_eq h, hb, finish_done (show (takeTurn s t).integ.bad = [] from h.quiet.1) hv hw hd hs]

/-- One that only replaces its thread's record. -/
theorem issue_setThr {s : State} {t : Nat} {w : W32} {body : State → Res} {ts : List Touch} {x : Thread} (h : Issues s t w)
    (hb : body (takeTurn s t) = .done (setThr (takeTurn s t) t x) ts) (hd : x.st ≠ .dormant) (hs : x.stepping = false) (rds wrs : List Nat)
    (sq : State → State) : issueAt t w rds wrs sq body s = .next (setThr s t { x with pc := x.pc + 4, requeued := false }) := by
  have turnWf : mwf noThread (takeTurn s t).gar.thr = true := setThr_wf h.threads_wf t _
  rw [issue_done h hb (h.quiet.of_regs rfl rfl) (setThr_wf turnWf t x) (thrOf_setThr turnWf t x) hd hs, setThr_setThr turnWf, takeTurn,
    setThr_setThr h.threads_wf]

/-- One that writes `v` to `rd` and changes no flag. -/
theorem issue_wrote_touching {s : State} {t : Nat} {w : W32} {body : State → Res} {ts : List Touch} {rd : BitVec 5} {v : W32} (h : Issues s t w)
    (hb : body (takeTurn s t) = .done (setThr (takeTurn s t) t (gSet (turned (thrOf s t) (thrOf s t).flags) rd.toNat v)) ts) (rds wrs : List Nat)
    (sq : State → State) : Wrote s (issueAt t w rds wrs sq body s) t rd v none none none none := by
  have next := issue_setThr h hb (by rw [gSet_st]; exact ThrSt.noConfusion) (by rw [gSet_stepping]; exact h.notStepping) rds wrs sq
  obtain ⟨_, _, _, _, _, _, _, _, _, _, regs⟩ := h
  refine ⟨_, _, next, becomes_setThr (by assumption) t _, ?_, fun r => gv_gSet (x := turned (thrOf s t) (thrOf s t).flags) regs rd r v,
    fun i _ => ?_⟩
  · rw [gSet_eta]
    rfl
  · show (gSet (turned (thrOf s t) (thrOf s t).flags) rd.toNat v).flags.getLsbD i = _
    rw [gSet_flags]
    exact noFlag_get _ i

/-! ## Rows -/

theorem loadRow_runs {i : BitVec 14 → FmtI → Instr} {op n : Nat} {r : W32 → List Byte → W32}
    (hi : ∀ t f s, exec (i t f) s = loadRow op noBad t f s) (hn : accBytes op = n)
    (hr : ∀ x rd bs, loadInto x op rd (leNat bs) = gSet x rd (r (gGet x rd) bs)) : LoadRuns i op n r := by
  rintro s t f p bs h ⟨hacc, hp⟩ hm
  subst hn
  rw [hi, loadRow]
  refine issue_wrote_touching (ts := [⟨effAddr (thrOf s t.toNat) f, accBytes op, false⟩]) h ?_ _ _ _
  rw [noBad, if_neg Bool.false_ne_true, effAddr_takeTurn h, loadAt_of_plain (s := takeTurn s t.toNat) h.quiet.1 hacc hp ((memRead_takeTurn ..).trans hm),
    takeTurn_turned h, hr]
  rfl

/-- A store row that may be made leaves its bytes in memory and its thread at the next instruction. -/
theorem storeRow_next {s v : State} {t : BitVec 14} {f : FmtI} {p : Place} {op n : Nat} {bad : FmtI → Bool} {bs : List Byte}
    (h : Issues s t.toNat (wordI op f)) (hbad : bad f = false) (hbs : storeBytes (turned (thrOf s t.toNat) (thrOf s t.toNat).flags) op f.rd.toNat = bs)
    (hn : bs.length = n) (hr : Reaches s t.toNat f n true p) (hw : memWrite s t.toNat p bs = some v) :
    storeRow op bad t f s = .next (setThr v t.toNat (ranOn (thrOf s t.toNat) ((thrOf s t.toNat).pc + 4))) := by
  obtain ⟨hacc, hp⟩ := hr
  subst hn
  have written := memWrite_takeTurn hw
  have frame : v.gar.thr = s.gar.thr ∧ v.regs = s.regs ∧ v.integ = s.integ := by
    cases p <;> cases hw <;> exact ⟨rfl, rfl, rfl⟩
  obtain ⟨hthr, hregs, hinteg⟩ := frame
  have vWf : mwf noThread v.gar.thr = true := by rw [hthr]; exact h.threads_wf
  have turn : thrOf (takeTurn v t.toNat) t.toNat = turned (thrOf s t.toNat) (thrOf s t.toNat).flags := by
    rw [takeTurn, thrOf_setThr vWf, thrOf, hthr]
    rfl
  rw [storeRow, issue_done (v := takeTurn v t.toNat) (ts := [⟨effAddr (thrOf s t.toNat) f, bs.length, true⟩]) h ?_
    (h.quiet.of_regs hregs (by exact congrArg Integ.bad hinteg)) (setThr_wf vWf _ _) turn ThrSt.noConfusion h.notStepping]
  · rw [takeTurn, setThr_setThr vWf]
    rfl
  · rw [hbad, if_neg Bool.false_ne_true, effAddr_takeTurn h, takeTurn_turned h, hbs]
    exact storeAt_of_plain h.quiet.1 h.quiet.2.1 hacc hp written

theorem storeRow_runs {i : BitVec 14 → FmtI → Instr} {op n : Nat} {bs : W32 → List Byte}
    (hi : ∀ t f s, exec (i t f) s = storeRow op noBad t f s) (hn : ∀ d, (bs d).length = n)
    (hs : ∀ x rd, storeBytes x op rd = bs (gGet x rd)) : StoreRuns i op n bs := by
  intro s v t f p h hr hw
  rw [hi]
  exact storeRow_next h rfl (hs _ _) (hn _) hr hw

theorem leBytes_length (n v : Nat) : (leBytes n v).length = n := by simp [leBytes]
theorem beBytes_length (n v : Nat) : (beBytes n v).length = n := by simp [beBytes, leBytes_length]

theorem exec_lda (t : BitVec 14) (f : FmtI) (s : State) : exec (.lda t f) s = loadRow 0x0F badAcc t f s := rfl
theorem exec_sta (t : BitVec 14) (f : FmtI) (s : State) : exec (.sta t f) s = storeRow 0x15 badAcc t f s := rfl
theorem exec_ldW (t : BitVec 14) (f : FmtI) (s : State) : exec (.ldW t f) s = loadRow 0x0C noBad t f s := rfl
theorem exec_stW (t : BitVec 14) (f : FmtI) (s : State) : exec (.stW t f) s = storeRow 0x12 noBad t f s := rfl

theorem lda_ends {s : State} {t : BitVec 14} {f : FmtI} {p : Place} {bs : List Byte} (h : Issues s t.toNat (wordI 0x0F f))
    (hrd : f.rd.toNat < 2) (hr : Reaches s t.toNat f 8 false p) (hm : memRead s t.toNat p 8 = some bs) :
    Ends s (exec (.lda t f) s) t.toNat
      (accSet (ranOn (thrOf s t.toNat) ((thrOf s t.toNat).pc + 4)) f.rd.toNat (BitVec.ofNat 64 (leNat bs))) := by
  obtain ⟨hacc, hp⟩ := hr
  have good : badAcc f = false := by simp [badAcc]; omega
  refine ⟨_, ?_, becomes_setThr h.threads_wf _ _⟩
  rw [exec_lda, loadRow, issue_setThr (x := accSet (turned (thrOf s t.toNat) (thrOf s t.toNat).flags) f.rd.toNat (BitVec.ofNat 64 (leNat bs)))
    (ts := [⟨effAddr (thrOf s t.toNat) f, 8, false⟩]) h ?_ ?_ ?_]
  · unfold accSet
    split <;> rfl
  · rw [good, if_neg Bool.false_ne_true, effAddr_takeTurn h]
    rw [loadAt_of_plain (s := takeTurn s t.toNat) (op := 0x0F) h.quiet.1 hacc hp ((memRead_takeTurn ..).trans hm), takeTurn_turned h]
    have : f.rd.toNat % 2 = f.rd.toNat := Nat.mod_eq_of_lt hrd
    simp [loadInto, this, accBytes]
  · unfold accSet
    split <;> exact ThrSt.noConfusion
  · unfold accSet
    split <;> exact h.notStepping

theorem loadRow_faults_of_access {s : State} {t : BitVec 14} {f : FmtI} {op c : Nat} (h : Issues s t.toNat (wordI op f))
    (hc : accFault (takeTurn s t.toNat) t.toNat (effAddr (thrOf s t.toNat) f) (accBytes op) false = some c) :
    Faults s (loadRow op noBad t f s) t.toNat c (effAddr (thrOf s t.toNat) f) := by
  rw [loadRow]
  refine issue_fault h ?_ _ _ _
  rw [noBad, if_neg Bool.false_ne_true, effAddr_takeTurn h, loadAt, hc]

/-- Settles O38: each row is a load or a store of its width with its own reading of the bytes. -/
theorem loadsAndStores : Obligations.LoadsAndStores := by
  refine ⟨loadRow_runs (fun _ _ _ => rfl) rfl fun _ _ _ => rfl, loadRow_runs (fun _ _ _ => rfl) rfl fun _ _ _ => rfl,
    loadRow_runs (fun _ _ _ => rfl) rfl fun _ _ _ => rfl, loadRow_runs (fun _ _ _ => rfl) rfl fun _ _ _ => rfl,
    loadRow_runs (fun _ _ _ => rfl) rfl fun _ _ _ => rfl, loadRow_runs (fun _ _ _ => rfl) rfl fun _ _ _ => rfl,
    loadRow_runs (fun _ _ _ => rfl) rfl fun _ _ _ => rfl, loadRow_runs (fun _ _ _ => rfl) rfl fun _ _ _ => rfl, ?_,
    storeRow_runs (fun _ _ _ => rfl) (fun _ => leBytes_length ..) fun _ _ => rfl,
    storeRow_runs (fun _ _ _ => rfl) (fun _ => leBytes_length ..) fun _ _ => rfl,
    storeRow_runs (fun _ _ _ => rfl) (fun _ => leBytes_length ..) fun _ _ => rfl,
    storeRow_runs (fun _ _ _ => rfl) (fun _ => beBytes_length ..) fun _ _ => rfl,
    storeRow_runs (fun _ _ _ => rfl) (fun _ => beBytes_length ..) fun _ _ => rfl, ?_, ?_, ?_⟩
  · intro s t f p bs h hr hm
    refine ⟨fun hrd => ?_, fun hrd => ?_⟩
    · have done := lda_ends h (by rw [hrd]; decide) hr hm
      rw [hrd] at done
      exact done
    · have done := lda_ends h (by rw [hrd]; decide) hr hm
      rw [hrd] at done
      exact done
  · intro s v t f p h hrd hr hw
    rw [exec_sta]
    refine storeRow_next h (by simp [badAcc]; omega) ?_ (leBytes_length ..) hr hw
    have : f.rd.toNat % 2 = f.rd.toNat := Nat.mod_eq_of_lt hrd
    simp only [storeBytes, this]
    rfl
  · intro s t f h hrd
    rw [exec_lda, loadRow]
    exact issue_fault h (if_pos (by simpa [badAcc] using hrd)) _ _ _
  · intro s t f c h hc
    rw [exec_ldW]
    exact loadRow_faults_of_access h hc

end Sys2Proof.Machine

/-!
PROOF. Byte memories: their canonical form, what is read back (R447), and a word that a thread stores and loads (R265, R306).
-/

namespace Sys2Proof.Machine

/-! ## Bytes written and read back -/

theorem rdBytes_wrBytes {m : SMap Byte} (h : mwf zeroByte m = true) (a : Nat) (bs : List Byte) : rdBytes (wrBytes m a bs) a bs.length = bs := by
  apply List.ext_getElem
  · simp [rdBytes]
  · intro i _ hi
    simpa [rdBytes] using wrBytes_at a bs h hi

/-- Settles O59: the laws of sparse maps, for bytes. -/
theorem memoriesAreCanonical : Obligations.MemoriesAreCanonical :=
  ⟨fun _ a bs h => ⟨wrBytes_wf a bs h, rdBytes_wrBytes h a bs, fun _ => wrBytes_other a bs⟩,
    fun _ _ hm hn alike => mwf_ext zeroByte hm hn alike⟩

/-! ## Numbers as bytes -/

theorem leBytes_succ (n v : Nat) : leBytes (n + 1) v = BitVec.ofNat 8 v :: leBytes n (v / 256) := by
  simp only [leBytes, List.range_succ_eq_map, List.map_cons, List.map_map, Nat.mul_zero, Nat.shiftRight_zero, List.cons.injEq, true_and]
  refine List.map_congr_left fun i _ => ?_
  have split : v >>> (8 * (i + 1)) = (v / 256) >>> (8 * i) := by
    rw [Nat.mul_add, Nat.mul_one, Nat.add_comm, Nat.shiftRight_add, Nat.shiftRight_eq_div_pow v 8]
  exact congrArg (BitVec.ofNat 8) split

theorem leNat_leBytes (n v : Nat) : leNat (leBytes n v) = v % 256 ^ n := by
  induction n generalizing v with
  | zero => simp [leBytes, leNat, Nat.mod_one]
  | succ n ih =>
    rw [leBytes_succ, leNat, ih, BitVec.toNat_ofNat]
    show v % 256 + 256 * (v / 256 % 256 ^ n) = _
    rw [Nat.pow_succ', Nat.mod_mul]

/-- The number of a word's four bytes is the word. -/
theorem ofNat_leNat_leBytes (w : W32) : BitVec.ofNat 32 (leNat (leBytes 4 w.toNat)) = w := by
  apply BitVec.eq_of_toNat_eq
  rw [leNat_leBytes, BitVec.toNat_ofNat]
  omega

/-! ## A store and a load -/

/-- What is written at a place of plain memory is read there. -/
theorem memRead_of_memWrite {s v : State} {t : Nat} {p : Place} {bs : List Byte} (hl : mwf zeroByte s.gar.lmem = true)
    (hs : mwf zeroByte s.gar.smem = true) (hm : mwf zeroByte s.mgtMem = true) (hw : memWrite s t p bs = some v) :
    memRead v t p bs.length = some bs := by
  cases p with
  | bank a => cases hw; exact congrArg some (rdBytes_wrBytes hl _ _)
  | shared o => cases hw; exact congrArg some (rdBytes_wrBytes hs _ _)
  | mgt a => cases hw; exact congrArg some (rdBytes_wrBytes hm _ _)
  | _ => cases hw

theorem memRead_setThr (s : State) (i : Nat) (x : Thread) (t : Nat) (p : Place) (n : Nat) : memRead (setThr s i x) t p n = memRead s t p n := by
  cases p <;> rfl

/-- Settles O58: the store leaves its four bytes, and the load reads them back as the word. -/
theorem storeThenLoad : Obligations.StoreThenLoad := by
  rintro s v u t f g p h hr hl hs hm hw rfl h' hr'
  refine ⟨storeRow_runs (fun _ _ _ => rfl) (fun _ => leBytes_length ..) (fun _ _ => rfl) s v t f p h hr hw, ?_⟩
  have stored : memRead v t.toNat p 4 = some (leBytes 4 (gv (thrOf s t.toNat) f.rd).toNat) := by
    have back := memRead_of_memWrite hl hs hm hw
    rwa [leBytes_length] at back
  have loaded := loadRow_runs (i := .ldW) (op := 0x0C) (n := 4) (r := fun _ bs => BitVec.ofNat 32 (leNat bs)) (fun _ _ _ => rfl) rfl
    (fun _ _ _ => rfl) _ t g p _ h' hr' ((memRead_setThr ..).trans stored)
  simpa only [ofNat_leNat_leBytes] using loaded

end Sys2Proof.Machine

/-!
PROOF. Reading registers and fields after a write: the written field, another field of the same register, and another register. Then what
making records, counting and marking check units leave as it is (R52, R446, R457).
-/

namespace Sys2Proof.Machine

/-! ## Bits of a number -/

theorem testBit_bits (w hi lo i : Nat) : (bits w hi lo).testBit i = (decide (i < hi + 1 - lo) && w.testBit (lo + i)) := by
  rw [bits, Nat.testBit_mod_two_pow, Nat.testBit_shiftRight]

theorem testBit_setBits (w v : Nat) {hi lo : Nat} (h : lo ≤ hi) (i : Nat) :
    (setBits w hi lo v).testBit i = if lo ≤ i ∧ i ≤ hi then v.testBit (i - lo) else w.testBit i := by
  obtain ⟨n, rfl⟩ : ∃ n, hi = lo + n := ⟨hi - lo, by omega⟩
  have width : lo + n + 1 - lo = n + 1 := by omega
  have split : setBits w (lo + n) lo v = 2 ^ lo * (2 ^ (n + 1) * (w / 2 ^ lo / 2 ^ (n + 1)) + v % 2 ^ (n + 1)) + w % 2 ^ lo := by
    have outer := Nat.div_add_mod w (2 ^ lo)
    have inner := congrArg (2 ^ lo * ·) (Nat.div_add_mod (w / 2 ^ lo) (2 ^ (n + 1)))
    simp only [Nat.mul_add] at inner
    rw [setBits, bits, Nat.shiftRight_eq_div_pow, width, Nat.mul_add, Nat.mul_comm (w / 2 ^ lo % _), Nat.mul_comm (v % _)]
    omega
  rw [split, Nat.testBit_two_pow_mul_add _ (Nat.mod_lt _ (Nat.two_pow_pos lo)), Nat.testBit_two_pow_mul_add _ (Nat.mod_lt _ (Nat.two_pow_pos _)),
    Nat.testBit_mod_two_pow, Nat.testBit_mod_two_pow, Nat.testBit_div_two_pow, Nat.testBit_div_two_pow]
  by_cases below : i < lo
  · have : ¬ lo ≤ i := by omega
    simp [below, this]
  · by_cases within : i - lo < n + 1
    · have : lo ≤ i ∧ i ≤ lo + n := by omega
      simp [below, within, this]
    · have : ¬ (lo ≤ i ∧ i ≤ lo + n) := by omega
      have back : i - lo - (n + 1) + (n + 1) + lo = i := by omega
      simp [below, within, this, back]

/-- The written field reads what was written. -/
theorem bits_setBits_same (w v : Nat) {hi lo : Nat} (h : lo ≤ hi) : bits (setBits w hi lo v) hi lo = v % 2 ^ (hi + 1 - lo) := by
  refine Nat.eq_of_testBit_eq fun i => ?_
  rw [testBit_bits, testBit_setBits _ _ h, Nat.testBit_mod_two_pow]
  by_cases hi' : i < hi + 1 - lo
  · have : lo ≤ lo + i ∧ lo + i ≤ hi := by omega
    simp [hi', this]
  · simp [hi']

/-- A field beside the written one keeps its value. -/
theorem bits_setBits_disjoint (w v : Nat) {hi lo hi' lo' : Nat} (h : lo ≤ hi) (hd : hi' < lo ∨ hi < lo') :
    bits (setBits w hi lo v) hi' lo' = bits w hi' lo' := by
  refine Nat.eq_of_testBit_eq fun i => ?_
  rw [testBit_bits, testBit_bits, testBit_setBits _ _ h]
  by_cases hi'' : i < hi' + 1 - lo'
  · have : ¬ (lo ≤ lo' + i ∧ lo' + i ≤ hi) := by omega
    simp [this]
  · simp [hi'']

theorem bits_lt (w hi lo : Nat) : bits w hi lo < 2 ^ (hi + 1 - lo) := Nat.mod_lt _ (Nat.two_pow_pos _)

/-- A register's width bounds what a field makes of it. -/
theorem bits_mod (w : Nat) {hi lo n : Nat} (h : hi < n) : bits (w % 2 ^ n) hi lo = bits w hi lo := by
  refine Nat.eq_of_testBit_eq fun i => ?_
  rw [testBit_bits, testBit_bits, Nat.testBit_mod_two_pow]
  by_cases hi' : i < hi + 1 - lo
  · have : lo + i < n := by omega
    simp [this]
  · simp [hi']

/-! ## Registers -/

theorem State.reg_setReg_same {s : State} (h : mwf regReset s.regs = true) (r : RegName) (i v : Nat) :
    (s.setReg r i v).reg r i = v % 2 ^ 64 :=
  (congrArg BitVec.toNat (mget_mset_eq regReset _ _ h)).trans (BitVec.toNat_ofNat ..)

theorem State.reg_setReg_ne (s : State) {r q : RegName} {i j : Nat} (h : regKey q j ≠ regKey r i) (v : Nat) :
    (s.setReg r i v).reg q j = s.reg q j :=
  congrArg BitVec.toNat (mget_mset_ne regReset _ h)

/-- Registers of two kinds, and instances of one, have their own codes. -/
theorem regKey_ne_of_kind {r q : RegName} (h : q.ctorIdx ≠ r.ctorIdx) {i j : Nat} (hi : i < 2 ^ 24) (hj : j < 2 ^ 24) :
    regKey q j ≠ regKey r i := by
  unfold regKey
  omega

theorem regKey_ne_of_instance (r : RegName) {i j : Nat} (h : j ≠ i) : regKey r j ≠ regKey r i := by
  unfold regKey
  omega

theorem State.setReg_wf {s : State} (h : mwf regReset s.regs = true) (r : RegName) (i v : Nat) : mwf regReset (s.setReg r i v).regs = true :=
  mset_wf regReset _ _ h

theorem State.setFld_wf {s : State} (h : mwf regReset s.regs = true) (f : Fld) (i v : Nat) : mwf regReset (s.setFld f i v).regs = true :=
  setReg_wf h ..

/-! ## Fields -/

theorem State.fld_setFld_same {s : State} (h : mwf regReset s.regs = true) {f : Fld} (hf : f.lo ≤ f.hi) (hw : f.hi < 64) (i v : Nat) :
    (s.setFld f i v).fld f i = v % 2 ^ (f.hi + 1 - f.lo) := by
  rw [State.fld, setFld, reg_setReg_same h, bits_mod _ hw, bits_setBits_same _ _ hf]

/-- Another field of the same register. -/
theorem State.fld_setFld_disjoint {s : State} (h : mwf regReset s.regs = true) {f g : Fld} (hr : g.reg = f.reg) (hf : f.lo ≤ f.hi)
    (hw : g.hi < 64) (hd : g.hi < f.lo ∨ f.hi < g.lo) (i v : Nat) : (s.setFld f i v).fld g i = s.fld g i := by
  rw [State.fld, setFld, hr, reg_setReg_same h, bits_mod _ hw, bits_setBits_disjoint _ _ hf hd, State.fld, hr]

/-- A field of a register of another kind. -/
theorem State.fld_setFld_of_kind (s : State) {f g : Fld} (h : g.reg.ctorIdx ≠ f.reg.ctorIdx) {i j : Nat} (hi : i < 2 ^ 24) (hj : j < 2 ^ 24)
    (v : Nat) : (s.setFld f i v).fld g j = s.fld g j :=
  congrArg (bits · _ _) (reg_setReg_ne s (regKey_ne_of_kind h hi hj) _)

/-! ## What records leave -/

/-- At most what records, counts and check units change has changed: Flint, Cairn and every register listed after those of the event logs
are the same. -/
def RecordsOnly (s u : State) : Prop :=
  u.flt = s.flt ∧ u.crn = s.crn ∧ ∀ r k, 106 < r.ctorIdx → u.reg r k = s.reg r k

theorem RecordsOnly.refl (s : State) : RecordsOnly s s := ⟨rfl, rfl, fun _ _ _ => rfl⟩

theorem RecordsOnly.of_same {s u : State} (hf : u.flt = s.flt) (hc : u.crn = s.crn) (hr : u.regs = s.regs) : RecordsOnly s u :=
  ⟨hf, hc, fun r k _ => State.reg_of_regs hr r k⟩

theorem RecordsOnly.trans {s u v : State} (h : RecordsOnly s u) (h' : RecordsOnly u v) : RecordsOnly s v :=
  ⟨h'.1.trans h.1, h'.2.1.trans h.2.1, fun r k hr => (h'.2.2 r k hr).trans (h.2.2 r k hr)⟩

theorem RecordsOnly.fld {s u : State} (h : RecordsOnly s u) {f : Fld} (hf : 106 < f.reg.ctorIdx) (k : Nat) : u.fld f k = s.fld f k :=
  congrArg (bits · _ _) (h.2.2 f.reg k hf)

theorem RecordsOnly.ite {s u v : State} {p : Prop} [Decidable p] (h : RecordsOnly s u) (h' : RecordsOnly s v) :
    RecordsOnly s (if p then u else v) := by
  split <;> assumption

theorem RecordsOnly.setFld {s u : State} {f : Fld} {i : Nat} (h : RecordsOnly s u) (hr : f.reg.ctorIdx ≤ 106) (hi : i < 2 ^ 24) (v : Nat) :
    RecordsOnly s (u.setFld f i v) := by
  refine h.trans ⟨rfl, rfl, fun r k hk => State.reg_setReg_ne u ?_ _⟩
  unfold regKey
  omega

theorem RecordsOnly.setFlag {s u : State} {f : Fld} {i : Nat} (h : RecordsOnly s u) (hr : f.reg.ctorIdx ≤ 106) (hi : i < 2 ^ 24) (b : Bool) :
    RecordsOnly s (u.setFlag f i b) := h.setFld hr hi _

theorem RecordsOnly.bump {s u : State} {f : Fld} {i : Nat} (h : RecordsOnly s u) (hr : f.reg.ctorIdx ≤ 106) (hi : i < 2 ^ 24) (n : Nat) :
    RecordsOnly s (u.bump f i n) := h.setFld hr hi _

theorem RecordsOnly.sendMsg {s u : State} (h : RecordsOnly s u) (f v : Nat) : RecordsOnly s (sendMsg u f v) := by
  unfold Machine.sendMsg
  split
  · exact h.trans (.of_same rfl rfl rfl)
  · split
    · exact h.trans (.of_same rfl rfl rfl)
    · exact h

theorem RecordsOnly.hostWrite {s u : State} (h : RecordsOnly s u) (f a : Nat) (bs : List Byte) : RecordsOnly s (hostWrite u f a bs) := by
  unfold Machine.hostWrite hostPost
  split
  · exact h.trans (.of_same rfl rfl rfl)
  · exact h

theorem RecordsOnly.evModerate {s u : State} (h : RecordsOnly s u) {e : Nat} (he : e < 16) : RecordsOnly s (evModerate u e) := by
  unfold Machine.evModerate
  split
  · exact RecordsOnly.sendMsg (h.setFld (f := F.HIF_EVR_STS_ARMED) (by decide) (by omega) _) ..
  · exact h

theorem RecordsOnly.evPush {s u : State} (h : RecordsOnly s u) {e : Nat} (he : e < 16) (cls : Nat) (ws : List Nat) :
    RecordsOnly s (evPush u e cls ws).1 := by
  unfold Machine.evPush
  split
  · exact h
  · split
    · exact RecordsOnly.evModerate ((h.hostWrite ..).setFld (f := F.HIF_EVR_STS_PROD) (by decide) (by omega) _) he
    · exact h.setFld (f := F.HIF_EVR_LOST_LOST) (by decide) (by omega) _

theorem RecordsOnly.evPushes {s : State} (cls : Nat) (ws : List Nat) (es : List Nat) (hes : ∀ e ∈ es, e < 16) (x : State × Bool)
    (h : RecordsOnly s x.1) :
    RecordsOnly s (es.foldl (fun (x : State × Bool) e => let y := Machine.evPush x.1 e cls ws; (y.1, x.2 || y.2)) x).1 := by
  induction es generalizing x with
  | nil => exact h
  | cons e r ih => exact ih (fun d hd => hes d (List.mem_cons_of_mem _ hd)) _ (h.evPush (hes e List.mem_cons_self) cls ws)

theorem RecordsOnly.logRecord {s u : State} (h : RecordsOnly s u) {cls : Nat} (hc : cls < 2 ^ 24) (code sev : Nat) (err : Bool) (d0 d1 d23 : Nat) :
    RecordsOnly s (logRecord u cls code sev err d0 d1 d23) := by
  unfold Machine.logRecord
  split
  · exact h
  · have made := RecordsOnly.bump (f := F.RST_ELOG_CNT_MADE) (i := cls)
      (h.setFld (f := F.RST_ELOG_SEQ_NEXT) (i := 0) (by decide) (by omega) (u.fld F.RST_ELOG_SEQ_NEXT 0 + 1)) (by decide) hc 1
    have pushed := fun ws => RecordsOnly.evPushes cls ws (List.range 16) (fun e he => List.mem_range.mp he) (_, false) made
    exact .ite (pushed _) ((pushed _).bump (f := F.RST_ELOG_CNT_UNTAKEN) (by decide) hc 1)

theorem RecordsOnly.noteUe {s u : State} (h : RecordsOnly s u) {m cls : Nat} (hm : m < 2 ^ 24) (hc : cls < 2 ^ 24) (code sev d0 d1 : Nat) :
    RecordsOnly s (noteUe u m cls code sev d0 d1) :=
  (h.bump (f := F.RST_ERR_CNT_UE) (by decide) hm 1).logRecord hc ..

theorem RecordsOnly.noteStateLost {s u : State} (h : RecordsOnly s u) : RecordsOnly s (noteStateLost u) := by
  have drawn : RecordsOnly s { u with fresh := u.fresh + 1 } := h.trans (.of_same rfl rfl rfl)
  exact (drawn.noteUe (by omega) (by omega) ..).setFlag (f := F.RST_ELOG_STS_STATE_LOST) (i := 0) (by decide) (by omega) _

theorem RecordsOnly.noteWrite {s u : State} (h : RecordsOnly s u) (m c unit addr : Nat) (whole : Bool) : RecordsOnly s (noteWrite u m c unit addr whole) := by
  have whole' : RecordsOnly s (if whole then setUnitErr u m unit 0 else u) := .ite (h.trans (.of_same rfl rfl rfl)) h
  exact .ite (((whole'.trans (.of_same rfl rfl rfl)).setFlag (f := F.RST_EINJ_CTL_ARM) (i := 0) (by decide) (by omega) _).setFlag
      (f := F.RST_EINJ_CTL_DONE) (i := 0) (by decide) (by omega) _) whole'

theorem RecordsOnly.countProbe {s u : State} (h : RecordsOnly s u) (k : Nat) : RecordsOnly s (countProbe u k) := by
  have clean : RecordsOnly s (setUnitErr u 10 k 0) := h.trans (.of_same rfl rfl rfl)
  have lost := clean.noteUe (m := 10) (cls := 12) (by omega) (by omega) 1 2 k 0
  unfold Machine.countProbe
  exact .ite h (.ite (clean.bump (f := F.RST_ERR_CNT_CE) (by decide) (by omega) 1) (lost.trans (.of_same rfl rfl rfl)))

/-- Counting an event changes no more than the counters and what errors in them leave. -/
theorem RecordsOnly.count {s u : State} (h : RecordsOnly s u) (k pk by_ : Nat) : RecordsOnly s (count u k pk by_) := by
  have probed := h.countProbe k
  unfold Machine.count
  generalize Machine.countProbe u k = v at probed ⊢
  dsimp only
  split
  · exact probed
  · refine RecordsOnly.noteWrite (probed.trans ?_) 10 0 k k true
    exact .of_same rfl rfl rfl

end Sys2Proof.Machine

/-!
PROOF. Semaphores stay within MAX, and a held lock stays with its holder (R369, R375): a semaphore's grant adds its units once, where they are
available.
-/

namespace Sys2Proof.Machine

/-! ## Semaphores -/

theorem semHeld_eq_sum (x : Sem) : semHeld x = (x.holds.map Hold.units).sum := by
  unfold semHeld
  rw [List.sum_eq_foldl, List.foldl_map]

/-- The record of an owner with `n` units more. -/
def credit (o n : Nat) (mark : Bool) (h : Hold) : Hold :=
  if h.owner = o then { h with units := h.units + n, told := h.told || mark } else h

/-- With at most one record per owner, a credit adds its units at most once. -/
theorem sum_credit_le {hs : List Hold} (hu : ∀ h ∈ hs, ∀ g ∈ hs, h.owner = g.owner → h = g) (hd : hs.Nodup) (o n : Nat) (mark : Bool) :
    ((hs.map (credit o n mark)).map Hold.units).sum ≤ (hs.map Hold.units).sum + n := by
  induction hs with
  | nil => simp
  | cons a r ih =>
    obtain ⟨notMem, hd⟩ := List.nodup_cons.mp hd
    by_cases ha : a.owner = o
    · have others : ∀ h ∈ r, credit o n mark h = h := fun h hh =>
        if_neg fun (he : h.owner = o) =>
          notMem (hu a List.mem_cons_self h (List.mem_cons_of_mem _ hh) (ha.trans he.symm) ▸ hh)
      have first : (credit o n mark a).units = a.units + n := by rw [credit, if_pos ha]
      rw [List.map_cons, List.map_cons, List.map_congr_left others, List.map_id', List.sum_cons, first, List.map_cons, List.sum_cons]
      omega
    · have rest := ih (fun h hh g hg => hu h (List.mem_cons_of_mem _ hh) g (List.mem_cons_of_mem _ hg)) hd
      have first : credit o n mark a = a := if_neg ha
      rw [List.map_cons, List.map_cons, first, List.sum_cons, List.map_cons, List.sum_cons]
      omega

theorem arrWrite_kept (s : State) (a i : Nat) : RecordsOnly s (arrWrite s a i) := (RecordsOnly.refl s).noteWrite ..

theorem setSem_max (s : State) (k : Nat) (x : Sem) : (setSem s k x).fld F.FLT_SEM_CFG_MAX k = s.fld F.FLT_SEM_CFG_MAX k := by
  exact (arrWrite_kept (putSem s k x) 6 k).fld (by decide) k

theorem semOf_setSem {s : State} (h : mwf noSem s.flt.sem = true) (k : Nat) (x : Sem) : semOf (setSem s k x) k = x := by
  have kept : (setSem s k x).flt = (putSem s k x).flt := (arrWrite_kept _ 6 k).1
  rw [semOf, kept]
  exact mget_mset_eq noSem k x h

/-- Units taken where they are available stay within MAX. -/
theorem semTake_le_max {s : State} {k o n : Nat} (h : mwf noSem s.flt.sem = true) (hm : semHeld (semOf s k) ≤ s.fld F.FLT_SEM_CFG_MAX k)
    (hu : ∀ h ∈ (semOf s k).holds, ∀ g ∈ (semOf s k).holds, h.owner = g.owner → h = g) (hd : (semOf s k).holds.Nodup)
    (hc : semCan s k o n = true) : semHeld (semOf (semTake s k o n) k) ≤ (semTake s k o n).fld F.FLT_SEM_CFG_MAX k := by
  have avail : n ≤ semAvail s k := of_decide_eq_true (Bool.and_elim_left hc)
  unfold semAvail at avail
  rw [semTake, semOf_setSem h, setSem_max, semHeld_eq_sum]
  rw [semHeld_eq_sum] at hm avail
  dsimp only
  split
  · have added := sum_credit_le hu hd o n (semOf s k).mark
    exact added.trans (by omega)
  · rw [List.map_append, List.sum_append]
    simp only [List.map_cons, List.map_nil, List.sum_cons, List.sum_nil]
    omega

/-- What a semaphore's reading leaves: the semaphore as it was, or a free one; and every limit. -/
theorem semProbe_cases {s : State} (h : mwf noSem s.flt.sem = true) (k : Nat) :
    mwf noSem (semProbe s k).flt.sem = true ∧ (semProbe s k).fld F.FLT_SEM_CFG_MAX k = s.fld F.FLT_SEM_CFG_MAX k ∧
      (semOf (semProbe s k) k = semOf s k ∨ semOf (semProbe s k) k = noSem k) := by
  unfold semProbe arrProbe
  dsimp only
  split
  · exact ⟨h, rfl, .inl rfl⟩
  · split
    · have kept : RecordsOnly s ((setUnitErr s 11 (arrUnit 6 k) 0).bump F.RST_ERR_CNT_CE 11 1) :=
        RecordsOnly.bump (.of_same rfl rfl rfl) (by decide) (by omega) 1
      exact ⟨kept.1 ▸ h, kept.fld (by decide) k, .inl (by rw [semOf, kept.1, semOf])⟩
    · have kept : RecordsOnly s (noteStateLost (setUnitErr s 11 (arrUnit 6 k) 0)) := RecordsOnly.noteStateLost (.of_same rfl rfl rfl)
      have wf : mwf noSem (noteStateLost (setUnitErr s 11 (arrUnit 6 k) 0)).flt.sem = true := kept.1 ▸ h
      exact ⟨mset_wf noSem k _ wf, kept.fld (by decide) k, .inr (mget_mset_eq noSem k _ wf)⟩

/-- A semaphore within its MAX stays within it over a try-acquire. -/
theorem semTry_le_max {s : State} {k : Nat} (o n : Nat) (h : mwf noSem s.flt.sem = true) (hm : semHeld (semOf s k) ≤ s.fld F.FLT_SEM_CFG_MAX k)
    (hu : ∀ h ∈ (semOf s k).holds, ∀ g ∈ (semOf s k).holds, h.owner = g.owner → h = g) (hd : (semOf s k).holds.Nodup) :
    semHeld (semOf (semTry s k o n).2 k) ≤ (semTry s k o n).2.fld F.FLT_SEM_CFG_MAX k := by
  obtain ⟨wf, hmax, hsem⟩ := semProbe_cases h k
  have within : semHeld (semOf (semProbe s k) k) ≤ (semProbe s k).fld F.FLT_SEM_CFG_MAX k ∧
      (∀ h ∈ (semOf (semProbe s k) k).holds, ∀ g ∈ (semOf (semProbe s k) k).holds, h.owner = g.owner → h = g) ∧
      (semOf (semProbe s k) k).holds.Nodup := by
    obtain hsem | hsem := hsem
    · rw [hsem, hmax]
      exact ⟨hm, hu, hd⟩
    · rw [hsem]
      exact ⟨Nat.zero_le _, by simp [noSem], List.nodup_nil⟩
  obtain ⟨hm, hu, hd⟩ := within
  unfold semTry
  dsimp only
  split
  · exact hm
  · split
    · exact semTake_le_max wf hm hu hd (Bool.and_elim_right ‹_›)
    · exact hm

/-! ## Locks -/

theorem lockProbe_quiet {s : State} {k : Nat} (h : unitErr s 11 (arrUnit 5 k) = 0) : lockProbe s k = s := by
  rw [lockProbe, arrProbe, if_pos h]

/-- Neither a try-acquire nor a release by another owner changes a held lock. -/
theorem held_lock_kept {s : State} {k o p : Nat} (h : unitErr s 11 (arrUnit 5 k) = 0) (ho : (lockOf s k).owner = some p) (hp : p ≠ o) :
    (lockTry s k o).2.2 = s ∧ (lockRel s k o).2 = s ∧ (lockTry s k o).1 ≠ 0 ∧ (lockRel s k o).1 ≠ 0 := by
  have rel : lockRel s k o = (tsNotHeld, s) := by simp [lockRel, lockProbe_quiet h, ho, hp]
  have attempt : lockTry s k o = (tsDenied, false, s) ∨ lockTry s k o = (tsBusy, false, s) := by
    cases ha : fltAllowed s false k o <;> simp [lockTry, lockProbe_quiet h, ho, hp, ha]
  obtain ha | ha := attempt <;> simp [rel, ha, tsDenied, tsBusy, tsNotHeld]

/-- Settles O60: a take is made only where the units are available, and a lock that another owner holds answers DENIED, BUSY or NOT_HELD. -/
theorem flintExcludes : Obligations.FlintExcludes := by
  refine ⟨fun s u k o n st _ hm h hu hd _ ht => ?_, fun s k o p h ho hp => held_lock_kept h ho hp⟩
  have within := semTry_le_max o n h hm hu hd
  rw [ht] at within
  exact within

end Sys2Proof.Machine

/-!
PROOF. A step takes the front of the queue, and what the machine holds at the release of AON (R270, R429, R471).
-/

namespace Sys2Proof.Machine

theorem foldS_of_fixed {α : Type} {l : List α} {f : State → α → State} {s : State} (h : ∀ x ∈ l, f s x = s) : foldS l f s = s := by
  induction l with
  | nil => rfl
  | cons x r ih =>
    rw [foldS, List.foldl_cons, h x List.mem_cons_self]
    exact ih fun y hy => h y (List.mem_cons_of_mem _ hy)

theorem purgeEdge_of_idle {s : State} {q : Nat} (h : s.flag F.ORY_Q_STS_PURGE_BUSY q = false) : purgeEdge s q = s := by
  rw [purgeEdge, h]
  exact if_pos rfl

/-- With no purge to go on with, an edge is only time. -/
theorem idleEdge_of_noPurge {s : State} (h : pktUp (advance s 1) = false ∨ ∀ q, (advance s 1).flag F.ORY_Q_STS_PURGE_BUSY q = false) :
    idleEdge s = advance s 1 := by
  unfold idleEdge
  dsimp only
  obtain down | idle := h
  · rw [down]
    exact if_neg Bool.false_ne_true
  · rw [foldS_of_fixed fun q _ => purgeEdge_of_idle (idle q)]
    exact ite_self _

/-- Settles O54: `step` is its match on the queue. -/
theorem stepTakesTheFront : Obligations.StepTakesTheFront := by
  refine ⟨fun c r s h => ?_, fun s h => ?_, ?_⟩
  · rw [step, h]
  · rw [step, h]
  · rintro s u rfl h
    exact idleEdge_of_noPurge h

/-- A register that nothing has written holds what the field tables give. -/
theorem reset_reg {r : RegName} (hr : regNames[r.ctorIdx]? = some r) {i : Nat} (hi : i < 2 ^ 24) :
    State.reset.reg r i = (BitVec.ofNat 64 (rowsReset (regDesc r).rows)).toNat := by
  have kind : (r.ctorIdx * 2 ^ 24 + i) / 2 ^ 24 = r.ctorIdx := by omega
  have stored : State.reset.regs = [] := rfl
  rw [State.reg, stored, mget, regReset, regOfKey, regKey, kind, hr]

theorem reset_fld {f : Fld} (hr : regNames[f.reg.ctorIdx]? = some f.reg) {i : Nat} (hi : i < 2 ^ 24) :
    State.reset.fld f i = bits (BitVec.ofNat 64 (rowsReset (regDesc f.reg).rows)).toNat f.hi f.lo := by
  rw [State.fld, reset_reg hr hi]

theorem reset_flag {f : Fld} (hr : regNames[f.reg.ctorIdx]? = some f.reg) {i : Nat} (hi : i < 2 ^ 24) :
    State.reset.flag f i = decide (bits (BitVec.ofNat 64 (rowsReset (regDesc f.reg).rows)).toNat f.hi f.lo ≠ 0) := by
  rw [State.flag, reset_fld hr hi]

/-- Settles O55: the registers by the field tables, the rest as it was made. -/
theorem resetValues : Obligations.ResetValues := by
  refine ⟨rfl, (reset_reg rfl (by omega)).trans (by decide), (reset_reg rfl (by omega)).trans (by decide), fun p hp => ⟨?_, ?_⟩, fun c hc => ⟨?_, ?_⟩,
    fun n hn => ⟨?_, ?_, ?_, ?_⟩, fun t => rfl, fun i hi => ⟨?_, ?_⟩, fun a => ⟨rfl, rfl⟩⟩
  · exact (reset_fld rfl (by omega)).trans (by decide)
  · exact (reset_fld rfl (by omega)).trans (by decide)
  · exact (reset_flag rfl (by omega)).trans (by decide)
  · exact (reset_flag rfl (by omega)).trans (by decide)
  · exact (reset_reg rfl (by omega)).trans (by decide)
  · exact (reset_reg rfl (by omega)).trans (by decide)
  · exact (reset_fld rfl (by omega)).trans (by decide)
  · exact (reset_reg rfl (by omega)).trans (by decide)
  · have none : State.reset.reg .ICU_PEND_SET (i / 32) = 0 := (reset_reg rfl (by omega)).trans (by decide)
    rw [srcPending, none, bitOf, Nat.zero_shiftRight]
    rfl
  · have awake : icuSaved State.reset = false := (reset_flag rfl (by omega)).trans (by decide)
    have inside : mget noTgt State.reset.icu.out i = none := rfl
    rw [outAt, inside, awake]
    rfl

end Sys2Proof.Machine

/-!
PROOF. Grants of cells, one at a time (R128).
-/

namespace Sys2Proof.Machine

/-- What a re-evaluation of a requester leaves: its usage and the cells. -/
theorem reqEval_used {s : State} (h : mwf regReset s.regs = true) (r : Nat) :
    (reqEval s r).fld F.CRN_REQ_STS_USED r = s.fld F.CRN_REQ_STS_USED r ∧ (reqEval s r).crn = s.crn := by
  have flagged := fun b => State.fld_setFld_disjoint h (f := F.CRN_REQ_STS_XOFF_ACT) (g := F.CRN_REQ_STS_USED) rfl (by decide) (by decide)
    (by decide) r (b2n b)
  unfold reqEval reqEnter
  split
  · split
    · exact ⟨flagged false, rfl⟩
    · exact ⟨rfl, rfl⟩
  · split
    · have counted := (RecordsOnly.refl (s.setFlag F.CRN_REQ_STS_XOFF_ACT r true)).count (8192 + 4 * r + 3) 1 0
      exact ⟨(counted.fld (by decide) r).trans (flagged true), counted.2.1⟩
    · exact ⟨rfl, rfl⟩

/-- A requester whose usage and peak have been written, re-evaluated. -/
theorem reqEval_written {s : State} (h : mwf regReset s.regs = true) {r : Nat} (hr : r < 512) {n : Nat} (hn : n < 2 ^ 28) (m : Nat) :
    (reqEval ((s.setFld F.CRN_REQ_STS_USED r n).setFld F.CRN_REQ_PEAK_PEAK r m) r).fld F.CRN_REQ_STS_USED r = n ∧
      (reqEval ((s.setFld F.CRN_REQ_STS_USED r n).setFld F.CRN_REQ_PEAK_PEAK r m) r).crn = s.crn := by
  have used : (s.setFld F.CRN_REQ_STS_USED r n).fld F.CRN_REQ_STS_USED r = n :=
    (State.fld_setFld_same h (f := F.CRN_REQ_STS_USED) (by decide) (by decide) r n).trans (Nat.mod_eq_of_lt hn)
  have peak := State.fld_setFld_of_kind (s.setFld F.CRN_REQ_STS_USED r n) (f := F.CRN_REQ_PEAK_PEAK) (g := F.CRN_REQ_STS_USED) (i := r) (j := r)
    (by decide) (by omega) (by omega) m
  obtain ⟨same, crn⟩ := reqEval_used (State.setFld_wf (State.setFld_wf h F.CRN_REQ_STS_USED r n) F.CRN_REQ_PEAK_PEAK r m) r
  exact ⟨same.trans (peak.trans used), crn⟩

/-- When a cell is granted. -/
theorem grantCell_isSome_iff (s : State) (r : Nat) :
    (grantCell s r).isSome = true ↔ s.fld F.CRN_REQ_STS_USED r < s.fld F.CRN_REQ_HARD_HARD r ∧
      s.flag F.CRN_POOL_CFG_EN (s.fld F.CRN_REQ_POOL_POOL r) = true ∧ 0 < poolFree s (s.fld F.CRN_REQ_POOL_POOL r) := by
  unfold grantCell
  dsimp only
  split <;> simp_all

/-- A pool that ends within its space has all its free cells there. -/
theorem poolFree_of_within {s : State} {k : Nat}
    (h : s.fld F.CRN_POOL_CFG_BASE k + s.fld F.CRN_POOL_SIZE_SIZE k ≤ spaceEnd s (s.fld F.CRN_POOL_CFG_SPACE k)) :
    poolFree s k = s.fld F.CRN_POOL_STS_FREE k := by
  unfold poolFree
  omega

/-- A grant is one cell of its requester, and one more of its usage. -/
theorem grantCell_leaves {s u : State} {r c : Nat} (h : mwf regReset s.regs = true) (hc : mwf noReq s.crn.cellReq = true) (hr : r < 512)
    (hg : grantCell s r = some (c, u)) :
    u.fld F.CRN_REQ_STS_USED r = s.fld F.CRN_REQ_STS_USED r + 1 ∧ mget noReq u.crn.cellReq c = some r ∧
      ∀ d, d ≠ c → mget noReq u.crn.cellReq d = mget noReq s.crn.cellReq d := by
  have room : s.fld F.CRN_REQ_STS_USED r < s.fld F.CRN_REQ_HARD_HARD r :=
    ((grantCell_isSome_iff s r).mp (by rw [hg]; rfl)).1
  have hard : s.fld F.CRN_REQ_HARD_HARD r < 2 ^ 28 := bits_lt ..
  unfold grantCell at hg
  dsimp only at hg
  split at hg
  next =>
    rw [Option.some.injEq, Prod.mk.injEq] at hg
    obtain ⟨hcell, rfl⟩ := hg
    have after := reqEval_written (s := State.setFld { (draw s (poolFree s (s.fld F.CRN_REQ_POOL_POOL r))).2 with
      crn := { s.crn with cellReq := mset noReq s.crn.cellReq c (some r) } } F.CRN_POOL_STS_FREE (s.fld F.CRN_REQ_POOL_POOL r)
      (s.fld F.CRN_POOL_STS_FREE (s.fld F.CRN_REQ_POOL_POOL r) - 1)) (State.setFld_wf (by exact h) ..) hr (Nat.lt_of_le_of_lt room hard)
    rw [hcell]
    exact ⟨(after _).1, (congrArg (fun x => mget noReq x.cellReq c) (after _).2).trans (mget_mset_eq noReq c _ hc),
      fun d hd => (congrArg (fun x => mget noReq x.cellReq d) (after _).2).trans (mget_mset_ne noReq _ hd)⟩
  next => simp at hg

/-- Settles O49: a grant's conditions, the cell and usage that it leaves, and the cells of a request as single grants in order. -/
theorem cellsAreGrantedWithinQuota : Obligations.CellsAreGrantedWithinQuota := by
  refine ⟨?_, fun s k h => poolFree_of_within h, fun s u r c h hc hr hg => grantCell_leaves h hc hr hg, ?_⟩
  · rintro s r _ rfl
    exact grantCell_isSome_iff s r
  · intro s u r n l hl
    refine ⟨fun short => ?_, fun full => ⟨fun none => ?_, fun c v some => ?_⟩⟩
    · rw [grantCells, hl]
      exact if_neg (Nat.ne_of_lt short)
    · rw [grantCells, hl]
      simp [full, none]
    · rw [grantCells, hl]
      simp [full, some]

end Sys2Proof.Machine

/-!
PROOF. Control transfer and bit operations (R308, R309).
-/

namespace Sys2Proof.Machine

/-! ## Transfers -/

/-- An undisturbed instruction that transfers control and writes no register. -/
theorem issue_goes {s : State} {t : Nat} {w : W32} {body : State → Res} {p : W32} (h : Issues s t w)
    (hb : body (takeTurn s t) = .jump (takeTurn s t) p) (rds : List Nat) (sq : State → State) : Goes s (issueAt t w rds [] sq body s) t p := by
  have pc : (thrOf (takeTurn s t) t).pc = (thrOf s t).pc := by rw [takeTurn_thr h]
  rw [Goes, issueAt_eq h, hb]
  simp only [finish, badReg_quiet (show (takeTurn s t).integ.bad = [] from h.quiet.1), pc]
  rfl

/-- One that leaves pc + 4 in `rd`. -/
theorem issue_links {s v : State} {t rd : Nat} {w : W32} {body : State → Res} {p : W32} (h : Issues s t w)
    (hb : body (takeTurn s t) = .jump v p) (rds : List Nat) (sq : State → State) :
    issueAt t w rds [rd] sq body s = .next (retire (rfWrite (traceThr v t 0 (thrOf v t).pc.toNat p.toNat) t rd) t p []) := by
  rw [issueAt_eq h, hb]
  simp only [finish, badReg_quiet (show (takeTurn s t).integ.bad = [] from h.quiet.1)]
  rfl

theorem pc_takeTurn {s : State} {t : Nat} {w : W32} (h : Issues s t w) : (thrOf (takeTurn s t) t).pc = (thrOf s t).pc := by
  rw [takeTurn_thr h]

theorem jumpTo_of_aligned (s : State) {p : W32} (h : p.toNat % 4 = 0) : jumpTo s p = .jump s p := if_neg (by omega)
theorem jumpTo_of_misaligned (s : State) {p : W32} (h : p.toNat % 4 ≠ 0) : jumpTo s p = .fault s cAlign p.toNat := if_pos h
theorem linkTo_of_aligned {s : State} {t rd : Nat} {p : W32} (h : p.toNat % 4 = 0) :
    linkTo s t rd p = .jump (setThr s t (gSet (thrOf s t) rd ((thrOf s t).pc + 4))) p := if_neg (by omega)

/-! ## Branches -/

theorem branchRow_runs {i : BitVec 14 → FmtBR → Instr} {cond : Nat} {g : W32 → W32 → Bool} {p : W32 → W32 → Prop}
    (hi : ∀ t f s, exec (i t f) s = branchRow cond g t f s) (hg : ∀ a b, g a b = true ↔ p a b) : BranchRuns i cond p := by
  rintro s t f _ h rfl
  have operand := gv_takeTurn h
  have pc := pc_takeTurn h
  rw [hi, branchRow]
  refine ⟨fun taken aligned => issue_goes h ?_ _ _, fun taken misaligned => issue_fault h ?_ _ _ _, fun notTaken => issue_moved h ?_ _ _ _⟩
  · simp only [operand, pc, (hg ..).mpr taken, if_true]
    exact jumpTo_of_aligned _ aligned
  · simp only [operand, pc, (hg ..).mpr taken, if_true]
    exact jumpTo_of_misaligned _ misaligned
  · have : g (gv (thrOf s t.toNat) f.ra) (gv (thrOf s t.toNat) f.rb) = false :=
      Bool.eq_false_iff.mpr fun e => notTaken ((hg ..).mp e)
    simp only [operand, this, Bool.false_eq_true, if_false]

theorem branchBit_goes {s : State} {t : BitVec 14} {f : FmtBB} {sense : Bool} (h : Issues s t.toNat (wordBB 0x19 sense f))
    (hb : BitIs s t.toNat f.bit.toNat sense) (hp : (target (thrOf s t.toNat).pc f.off).toNat % 4 = 0) :
    Goes s (branchBit sense t f s) t.toNat (target (thrOf s t.toNat).pc f.off) := by
  rw [branchBit]
  refine issue_goes h ?_ _ _
  rw [bitRead_takeTurn h hb, beq_self_eq_true, if_pos rfl, pc_takeTurn h, jumpTo_of_aligned _ hp]

theorem branchBit_moved {s : State} {t : BitVec 14} {f : FmtBB} {sense v : Bool} (h : Issues s t.toNat (wordBB 0x19 sense f))
    (hb : BitIs s t.toNat f.bit.toNat v) (hv : v ≠ sense) : Moved s (branchBit sense t f s) t.toNat := by
  rw [branchBit]
  refine issue_moved h ?_ _ _ _
  rw [bitRead_takeTurn h hb, if_neg (by simpa using hv)]

/-! ## Bit operations that write -/

/-- The fields of format BT that must be 0 are. -/
theorem btBad_eq_false {f : FmtBT} (hz : f.zero = 0) (hr : f.idx = false → f.r = 0) : btBad f = false := by
  unfold btBad
  cases hidx : f.idx
  · simp [hz, hr hidx]
  · simp [hz]

theorem btAddr_takeTurn {s : State} {t : Nat} {w : W32} (h : Issues s t w) (f : FmtBT) :
    btAddr (thrOf (takeTurn s t) t) f = if f.idx then (f.bit.toNat + (gv (thrOf s t) f.r).toNat) % 8192 else f.bit.toNat := by
  rw [btAddr, gv_takeTurn h]

theorem btAddr_lt (f : FmtBT) (n : Nat) : (if f.idx then (f.bit.toNat + n) % 8192 else f.bit.toNat) < 8192 := by
  split <;> omega

/-- What the write of a bit operation leaves, with the flags of the old bit where it has any. -/
def bitRowLeaves (g : Bool → Bool) (fl : Bool) (t b : Nat) (old : Bool) (u : State) : State :=
  if fl then bitFlags (bitWrite u t b (g old)) t old else bitWrite u t b (g old)

/-- What a bit operation that writes does at its turn. -/
def bitRowBody (fn : Nat) (g : Bool → Bool) (fl : Bool) (t : BitVec 14) (f : FmtBT) (u : State) : Res :=
  let b := btAddr (thrOf u t.toNat) f
  if btBad f then .fault u cIllegal (wordBT 0x1D fn f).toNat
  else if !bitWritable t.toNat b then .fault u cBadBit b
  else bitRead u t.toNat b (fun v old => .done (bitRowLeaves g fl t.toNat b old v) [])

theorem bitRow_eq (fn : Nat) (g : Bool → Bool) (fl : Bool) (t : BitVec 14) (f : FmtBT) (s : State) :
    bitRow fn g fl t f s = issueAt t.toNat (wordBT 0x1D fn f) (btReads f) [] id (bitRowBody fn g fl t f) s := rfl

theorem bitRowBody_done {s : State} {t : BitVec 14} {f : FmtBT} {fn b : Nat} {v : Bool} {w : W32} (h : Issues s t.toNat w) (hz : f.zero = 0)
    (hr : f.idx = false → f.r = 0)
    (ha : b = if f.idx then (f.bit.toNat + (gv (thrOf s t.toNat) f.r).toNat) % 8192 else f.bit.toNat) (hb : BitIs s t.toNat b v)
    (hw : bitWritable t.toNat b = true) (g : Bool → Bool) (fl : Bool) :
    bitRowBody fn g fl t f (takeTurn s t.toNat) = .done (bitRowLeaves g fl t.toNat b v (takeTurn s t.toNat)) [] := by
  simp only [bitRowBody, btBad_eq_false hz hr, btAddr_takeTurn h, ← ha, hw, bitRead_takeTurn h hb, Bool.not_true, Bool.false_eq_true, if_false]

/-- A flag bit is written in its thread's record. -/
theorem bitRow_ends {s : State} {t : BitVec 14} {f : FmtBT} {fn b : Nat} {v : Bool} (h : Issues s t.toNat (wordBT 0x1D fn f)) (hz : f.zero = 0)
    (hr : f.idx = false → f.r = 0)
    (ha : b = if f.idx then (f.bit.toNat + (gv (thrOf s t.toNat) f.r).toNat) % 8192 else f.bit.toNat) (hb : BitIs s t.toNat b v)
    (hlt : b < 1024) (g : Bool → Bool) (fl : Bool) :
    Ends s (bitRow fn g fl t f s) t.toNat
      (let x := ranOn (thrOf s t.toNat) ((thrOf s t.toNat).pc + 4)
       if fl then setFlagBit (setFlagBit (setFlagBit x b (g v)) 0 v) 2 !v else setFlagBit x b (g v)) := by
  have turnWf : mwf noThread (takeTurn s t.toNat).gar.thr = true := setThr_wf h.threads_wf _ _
  have done := bitRowBody_done (fn := fn) h hz hr ha hb (bitWritable_of_flag hlt) g fl
  rw [bitRow_eq]
  cases fl
  · refine issue_ends (x := setFlagBit (turned (thrOf s t.toNat) (thrOf s t.toNat).flags) b (g v)) h ?_ ThrSt.noConfusion h.notStepping _ _ _
    rw [done, bitRowLeaves, if_neg Bool.false_ne_true, bitWrite_of_flag hlt, takeTurn_turned h]
    rfl
  · refine issue_ends (x := setFlagBit (setFlagBit (setFlagBit (turned (thrOf s t.toNat) (thrOf s t.toNat).flags) b (g v)) 0 v) 2 !v) h ?_
      ThrSt.noConfusion h.notStepping _ _ _
    rw [done, bitRowLeaves, if_pos rfl, bitFlags, bitWrite_of_flag hlt, thrOf_setThr turnWf, setThr_setThr turnWf, takeTurn_turned h]
    rfl

/-- A cluster-shared bit is written beside the flags. -/
theorem bitRow_shared {s : State} {t : BitVec 14} {f : FmtBT} {fn b : Nat} {v : Bool} (h : Issues s t.toNat (wordBT 0x1D fn f)) (hz : f.zero = 0)
    (hr : f.idx = false → f.r = 0)
    (ha : b = if f.idx then (f.bit.toNat + (gv (thrOf s t.toNat) f.r).toNat) % 8192 else f.bit.toNat) (hb : BitIs s t.toNat b v)
    (lo : 4096 ≤ b) (hm : isMgt t.toNat = false) (g : Bool → Bool) (fl : Bool) :
    bitRow fn g fl t f s = .next (setThr { s with gar := { s.gar with sbits := mset noBool s.gar.sbits (sbitKey t.toNat b) (g v) } } t.toNat
      (let x := ranOn (thrOf s t.toNat) ((thrOf s t.toNat).pc + 4)
       if fl then setFlagBit (setFlagBit x 0 v) 2 !v else x)) := by
  have threads := h.threads_wf
  have hi : b < 8192 := ha ▸ btAddr_lt f _
  have done := bitRowBody_done (fn := fn) h hz hr ha hb (bitWritable_of_shared hm lo hi) g fl
  obtain ⟨u, hu⟩ : ∃ u : State, u = { s with gar := { s.gar with sbits := mset noBool s.gar.sbits (sbitKey t.toNat b) (g v) } } := ⟨_, rfl⟩
  have uWf : mwf noThread u.gar.thr = true := by rw [hu]; exact threads
  have turn : bitWrite (takeTurn s t.toNat) t.toNat b (g v) = setThr u t.toNat (turned (thrOf s t.toNat) (thrOf s t.toNat).flags) := by
    rw [bitWrite_of_shared lo, hu]
    rfl
  have quiet : ∀ x, Quiet (setThr u t.toNat x) t.toNat := fun x => h.quiet.of_regs (by rw [hu]; rfl) (by rw [hu]; rfl)
  rw [bitRow_eq, ← hu]
  cases fl
  · rw [issue_done (v := setThr u t.toNat (turned (thrOf s t.toNat) (thrOf s t.toNat).flags)) (ts := []) h
      (by rw [done, bitRowLeaves, if_neg Bool.false_ne_true, turn]) (quiet _) (setThr_wf uWf _ _) (thrOf_setThr uWf _ _) ThrSt.noConfusion
      h.notStepping, setThr_setThr uWf]
    rfl
  · rw [issue_done (v := setThr u t.toNat (setFlagBit (setFlagBit (turned (thrOf s t.toNat) (thrOf s t.toNat).flags) 0 v) 2 !v)) (ts := []) h
      (by rw [done, bitRowLeaves, if_pos rfl, turn, bitFlags, thrOf_setThr uWf, setThr_setThr uWf]) (quiet _) (setThr_wf uWf _ _)
      (thrOf_setThr uWf _ _) ThrSt.noConfusion h.notStepping, setThr_setThr uWf]
    rfl

theorem bitRow_runs {i : BitVec 14 → FmtBT → Instr} {fn : Nat} {g : Bool → Bool} {fl : Bool} (hi : ∀ t f s, exec (i t f) s = bitRow fn g fl t f s) :
    BitRuns i fn g fl := by
  rintro s t f b v _ h hz hr ha hb rfl
  rw [hi]
  refine ⟨fun hlt => bitRow_ends h hz hr ha hb hlt g fl, fun lo hm => ⟨_, bitRow_shared h hz hr ha hb lo hm g fl, ?_, fun j hj => ?_, rfl⟩⟩
  · exact thrOf_setThr (by exact h.threads_wf) _ _
  · exact thrOf_setThr_ne _ hj _

/-- `btst` of any readable bit. -/
theorem btst_ends_at {s : State} {t : BitVec 14} {f : FmtBT} {b : Nat} {v : Bool} (h : Issues s t.toNat (wordBT 0x1D 3 f)) (hz : f.zero = 0)
    (hr : f.idx = false → f.r = 0)
    (ha : b = if f.idx then (f.bit.toNat + (gv (thrOf s t.toNat) f.r).toNat) % 8192 else f.bit.toNat) (hb : BitIs s t.toNat b v) :
    Ends s (exec (.btst t f) s) t.toNat (setFlagBit (setFlagBit (ranOn (thrOf s t.toNat) ((thrOf s t.toNat).pc + 4)) 0 v) 2 !v) := by
  rw [exec_btst, execBtst]
  refine issue_ends (x := setFlagBit (setFlagBit (turned (thrOf s t.toNat) (thrOf s t.toNat).flags) 0 v) 2 !v) h ?_ ThrSt.noConfusion
    h.notStepping _ _ _
  rw [btBad_eq_false hz hr, if_neg Bool.false_ne_true, btAddr_takeTurn h, ← ha, bitRead_takeTurn h hb, bitFlags, takeTurn_turned h, doneThr]

theorem exec_bput (t : BitVec 14) (f : FmtBT) (s : State) : exec (.bput t f) s = execBput t f s := rfl
theorem exec_bget (t : BitVec 14) (f : FmtBT) (s : State) : exec (.bget t f) s = execBget t f s := rfl

theorem bput_ends {s : State} {t : BitVec 14} {f : FmtBT} (h : Issues s t.toNat (wordBT 0x1D 6 f)) (hx : f.idx = false) (hz : f.zero = 0)
    (hlt : f.bit.toNat < 1024) : Ends s (exec (.bput t f) s) t.toNat
      (setFlagBit (ranOn (thrOf s t.toNat) ((thrOf s t.toNat).pc + 4)) f.bit.toNat ((gv (thrOf s t.toNat) f.r).getLsbD 0)) := by
  rw [exec_bput, execBput]
  refine issue_ends (x := setFlagBit (turned (thrOf s t.toNat) (thrOf s t.toNat).flags) f.bit.toNat ((gv (thrOf s t.toNat) f.r).getLsbD 0)) h ?_
    ThrSt.noConfusion h.notStepping _ _ _
  rw [gv_takeTurn h, bitWritable_of_flag hlt, bitWrite_of_flag hlt, takeTurn_turned h, doneThr, if_neg (by simp [hx, hz]),
    if_neg (by decide)]

theorem bget_wrote {s : State} {t : BitVec 14} {f : FmtBT} {v : Bool} (h : Issues s t.toNat (wordBT 0x1D 7 f)) (hx : f.idx = false)
    (hz : f.zero = 0) (hb : BitIs s t.toNat f.bit.toNat v) :
    Wrote s (exec (.bget t f) s) t.toNat f.r (BitVec.ofNat 32 (b2n v)) none none none none := by
  rw [exec_bget, execBget]
  refine issue_wrote (fl := (thrOf s t.toNat).flags) h ?_ (fun i _ => noFlag_get _ i) _ _ _
  simp only [hx, hz, bitRead_takeTurn h hb, takeTurn_turned h, bne_self_eq_false, Bool.or_self, Bool.false_eq_true, if_false]

/-! ## Jumps -/

theorem exec_jmp (t : BitVec 14) (f : FmtJ) (s : State) : exec (.jmp t f) s = execJmp t f s := rfl
theorem exec_call (t : BitVec 14) (f : FmtJ) (s : State) : exec (.call t f) s = execCall t f s := rfl
theorem exec_jr (t : BitVec 14) (f : FmtR) (s : State) : exec (.jr t f) s = execJr t f s := rfl
theorem exec_jalr (t : BitVec 14) (f : FmtR) (s : State) : exec (.jalr t f) s = execJalr t f s := rfl

/-- Settles O39: branches, branches on a bit, jumps and calls, and the bit operations by the bit that they name. -/
theorem branchesAndBits : Obligations.BranchesAndBits := by
  refine ⟨branchRow_runs (fun _ _ _ => rfl) fun _ _ => beq_iff_eq, branchRow_runs (fun _ _ _ => rfl) fun _ _ => bne_iff_ne,
    branchRow_runs (fun _ _ _ => rfl) fun _ _ => decide_eq_true_iff, branchRow_runs (fun _ _ _ => rfl) fun _ _ => decide_eq_true_iff,
    branchRow_runs (fun _ _ _ => rfl) fun _ _ => decide_eq_true_iff, branchRow_runs (fun _ _ _ => rfl) fun _ _ => decide_eq_true_iff, ?_, ?_, ?_,
    bitRow_runs fun _ _ _ => rfl, bitRow_runs fun _ _ _ => rfl, bitRow_runs fun _ _ _ => rfl, bitRow_runs fun _ _ _ => rfl,
    bitRow_runs fun _ _ _ => rfl, fun s t f b v h hz hr ha hb => btst_ends_at h hz hr ha hb, fun s t f h hx hz hlt => bput_ends h hx hz hlt,
    fun s t f v h hx hz hb => bget_wrote h hx hz hb, ?_⟩
  · rintro s t f v _ hb rfl aligned
    refine ⟨?_, ?_, ?_, ?_⟩
    · rintro h rfl
      exact branchBit_goes h hb aligned
    · rintro h rfl
      exact branchBit_moved h hb Bool.false_ne_true
    · rintro h rfl
      exact branchBit_goes h hb aligned
    · rintro h rfl
      exact branchBit_moved h hb Bool.false_ne_true.symm
  · rintro s t f _ rfl aligned
    refine ⟨fun h => ?_, fun h => ⟨_, rfl, ?_⟩⟩
    · rw [exec_jmp, execJmp]
      refine issue_goes h ?_ _ _
      rw [pc_takeTurn h]
      exact jumpTo_of_aligned _ aligned
    · rw [exec_call, execCall, ← pc_takeTurn h]
      rw [← pc_takeTurn h] at aligned
      exact issue_links h (linkTo_of_aligned aligned) _ _
  · rintro s t f _ rfl
    refine ⟨fun h hrd hrb hsh => ⟨fun aligned => ?_, fun misaligned => ?_⟩, fun h hrb hsh aligned => ⟨_, rfl, ?_⟩⟩
    · rw [exec_jr, execJr]
      refine issue_goes h ?_ _ _
      rw [if_neg (by simp [hrd, hrb, hsh]), gv_takeTurn h, jumpTo_of_aligned _ aligned]
    · rw [exec_jr, execJr]
      refine issue_fault h ?_ _ _ _
      rw [if_neg (by simp [hrd, hrb, hsh]), gv_takeTurn h, jumpTo_of_misaligned _ misaligned]
    · rw [exec_jalr, execJalr]
      refine issue_links h ?_ _ _
      rw [if_neg (by simp [hrb, hsh]), gv_takeTurn h, linkTo_of_aligned aligned, pc_takeTurn h]
  · intro s t f h hx hz hr lo hi
    rw [exec_bset, execBset]
    exact bitRow_faults h ⟨hz, hx, hr⟩ lo hi _ _

end Sys2Proof.Machine

/-!
PROOF. Multiply-accumulate, accumulator operations and CRC steps (R310–R312).
-/

namespace Sys2Proof.Machine

/-! ## Accumulators beside registers -/

theorem gSet_a0 (x : Thread) (r : Nat) (v : W32) : (gSet x r v).a0 = x.a0 := by rw [gSet_eta]
theorem gSet_a1 (x : Thread) (r : Nat) (v : W32) : (gSet x r v).a1 = x.a1 := by rw [gSet_eta]
theorem gSet_pc (x : Thread) (r : Nat) (v : W32) : (gSet x r v).pc = x.pc := by rw [gSet_eta]

theorem accSet_eta (x : Thread) (n : Nat) (v : W64) : accSet x n v = { x with a0 := (accSet x n v).a0, a1 := (accSet x n v).a1 } := by
  unfold accSet
  split <;> rfl

/-- Whose turn it is and where the thread stands have no part in an accumulation. -/
theorem macApply_ranOn (x : Thread) (f : FmtMD) (a b : Nat) :
    { macApply (turned x x.flags) f a b with pc := (macApply (turned x x.flags) f a b).pc + 4, requeued := false } =
      ranOn (macApply x f a b) (x.pc + 4) := by
  unfold macApply macStep gSet accSet
  dsimp only
  split_ifs <;> rfl

theorem macApply_run (x : Thread) (f : FmtMD) (a b : Nat) :
    (macApply (turned x x.flags) f a b).st = .run ∧ (macApply (turned x x.flags) f a b).stepping = x.stepping := by
  unfold macApply macStep gSet accSet
  dsimp only
  split_ifs <;> exact ⟨rfl, rfl⟩

theorem exec_macd (t : BitVec 14) (f : FmtMD) (s : State) : exec (.macd t f) s = execMacd t f s := rfl

theorem macd_ends {s : State} {t : BitVec 14} {f : FmtMD} {p q : List Byte} (h : Issues s t.toNat (wordMD 0x1E f))
    (hp : LocalIs s t.toNat (gv (thrOf s t.toNat) f.px).toNat (macSize f) p)
    (hq : LocalIs s t.toNat (gv (thrOf s t.toNat) f.py).toNat (macSize f) q) :
    Ends s (exec (.macd t f) s) t.toNat (ranOn (macApply (thrOf s t.toNat) f (leNat p) (leNat q)) ((thrOf s t.toNat).pc + 4)) := by
  obtain ⟨live, stepping⟩ := macApply_run (thrOf s t.toNat) f (leNat p) (leNat q)
  refine ⟨_, ?_, becomes_setThr h.threads_wf _ _⟩
  rw [exec_macd, execMacd, ← macApply_ranOn]
  refine issue_setThr (ts := [⟨(gv (thrOf s t.toNat) f.px).toNat, macSize f, false⟩, ⟨(gv (thrOf s t.toNat) f.py).toNat, macSize f, false⟩]) h ?_
    (by rw [live]; exact ThrSt.noConfusion) (by rw [stepping]; exact h.notStepping) _ _ _
  have quiet : s.integ.bad = [] := h.quiet.1
  have there : ((localOf t.toNat (gv (thrOf s t.toNat) f.px).toNat (macSize f)).isSome &&
      (localOf t.toNat (gv (thrOf s t.toNat) f.py).toNat (macSize f)).isNone) = false := by
    obtain ⟨place, hq, _⟩ := hq
    rw [hq]
    exact Bool.and_false _
  dsimp only
  rw [gv_takeTurn h, gv_takeTurn h, there, if_neg Bool.false_ne_true, localRead_is quiet hp, localRead_is quiet hq, takeTurn_turned h]

/-- V says whether the sum leaves the range, and the accumulator holds it, clamped where SAT is set. -/
theorem macApply_sum (x : Thread) (f : FmtMD) (a b : Nat) (h : f.acc = false) :
    (macApply x f a b).a0 = macFit f (macVal f.ty.toNat x.a0 + macExt f.ty.toNat a * macExt f.ty.toNat b) ∧ (macApply x f a b).a1 = x.a1 ∧
      (macApply x f a b).flags.getLsbD 1 =
        (decide (macVal f.ty.toNat x.a0 + macExt f.ty.toNat a * macExt f.ty.toNat b < macLo f.ty.toNat) ||
          decide (macHi f.ty.toNat < macVal f.ty.toNat x.a0 + macExt f.ty.toNat a * macExt f.ty.toNat b)) := by
  have first : b2n f.acc = 0 := by rw [h]; rfl
  unfold macApply macStep
  dsimp only
  rw [first]
  refine ⟨?_, ?_, ?_⟩
  · rw [gSet_a0, gSet_a0]
    rfl
  · rw [gSet_a1, gSet_a1]
    rfl
  · rw [gSet_flags, gSet_flags, setFlagBit_get _ _ (by decide), if_pos rfl]
    rfl

/-! ## Accumulator operations -/

theorem accRow_ends {s : State} {t : BitVec 14} {f : FmtR} {fn n : Nat} {v : W64} {bad : Bool} {g : Thread → Thread}
    (h : Issues s t.toNat (wordR 0x1F fn f)) (hb : bad = false)
    (hg : g (turned (thrOf s t.toNat) (thrOf s t.toNat).flags) = accSet (turned (thrOf s t.toNat) (thrOf s t.toNat).flags) n v)
    (rds wrs : List Nat) :
    Ends s (accRow fn f rds wrs bad g t s) t.toNat (accSet (ranOn (thrOf s t.toNat) ((thrOf s t.toNat).pc + 4)) n v) := by
  refine ⟨_, ?_, becomes_setThr h.threads_wf _ _⟩
  rw [accRow, issue_doneThr (x := accSet (turned (thrOf s t.toNat) (thrOf s t.toNat).flags) n v) h ?_ ?_ ?_]
  · rw [accSet_eta, accSet_eta (ranOn _ _)]
    unfold accSet
    split <;> rfl
  · rw [hb, if_neg Bool.false_ne_true, takeTurn_turned h, hg]
  · rw [accSet_eta]
    exact ThrSt.noConfusion
  · rw [accSet_eta]
    exact h.notStepping

theorem exec_mac (t : BitVec 14) (f : FmtR) (s : State) : exec (.mac t f) s = execMac t f s := rfl
theorem exec_macu (t : BitVec 14) (f : FmtR) (s : State) : exec (.macu t f) s = execMacu t f s := rfl
theorem exec_mta (t : BitVec 14) (f : FmtR) (s : State) : exec (.mta t f) s = execMta t f s := rfl
theorem exec_clra (t : BitVec 14) (f : FmtR) (s : State) : exec (.clra t f) s = execClra t f s := rfl
theorem exec_mfa (t : BitVec 14) (f : FmtR) (s : State) : exec (.mfa t f) s = execMfa t f s := rfl

theorem mac_ends {s : State} {t : BitVec 14} {f : FmtR} (h : Issues s t.toNat (wordR 0x1F 0 f)) (hd : f.rd.toNat < 2) (hs : f.sh = 0) :
    Ends s (exec (.mac t f) s) t.toNat (accSet (ranOn (thrOf s t.toNat) ((thrOf s t.toNat).pc + 4)) f.rd.toNat
      (BitVec.ofInt 64 ((accGet (thrOf s t.toNat) f.rd.toNat).toInt +
        (gv (thrOf s t.toNat) f.ra).toInt * (gv (thrOf s t.toNat) f.rb).toInt))) := by
  have field : accNo f.rd = f.rd.toNat := Nat.mod_eq_of_lt hd
  have good : (accFieldBad f.rd || f.sh != 0) = false := by simp [accFieldBad, hs, hd]
  rw [exec_mac, execMac]
  exact accRow_ends h good (by rw [field]; rfl) _ _

theorem macu_ends {s : State} {t : BitVec 14} {f : FmtR} (h : Issues s t.toNat (wordR 0x1F 1 f)) (hd : f.rd.toNat < 2) (hs : f.sh = 0) :
    Ends s (exec (.macu t f) s) t.toNat (accSet (ranOn (thrOf s t.toNat) ((thrOf s t.toNat).pc + 4)) f.rd.toNat
      (BitVec.ofNat 64 ((accGet (thrOf s t.toNat) f.rd.toNat).toNat +
        (gv (thrOf s t.toNat) f.ra).toNat * (gv (thrOf s t.toNat) f.rb).toNat))) := by
  have field : accNo f.rd = f.rd.toNat := Nat.mod_eq_of_lt hd
  have good : (accFieldBad f.rd || f.sh != 0) = false := by simp [accFieldBad, hs, hd]
  rw [exec_macu, execMacu]
  exact accRow_ends h good (by rw [field]; rfl) _ _

theorem mta_ends {s : State} {t : BitVec 14} {f : FmtR} (h : Issues s t.toNat (wordR 0x1F 3 f)) (hd : f.rd.toNat < 2) (hb : f.rb = 0)
    (hs : f.sh.toNat < 2) :
    Ends s (exec (.mta t f) s) t.toNat (accSet (ranOn (thrOf s t.toNat) ((thrOf s t.toNat).pc + 4)) f.rd.toNat
      (BitVec.ofNat 64 (setBits (accGet (thrOf s t.toNat) f.rd.toNat).toNat (32 * f.sh.toNat + 31) (32 * f.sh.toNat)
        (gv (thrOf s t.toNat) f.ra).toNat))) := by
  have field : accNo f.rd = f.rd.toNat := Nat.mod_eq_of_lt hd
  have half : accNo f.sh = f.sh.toNat := Nat.mod_eq_of_lt hs
  have good : (accFieldBad f.rd || f.rb != 0 || accFieldBad f.sh) = false := by simp [accFieldBad, hb, hd, hs]
  rw [exec_mta, execMta]
  exact accRow_ends h good (by rw [field, half]; rfl) _ _

theorem clra_ends {s : State} {t : BitVec 14} {f : FmtR} (h : Issues s t.toNat (wordR 0x1F 4 f)) (hd : f.rd.toNat < 2) (ha : f.ra = 0)
    (hb : f.rb = 0) (hs : f.sh = 0) :
    Ends s (exec (.clra t f) s) t.toNat (accSet (ranOn (thrOf s t.toNat) ((thrOf s t.toNat).pc + 4)) f.rd.toNat 0) := by
  have field : accNo f.rd = f.rd.toNat := Nat.mod_eq_of_lt hd
  have good : (accFieldBad f.rd || f.ra != 0 || f.rb != 0 || f.sh != 0) = false := by simp [accFieldBad, ha, hb, hs, hd]
  rw [exec_clra, execClra]
  exact accRow_ends h good (by rw [field]) _ _

theorem mfa_wrote {s : State} {t : BitVec 14} {f : FmtR} (h : Issues s t.toNat (wordR 0x1F 2 f)) (ha : f.ra = 0) (hb : f.rb.toNat < 2)
    (hs : f.sh.toNat < 2) :
    Wrote s (exec (.mfa t f) s) t.toNat f.rd (BitVec.ofNat 32 ((accGet (thrOf s t.toNat) f.rb.toNat).toNat / 2 ^ (32 * f.sh.toNat)))
      none none none none := by
  have field : accNo f.rb = f.rb.toNat := Nat.mod_eq_of_lt hb
  have half : accNo f.sh = f.sh.toNat := Nat.mod_eq_of_lt hs
  have good : (f.ra != 0 || accFieldBad f.rb || accFieldBad f.sh) = false := by
    simp [ha, accFieldBad]
    omega
  rw [exec_mfa, execMfa, accRow]
  refine issue_wrote (fl := (thrOf s t.toNat).flags) h ?_ (fun i _ => noFlag_get _ i) _ _ _
  rw [good, if_neg Bool.false_ne_true, takeTurn_turned h, field, half]
  rfl

/-! ## CRC steps -/

theorem crcRow_wrote {s : State} {t : BitVec 14} {f : FmtR} {fn n : Nat} (h : Issues s t.toNat (wordR 0x29 fn f)) (hb : f.rb = 0) (hs : f.sh = 0) :
    Wrote s (crcRow fn n t f s) t.toNat f.rd
      (BitVec.ofNat 32 (crc32cRun (gv (thrOf s t.toNat) f.rd).toNat (beBytes n (gv (thrOf s t.toNat) f.ra).toNat))) none none none none := by
  rw [crcRow]
  refine issue_wrote (fl := (thrOf s t.toNat).flags) h ?_ (fun i _ => noFlag_get _ i) _ _ _
  dsimp only
  rw [gv_takeTurn h, gv_takeTurn h, takeTurn_turned h]
  exact if_neg (by simp [hb, hs])

/-- Settles O40: a transfer of two local operands through `macApply`, an accumulator written by its number, and a CRC over a word's bytes. -/
theorem accumulatorsAndCrc : Obligations.AccumulatorsAndCrc := by
  refine ⟨fun s t f p q h hp hq => macd_ends h hp hq, ?_, ?_, fun s t f h ha hb hs => mfa_wrote h ha hb hs, ?_⟩
  · rintro x f a b _ h rfl
    obtain ⟨ha0, ha1, hv⟩ := macApply_sum x f a b h
    rw [ha0, ha1, hv]
    unfold macFit
    refine ⟨rfl, fun sat => ?_, fun sat lo hi => ?_, fun sat above => ?_, fun sat below => ?_, rfl⟩
    · rw [sat]
      rfl
    · simp [sat, Int.not_lt.mpr lo, Int.not_lt.mpr hi]
    · have : macLo f.ty.toNat ≤ macHi f.ty.toNat := by
        unfold macLo macHi
        split <;> decide
      have notBelow : ¬ macVal f.ty.toNat x.a0 + macExt f.ty.toNat a * macExt f.ty.toNat b < macLo f.ty.toNat := by omega
      simp [sat, notBelow, above]
    · simp [sat, below]
  · rintro s t f _ _ _ rfl rfl rfl
    refine ⟨fun h hd hs => ?_, fun h hd hs => ?_, fun h hd hs => ?_, fun h hd hs => ?_, fun h hd hb hs => ?_, fun h hd hb hs => ?_,
      fun h hd ha hb hs => ?_, fun h hd ha hb hs => ?_⟩
    · have done := mac_ends h (by rw [hd]; decide) hs
      rw [hd] at done
      exact done
    · have done := mac_ends h (by rw [hd]; decide) hs
      rw [hd] at done
      exact done
    · have done := macu_ends h (by rw [hd]; decide) hs
      rw [hd] at done
      exact done
    · have done := macu_ends h (by rw [hd]; decide) hs
      rw [hd] at done
      exact done
    · have done := mta_ends h (by rw [hd]; decide) hb (by rw [hs]; decide)
      rw [hd, hs] at done
      exact done
    · have done := mta_ends h (by rw [hd]; decide) hb (by rw [hs]; decide)
      rw [hd, hs] at done
      exact done
    · have done := clra_ends h (by rw [hd]; decide) ha hb hs
      rw [hd] at done
      exact done
    · have done := clra_ends h (by rw [hd]; decide) ha hb hs
      rw [hd] at done
      exact done
  · rintro s t f _ _ rfl rfl hb hs
    exact ⟨fun h => crcRow_wrote h hb hs, fun h => crcRow_wrote h hb hs, fun h => crcRow_wrote h hb hs⟩

end Sys2Proof.Machine

/-!
PROOF. Lookups by thread code and the transfers of `dma` (R183, R194, R315, R329, R330, R414).
-/

namespace Sys2Proof.Machine

/-- An undisturbed issue looks at its instruction's effect at the turn alone. -/
theorem issueAt_of_body {s : State} {t : Nat} {w : W32} {body : State → Res} {r : Res} (h : Issues s t w) (hb : body (takeTurn s t) = r)
    (rds wrs : List Nat) (sq : State → State) : issueAt t w rds wrs sq body s = issueAt t w rds wrs sq (fun _ => r) s := by
  rw [issueAt_eq h, issueAt_eq h, hb]

theorem bits_eq_div (w hi lo : Nat) : bits w hi lo = w / 2 ^ lo % 2 ^ (hi + 1 - lo) := by
  rw [bits, Nat.shiftRight_eq_div_pow]

theorem localOf_of_localIs {s : State} {t a n : Nat} {bs : List Byte} (h : LocalIs s t a n bs) : (localOf t a n).isNone = false := by
  obtain ⟨p, hp, _⟩ := h
  rw [hp]
  rfl

/-! ## Lookups -/

section
variable {s : State} {t : BitVec 14} {f : FmtU} {fn : Nat} {key : List Byte} {k : State → Nat → Res}
  (h : Issues s t.toNat (wordU 0x20 fn f)) (hm : isMgt t.toNat = false) (hd : f.rd = 0) (hc : f.rc = 0)
  (hw : (gv (thrOf s t.toNat) f.rb).toNat / 64 % 4 = 0)
  (hk : LocalIs s t.toNat (gv (thrOf s t.toNat) f.ra).toNat (lcLen (gv (thrOf s t.toNat) f.rb)) key)
include h hm hd hc hw hk

/-- A lookup whose slot pends waits for it. -/
theorem lookupRow_of_pending (hp : (thrOf s t.toNat).pend.getLsbD (lcSlot (gv (thrOf s t.toNat) f.rb)) = true) :
    Waits (lookupRow fn k t f s) t.toNat (takeTurn s t.toNat) (.slot (lcSlot (gv (thrOf s t.toNat) f.rb))) := by
  refine issue_waits h ?_ _ _ _
  dsimp only
  rw [gv_takeTurn h, gv_takeTurn h, localOf_of_localIs hk, bits_eq_div, if_neg (by simp [hm, hd, hc]), if_neg Bool.false_ne_true, if_neg (by simpa using hw)]
  exact if_pos (by rw [takeTurn_thr h]; exact hp)

/-- One whose slot is free issues with its key. -/
theorem lookupRow_of_free (hp : (thrOf s t.toNat).pend.getLsbD (lcSlot (gv (thrOf s t.toNat) f.rb)) = false) :
    lookupRow fn k t f s = issueAt t.toNat (wordU 0x20 fn f) [f.ra.toNat, f.rb.toNat] [] id (fun _ =>
      k (setPend (agtAccept (takeTurn s t.toNat) (lookupOf (takeTurn s t.toNat) t.toNat (gv (thrOf s t.toNat) f.rb) key)) t.toNat
        (lcSlot (gv (thrOf s t.toNat) f.rb))) (lcSlot (gv (thrOf s t.toNat) f.rb))) s := by
  refine issueAt_of_body h ?_ _ _ _
  dsimp only
  rw [gv_takeTurn h, gv_takeTurn h, localOf_of_localIs hk, bits_eq_div, if_neg (by simp [hm, hd, hc]), if_neg Bool.false_ne_true, if_neg (by simpa using hw),
    if_neg (by rw [takeTurn_thr h]; simpa using hp), localRead_is h.quiet.1 hk]

end

theorem exec_lkp (t : BitVec 14) (f : FmtU) (s : State) : exec (.lkp t f) s = lookupRow 0 (fun u _ => .done u []) t f s := rfl
theorem exec_lkpw (t : BitVec 14) (f : FmtU) (s : State) : exec (.lkpw t f) s = lookupRow 1 (fun u i => .wait u (.slots (2 ^ i))) t f s := rfl
theorem exec_lkw (t : BitVec 14) (f : FmtUI) (s : State) : exec (.lkw t f) s = execLkw t f s := rfl

/-- `lkw` waits for those of the slots it names that pend. -/
theorem lkw_runs {s : State} {t : BitVec 14} {f : FmtUI} (h : Issues s t.toNat (wordUI 0x20 2 f)) (hm : isMgt t.toNat = false) (hd : f.rd = 0)
    (ha : f.ra = 0) (hi : f.imm.toNat < 16) :
    ((thrOf s t.toNat).pend.toNat &&& f.imm.toNat = 0 → Moved s (exec (.lkw t f) s) t.toNat) ∧
    ((thrOf s t.toNat).pend.toNat &&& f.imm.toNat ≠ 0 → Waits (exec (.lkw t f) s) t.toNat (takeTurn s t.toNat) (.slots f.imm.toNat)) := by
  have low : f.imm.toNat % 16 = f.imm.toNat := Nat.mod_eq_of_lt hi
  have good : ¬ (isMgt t.toNat || f.rd != 0 || f.ra != 0 || decide (16 ≤ f.imm.toNat)) = true := by simp [hm, hd, ha, hi]
  rw [exec_lkw, execLkw]
  refine ⟨fun none => issue_moved h ?_ _ _ _, fun some => issue_waits h ?_ _ _ _⟩
  · dsimp only
    rw [low, if_neg good, takeTurn_thr h]
    exact if_pos none
  · dsimp only
    rw [low, if_neg good, takeTurn_thr h]
    exact if_neg some

/-! ## DMA -/

/-- What `dma` does at its turn with the descriptor it has read: what refuses the transfer, and the transfer. -/
def dmaChecked (t : BitVec 14) (f : FmtU) (a c n : Nat) (loc : W32) (u : State) : Res :=
  if bitOf c 30 && !isS u t.toNat then .fault u cPriv (wordU 0x26 0 f).toNat
  else if (localOf t.toNat loc.toNat n).isNone then .fault u cBadAddr loc.toNat
  else if !bitOf c 30 && !inWindow u t.toNat a n then .fault u cBadAddr a
  else if bits c 29 21 ≠ 0 then .fault u cBadArg c
  else if !bitOf c 30 && bitOf c 31 && drcReady u && inAreas u a n then .bad .dmaIntoClientArea
  else dmaRun u t.toNat f.rd.toNat a (bitOf c 31) (if bitOf c 30 then some (bits c 20 12) else none) n loc

/-- The instruction is its checks once the descriptor is read. -/
theorem exec_dma_of_descriptor {s : State} {t : BitVec 14} {f : FmtU} {bs : List Byte} (h : Issues s t.toNat (wordU 0x26 0 f)) (hb : f.rb = 0)
    (hc : f.rc = 0) (hd : LocalIs s t.toNat (gv (thrOf s t.toNat) f.ra).toNat 16 bs) :
    exec (.dma t f) s = issueAt t.toNat (wordU 0x26 0 f) [f.ra.toNat] [] id (fun _ =>
      dmaChecked t f (leNat (bs.take 8)) (leNat ((bs.drop 8).take 4)) (leNat ((bs.drop 8).take 4) % 4096 + 1)
        (BitVec.ofNat 32 (leNat (bs.drop 12))) (takeTurn s t.toNat)) s := by
  have exec : exec (.dma t f) s = execDma t f s := rfl
  rw [exec, execDma]
  refine issueAt_of_body h ?_ _ _ _
  dsimp only
  rw [gv_takeTurn h, if_neg (by simp [hb, hc]), localRead_is h.quiet.1 hd, dmaChecked, bits_eq_div (hi := 11)]
  simp only [Nat.pow_zero, Nat.div_one]
  rfl

/-- A turn gives no privilege and takes none. -/
theorem isS_takeTurn {s : State} {t : Nat} {w : W32} (h : Issues s t w) : isS (takeTurn s t) t = isS s t := by
  rw [isS, takeTurn_thr h]
  rfl

/-- A transfer that nothing refuses at its checks. -/
theorem dmaChecked_of_good {s u : State} {t : BitVec 14} {f : FmtU} {a c n : Nat} {loc : W32} {data : List Byte}
    (hl : LocalIs s t.toNat loc.toNat n data) (hz : c / 2 ^ 21 % 2 ^ 9 = 0) (hp : bitOf c 30 = true → isS u t.toNat = true)
    (hw : bitOf c 30 = false → inWindow u t.toNat a n = true)
    (ha : bitOf c 30 = false → bitOf c 31 = true → drcReady u = true → inAreas u a n = false) :
    dmaChecked t f a c n loc u = dmaRun u t.toNat f.rd.toNat a (bitOf c 31) (if bitOf c 30 then some (c / 2 ^ 12 % 512) else none) n loc := by
  have zeros : bits c 29 21 = 0 := by
    rw [bits_eq_div]
    exact hz
  have fn : bits c 20 12 = c / 2 ^ 12 % 512 := bits_eq_div ..
  have free : (!bitOf c 30 && bitOf c 31 && drcReady u && inAreas u a n) = false := by
    cases hc : bitOf c 30
    · cases ho : bitOf c 31
      · simp
      · cases hr : drcReady u
        · simp
        · simp [ha hc ho hr]
    · simp
  have privileged : (bitOf c 30 && !isS u t.toNat) = false := by
    cases hc : bitOf c 30
    · rfl
    · simp [hp hc]
  have within : (!bitOf c 30 && !inWindow u t.toNat a n) = false := by
    cases hc : bitOf c 30
    · simp [hw hc]
    · rfl
  rw [dmaChecked, privileged, localOf_of_localIs hl, within, zeros, free, fn]
  simp

/-- The other end of a transfer refuses it: a function, or DRAM. -/
def dmaRefused (s : State) : Option Nat → Bool
  | some f => fnRefuses s f
  | none => !drcReady s

/-- The other end of a transfer that goes out is written. -/
def dmaWritten (s : State) (t a : Nat) (data : List Byte) : Option Nat → State
  | some f => hostWrite s f a data
  | none => dramWrite s a data (if isMgt t then 6 else 5)

section
variable {s : State} {t rd a n : Nat} {loc : W32} {data : List Byte}

theorem dmaRun_of_refused {out : Bool} {fn : Option Nat} (hr : dmaRefused s fn = true) :
    dmaRun s t rd a out fn n loc = accept s t (dmaAnswer loc [] [] (a, out, fn, n) rd tsDmaErr) .dma := by
  cases fn <;> exact if_pos hr

/-- A transfer that goes out takes its bytes as it issues. -/
theorem dmaRun_out {fn : Option Nat} (hr : dmaRefused s fn = false) (h : s.integ.bad = []) (hl : LocalIs s t loc.toNat n data) :
    dmaRun s t rd a true fn n loc = accept (dmaWritten s t a data fn) t (dmaAnswer loc [] [] (a, true, fn, n) rd 0) .dma := by
  obtain ⟨p, hp, hm⟩ := hl
  have read := placeRead_quiet h hm
  unfold dmaRun
  cases fn <;>
  · rw [dmaRefused] at hr
    dsimp only
    rw [if_neg (by rw [hr]; exact Bool.false_ne_true), if_pos rfl, hp]
    dsimp only
    rw [read]
    rfl

theorem dmaRun_from_dram (hr : drcReady s = true) :
    dmaRun s t rd a false none n loc =
      accept (dramRead s a n (if isMgt t then 6 else 5)).2.2 t
        (dmaAnswer loc (dramRead s a n (if isMgt t then 6 else 5)).1 (dramRead s a n (if isMgt t then 6 else 5)).2.1 (a, false, none, n) rd 0) .dma := by
  unfold dmaRun
  dsimp only
  rw [hr]
  rfl

theorem dmaRun_from_host {f : Nat} (hr : fnRefuses s f = false) :
    dmaRun s t rd a false (some f) n loc = accept s t (dmaAnswer loc [] [] (a, false, some f, n) rd 0) .dma := by
  unfold dmaRun
  dsimp only
  rw [hr]
  rfl

end

/-- Settles O41: lookups by what their slot has to say, and transfers by where they go, once the checks let them pass. -/
theorem lookupsAndDma : Obligations.LookupsAndDma := by
  refine ⟨⟨?_, fun s t f h hm hd ha hi => lkw_runs h hm hd ha hi⟩, ?_⟩
  · rintro s _ _ t f _ key hm hd hc rfl rfl hw hk rfl
    refine ⟨fun h hp => ?_, fun h hp => ?_, fun h hp => ?_, fun h hp => ?_⟩
    · rw [exec_lkp, lookupRow_of_free h hm hd hc hw hk hp]
      exact issue_ran h rfl _ _
    · rw [exec_lkp]
      exact lookupRow_of_pending h hm hd hc hw hk hp
    · rw [exec_lkpw, lookupRow_of_free h hm hd hc hw hk hp]
      exact issue_waits h rfl _ _ _
    · rw [exec_lkpw]
      exact lookupRow_of_pending h hm hd hc hw hk hp
  · rintro s _ t f _ _ _ _ bs h hb hc rfl hd rfl rfl rfl rfl
    rw [exec_dma_of_descriptor h hb hc hd]
    generalize leNat (bs.take 8) = a
    generalize leNat ((bs.drop 8).take 4) = c
    generalize BitVec.ofNat 32 (leNat (bs.drop 12)) = loc
    generalize c % 4096 + 1 = n
    have quiet : (takeTurn s t.toNat).integ.bad = [] := h.quiet.1
    refine ⟨fun data hl hz => ⟨fun hh hw hr => ⟨fun ho ha => ?_, fun ho ha => ?_, fun v d ps ho hdr => ?_⟩, fun hh hw hr => ?_,
      fun hh hs hr => ⟨fun ho => ?_, fun ho => ?_⟩, fun hh hs hr => ?_⟩, fun hh hs => ?_, fun hh hl hw => ?_⟩
    · refine issue_asks h ?_ _ _ _
      rw [dmaChecked_of_good hl hz (by simp [hh]) (fun _ => hw) (fun _ _ _ => ha), hh, ho, if_neg Bool.false_ne_true]
      exact dmaRun_out (by simp [dmaRefused, hr]) quiet hl
    · refine issue_bad h ?_ _ _ _
      have zeros : bits c 29 21 = 0 := by
        rw [bits_eq_div]
        exact hz
      rw [dmaChecked, localOf_of_localIs hl, hh, hw, ho, hr, ha, zeros]
      rfl
    · refine issue_asks h ?_ _ _ _
      rw [dmaChecked_of_good hl hz (by simp [hh]) (fun _ => hw) (by simp [ho]), hh, ho, if_neg Bool.false_ne_true, dmaRun_from_dram hr, hdr]
    · refine issue_asks h ?_ _ _ _
      rw [dmaChecked_of_good hl hz (by simp [hh]) (fun _ => hw) (by simp [hr]), hh, if_neg Bool.false_ne_true]
      exact dmaRun_of_refused (by simp [dmaRefused, hr])
    · refine issue_asks h ?_ _ _ _
      rw [dmaChecked_of_good hl hz (fun _ => (isS_takeTurn h).trans hs) (by simp [hh]) (by simp [hh]), hh, ho, if_pos rfl]
      exact dmaRun_out hr quiet hl
    · refine issue_asks h ?_ _ _ _
      rw [dmaChecked_of_good hl hz (fun _ => (isS_takeTurn h).trans hs) (by simp [hh]) (by simp [hh]), hh, ho, if_pos rfl]
      exact dmaRun_from_host hr
    · refine issue_asks h ?_ _ _ _
      rw [dmaChecked_of_good hl hz (fun _ => (isS_takeTurn h).trans hs) (by simp [hh]) (by simp [hh]), hh, if_pos rfl]
      exact dmaRun_of_refused hr
    · refine issue_fault h ?_ _ _ _
      rw [dmaChecked, hh, isS_takeTurn h, hs]
      rfl
    · refine issue_fault h ?_ _ _ _
      have local' : (localOf t.toNat loc.toNat n).isNone = false := by
        rw [← Option.not_isSome, hl]
        rfl
      rw [dmaChecked, hh, local', hw]
      rfl

end Sys2Proof.Machine

/-!
PROOF. What a cell instruction asks for as it issues (R121, R123, R131, R317–R319, R336).
-/

namespace Sys2Proof.Machine

/-! ## Handles -/

theorem withChain_of_chain {s : State} {h : W32} {ch : Chain} (hg : handleGood s h.toNat = true) (hc : chainAt s (h.toNat / 8) = some ch)
    (k : Nat → Chain → Res) : withChain s h k = k (h.toNat / 8) ch := by
  rw [withChain, if_pos hg, hc]

theorem withChain_of_bad {s : State} {h : W32} (hg : handleGood s h.toNat = false) (k : Nat → Chain → Res) :
    withChain s h k = .fault (noteBadHandle s h.toNat) cBadCell h.toNat := by
  rw [withChain, hg, if_neg Bool.false_ne_true]

theorem exec_cld (t : BitVec 14) (f : FmtU) (s : State) : exec (.cld t f) s = execCld t f s := rfl
theorem exec_cst (t : BitVec 14) (f : FmtU) (s : State) : exec (.cst t f) s = execCst t f s := rfl
theorem exec_cref (t : BitVec 14) (f : FmtU) (s : State) : exec (.cref t f) s = execCref t f s := rfl
theorem exec_cfree (t : BitVec 14) (f : FmtU) (s : State) : exec (.cfree t f) s = execCfree t f s := rfl

section
variable {s : State} {t : BitVec 14} {f : FmtU}

/-! ## Bytes of a chain -/

theorem cld_asks {v : State} {ch : Chain} {bad : List Nat} (h : Issues s t.toNat (wordU 0x21 0 f)) (hm : isMgt t.toNat = false)
    (hl : (localOf t.toNat (gv (thrOf s t.toNat) f.rb).toNat (xwLen (gv (thrOf s t.toNat) f.rc))).isSome = true)
    (hw : xwBad (gv (thrOf s t.toNat) f.rc) = false) (hg : handleGood (takeTurn s t.toNat) (gv (thrOf s t.toNat) f.ra).toNat = true)
    (hc : chainAt (takeTurn s t.toNat) ((gv (thrOf s t.toNat) f.ra).toNat / 8) = some ch)
    (hp : probeChain (takeTurn s t.toNat) ch 2 (xwOfs (gv (thrOf s t.toNat) f.rc)) (xwLen (gv (thrOf s t.toNat) f.rc)) = (v, bad)) :
    Asks (exec (.cld t f) s) v t.toNat (cellAnswer (gv (thrOf s t.toNat) f.rb)
      (chainBytes v ch (xwOfs (gv (thrOf s t.toNat) f.rc)) (xwLen (gv (thrOf s t.toNat) f.rc)))
      ((List.range (xwLen (gv (thrOf s t.toNat) f.rc))).map
        (fun i => bad.contains ((ch.ofs + xwOfs (gv (thrOf s t.toNat) f.rc) + i) / 16))) f.rd.toNat 0 true) .cell := by
  have somewhere : (localOf t.toNat (gv (thrOf s t.toNat) f.rb).toNat (xwLen (gv (thrOf s t.toNat) f.rc))).isNone = false := by
    rw [← Option.not_isSome, hl]
    rfl
  rw [exec_cld, execCld]
  refine issue_asks h ?_ _ _ _
  dsimp only
  rw [gv_takeTurn h, gv_takeTurn h, gv_takeTurn h, hm, if_neg Bool.false_ne_true, somewhere, if_neg Bool.false_ne_true, hw, if_neg Bool.false_ne_true,
    withChain_of_chain hg hc, hp]

theorem cst_asks {v : State} {ch : Chain} {bs : List Byte} {st : Nat} (h : Issues s t.toNat (wordU 0x21 1 f)) (hm : isMgt t.toNat = false)
    (hl : LocalIs s t.toNat (gv (thrOf s t.toNat) f.rb).toNat (xwLen (gv (thrOf s t.toNat) f.rc)) bs)
    (hw : xwBad (gv (thrOf s t.toNat) f.rc) = false) (hg : handleGood (takeTurn s t.toNat) (gv (thrOf s t.toNat) f.ra).toNat = true)
    (hc : chainAt (takeTurn s t.toNat) ((gv (thrOf s t.toNat) f.ra).toNat / 8) = some ch)
    (hst : cellStore (takeTurn s t.toNat) (cluOf t.toNat) ((gv (thrOf s t.toNat) f.ra).toNat / 8) ch (xwOfs (gv (thrOf s t.toNat) f.rc)) bs = (st, v)) :
    Asks (exec (.cst t f) s) v t.toNat (cellAnswer 0 [] [] f.rd.toNat (BitVec.ofNat 32 st) (st == 0)) .cell := by
  rw [exec_cst, execCst]
  refine issue_asks h ?_ _ _ _
  dsimp only
  rw [gv_takeTurn h, gv_takeTurn h, gv_takeTurn h, hm, if_neg Bool.false_ne_true, localOf_of_localIs hl, if_neg Bool.false_ne_true, hw,
    if_neg Bool.false_ne_true, withChain_of_chain hg hc, localRead_is h.quiet.1 hl, hst]

/-! ## References -/

theorem calloc_faults {n : Nat} (h : Issues s t.toNat (wordU 0x21 2 f)) (hm : isMgt t.toNat = false) (hb : f.rb = 0) (hc : f.rc = 0)
    (hn : n = (gv (thrOf s t.toNat) f.ra).toNat) (hbad : n = 0 ∨ 80 < n) : Faults s (exec (.calloc t f) s) t.toNat cBadArg n := by
  subst hn
  rw [exec_calloc, execCalloc]
  refine issue_fault h ?_ _ _ _
  dsimp only
  rw [gv_takeTurn h, if_neg (by simp [hm, hb, hc])]
  exact if_pos (by simpa using hbad)

section
variable (hm : isMgt t.toNat = false) (hb : f.rb = 0) (hc : f.rc = 0)
include hm hb hc

theorem cref_asks (h : Issues s t.toNat (wordU 0x21 3 f)) (hg : handleGood (takeTurn s t.toNat) (gv (thrOf s t.toNat) f.ra).toNat = true)
    (hch : (chainAt (takeTurn s t.toNat) ((gv (thrOf s t.toNat) f.ra).toNat / 8)).isSome = true) :
    (∀ v : State, addRef (takeTurn s t.toNat) ((gv (thrOf s t.toNat) f.ra).toNat / 8) = some v →
      Asks (exec (.cref t f) s) v t.toNat (cellAnswer 0 [] [] f.rd.toNat 0 true) .cell) ∧
    (addRef (takeTurn s t.toNat) ((gv (thrOf s t.toNat) f.ra).toNat / 8) = none →
      Asks (exec (.cref t f) s) (takeTurn s t.toNat) t.toNat (cellAnswer 0 [] [] f.rd.toNat 5 false) .cell) := by
  obtain ⟨ch, hch⟩ := Option.isSome_iff_exists.mp hch
  rw [exec_cref, execCref]
  refine ⟨fun v hv => issue_asks h ?_ _ _ _, fun hv => issue_asks h ?_ _ _ _⟩
  · rw [gv_takeTurn h, if_neg (by simp [hm, hb, hc]), withChain_of_chain hg hch, hv]
  · rw [gv_takeTurn h, if_neg (by simp [hm, hb, hc]), withChain_of_chain hg hch, hv]
    rfl

theorem cref_faults (h : Issues s t.toNat (wordU 0x21 3 f)) (hg : handleGood (takeTurn s t.toNat) (gv (thrOf s t.toNat) f.ra).toNat = false) :
    exec (.cref t f) s = .next (thrFault (noteBadHandle (takeTurn s t.toNat) (gv (thrOf s t.toNat) f.ra).toNat) t.toNat cBadCell
      (gv (thrOf s t.toNat) f.ra).toNat) := by
  rw [exec_cref, execCref]
  refine issue_faults h ?_ _ _ _
  rw [gv_takeTurn h, if_neg (by simp [hm, hb, hc]), withChain_of_bad hg]

variable (h : Issues s t.toNat (wordU 0x21 4 f)) (hd : f.rd = 0)
include h hd

theorem cfree_ran (hg : handleGood (takeTurn s t.toNat) (gv (thrOf s t.toNat) f.ra).toNat = true)
    (hch : (chainAt (takeTurn s t.toNat) ((gv (thrOf s t.toNat) f.ra).toNat / 8)).isSome = true) :
    Ran (exec (.cfree t f) s) t.toNat (settleAll (unref (takeTurn s t.toNat) ((gv (thrOf s t.toNat) f.ra).toNat / 8))) := by
  obtain ⟨ch, hch⟩ := Option.isSome_iff_exists.mp hch
  have once : doubleFree (takeTurn s t.toNat) (gv (thrOf s t.toNat) f.ra).toNat = false := by simp [doubleFree, hch]
  rw [exec_cfree, execCfree]
  refine issue_ran h ?_ _ _
  dsimp only
  rw [gv_takeTurn h, if_neg (by simp [hm, hb, hc, hd]), once, if_neg Bool.false_ne_true, withChain_of_chain hg hch]

theorem cfree_faults_twice (hdf : doubleFree (takeTurn s t.toNat) (gv (thrOf s t.toNat) f.ra).toNat = true) :
    exec (.cfree t f) s = .next (thrFault ((noteBadHandle (takeTurn s t.toNat) (gv (thrOf s t.toNat) f.ra).toNat).bump F.CRN_ERR_DOUBLE_FREE 0 1)
      t.toNat cBadCell (gv (thrOf s t.toNat) f.ra).toNat) := by
  rw [exec_cfree, execCfree]
  refine issue_faults h ?_ _ _ _
  dsimp only
  rw [gv_takeTurn h, if_neg (by simp [hm, hb, hc, hd]), hdf, if_pos rfl]

theorem cfree_faults (hg : handleGood (takeTurn s t.toNat) (gv (thrOf s t.toNat) f.ra).toNat = false)
    (hdf : doubleFree (takeTurn s t.toNat) (gv (thrOf s t.toNat) f.ra).toNat = false) :
    exec (.cfree t f) s = .next (thrFault (noteBadHandle (takeTurn s t.toNat) (gv (thrOf s t.toNat) f.ra).toNat) t.toNat cBadCell
      (gv (thrOf s t.toNat) f.ra).toNat) := by
  rw [exec_cfree, execCfree]
  refine issue_faults h ?_ _ _ _
  dsimp only
  rw [gv_takeTurn h, if_neg (by simp [hm, hb, hc, hd]), hdf, if_neg Bool.false_ne_true, withChain_of_bad hg]

end

end

/-- Settles O42: each instruction's operands, its chain or what its handle lacks, and what Cairn makes of the request. -/
theorem cellInstructions : Obligations.CellInstructions := by
  refine ⟨?_, ?_, ?_, ?_, ?_⟩
  · rintro s _ v t f _ _ _ ch bad h hm rfl rfl rfl rfl hl hw hg hc hp
    exact cld_asks h hm hl hw hg hc hp
  · rintro s _ v t f _ _ _ ch bs st h hm rfl rfl rfl rfl hl hw hg hc hst
    exact cst_asks h hm hl hw hg hc hst
  · rintro s _ v t f n c cells h hm hb hc rfl hn lo hi
    have hf : CallocOk s t.toNat f n := ⟨hm, hb, hc, hn, lo, hi⟩
    exact ⟨calloc_refused h hf, fun _ => calloc_granted h hf⟩
  · rintro s _ t f n h hm hb hc rfl hn hbad
    exact calloc_faults h hm hb hc hn hbad
  · rintro s _ t f _ hm hb hc rfl rfl
    refine ⟨cref_asks hm hb hc, cref_faults hm hb hc, cfree_ran hm hb hc, fun h hd hform hch hreq => ?_, fun h hd hg hone => ?_⟩
    · exact cfree_faults_twice hm hb hc h hd (by simp [doubleFree, hform, hch, hreq])
    · refine cfree_faults hm hb hc h hd hg ?_
      obtain hone | hone | hone := hone
      · simp [doubleFree, hone]
      · obtain ⟨ch, hone⟩ := Option.isSome_iff_exists.mp hone
        simp [doubleFree, hone]
      · obtain ⟨r, hone⟩ := Option.ne_none_iff_exists'.mp hone
        simp [doubleFree, hone]

end Sys2Proof.Machine

/-!
PROOF. Work items in threads: `get`, the enqueues, the emits and the disposals (R222, R227–R230, R238, R241, R247, R320–R324, R391–R393).
-/

namespace Sys2Proof.Machine

/-! ## Operands -/

theorem item_takeTurn {s : State} {t : Nat} {w : W32} (h : Issues s t w) : (thrOf (takeTurn s t) t).item = (thrOf s t).item := by
  rw [takeTurn_thr h]

theorem holdsItem_takeTurn {s : State} {t : Nat} {w : W32} (h : Issues s t w) : holdsItem (takeTurn s t) t = (thrOf s t).item.isSome := by
  rw [holdsItem, item_takeTurn h]

theorem itemHandle_of_good {s : State} {it : Item} (h : itemWord it 0 = nullHandle ∨ handleGood s (itemWord it 0) = true) (k : State → Res) :
    itemHandle s it k = k s := if_pos (by simpa using h)

theorem readItem_is {s : State} {t : Nat} {w : W32} {bs : List Byte} (h : Issues s t w) (hb : LocalIs s t (thrBlk t) 64 bs)
    (k : State → Item → Res) : readItem (takeTurn s t) t k = k (takeTurn s t) (itemOfBytes bs) :=
  localRead_is h.quiet.1 hb _

theorem exec_get (t : BitVec 14) (f : FmtUI) (s : State) : exec (.get t f) s = execGet t f s := rfl
theorem exec_enqInstruction (t : BitVec 14) (f : FmtU) (s : State) : exec (.enqInstruction t f) s = enqRow 1 false t f s := rfl
theorem exec_enqNb (t : BitVec 14) (f : FmtU) (s : State) : exec (.enqNb t f) s = enqRow 2 true t f s := rfl
theorem exec_enqd (t : BitVec 14) (f : FmtU) (s : State) : exec (.enqd t f) s = enqdRow 3 false t f s := rfl
theorem exec_enqdNb (t : BitVec 14) (f : FmtU) (s : State) : exec (.enqdNb t f) s = enqdRow 4 true t f s := rfl
theorem exec_emit (t : BitVec 14) (f : FmtU) (s : State) : exec (.emit t f) s = emitRow 5 true t f s := rfl
theorem exec_emitk (t : BitVec 14) (f : FmtU) (s : State) : exec (.emitk t f) s = emitRow 6 false t f s := rfl
theorem exec_drop (t : BitVec 14) (f : FmtU) (s : State) : exec (.drop t f) s = execDrop t f s := rfl
theorem exec_aend (t : BitVec 14) (f : FmtU) (s : State) : exec (.aend t f) s = execAend t f s := rfl
theorem exec_wfrm (t : BitVec 14) (f : FmtU) (s : State) : exec (.wfrm t f) s = execWfrm t f s := rfl
theorem exec_dly (t : BitVec 14) (f : FmtU) (s : State) : exec (.dly t f) s = execDly t f s := rfl

/-! ## get -/

theorem get_runs {s : State} {t : BitVec 14} {f : FmtUI} (h : Issues s t.toNat (wordUI 0x22 0 f)) (hm : isMgt t.toNat = false) (hd : f.rd = 0)
    (ha : f.ra = 0) (hi : f.imm.toNat < 64) :
    ((thrOf s t.toNat).item = none → Waits (exec (.get t f) s) t.toNat
      { takeTurn s t.toNat with ory := { (takeTurn s t.toNat).ory with gets := (takeTurn s t.toNat).ory.gets ++ [(t.toNat, f.imm.toNat)] } }
      (.get f.imm.toNat)) ∧
    ((thrOf s t.toNat).item ≠ none → Faults s (exec (.get t f) s) t.toNat cItem (wordUI 0x22 0 f).toNat) := by
  have good : ¬ (isMgt t.toNat || f.rd != 0 || f.ra != 0 || decide (64 ≤ f.imm.toNat)) = true := by simp [hm, hd, ha, hi]
  rw [exec_get, execGet]
  refine ⟨fun free => issue_waits h ?_ _ _ _, fun busy => issue_fault h ?_ _ _ _⟩
  · dsimp only
    rw [if_neg good, holdsItem_takeTurn h, free, if_neg (by decide)]
  · dsimp only
    rw [if_neg good, holdsItem_takeTurn h, if_pos (Option.isSome_iff_ne_none.mpr busy)]

/-! ## Enqueues -/

section
variable {s : State} {t rd : Nat} {qd flow : W32} {nb derived : Bool} {it : Item}

theorem enqAct_of_late {h : Held} (hi : (thrOf s t).item = some h) (hl : h.late = true) :
    enqAct s t rd qd flow nb false it = doneStatus (lateEnq s t h it) t rd 0 := by
  unfold enqAct
  rw [hi]
  simp only [hl, Bool.not_false, Bool.and_true, if_true]
  rfl

/-- An enqueue that is not of a late item: blocking, or refused XOFF. -/
theorem enqAct_of_notLate (hl : derived = true ∨ ∃ h, (thrOf s t).item = some h ∧ h.late = false) :
    enqAct s t rd qd flow nb derived it =
      if nb then
        if s.flag F.ORY_CTL_EN 0 && s.flag F.ORY_Q_CFG_EN (qdQueue qd) && queueXoff s (qdQueue qd) then doneStatus s t rd tsXoff
        else endStatus (thrEnq s t qd flow derived it) t rd
      else if thrEnqReady s t qd derived then endStatus (thrEnq s t qd flow derived it) t rd
      else .wait s (.enq rd qd flow (derived, it)) := by
  obtain rfl | ⟨h, hi, hh⟩ := hl
  · cases hi : (thrOf s t).item <;> simp [enqAct, hi]
  · simp [enqAct, hi, hh]

end

section
variable {s : State} {t : BitVec 14} {f : FmtU} {fn : Nat}

/-- An enqueue of the current item comes to `enqAct`. -/
theorem enqRow_of_item {nb : Bool} {x : Held} {bs : List Byte} (h : Issues s t.toNat (wordU 0x22 fn f)) (hm : isMgt t.toNat = false) (hc : f.rc = 0)
    (hq : qdBad (gv (thrOf s t.toNat) f.ra) = false) (hi : (thrOf s t.toNat).item = some x) (hb : LocalIs s t.toNat (thrBlk t.toNat) 64 bs)
    (hh : itemWord (itemOfBytes bs) 0 = nullHandle ∨ handleGood (takeTurn s t.toNat) (itemWord (itemOfBytes bs) 0) = true) :
    enqRow fn nb t f s = issueAt t.toNat (wordU 0x22 fn f) [f.ra.toNat, f.rb.toNat] [f.rd.toNat] id (fun _ =>
      enqAct (takeTurn s t.toNat) t.toNat f.rd.toNat (gv (thrOf s t.toNat) f.ra) (gv (thrOf s t.toNat) f.rb) nb false (itemOfBytes bs)) s := by
  refine issueAt_of_body h ?_ _ _ _
  dsimp only
  rw [gv_takeTurn h, gv_takeTurn h, if_neg (by simp [hm, hc]), hq, if_neg Bool.false_ne_true, holdsItem_takeTurn h, hi, if_neg (by simp),
    readItem_is h hb, itemHandle_of_good hh]

/-- An enqueue of a derived item. -/
theorem enqdRow_of_item {nb : Bool} {bs : List Byte} (h : Issues s t.toNat (wordU 0x22 fn f)) (hm : isMgt t.toNat = false)
    (hq : qdBad (gv (thrOf s t.toNat) f.ra) = false) (hb : LocalIs s t.toNat (gv (thrOf s t.toNat) f.rc).toNat 64 bs)
    (hform : itForm (itemOfBytes bs) = true)
    (hh : itemWord (itemOfBytes bs) 0 = nullHandle ∨ handleGood (takeTurn s t.toNat) (itemWord (itemOfBytes bs) 0) = true) :
    enqdRow fn nb t f s = issueAt t.toNat (wordU 0x22 fn f) [f.ra.toNat, f.rb.toNat, f.rc.toNat] [f.rd.toNat] id (fun _ =>
      enqAct (takeTurn s t.toNat) t.toNat f.rd.toNat (gv (thrOf s t.toNat) f.ra) (gv (thrOf s t.toNat) f.rb) nb true (itemOfBytes bs)) s := by
  refine issueAt_of_body h ?_ _ _ _
  dsimp only
  rw [gv_takeTurn h, gv_takeTurn h, gv_takeTurn h, hm, if_neg Bool.false_ne_true, localOf_of_localIs hb, if_neg Bool.false_ne_true, hq,
    if_neg Bool.false_ne_true, localRead_is h.quiet.1 hb, hform, if_neg (by decide), itemHandle_of_good hh]

theorem enq_faults_of_noItem (h : Issues s t.toNat (wordU 0x22 1 f)) (hm : isMgt t.toNat = false) (hc : f.rc = 0)
    (hq : qdBad (gv (thrOf s t.toNat) f.ra) = false) (hi : (thrOf s t.toNat).item = none) :
    Faults s (exec (.enqInstruction t f) s) t.toNat cNoItem (wordU 0x22 1 f).toNat := by
  rw [exec_enqInstruction, enqRow]
  refine issue_fault h ?_ _ _ _
  dsimp only
  rw [gv_takeTurn h, if_neg (by simp [hm, hc]), hq, if_neg Bool.false_ne_true, holdsItem_takeTurn h, hi, if_pos (by decide)]

/-! ## Emits -/

theorem emitRow_of_item {final : Bool} {x : Held} {bs hdr : List Byte} (h : Issues s t.toNat (wordU 0x22 fn f)) (hm : isMgt t.toNat = false)
    (hc : f.rc = 0) (ha : (gv (thrOf s t.toNat) f.ra).toNat < 16384) (hw : wbBad (gv (thrOf s t.toNat) f.rb) = false)
    (hi : (thrOf s t.toNat).item = some x) (hb : LocalIs s t.toNat (thrBlk t.toNat) 64 bs)
    (hh : itemWord (itemOfBytes bs) 0 = nullHandle ∨ handleGood (takeTurn s t.toNat) (itemWord (itemOfBytes bs) 0) = true)
    (hhdr : LocalIs s t.toNat (hdrBuf t.toNat) (wbNew (gv (thrOf s t.toNat) f.rb)) hdr) :
    emitRow fn final t f s = issueAt t.toNat (wordU 0x22 fn f) [f.ra.toNat, f.rb.toNat] [f.rd.toNat] id (fun _ =>
      if emitWaits (takeTurn s t.toNat) x final (itemOfBytes bs) then
        .wait (takeTurn s t.toNat) (.gate f.rd.toNat (gv (thrOf s t.toNat) f.ra) (gv (thrOf s t.toNat) f.rb) (final, hdr, itemOfBytes bs))
      else endStatus (emitRun (takeTurn s t.toNat) t.toNat x final (gv (thrOf s t.toNat) f.ra).toNat (gv (thrOf s t.toNat) f.rb) hdr (itemOfBytes bs))
        t.toNat f.rd.toNat) s := by
  refine issueAt_of_body h ?_ _ _ _
  dsimp only
  rw [gv_takeTurn h, gv_takeTurn h, if_neg (by simp [hm, hc]), if_neg (by omega), hw, if_neg Bool.false_ne_true, item_takeTurn h, hi]
  dsimp only
  rw [readItem_is h hb, itemHandle_of_good hh, localRead_is h.quiet.1 hhdr]

/-! ## Disposals -/

theorem itemRow_of_item {k : State → Item → Res} {x : Held} {bs : List Byte} (h : Issues s t.toNat (wordU 0x22 fn f)) (hm : isMgt t.toNat = false)
    (hf : f = ⟨0, 0, 0, 0⟩) (hi : (thrOf s t.toNat).item = some x) (hb : LocalIs s t.toNat (thrBlk t.toNat) 64 bs) :
    itemRow fn k t f s = issueAt t.toNat (wordU 0x22 fn f) [] [] id (fun _ => k (takeTurn s t.toNat) (itemOfBytes bs)) s := by
  refine issueAt_of_body h ?_ _ _ _
  dsimp only
  rw [if_neg (by simp [hm, hf]), holdsItem_takeTurn h, hi, if_neg (by simp), readItem_is h hb]

theorem aend_ran {x : Held} (h : Issues s t.toNat (wordU 0x22 8 f)) (hm : isMgt t.toNat = false) (hf : f = ⟨0, 0, 0, 0⟩)
    (hi : (thrOf s t.toNat).item = some x) : Ran (exec (.aend t f) s) t.toNat (settleAll (releaseCtx (takeTurn s t.toNat) t.toNat)) := by
  rw [exec_aend, execAend]
  refine issue_ran h ?_ _ _
  dsimp only
  rw [if_neg (by simp [hm, hf]), holdsItem_takeTurn h, hi, if_neg (by simp)]

theorem dly_told {v : State} {st : Nat} {bs : List Byte} (h : Issues s t.toNat (wordU 0x22 9 f)) (hm : isMgt t.toNat = false) (hb : f.rb = 0)
    (hc : f.rc = 0) (hl : LocalIs s t.toNat (gv (thrOf s t.toNat) f.ra).toNat 80 bs) (hw : leNat (bs.take 4) < 2 ^ 30)
    (hform : itForm (itemOfBytes (bs.drop 16)) = true)
    (hh : itemWord (itemOfBytes (bs.drop 16)) 0 = nullHandle ∨ handleGood (takeTurn s t.toNat) (itemWord (itemOfBytes (bs.drop 16)) 0) = true)
    (hd : thrDly (takeTurn s t.toNat) (leNat (bs.take 4)) (BitVec.ofNat 32 (leNat ((bs.drop 4).take 4))) (leNat ((bs.drop 8).take 8))
      (itemOfBytes (bs.drop 16)) = (st, v)) : Told (exec (.dly t f) s) v t.toNat f.rd.toNat st 0 := by
  have unused : bits (leNat (bs.take 4)) 31 30 = 0 := by
    rw [bits_eq_div]
    omega
  rw [exec_dly, execDly]
  refine issue_told h ?_ _ _
  dsimp only
  rw [gv_takeTurn h, if_neg (by simp [hm, hb, hc]), localRead_is h.quiet.1 hl]
  rw [unused, if_neg (by decide), hform, if_neg (by decide), itemHandle_of_good hh, hd]
  rfl

end

/-- Settles O43: the operands of each instruction, and then what Orrery or the gate makes of the item. -/
theorem getsEnqueuesAndEmits : Obligations.GetsEnqueuesAndEmits := by
  refine ⟨⟨?_, ?_, ?_, ?_, fun s t f h hm hc hq hi => enq_faults_of_noItem h hm hc hq hi⟩, ?_, ?_, ?_⟩
  · rintro s _ t f h hm hd ha hi rfl
    exact get_runs h hm hd ha hi
  · rintro s _ t f _ _ x bs _ hm hc rfl rfl rfl hq hi hb rfl hh
    have turnItem : ∀ {w}, Issues s t.toNat w → (thrOf (takeTurn s t.toNat) t.toNat).item = some x := fun h => (item_takeTurn h).trans hi
    refine ⟨fun h => ⟨fun late => ?_, fun early wait => ?_, fun v st early ready done => ?_⟩,
      fun h => ⟨fun late => ?_, fun early on qon xoff => ?_, fun v st early off done => ?_⟩⟩
    · rw [exec_enqInstruction, enqRow_of_item h hm hc hq hi hb hh]
      exact issue_told h (enqAct_of_late (turnItem h) late) _ _
    · rw [exec_enqInstruction, enqRow_of_item h hm hc hq hi hb hh]
      refine issue_waits h ?_ _ _ _
      rw [enqAct_of_notLate (.inr ⟨x, turnItem h, early⟩), if_neg Bool.false_ne_true, wait, if_neg Bool.false_ne_true]
    · rw [exec_enqInstruction, enqRow_of_item h hm hc hq hi hb hh]
      refine issue_told h ?_ _ _
      rw [enqAct_of_notLate (.inr ⟨x, turnItem h, early⟩), if_neg Bool.false_ne_true, ready, if_pos rfl, done]
      rfl
    · rw [exec_enqNb, enqRow_of_item h hm hc hq hi hb hh]
      exact issue_told h (enqAct_of_late (turnItem h) late) _ _
    · rw [exec_enqNb, enqRow_of_item h hm hc hq hi hb hh]
      refine issue_told h ?_ _ _
      rw [enqAct_of_notLate (.inr ⟨x, turnItem h, early⟩), if_pos rfl, on, qon, xoff]
      rfl
    · rw [exec_enqNb, enqRow_of_item h hm hc hq hi hb hh]
      refine issue_told h ?_ _ _
      rw [enqAct_of_notLate (.inr ⟨x, turnItem h, early⟩), if_pos rfl, if_neg (by obtain off | off | off := off <;> simp [off]), done]
      rfl
  · intro s q
    simp [queueXoff]
  · rintro s _ v t f _ _ bs _ st hm rfl rfl rfl hq hb rfl hform hh done
    refine ⟨fun h => ⟨fun ready => ?_, fun wait => ?_⟩, fun h => ⟨fun off => ?_, fun on qon xoff => ?_⟩⟩
    · rw [exec_enqd, enqdRow_of_item h hm hq hb hform hh]
      refine issue_told h ?_ _ _
      rw [enqAct_of_notLate (.inl rfl), if_neg Bool.false_ne_true, ready, if_pos rfl, done]
      rfl
    · rw [exec_enqd, enqdRow_of_item h hm hq hb hform hh]
      refine issue_waits h ?_ _ _ _
      rw [enqAct_of_notLate (.inl rfl), if_neg Bool.false_ne_true, wait, if_neg Bool.false_ne_true]
    · rw [exec_enqdNb, enqdRow_of_item h hm hq hb hform hh]
      refine issue_told h ?_ _ _
      rw [enqAct_of_notLate (.inl rfl), if_pos rfl, if_neg (by obtain off | off | off := off <;> simp [off]), done]
      rfl
    · rw [exec_enqdNb, enqdRow_of_item h hm hq hb hform hh]
      refine issue_told h ?_ _ _
      rw [enqAct_of_notLate (.inl rfl), if_pos rfl, on, qon, xoff]
      rfl
  · rintro s _ t f _ _ x bs hdr _ hm hc rfl rfl rfl ha hw hi hb rfl hh hhdr
    refine ⟨fun h => ⟨fun wait => ?_, fun v st go done => ?_⟩, fun h => ⟨fun wait => ?_, fun v st go done => ?_⟩⟩
    · rw [exec_emit, emitRow_of_item h hm hc ha hw hi hb hh hhdr, wait]
      exact issue_waits h rfl _ _ _
    · rw [exec_emit, emitRow_of_item h hm hc ha hw hi hb hh hhdr, go, done]
      exact issue_told h rfl _ _
    · rw [exec_emitk, emitRow_of_item h hm hc ha hw hi hb hh hhdr, wait]
      exact issue_waits h rfl _ _ _
    · rw [exec_emitk, emitRow_of_item h hm hc ha hw hi hb hh hhdr, go, done]
      exact issue_told h rfl _ _
  · rintro s _ t f x bs _ hm hf rfl hi hb rfl
    refine ⟨fun h hh => ?_, fun h => aend_ran h hm hf hi, fun h form => ?_, fun h form => ?_⟩
    · rw [exec_drop, execDrop, itemRow_of_item h hm hf hi hb]
      exact issue_ran h (itemHandle_of_good hh _) _ _
    · rw [exec_wfrm, execWfrm, itemRow_of_item h hm hf hi hb, form]
      exact issue_moved h rfl _ _ _
    · rw [exec_wfrm, execWfrm, itemRow_of_item h hm hf hi hb, form]
      exact issue_ran h rfl _ _
  · rintro s _ t f bs _ _ h hm hb hc rfl hl rfl rfl hw hform hh v st hd
    exact dly_told h hm hb hc hl hw hform hh hd

end Sys2Proof.Machine

/-!
PROOF. Flint by thread code (R325, R366–R373). With no check unit marked a lock or semaphore is read as it stands.
-/

namespace Sys2Proof.Machine

/-! ## Locks and semaphores in a quiet state -/

section
variable {s : State} {k o n : Nat} (h : s.integ.bad = [])
include h

theorem lockProbe_of_noneBad : lockProbe s k = s := lockProbe_quiet (unitErr_zero h ..)
theorem semProbe_of_noneBad : semProbe s k = s := by rw [semProbe, arrProbe, if_pos (unitErr_zero h ..)]

theorem lockTry_denied (ha : fltAllowed s false k o = false) : lockTry s k o = (tsDenied, false, s) := by
  simp [lockTry, lockProbe_of_noneBad h, ha]

theorem lockTry_held (ha : fltAllowed s false k o = true) (ho : (lockOf s k).owner = some o) : lockTry s k o = (0, true, s) := by
  simp [lockTry, lockProbe_of_noneBad h, ha, ho]

theorem lockTry_free (ha : fltAllowed s false k o = true) (ho : (lockOf s k).owner = none) (hq : (lockOf s k).queue = []) :
    lockTry s k o = (if (lockOf s k).mark then tsAbandoned else 0, false, setLock s k { lockOf s k with owner := some o, told := (lockOf s k).mark }) := by
  simp [lockTry, lockProbe_of_noneBad h, ha, ho, hq]

theorem lockTry_busy (ha : fltAllowed s false k o = true) (ho : (lockOf s k).owner ≠ some o) (hn : (lockOf s k).owner ≠ none) :
    lockTry s k o = (tsBusy, false, s) := by
  simp [lockTry, lockProbe_of_noneBad h, ha, ho, hn]

theorem lockRel_held (ho : (lockOf s k).owner = some o) :
    lockRel s k o = (0, lockGrant (lockFreed (setLock s k
      { lockOf s k with owner := none, mark := (lockOf s k).mark && !(lockOf s k).told, told := false }) k) k) := by
  simp [lockRel, lockProbe_of_noneBad h, ho]

theorem lockRel_notHeld (ho : (lockOf s k).owner ≠ some o) : lockRel s k o = (tsNotHeld, s) := by
  simp [lockRel, lockProbe_of_noneBad h, ho]

theorem semTry_denied (ha : fltAllowed s true k o = false) : semTry s k o n = (tsDenied, s) := by
  simp [semTry, semProbe_of_noneBad h, ha]

theorem semTry_granted (ha : fltAllowed s true k o = true) (hq : (semOf s k).queue = []) (hc : semCan s k o n = true) :
    semTry s k o n = (if (semOf s k).mark then tsAbandoned else 0, semTake s k o n) := by
  simp [semTry, semProbe_of_noneBad h, ha, hq, hc]

theorem semTry_busy (ha : fltAllowed s true k o = true) (hb : (semOf s k).queue ≠ [] ∨ semCan s k o n = false) :
    semTry s k o n = (tsBusy, s) := by
  obtain hb | hb := hb <;> simp [semTry, semProbe_of_noneBad h, ha, hb]

theorem semRel_notHeld (hu : unitsOfOwner (semOf s k) o < n) : semRel s k o n = (tsNotHeld, s) := by
  simp [semRel, semProbe_of_noneBad h, hu]

theorem semRel_held (hu : n ≤ unitsOfOwner (semOf s k) o) : (semRel s k o n).1 = 0 := by
  simp [semRel, semProbe_of_noneBad h, hu]

end

/-! ## Operands -/

theorem exec_fla (t : BitVec 14) (f : FmtU) (s : State) : exec (.fla t f) s = execFla t f s := rfl
theorem exec_flt (t : BitVec 14) (f : FmtU) (s : State) : exec (.flt t f) s = execFlt t f s := rfl
theorem exec_flr (t : BitVec 14) (f : FmtU) (s : State) : exec (.flr t f) s = execFlr t f s := rfl
theorem exec_fsa (t : BitVec 14) (f : FmtU) (s : State) : exec (.fsa t f) s = execFsa t f s := rfl
theorem exec_fst (t : BitVec 14) (f : FmtU) (s : State) : exec (.fst t f) s = execFst t f s := rfl
theorem exec_fsr (t : BitVec 14) (f : FmtU) (s : State) : exec (.fsr t f) s = execFsr t f s := rfl
theorem exec_fwr (t : BitVec 14) (f : FmtU) (s : State) : exec (.fwr t f) s = execFwr t f s := rfl
theorem exec_fwc (t : BitVec 14) (f : FmtU) (s : State) : exec (.fwc t f) s = execFwc t f s := rfl

/-- FORCE is clear in a number. -/
theorem force_eq_false {a : W32} {n : Nat} (h : a.toNat < n) (hn : n ≤ 2 ^ 31) : a.getLsbD 31 = false :=
  Nat.testBit_lt_two_pow (Nat.lt_of_lt_of_le h hn)

section
variable {s : State} {t : BitVec 14} {f : FmtU} {fn top : Nat} {rb force : Bool} {act : State → Nat → Nat → W32 → Res} {bad : W32 → W32 → Option Nat}

/-- A Flint instruction whose operands are good comes to its act. -/
theorem fltRowT_of_good (h : Issues s t.toNat (wordU 0x23 fn f)) (hc : f.rc = 0) (hb : rb = true ∨ f.rb = 0)
    (hs : force = true → (gv (thrOf s t.toNat) f.ra).getLsbD 31 = true → isSupv (takeTurn s t.toNat) t.toNat = true)
    (hk : (if force then (gv (thrOf s t.toNat) f.ra).toNat % 2 ^ 31 else (gv (thrOf s t.toNat) f.ra).toNat) < top)
    (hbad : bad (gv (thrOf s t.toNat) f.ra) (gv (thrOf s t.toNat) f.rb) = none) :
    fltRowT fn top rb force act bad t f s = issueAt t.toNat (wordU 0x23 fn f) (f.ra.toNat :: (if rb then [f.rb.toNat] else [])) [f.rd.toNat] id (fun _ =>
      act (takeTurn s t.toNat) t.toNat f.rd.toNat (if force then gv (thrOf s t.toNat) f.ra else gv (thrOf s t.toNat) f.rb)) s := by
  have fields : (f.rc != 0 || (!rb && f.rb != 0)) = false := by
    obtain hb | hb := hb <;> simp [hc, hb]
  have privileged : (force && (gv (thrOf s t.toNat) f.ra).getLsbD 31 && !isSupv (takeTurn s t.toNat) t.toNat) = false := by
    cases hf : force
    · rfl
    · cases ha : (gv (thrOf s t.toNat) f.ra).getLsbD 31
      · rfl
      · simp [hs hf ha]
  refine issueAt_of_body h ?_ _ _ _
  dsimp only
  rw [gv_takeTurn h, gv_takeTurn h, fields, if_neg Bool.false_ne_true, privileged, if_neg Bool.false_ne_true, if_neg (by omega), hbad]

/-- One that takes no FORCE, on a number of its range. -/
theorem fltRowT_of_number (h : Issues s t.toNat (wordU 0x23 fn f)) (hc : f.rc = 0) (hb : rb = true ∨ f.rb = 0)
    (hk : (gv (thrOf s t.toNat) f.ra).toNat < top) (ht : top ≤ 2 ^ 31) (hbad : bad (gv (thrOf s t.toNat) f.ra) (gv (thrOf s t.toNat) f.rb) = none) :
    fltRowT fn top rb force act bad t f s = issueAt t.toNat (wordU 0x23 fn f) (f.ra.toNat :: (if rb then [f.rb.toNat] else [])) [f.rd.toNat] id (fun _ =>
      act (takeTurn s t.toNat) t.toNat f.rd.toNat (if force then gv (thrOf s t.toNat) f.ra else gv (thrOf s t.toNat) f.rb)) s := by
  refine fltRowT_of_good h hc hb (fun _ ha => ?_) ?_ hbad
  · rw [force_eq_false hk ht] at ha
    contradiction
  · rw [Nat.mod_eq_of_lt (Nat.lt_of_lt_of_le hk ht), ite_self]
    exact hk

theorem fltNum_takeTurn {w : W32} (h : Issues s t.toNat w) (hk : (gv (thrOf s t.toNat) f.ra).toNat < 2 ^ 31) :
    fltNum (takeTurn s t.toNat) t.toNat f = (gv (thrOf s t.toNat) f.ra).toNat := by
  rw [fltNum, gv_takeTurn h, Nat.mod_eq_of_lt hk]

theorem fltCount_takeTurn {w : W32} (h : Issues s t.toNat w) : fltCount (takeTurn s t.toNat) t.toNat f = (gv (thrOf s t.toNat) f.rb).toNat := by
  rw [fltCount, gv_takeTurn h]

theorem countArg_of_count {a b : W32} (lo : 1 ≤ b.toNat) (hi : b.toNat < 65536) : countArg a b = none :=
  if_neg (by simp; omega)

/-! ## Locks -/

section
variable (hc : f.rc = 0) (hb : f.rb = 0) (hk : (gv (thrOf s t.toNat) f.ra).toNat < 4096)
include hc hb hk

/-- An acquire of a lock that does not find it busy tells what it found. -/
theorem lockAcquire_told {i : Instr} (hi : i = .fla t f ∧ fn = 0 ∨ i = .flt t f ∧ fn = 1) (h : Issues s t.toNat (wordU 0x23 fn f)) {st : Nat}
    {before : Bool} {v : State} (hl : lockTry (takeTurn s t.toNat) (gv (thrOf s t.toNat) f.ra).toNat (ownerOfThr t.toNat) = (st, before, v))
    (hst : st ≠ tsBusy) : Told (exec i s) v t.toNat f.rd.toNat st (b2n before) := by
  have num := fltNum_takeTurn h (Nat.lt_trans hk (by decide))
  obtain ⟨rfl, rfl⟩ | ⟨rfl, rfl⟩ := hi
  · rw [exec_fla, execFla, fltRowT_of_number h hc (.inr hb) hk (by decide) rfl]
    refine issue_told h ?_ _ _
    dsimp only
    rw [num, hl]
    exact if_neg hst
  · rw [exec_flt, execFlt, fltRowT_of_number h hc (.inr hb) hk (by decide) rfl]
    refine issue_told h ?_ _ _
    dsimp only
    rw [num, hl]
    rfl

theorem fla_waits (h : Issues s t.toNat (wordU 0x23 0 f))
    (hl : lockTry (takeTurn s t.toNat) (gv (thrOf s t.toNat) f.ra).toNat (ownerOfThr t.toNat) = (tsBusy, false, takeTurn s t.toNat)) :
    Waits (exec (.fla t f) s) t.toNat (setLock (takeTurn s t.toNat) (gv (thrOf s t.toNat) f.ra).toNat
      { lockOf (takeTurn s t.toNat) (gv (thrOf s t.toNat) f.ra).toNat with
        queue := (lockOf (takeTurn s t.toNat) (gv (thrOf s t.toNat) f.ra).toNat).queue ++ [ownerOfThr t.toNat] })
      (.flint f.rd.toNat false (gv (thrOf s t.toNat) f.ra).toNat 1) := by
  rw [exec_fla, execFla, fltRowT_of_number h hc (.inr hb) hk (by decide) rfl]
  refine issue_waits h ?_ _ _ _
  dsimp only
  rw [fltNum_takeTurn h (Nat.lt_trans hk (by decide)), hl]
  exact if_pos rfl

theorem flt_told_busy (h : Issues s t.toNat (wordU 0x23 1 f))
    (hl : lockTry (takeTurn s t.toNat) (gv (thrOf s t.toNat) f.ra).toNat (ownerOfThr t.toNat) = (tsBusy, false, takeTurn s t.toNat)) :
    Told (exec (.flt t f) s) (takeTurn s t.toNat) t.toNat f.rd.toNat tsBusy 0 := by
  rw [exec_flt, execFlt, fltRowT_of_number h hc (.inr hb) hk (by decide) rfl]
  refine issue_told h ?_ _ _
  dsimp only
  rw [fltNum_takeTurn h (Nat.lt_trans hk (by decide)), hl]
  rfl

theorem flr_told (h : Issues s t.toNat (wordU 0x23 2 f)) {st : Nat} {v : State}
    (hl : lockRel (takeTurn s t.toNat) (gv (thrOf s t.toNat) f.ra).toNat (ownerOfThr t.toNat) = (st, v)) :
    Told (exec (.flr t f) s) v t.toNat f.rd.toNat st 0 := by
  rw [exec_flr, execFlr, fltRowT_of_number h hc (.inr hb) hk (by decide) rfl]
  refine issue_told h ?_ _ _
  dsimp only
  rw [fltNum_takeTurn h (Nat.lt_trans hk (by decide)), if_pos rfl, force_eq_false hk (by decide), if_neg Bool.false_ne_true, hl]
  rfl

theorem fwr_told (h : Issues s t.toNat (wordU 0x23 6 f)) {st : Nat} {v : State}
    (hl : fltRegister (takeTurn s t.toNat) (gv (thrOf s t.toNat) f.ra).toNat (ownerOfThr t.toNat) = (st, v)) :
    Told (exec (.fwr t f) s) v t.toNat f.rd.toNat st 0 := by
  rw [exec_fwr, execFwr, fltRowT_of_number h hc (.inr hb) hk (by decide) rfl]
  refine issue_told h ?_ _ _
  dsimp only
  rw [fltNum_takeTurn h (Nat.lt_trans hk (by decide)), hl]
  rfl

theorem fwc_told (h : Issues s t.toNat (wordU 0x23 7 f)) {st : Nat} {v : State}
    (hl : fltCancel (takeTurn s t.toNat) (gv (thrOf s t.toNat) f.ra).toNat (ownerOfThr t.toNat) = (st, v)) :
    Told (exec (.fwc t f) s) v t.toNat f.rd.toNat st 0 := by
  rw [exec_fwc, execFwc, fltRowT_of_number h hc (.inr hb) hk (by decide) rfl]
  refine issue_told h ?_ _ _
  dsimp only
  rw [fltNum_takeTurn h (Nat.lt_trans hk (by decide)), hl]
  rfl

end

/-! ## Semaphores -/

section
variable (hc : f.rc = 0) (hk : (gv (thrOf s t.toNat) f.ra).toNat < 512) (lo : 1 ≤ (gv (thrOf s t.toNat) f.rb).toNat)
  (hi : (gv (thrOf s t.toNat) f.rb).toNat < 65536)
include hc hk lo hi

/-- An acquire of units that does not find too few tells what it found. -/
theorem semAcquire_told {i : Instr} (hrow : i = .fsa t f ∧ fn = 3 ∨ i = .fst t f ∧ fn = 4) (h : Issues s t.toNat (wordU 0x23 fn f)) {st : Nat}
    {v : State} (hl : semTry (takeTurn s t.toNat) (gv (thrOf s t.toNat) f.ra).toNat (ownerOfThr t.toNat) (gv (thrOf s t.toNat) f.rb).toNat = (st, v))
    (hst : st ≠ tsBusy) : Told (exec i s) v t.toNat f.rd.toNat st 0 := by
  have num := fltNum_takeTurn h (Nat.lt_trans hk (by decide))
  obtain ⟨rfl, rfl⟩ | ⟨rfl, rfl⟩ := hrow
  · rw [exec_fsa, execFsa, fltRowT_of_number h hc (.inl rfl) hk (by decide) (countArg_of_count lo hi)]
    refine issue_told h ?_ _ _
    dsimp only
    rw [num, fltCount_takeTurn h, hl]
    exact if_neg hst
  · rw [exec_fst, execFst, fltRowT_of_number h hc (.inl rfl) hk (by decide) (countArg_of_count lo hi)]
    refine issue_told h ?_ _ _
    dsimp only
    rw [num, fltCount_takeTurn h, hl]
    rfl

theorem fsa_waits (h : Issues s t.toNat (wordU 0x23 3 f))
    (hl : semTry (takeTurn s t.toNat) (gv (thrOf s t.toNat) f.ra).toNat (ownerOfThr t.toNat) (gv (thrOf s t.toNat) f.rb).toNat =
      (tsBusy, takeTurn s t.toNat)) :
    Waits (exec (.fsa t f) s) t.toNat (setSem (takeTurn s t.toNat) (gv (thrOf s t.toNat) f.ra).toNat
      { semOf (takeTurn s t.toNat) (gv (thrOf s t.toNat) f.ra).toNat with
        queue := (semOf (takeTurn s t.toNat) (gv (thrOf s t.toNat) f.ra).toNat).queue ++ [(ownerOfThr t.toNat, (gv (thrOf s t.toNat) f.rb).toNat)] })
      (.flint f.rd.toNat true (gv (thrOf s t.toNat) f.ra).toNat (gv (thrOf s t.toNat) f.rb).toNat) := by
  rw [exec_fsa, execFsa, fltRowT_of_number h hc (.inl rfl) hk (by decide) (countArg_of_count lo hi)]
  refine issue_waits h ?_ _ _ _
  dsimp only
  rw [fltNum_takeTurn h (Nat.lt_trans hk (by decide)), fltCount_takeTurn h, hl]
  exact if_pos rfl

theorem fst_told_busy (h : Issues s t.toNat (wordU 0x23 4 f))
    (hl : semTry (takeTurn s t.toNat) (gv (thrOf s t.toNat) f.ra).toNat (ownerOfThr t.toNat) (gv (thrOf s t.toNat) f.rb).toNat =
      (tsBusy, takeTurn s t.toNat)) : Told (exec (.fst t f) s) (takeTurn s t.toNat) t.toNat f.rd.toNat tsBusy 0 := by
  rw [exec_fst, execFst, fltRowT_of_number h hc (.inl rfl) hk (by decide) (countArg_of_count lo hi)]
  refine issue_told h ?_ _ _
  dsimp only
  rw [fltNum_takeTurn h (Nat.lt_trans hk (by decide)), fltCount_takeTurn h, hl]
  rfl

theorem fsr_told (h : Issues s t.toNat (wordU 0x23 5 f)) {st : Nat} {v : State}
    (hl : semRel (takeTurn s t.toNat) (gv (thrOf s t.toNat) f.ra).toNat (ownerOfThr t.toNat) (gv (thrOf s t.toNat) f.rb).toNat = (st, v)) :
    Told (exec (.fsr t f) s) v t.toNat f.rd.toNat st 0 := by
  have noForce : (gv (thrOf s t.toNat) f.ra).getLsbD 31 = false := force_eq_false hk (by decide)
  have good : relArg (gv (thrOf s t.toNat) f.ra) (gv (thrOf s t.toNat) f.rb) = none := by
    rw [relArg, noForce, if_neg Bool.false_ne_true, countArg_of_count lo hi]
  rw [exec_fsr, execFsr, fltRowT_of_number h hc (.inl rfl) hk (by decide) good]
  refine issue_told h ?_ _ _
  dsimp only
  rw [fltNum_takeTurn h (Nat.lt_trans hk (by decide)), fltCount_takeTurn h, if_pos rfl, noForce, if_neg Bool.false_ne_true, hl]
  rfl

end

/-! ## Forced release -/

theorem flr_force_faults (h : Issues s t.toNat (wordU 0x23 2 f)) (hb : f.rb = 0) (hc : f.rc = 0)
    (hf : (gv (thrOf s t.toNat) f.ra).getLsbD 31 = true) (hs : isSupv (takeTurn s t.toNat) t.toNat = false) :
    Faults s (exec (.flr t f) s) t.toNat cPriv (wordU 0x23 2 f).toNat := by
  rw [exec_flr, execFlr, fltRowT]
  refine issue_fault h ?_ _ _ _
  dsimp only
  rw [gv_takeTurn h, if_neg (by simp [hb, hc]), hf, hs]
  exact if_pos rfl

theorem flr_force_told {o : Nat} (h : Issues s t.toNat (wordU 0x23 2 f)) (hb : f.rb = 0) (hc : f.rc = 0)
    (hf : (gv (thrOf s t.toNat) f.ra).getLsbD 31 = true) (hs : isSupv (takeTurn s t.toNat) t.toNat = true)
    (hk : (gv (thrOf s t.toNat) f.ra).toNat % 2 ^ 31 < 4096)
    (ho : (lockOf (takeTurn s t.toNat) ((gv (thrOf s t.toNat) f.ra).toNat % 2 ^ 31)).owner = some o) (hlt : o < 8192) (hclu : cluOf o = cluOf t.toNat) :
    Told (exec (.flr t f) s) (lockGrant (lockAbandon (takeTurn s t.toNat) ((gv (thrOf s t.toNat) f.ra).toNat % 2 ^ 31) o)
      ((gv (thrOf s t.toNat) f.ra).toNat % 2 ^ 31)) t.toNat f.rd.toNat 0 0 := by
  have num : fltNum (takeTurn s t.toNat) t.toNat f = (gv (thrOf s t.toNat) f.ra).toNat % 2 ^ 31 := by rw [fltNum, gv_takeTurn h]
  rw [exec_flr, execFlr, fltRowT_of_good h hc (.inr hb) (fun _ _ => hs) (by rw [if_pos rfl]; exact hk) rfl]
  refine issue_told h ?_ _ _
  dsimp only
  rw [num, if_pos rfl, hf, if_pos rfl, ho, supvForce]
  have thread : o < 2 ^ 13 := hlt
  simp only [fltForce, ho, thread, hclu, decide_true, beq_self_eq_true, Bool.and_self, if_true, Bool.false_eq_true, if_false]
  rfl

end

/-- Settles O44: Flint's answers by what the lock or semaphore holds, and the forced release of a supervisor. -/
theorem flintInstructions : Obligations.FlintInstructions := by
  refine ⟨?_, ?_, ?_⟩
  · rintro s _ t f _ _ hb hc rfl rfl hk rfl
    refine ⟨fun i fn hi h => ?_, fun h ha ho hn => ?_, fun h ha ho hn => ?_, fun h => ?_, fun v st h hr => fwr_told hc hb hk h hr, fun h => ?_⟩
    · have quiet : (takeTurn s t.toNat).integ.bad = [] := h.quiet.1
      refine ⟨fun ha => ?_, fun ha ho => ?_, fun ha ho hq => ?_⟩
      · have told := lockAcquire_told hc hb hk hi h (lockTry_denied quiet ha) (by decide)
        exact told
      · have told := lockAcquire_told hc hb hk hi h (lockTry_held quiet ha ho) (by decide)
        exact told
      · have told := lockAcquire_told hc hb hk hi h (lockTry_free quiet ha ho hq) (by split <;> decide)
        exact told
    · exact fla_waits hc hb hk h (lockTry_busy h.quiet.1 ha ho hn)
    · exact flt_told_busy hc hb hk h (lockTry_busy h.quiet.1 ha ho hn)
    · exact ⟨fun ho => flr_told hc hb hk h (lockRel_held h.quiet.1 ho), fun ho => flr_told hc hb hk h (lockRel_notHeld h.quiet.1 ho)⟩
    · exact ⟨fun hr => fwc_told hc hb hk h (if_pos (by simpa using hr)), fun hr => fwc_told hc hb hk h (if_neg (by simpa using hr))⟩
  · rintro s _ t f _ _ _ hc rfl rfl hk rfl lo hi rfl
    refine ⟨fun i fn hrow h => ?_, fun ha hbusy => ⟨fun h => ?_, fun h => ?_⟩, fun h => ⟨fun hu => ?_, fun v st hu hr => ?_⟩⟩
    · have quiet : (takeTurn s t.toNat).integ.bad = [] := h.quiet.1
      refine ⟨fun ha => ?_, fun ha hq hcan => ?_⟩
      · have told := semAcquire_told hc hk lo hi hrow h (semTry_denied quiet ha) (by decide)
        exact told
      · have told := semAcquire_told hc hk lo hi hrow h (semTry_granted quiet ha hq hcan) (by split <;> decide)
        exact told
    · exact fsa_waits hc hk lo hi h (semTry_busy h.quiet.1 ha hbusy)
    · exact fst_told_busy hc hk lo hi h (semTry_busy h.quiet.1 ha hbusy)
    · exact fsr_told hc hk lo hi h (semRel_notHeld h.quiet.1 hu)
    · have quiet : (takeTurn s t.toNat).integ.bad = [] := h.quiet.1
      have ok : st = 0 := by
        have := semRel_held quiet hu
        rwa [hr] at this
      have told := fsr_told hc hk lo hi h hr
      rw [ok] at told
      exact ⟨ok, told⟩
  · rintro s _ t f _ h hb hc rfl rfl hf
    exact ⟨flr_force_faults h hb hc hf, fun o hs hk ho hlt hclu => flr_force_told h hb hc hf hs hk ho hlt hclu⟩

end Sys2Proof.Machine

/-!
PROOF. Channels and staging by thread code (R283–R287, R326), and events, timers and network time (R271–R273, R328).
-/

namespace Sys2Proof.Machine

/-! ## Records that a turn has made -/

/-- Going on to the next instruction commutes with a register's write. -/
theorem gSet_next (x : Thread) (r : Nat) (v : W32) :
    { gSet x r v with pc := (gSet x r v).pc + 4, requeued := false } = gSet { x with pc := x.pc + 4, requeued := false } r v := by
  unfold gSet
  split <;> rfl

theorem gSetPair_next (x : Thread) (r : Nat) (v : W64) :
    { gSetPair x r v with pc := (gSetPair x r v).pc + 4, requeued := false } = gSetPair { x with pc := x.pc + 4, requeued := false } r v := by
  rw [gSetPair, gSetPair, ← gSet_next, ← gSet_next]

/-- Staged words replaced, and where the thread goes on from. -/
theorem setStage_all_next (l : List Nat) (g : Nat → W32) (x : Thread) :
    { l.foldl (fun y i => setStage y i (g i)) x with pc := (l.foldl (fun y i => setStage y i (g i)) x).pc + 4, requeued := false } =
      l.foldl (fun y i => setStage y i (g i)) { x with pc := x.pc + 4, requeued := false } := by
  induction l generalizing x with
  | nil => rfl
  | cons i r ih => exact ih (setStage x i (g i))

theorem setStage_all_run (l : List Nat) (g : Nat → W32) (x : Thread) :
    (l.foldl (fun y i => setStage y i (g i)) x).st = x.st ∧ (l.foldl (fun y i => setStage y i (g i)) x).stepping = x.stepping := by
  induction l generalizing x with
  | nil => exact ⟨rfl, rfl⟩
  | cons i r ih => exact ih (setStage x i (g i))

theorem append_eq_ofNat (b a : W32) : (b ++ a : W64) = BitVec.ofNat 64 (a.toNat + 2 ^ 32 * b.toNat) := by
  refine BitVec.eq_of_toNat_eq ?_
  have low : a.toNat < 2 ^ 32 := a.isLt
  have high : b.toNat < 2 ^ 32 := b.isLt
  rw [BitVec.toNat_append, Nat.shiftLeft_eq, Nat.mul_comm, ← Nat.two_pow_add_eq_or_of_lt low, BitVec.toNat_ofNat]
  omega

theorem exec_chsend (t : BitVec 14) (f : FmtU) (s : State) : exec (.chsend t f) s = sendRow 0 false t f s := rfl
theorem exec_chsendNb (t : BitVec 14) (f : FmtU) (s : State) : exec (.chsendNb t f) s = sendRow 1 true t f s := rfl
theorem exec_chrecv (t : BitVec 14) (f : FmtU) (s : State) : exec (.chrecv t f) s = recvRow 2 false t f s := rfl
theorem exec_chrecvNb (t : BitVec 14) (f : FmtU) (s : State) : exec (.chrecvNb t f) s = recvRow 3 true t f s := rfl
theorem exec_stw (t : BitVec 14) (f : FmtUI) (s : State) : exec (.stw t f) s = execStw t f s := rfl
theorem exec_stgm (t : BitVec 14) (f : FmtUI) (s : State) : exec (.stgm t f) s = execStgm t f s := rfl
theorem exec_stgr (t : BitVec 14) (f : FmtUI) (s : State) : exec (.stgr t f) s = execStgr t f s := rfl
theorem exec_chwatch (t : BitVec 14) (f : FmtU) (s : State) : exec (.chwatch t f) s = execChwatch t f s := rfl
theorem exec_wait (t : BitVec 14) (f : FmtU) (s : State) : exec (.wait t f) s = execWait t f s := rfl
theorem exec_tdis (t : BitVec 14) (f : FmtU) (s : State) : exec (.tdis t f) s = execTdis t f s := rfl
theorem exec_sev (t : BitVec 14) (f : FmtU) (s : State) : exec (.sev t f) s = execSev t f s := rfl

section
variable {s : State} {t : BitVec 14} {f : FmtU} {fn : Nat} {nb : Bool}

/-! ## Sends and receives -/

theorem stageWord_takeTurn {w : W32} (h : Issues s t.toNat w) : stageWord (thrOf (takeTurn s t.toNat) t.toNat) = stageWord (thrOf s t.toNat) := by
  rw [takeTurn_thr h]
  rfl

/-- A send comes to what its channel takes. -/
theorem sendRow_of_good (h : Issues s t.toNat (wordU 0x24 fn f)) (hm : isMgt t.toNat = false) (hb : f.rb = 0) (hc : f.rc = 0)
    (ha : swBad (gv (thrOf s t.toNat) f.ra) = false) {c : Nat} (hcn : c = (gv (thrOf s t.toNat) f.ra).toNat % 2048) {ws : List W32}
    (hws : ws = (List.range ((gv (thrOf s t.toNat) f.ra).toNat / 2 ^ 16 % 8 + 1)).map (stageWord (thrOf s t.toNat))) :
    sendRow fn nb t f s = issueAt t.toNat (wordU 0x24 fn f) [f.ra.toNat] [f.rd.toNat] id (fun _ =>
      if !chanTakes (takeTurn s t.toNat) c then doneStatus (noteChoff (takeTurn s t.toNat) t.toNat) t.toNat f.rd.toNat tsChoff
      else if chanRoom (serveSenders (takeTurn s t.toNat) c) c then
        doneStatus (chanCommit (serveSenders (takeTurn s t.toNat) c) t.toNat c ws) t.toNat f.rd.toNat 0
      else if nb then doneStatus (serveSenders (takeTurn s t.toNat) c) t.toNat f.rd.toNat tsFull
      else .wait (serveSenders (takeTurn s t.toNat) c) (.send f.rd.toNat c ws)) s := by
  have chan : swChan (gv (thrOf s t.toNat) f.ra) = c := by
    rw [swChan, bits_eq_div, hcn, Nat.pow_zero, Nat.div_one]
    rfl
  have len : swLen (gv (thrOf s t.toNat) f.ra) = (gv (thrOf s t.toNat) f.ra).toNat / 2 ^ 16 % 8 + 1 := by
    rw [swLen, bits_eq_div]
    rfl
  subst hws
  refine issueAt_of_body h ?_ _ _ _
  dsimp only
  rw [gv_takeTurn h, stageWord_takeTurn h, chan, len, if_neg (by simp [hm, hb, hc]), ha, if_neg Bool.false_ne_true]

/-- A receive comes to what its channel holds, once those who blocked before it have been served. -/
theorem recvRow_of_good (h : Issues s t.toNat (wordU 0x24 fn f)) (hm : isMgt t.toNat = false) (hc : f.rc = 0)
    (hl : (localOf t.toNat (gv (thrOf s t.toNat) f.ra).toNat 32).isSome = true) (hb : (gv (thrOf s t.toNat) f.rb).toNat < 64) {c : Nat}
    (hcn : c = 64 * cluOf t.toNat + (gv (thrOf s t.toNat) f.rb).toNat) :
    recvRow fn nb t f s = issueAt t.toNat (wordU 0x24 fn f) [f.ra.toNat, f.rb.toNat] [f.rd.toNat] id (fun _ =>
      match chanTake (serveReceivers (takeTurn s t.toNat) c) t.toNat c (gv (thrOf s t.toNat) f.ra).toNat with
      | some (n, w) => tookStatus w t.toNat f.rd.toNat n
      | none =>
        if !chanEn (serveReceivers (takeTurn s t.toNat) c) c then doneStatus (serveReceivers (takeTurn s t.toNat) c) t.toNat f.rd.toNat tsChoff
        else if nb then doneStatus (serveReceivers (takeTurn s t.toNat) c) t.toNat f.rd.toNat tsEmpty
        else .wait (serveReceivers (takeTurn s t.toNat) c) (.recv f.rd.toNat (gv (thrOf s t.toNat) f.ra) c)) s := by
  have there : (localOf t.toNat (gv (thrOf s t.toNat) f.ra).toNat 32).isNone = false := by
    rw [← Option.not_isSome, hl]
    rfl
  subst hcn
  refine issueAt_of_body h ?_ _ _ _
  dsimp only
  rw [gv_takeTurn h, gv_takeTurn h, if_neg (by simp [hm, hc]), there, if_neg Bool.false_ne_true, if_neg (by omega), Nat.mod_eq_of_lt hb] <;> rfl

theorem chanTake_of_empty {u : State} {c a n : Nat} (h : chanOf u c = []) : chanTake u n c a = none := by
  rw [chanTake, h]

theorem serveSenders_of_none {c : Nat} (h : blockedSend s c = []) : serveSenders s c = s := by
  rw [serveSenders, h]
  rfl

theorem serveReceivers_of_none {c : Nat} (h : blockedRecv s c = []) (he : chanEn s c = true) : serveReceivers s c = s := by
  rw [serveReceivers, h]
  exact if_pos he

end

/-! ## Staging -/

section
variable {s : State} {t : BitVec 14} {f : FmtUI}

theorem stw_ends (h : Issues s t.toNat (wordUI 0x24 4 f)) (hm : isMgt t.toNat = false) (hi : f.imm.toNat < 8) (hd : f.rd = 0) :
    Ends s (exec (.stw t f) s) t.toNat
      (setStage (ranOn (thrOf s t.toNat) ((thrOf s t.toNat).pc + 4)) f.imm.toNat (gv (thrOf s t.toNat) f.ra)) := by
  rw [exec_stw, execStw]
  refine issue_ends (x := setStage (turned (thrOf s t.toNat) (thrOf s t.toNat).flags) f.imm.toNat (gv (thrOf s t.toNat) f.ra)) h ?_ ThrSt.noConfusion
    h.notStepping _ _ _
  dsimp only
  rw [gv_takeTurn h, if_neg (by simp [hm, hd, hi]), takeTurn_turned h]

theorem stgr_wrote (h : Issues s t.toNat (wordUI 0x24 6 f)) (hm : isMgt t.toNat = false) (hi : f.imm.toNat < 8) (ha : f.ra = 0) :
    Wrote s (exec (.stgr t f) s) t.toNat f.rd (stageWord (thrOf s t.toNat) f.imm.toNat) none none none none := by
  rw [exec_stgr, execStgr]
  refine issue_wrote (fl := (thrOf s t.toNat).flags) h ?_ (fun i _ => noFlag_get _ i) _ _ _
  dsimp only
  rw [stageWord_takeTurn h, if_neg (by simp [hm, ha, hi]), takeTurn_turned h]

theorem stgm_ends {bs : List Byte} (h : Issues s t.toNat (wordUI 0x24 5 f)) (hm : isMgt t.toNat = false) (hd : f.rd = 0) (lo : 1 ≤ f.imm.toNat)
    (hi : f.imm.toNat ≤ 8) (hl : LocalIs s t.toNat (gv (thrOf s t.toNat) f.ra).toNat (4 * f.imm.toNat) bs) :
    Ends s (exec (.stgm t f) s) t.toNat ((List.range f.imm.toNat).foldl (fun y i =>
      setStage y i (BitVec.ofNat 32 (leNat ((bs.drop (4 * i)).take 4)))) (ranOn (thrOf s t.toNat) ((thrOf s t.toNat).pc + 4))) := by
  obtain ⟨live, stepping⟩ := setStage_all_run (List.range f.imm.toNat) (fun i => BitVec.ofNat 32 (leNat ((bs.drop (4 * i)).take 4)))
    (turned (thrOf s t.toNat) (thrOf s t.toNat).flags)
  have next := setStage_all_next (List.range f.imm.toNat) (fun i => BitVec.ofNat 32 (leNat ((bs.drop (4 * i)).take 4)))
    (turned (thrOf s t.toNat) (thrOf s t.toNat).flags)
  have few : f.imm.toNat < 16 := by omega
  have some' : f.imm.toNat ≠ 0 := by omega
  refine ⟨_, ?_, becomes_setThr h.threads_wf _ _⟩
  rw [exec_stgm, execStgm, issue_doneThr h ?_ (by rw [live]; exact ThrSt.noConfusion) (by rw [stepping]; exact h.notStepping), next]
  · rfl
  · dsimp only
    rw [gv_takeTurn h, if_neg (by simp [hm, hd, few]), localOf_of_localIs hl, if_neg Bool.false_ne_true, if_neg (by simp [some', hi]),
      localRead_is h.quiet.1 hl, takeTurn_turned h]

end

section
variable {s : State} {t : BitVec 14} {f : FmtU}

theorem chwatch_ran (h : Issues s t.toNat (wordU 0x24 7 f)) (hm : isMgt t.toNat = false) (hd : f.rd = 0) (hc : f.rc = 0) :
    Ran (exec (.chwatch t f) s) t.toNat (settleAll (setThr (takeTurn s t.toNat) t.toNat { thrOf (takeTurn s t.toNat) t.toNat with
      watch := gv (thrOf s t.toNat) f.rb ++ gv (thrOf s t.toNat) f.ra })) := by
  rw [exec_chwatch, execChwatch]
  refine issue_ran h ?_ _ _
  dsimp only
  rw [gv_takeTurn h, gv_takeTurn h, if_neg (by simp [hm, hd, hc]), append_eq_ofNat]

/-! ## Events -/

/-- A wait that finds a bit of its mask returns it at once. -/
theorem waitOn_of_set {u : State} {n rd : Nat} {timer : Bool} {m : W16} (h : m = 0 ∨ evBits u n &&& m ≠ 0) :
    waitOn u n rd timer m =
      doneThr u n (gSet { thrOf u n with ev := (thrOf u n).ev &&& ~~~(evBits u n &&& m) } rd ((evBits u n &&& m).setWidth 32)) :=
  if_pos (by simpa using h)

theorem waitOn_of_clear {u : State} {n rd : Nat} {timer : Bool} {m : W16} (hm : m ≠ 0) (h : evBits u n &&& m = 0) :
    waitOn u n rd timer m = .wait u (.ev timer rd m) := if_neg (by simpa [h] using hm)

theorem wait_runs (h : Issues s t.toNat (wordU 0x25 0 f)) (hb : f.rb = 0) (hc : f.rc = 0) {m got : W16}
    (hm : m = (gv (thrOf s t.toNat) f.ra).setWidth 16) (hg : got = evBits (takeTurn s t.toNat) t.toNat &&& m) {x : Thread}
    (hx : x = ranOn (thrOf s t.toNat) ((thrOf s t.toNat).pc + 4)) :
    (m = 0 ∨ got ≠ 0 → Ends s (exec (.wait t f) s) t.toNat (gSet { x with ev := x.ev &&& ~~~got } f.rd.toNat (got.setWidth 32))) ∧
    (m ≠ 0 → got = 0 → Waits (exec (.wait t f) s) t.toNat (takeTurn s t.toNat) (.ev false f.rd.toNat m)) := by
  subst hm hg hx
  have good : ¬ (f.rb ≠ 0 ∨ f.rc ≠ 0) := by simp [hb, hc]
  rw [exec_wait, execWait]
  refine ⟨fun hset => ⟨_, ?_, becomes_setThr h.threads_wf _ _⟩, fun hm hclear => issue_waits h ?_ _ _ _⟩
  · rw [issue_doneThr h (by rw [if_neg good, gv_takeTurn h, waitOn_of_set hset]) (by rw [gSet_st, takeTurn_turned h]; exact ThrSt.noConfusion)
      (by rw [gSet_stepping, takeTurn_turned h]; exact h.notStepping), gSet_next, takeTurn_turned h]
    rfl
  · rw [if_neg good, gv_takeTurn h, waitOn_of_clear hm hclear]

theorem pairOk_eq_true {r : BitVec 5} (he : r.toNat % 2 = 0) (hn : r ≠ 0) : pairOk r = true := by
  rw [pairOk, he, bne_iff_ne.mpr hn]
  rfl

theorem gPair_takeTurn {w : W32} (h : Issues s t.toNat w) (r : Nat) : gPair (thrOf (takeTurn s t.toNat) t.toNat) r = gPair (thrOf s t.toNat) r := by
  rw [takeTurn_thr h]
  rfl

/-- `waitt` is a wait, once its compare is armed. -/
theorem waitt_eq (h : Issues s t.toNat (wordU 0x25 1 f)) (hc : f.rc = 0) (he : f.ra.toNat % 2 = 0) (hn : f.ra ≠ 0) :
    exec (.waitt t f) s = issueAt t.toNat (wordU 0x25 1 f) [f.ra.toNat, f.ra.toNat + 1, f.rb.toNat] [f.rd.toNat] id (fun _ =>
      waitOn (armCompare (takeTurn s t.toNat) t.toNat (gPair (thrOf s t.toNat) f.ra.toNat)) t.toNat f.rd.toNat true
        ((gv (thrOf s t.toNat) f.rb).setWidth 16 ||| 1)) s := by
  rw [exec_waitt, execWaitt]
  refine issueAt_of_body h ?_ _ _ _
  dsimp only
  rw [gv_takeTurn h, gPair_takeTurn h, if_neg (by simp [hc, pairOk_eq_true he hn])]

theorem or_one_ne_zero (m : W16) : m ||| 1 ≠ 0 := by
  intro h
  have := congrArg (BitVec.getLsbD · 0) h
  simp at this

theorem waitt_runs (h : Issues s t.toNat (wordU 0x25 1 f)) (hc : f.rc = 0) (he : f.ra.toNat % 2 = 0) (hn : f.ra ≠ 0) {u : State} {m got : W16}
    (hu : u = armCompare (takeTurn s t.toNat) t.toNat (gPair (thrOf s t.toNat) f.ra.toNat)) (hm : m = (gv (thrOf s t.toNat) f.rb).setWidth 16 ||| 1)
    (hg : got = evBits u t.toNat &&& m) {x : Thread} (hx : x = ranOn (thrOf u t.toNat) ((thrOf s t.toNat).pc + 4)) :
    (got ≠ 0 → Ends s (exec (.waitt t f) s) t.toNat (gSet { x with ev := x.ev &&& ~~~got } f.rd.toNat (got.setWidth 32))) ∧
    (got = 0 → Waits (exec (.waitt t f) s) t.toNat u (.ev true f.rd.toNat m)) := by
  have turnWf : mwf noThread (takeTurn s t.toNat).gar.thr = true := setThr_wf h.threads_wf _ _
  have armed : thrOf u t.toNat = { turned (thrOf s t.toNat) (thrOf s t.toNat).flags with tcmp := some (gPair (thrOf s t.toNat) f.ra.toNat) } := by
    rw [hu, armCompare, thrOf_setThr turnWf, takeTurn_turned h]
  rw [waitt_eq h hc he hn, ← hu, ← hm]
  refine ⟨fun hset => ⟨_, ?_, becomes_setThr h.threads_wf _ _⟩, fun hclear => issue_waits h ?_ _ _ _⟩
  · subst hg
    rw [issue_setThr (ts := []) h (x := gSet { thrOf u t.toNat with ev := (thrOf u t.toNat).ev &&& ~~~(evBits u t.toNat &&& m) } f.rd.toNat
      ((evBits u t.toNat &&& m).setWidth 32)) ?_ (by rw [gSet_st, armed]; exact ThrSt.noConfusion)
      (by rw [gSet_stepping, armed]; exact h.notStepping), gSet_next, hx, armed]
    · rfl
    · rw [waitOn_of_set (.inr hset), doneThr]
      conv_lhs => rw [hu, armCompare, setThr_setThr turnWf]
      rw [← armCompare, ← hu]
  · subst hg
    exact waitOn_of_clear (hm ▸ or_one_ne_zero _) hclear

theorem tarm_ends (h : Issues s t.toNat (wordU 0x25 2 f)) (hd : f.rd = 0) (hb : f.rb = 0) (hc : f.rc = 0) (he : f.ra.toNat % 2 = 0) (hn : f.ra ≠ 0) :
    Ends s (exec (.tarm t f) s) t.toNat
      { ranOn (thrOf s t.toNat) ((thrOf s t.toNat).pc + 4) with tcmp := some (gPair (thrOf s t.toNat) f.ra.toNat) } := by
  rw [exec_tarm, execTarm]
  refine issue_ends (x := { turned (thrOf s t.toNat) (thrOf s t.toNat).flags with tcmp := some (gPair (thrOf s t.toNat) f.ra.toNat) }) h ?_
    ThrSt.noConfusion h.notStepping _ _ _
  rw [if_neg (by simp [hd, hb, hc, pairOk_eq_true he hn]), gPair_takeTurn h, armCompare, takeTurn_turned h, doneThr]

theorem tdis_ends (h : Issues s t.toNat (wordU 0x25 3 f)) (hd : f.rd = 0) (ha : f.ra = 0) (hb : f.rb = 0) (hc : f.rc = 0) :
    Ends s (exec (.tdis t f) s) t.toNat { ranOn (thrOf s t.toNat) ((thrOf s t.toNat).pc + 4) with tcmp := none } := by
  rw [exec_tdis, execTdis]
  refine issue_ends (x := { turned (thrOf s t.toNat) (thrOf s t.toNat).flags with tcmp := none }) h ?_ ThrSt.noConfusion h.notStepping _ _ _
  rw [if_neg (by simp [hd, ha, hb, hc]), takeTurn_turned h]

theorem sev_ran (h : Issues s t.toNat (wordU 0x25 4 f)) (hd : f.rd = 0) (hc : f.rc = 0) :
    Ran (exec (.sev t f) s) t.toNat (settleAll (sendEv (takeTurn s t.toNat) ((gv (thrOf s t.toNat) f.ra).toNat % 8192)
      ((gv (thrOf s t.toNat) f.rb).toNat % 256))) := by
  rw [exec_sev, execSev]
  refine issue_ran h ?_ _ _
  dsimp only
  rw [gv_takeTurn h, gv_takeTurn h, if_neg (by simp [hd, hc])]

theorem rdnt_ends (h : Issues s t.toNat (wordU 0x25 5 f)) (ha : f.ra = 0) (hb : f.rb = 0) (hc : f.rc = 0) (he : f.rd.toNat % 2 = 0) (hn : f.rd ≠ 0) :
    Ends s (exec (.rdnt t f) s) t.toNat
      (gSetPair (ranOn (thrOf s t.toNat) ((thrOf s t.toNat).pc + 4)) f.rd.toNat (BitVec.ofNat 64 (nt64 s))) := by
  have time : nt64 (takeTurn s t.toNat) = nt64 s := rfl
  refine ⟨_, ?_, becomes_setThr h.threads_wf _ _⟩
  rw [exec_rdnt, execRdnt, issue_doneThr (x := gSetPair (turned (thrOf s t.toNat) (thrOf s t.toNat).flags) f.rd.toNat (BitVec.ofNat 64 (nt64 s))) h ?_
    (by rw [gSetPair, gSet_st, gSet_st]; exact ThrSt.noConfusion) (by rw [gSetPair, gSet_stepping, gSet_stepping]; exact h.notStepping), gSetPair_next]
  · rfl
  · rw [if_neg (by simp [ha, hb, hc, pairOk_eq_true he hn]), takeTurn_turned h, time]

end

/-- Settles O45: sends and receives by what their channel has for them, staging in the thread's record, and waits by the bits that are set. -/
theorem channelsAndEvents : Obligations.ChannelsAndEvents := by
  refine ⟨⟨?_, fun s c => ⟨serveSenders_of_none, serveReceivers_of_none⟩, ?_, ?_, ?_, ?_⟩, ?_, ?_, ?_, ?_, ?_⟩
  · rintro s _ _ t f _ c ws hm hb hc rfl rfl ha hcn rfl hws
    refine ⟨fun i fn hi h => ⟨fun closed => ?_, fun opened room => ?_⟩, fun opened full => ⟨fun h => ?_, fun h => ?_⟩⟩
    · obtain ⟨rfl, rfl⟩ | ⟨rfl, rfl⟩ := hi
      · rw [exec_chsend, sendRow_of_good h hm hb hc ha hcn hws, closed]
        exact issue_told h rfl _ _
      · rw [exec_chsendNb, sendRow_of_good h hm hb hc ha hcn hws, closed]
        exact issue_told h rfl _ _
    · obtain ⟨rfl, rfl⟩ | ⟨rfl, rfl⟩ := hi
      · rw [exec_chsend, sendRow_of_good h hm hb hc ha hcn hws, opened, room]
        exact issue_told h rfl _ _
      · rw [exec_chsendNb, sendRow_of_good h hm hb hc ha hcn hws, opened, room]
        exact issue_told h rfl _ _
    · rw [exec_chsend, sendRow_of_good h hm hb hc ha hcn hws, opened, full]
      exact issue_waits h rfl _ _ _
    · rw [exec_chsendNb, sendRow_of_good h hm hb hc ha hcn hws, opened, full]
      exact issue_told h rfl _ _
  · rintro s _ _ t f _ c hm hc rfl rfl hl hb hcn rfl
    refine ⟨fun i fn hi h => ⟨fun w n some => ?_, fun empty off => ?_⟩, fun empty on => ⟨fun h => ?_, fun h => ?_⟩⟩
    · obtain ⟨rfl, rfl⟩ | ⟨rfl, rfl⟩ := hi
      · rw [exec_chrecv, recvRow_of_good h hm hc hl hb hcn, some]
        exact issue_told h rfl _ _
      · rw [exec_chrecvNb, recvRow_of_good h hm hc hl hb hcn, some]
        exact issue_told h rfl _ _
    · obtain ⟨rfl, rfl⟩ | ⟨rfl, rfl⟩ := hi
      · rw [exec_chrecv, recvRow_of_good h hm hc hl hb hcn, chanTake_of_empty empty, off]
        exact issue_told h rfl _ _
      · rw [exec_chrecvNb, recvRow_of_good h hm hc hl hb hcn, chanTake_of_empty empty, off]
        exact issue_told h rfl _ _
    · rw [exec_chrecv, recvRow_of_good h hm hc hl hb hcn, chanTake_of_empty empty, on]
      exact issue_waits h rfl _ _ _
    · rw [exec_chrecvNb, recvRow_of_good h hm hc hl hb hcn, chanTake_of_empty empty, on]
      exact issue_told h rfl _ _
  · rintro s t f _ hm rfl hi
    exact ⟨fun h hd => stw_ends h hm hi hd, fun h ha => stgr_wrote h hm hi ha⟩
  · rintro s t f _ bs h hm hd lo hi rfl hl
    exact stgm_ends h hm hd lo hi hl
  · rintro s _ t f h hm hd hc rfl
    exact chwatch_ran h hm hd hc
  · rintro s _ t f m got x h hb hc rfl hm hg hx
    exact wait_runs h hb hc hm hg hx
  · rintro s u t f m got _ x h hc he hn rfl hu hm hg hx
    exact waitt_runs h hc he hn hu hm hg hx
  · rintro s t f _ hd hb hc rfl
    exact ⟨fun h he hn => tarm_ends h hd hb hc he hn, fun h ha => tdis_ends h hd ha hb hc⟩
  · rintro s _ t f _ _ h hd hc rfl rfl rfl
    have ran := sev_ran h hd hc
    refine ⟨fun up => ?_, fun down => ?_⟩
    · rwa [sendEv, if_pos up] at ran
    · rwa [sendEv, down, if_neg Bool.false_ne_true] at ran
  · rintro s t f _ h ha hb hc he hn rfl
    exact rdnt_ends h ha hb hc he hn

end Sys2Proof.Machine

/-!
PROOF. Coprocessor instructions at issue (R331, R340, R341, R343, R347, R348, R350–R356): a command whose checks let it pass takes a free entry of
its unit's queue, or its thread waits for one.
-/

namespace Sys2Proof.Machine

/-! ## Checks and sending -/

section
variable {s : State} {t u l cop : Nat} {w : W32} {bad : Bool} {adr : Option Nat} {need : CpxNeed} {k : Res}

/-- A command that every check lets pass. -/
theorem cpxCheck_of_good (hm : isMgt t = false) (hb : bad = false) (ha : ∀ a, adr = some a → (localOf t a 16).isNone = false)
    (hp : unitPresent s u = true) (he : cpxEnabled s t u = true) (hr : cpxReason s t u l need = none) : cpxCheck s t w u l cop bad adr need k = k := by
  unfold cpxCheck
  cases adr with
  | none =>
    dsimp only
    rw [hm, hb, hp, he, hr]
    rfl
  | some a =>
    dsimp only
    rw [ha a rfl, hm, hb, hp, he, hr]
    rfl

theorem cpxIssue_of_room {n : Nat} {c : CpxCmd} {count : Bool} {g : Nat → State → Res} (h : cpxRoom s n u c = true) :
    cpxIssue s n u c count g = g (cpxSend s n u c).1 (cpxSend s n u c).2 := if_pos h

theorem cpxIssue_of_full {n : Nat} {c : CpxCmd} {count : Bool} {g : Nat → State → Res} (h : cpxRoom s n u c = false) :
    cpxIssue s n u c count g =
      .wait (if count && !(thrOf s (256 * n + c.thr)).requeued then cpxCount s n u 6 0 else s) (.cpq u c) := by
  rw [cpxIssue, h]
  rfl

end

theorem exec_mtc (t : BitVec 14) (f : FmtX2) (s : State) : exec (.mtc t f) s = execMtc t f s := rfl
theorem exec_mfc (t : BitVec 14) (f : FmtX2) (s : State) : exec (.mfc t f) s = execMfc t f s := rfl
theorem exec_lcq (t : BitVec 14) (f : FmtX3) (s : State) : exec (.lcq t f) s = execLcq t f s := rfl
theorem exec_scq (t : BitVec 14) (f : FmtX3) (s : State) : exec (.scq t f) s = execScq t f s := rfl
theorem exec_cpwait (t : BitVec 14) (f : FmtX4) (s : State) : exec (.cpwait t f) s = execCpwait t f s := rfl

/-! ## Moves of a register -/

section
variable {s : State} {t : BitVec 14} {f : FmtX2} (hm : isMgt t.toNat = false) (hz : f.zero = 0) (hp : unitPresent s (unitNo f.unit) = true)
  (he : cpxEnabled (takeTurn s t.toNat) t.toNat (unitNo f.unit) = true)
  (hr : cpxReason (takeTurn s t.toNat) t.toNat (unitNo f.unit) f.lane.toNat moveNeed = none)
include hm hz hp he hr

theorem mtc_eq (h : Issues s t.toNat (wordX2 0x27 false f)) :
    exec (.mtc t f) s = issueAt t.toNat (wordX2 0x27 false f) [f.g.toNat] [] (cpxSquashNote t.toNat (unitNo f.unit)) (fun _ =>
      cpxIssue (takeTurn s t.toNat) (cluOf t.toNat) (unitNo f.unit)
        (moveCmd t.toNat f.lane f.c 0 f.w.toNat 0 ((gv (thrOf s t.toNat) f.g).setWidth 128) false) false (fun _ w => .done w [])) s := by
  rw [exec_mtc, execMtc]
  refine issueAt_of_body h ?_ _ _ _
  dsimp only
  rw [gv_takeTurn h]
  exact cpxCheck_of_good hm (by simp [hz]) (by simp) hp he hr

theorem mfc_eq (h : Issues s t.toNat (wordX2 0x27 true f)) :
    exec (.mfc t f) s = issueAt t.toNat (wordX2 0x27 true f) [] [] id (fun _ =>
      cpxIssue (takeTurn s t.toNat) (cluOf t.toNat) (unitNo f.unit) (moveCmd t.toNat f.lane f.c 1 f.w.toNat (f.g.setWidth 32) 0 false) false
        (fun g w => .wait w (.cpr (unitNo f.unit) g))) s := by
  rw [exec_mfc, execMfc]
  refine issueAt_of_body h ?_ _ _ _
  exact cpxCheck_of_good hm (by simp [hz]) (by simp) hp he hr

end

/-! ## Moves of 16 bytes -/

section
variable {s : State} {t : BitVec 14} {f : FmtX3} {bs : List Byte} (hm : isMgt t.toNat = false) (hmid : f.mid = 0) (hz : f.zero = 0)
  (hp : unitPresent s (unitNo f.unit) = true) (he : cpxEnabled (takeTurn s t.toNat) t.toNat (unitNo f.unit) = true)
  (hr : cpxReason (takeTurn s t.toNat) t.toNat (unitNo f.unit) f.lane.toNat moveNeed = none)
  (hl : LocalIs s t.toNat (gv (thrOf s t.toNat) f.g).toNat 16 bs)
include hm hmid hz hp he hr hl

theorem lcq_eq (h : Issues s t.toNat (wordX3 0x27 false f)) :
    exec (.lcq t f) s = issueAt t.toNat (wordX3 0x27 false f) [f.g.toNat] [] (cpxSquashNote t.toNat (unitNo f.unit)) (fun _ =>
      if cpxRoom (takeTurn s t.toNat) (cluOf t.toNat) (unitNo f.unit) (moveCmd t.toNat f.lane f.c 2 0 0 0 false) then
        .done (cpxSend (takeTurn s t.toNat) (cluOf t.toNat) (unitNo f.unit) (moveCmd t.toNat f.lane f.c 2 0 0 (bytesReg bs) false)).2 []
      else .wait (takeTurn s t.toNat) (.cpq (unitNo f.unit) (moveCmd t.toNat f.lane f.c 2 0 0 0 false))) s := by
  have there := localOf_of_localIs hl
  obtain ⟨p, hp', hmem⟩ := hl
  have read : placeRead (takeTurn s t.toNat) t.toNat p 16 = (bs, none, takeTurn s t.toNat) :=
    placeRead_quiet (s := takeTurn s t.toNat) h.quiet.1 ((memRead_takeTurn ..).trans hmem)
  rw [exec_lcq, execLcq]
  refine issueAt_of_body h ?_ _ _ _
  dsimp only
  rw [gv_takeTurn h, cpxCheck_of_good (s := takeTurn s t.toNat) hm (by simp [hmid, hz]) (by rintro a ⟨⟩; exact there) hp he hr, hp', Option.getD_some, read]
  rfl

theorem scq_eq (h : Issues s t.toNat (wordX3 0x27 true f)) :
    exec (.scq t f) s = issueAt t.toNat (wordX3 0x27 true f) [f.g.toNat] [] (cpxSquashNote t.toNat (unitNo f.unit)) (fun _ =>
      cpxIssue (takeTurn s t.toNat) (cluOf t.toNat) (unitNo f.unit) (moveCmd t.toNat f.lane f.c 3 0 (gv (thrOf s t.toNat) f.g) 0 false) false
        (fun g w => .wait w (.cpr (unitNo f.unit) g))) s := by
  rw [exec_scq, execScq]
  refine issueAt_of_body h ?_ _ _ _
  dsimp only
  rw [gv_takeTurn h]
  exact cpxCheck_of_good hm (by simp [hmid, hz]) (by rintro a ⟨⟩; exact localOf_of_localIs hl) hp he hr

end

/-! ## cpwait -/

theorem cpwait_runs {s : State} {t : BitVec 14} {f : FmtX4} (h : Issues s t.toNat (wordX4 0x27 f)) (hm : isMgt t.toNat = false) (hmid : f.mid = 0)
    (hz : f.zero = 0) (hp : unitPresent s (unitNo f.unit) = true) (he : cpxEnabled (takeTurn s t.toNat) t.toNat (unitNo f.unit) = true)
    (hr : cpxReason (takeTurn s t.toNat) t.toNat (unitNo f.unit) f.lane.toNat ⟨false, false, false, 0⟩ = none) {busy : Bool}
    (hb : busy = (laneCmds (cpxQ s (cluOf t.toNat) (unitNo f.unit)) f.lane.toNat).any (fun c => c.thr == t.toNat % 256 && c.confirmed)) :
    (busy = false → Moved s (exec (.cpwait t f) s) t.toNat) ∧
    (busy = true → Waits (exec (.cpwait t f) s) t.toNat (takeTurn s t.toNat) (.cpw (unitNo f.unit) f.lane.toNat)) := by
  have queue : cpxQ (takeTurn s t.toNat) (cluOf t.toNat) (unitNo f.unit) = cpxQ s (cluOf t.toNat) (unitNo f.unit) := rfl
  have checked : ∀ k, cpxCheck (takeTurn s t.toNat) t.toNat (wordX4 0x27 f) (unitNo f.unit) f.lane.toNat 0 (f.mid != 0 || f.zero != 0) none
      ⟨false, false, false, 0⟩ k = k := fun k => cpxCheck_of_good hm (by simp [hmid, hz]) (by simp) hp he hr
  rw [exec_cpwait, execCpwait]
  refine ⟨fun idle => issue_moved h ?_ _ _ _, fun active => issue_waits h ?_ _ _ _⟩
  · dsimp only
    rw [checked, queue, ← hb, idle, if_neg Bool.false_ne_true]
  · dsimp only
    rw [checked, queue, ← hb, active, if_pos rfl]

/-! ## Operations -/

section
variable {s : State} {t : BitVec 14} {f : FmtX1} {p : CpopSpec}

/-- A packet thread by its cluster and its number there. -/
theorem cluster_thread (n : Nat) : 256 * cluOf n + n % 256 = n := by
  unfold cluOf
  omega

theorem requeued_takeTurn {w : W32} (h : Issues s t.toNat w) : (thrOf (takeTurn s t.toNat) t.toNat).requeued = (thrOf s t.toNat).requeued := by
  rw [takeTurn_thr h]

theorem cpopRow_runs {i : BitVec 14 → FmtX1 → Instr} (hi : ∀ t f s, exec (i t f) s = cpopRow p t f s) : CpopRuns i p := by
  rintro s _ t f _ _ c h rfl rfl rfl hm hbad hp he hr rfl
  have eq : exec (i t f) s = issueAt t.toNat (wordX1 0x27 p.cop f) [] [] id (fun _ =>
      cpxIssue (takeTurn s t.toNat) (cluOf t.toNat) (unitNo f.unit)
        ⟨0, f.lane.toNat, t.toNat % 256, p.cop, f.cd.toNat, f.ca.toNat, f.cb.toNat, none, false, true⟩ true (fun _ w => .done w [])) s := by
    rw [hi, cpopRow]
    exact issueAt_of_body h (cpxCheck_of_good (s := takeTurn s t.toNat) hm hbad (by simp) hp he hr) _ _ _
  rw [eq]
  refine ⟨fun room => ?_, fun full => ?_⟩
  · exact issue_ran h (cpxIssue_of_room room) _ _
  · refine issue_waits h ?_ _ _ _
    rw [cpxIssue_of_full full, cluster_thread, requeued_takeTurn h]
    cases (thrOf s t.toNat).requeued <;> rfl

end

section
variable {s : State} {t : BitVec 14} {f : FmtX1} (h : Issues s t.toNat (wordX1 0x27 0x05 f))
include h

/-- What refuses an operation, check by check. -/
theorem cpxXor_refused :
    (isMgt t.toNat = true → Faults s (exec (.cpxXor t f) s) t.toNat cIllegal (wordX1 0x27 0x05 f).toNat) ∧
    (isMgt t.toNat = false → unitPresent s (unitNo f.unit) = false → Faults s (exec (.cpxXor t f) s) t.toNat cNoCpx (wordX1 0x27 0x05 f).toNat) ∧
    (isMgt t.toNat = false → unitPresent s (unitNo f.unit) = true → cpxEnabled (takeTurn s t.toNat) t.toNat (unitNo f.unit) = false →
      Faults s (exec (.cpxXor t f) s) t.toNat cCpxOff (wordX1 0x27 0x05 f).toNat) ∧
    (isMgt t.toNat = false → unitPresent s (unitNo f.unit) = true → cpxEnabled (takeTurn s t.toNat) t.toNat (unitNo f.unit) = true →
      ownsLane (takeTurn s t.toNat) t.toNat (unitNo f.unit) f.lane.toNat = false →
      exec (.cpxXor t f) s = .next (thrFault (cpxCount (takeTurn s t.toNat) (cluOf t.toNat) (unitNo f.unit) 2 0) t.toNat cCpxFlt
        (2 ^ 24 + unitNo f.unit * 2 ^ 16 + f.lane.toNat * 2 ^ 12 + 0x05))) := by
  have eq : exec (.cpxXor t f) s = cpopRow ⟨0x05, true, true, true, true, true, true, false, 1⟩ t f s := rfl
  have good : cpopBad ⟨0x05, true, true, true, true, true, true, false, 1⟩ f = false := by cases hu : f.unit <;> simp [cpopBad, hu]
  have present : unitPresent (takeTurn s t.toNat) (unitNo f.unit) = unitPresent s (unitNo f.unit) := rfl
  rw [eq, cpopRow]
  refine ⟨fun hm => issue_fault h ?_ _ _ _, fun hm hp => issue_fault h ?_ _ _ _, fun hm hp he => issue_fault h ?_ _ _ _,
    fun hm hp he ho => issue_faults h ?_ _ _ _⟩
  · dsimp only
    rw [cpxCheck, hm]
    rfl
  · dsimp only
    rw [cpxCheck, hm, good, present, hp]
    rfl
  · dsimp only
    rw [cpxCheck, hm, good, present, hp, he]
    rfl
  · dsimp only
    rw [cpxCheck, hm, good, present, hp, he, cpxReason, ho]
    simp

end

/-- Settles O46: moves and waits once their checks let them pass, the checks one by one, and one lemma for every operation. -/
theorem coprocessorInstructions : Obligations.CoprocessorInstructions := by
  refine ⟨⟨?_, ?_, ?_, ?_⟩, cpopRow_runs fun _ _ _ => rfl, cpopRow_runs fun _ _ _ => rfl, cpopRow_runs fun _ _ _ => rfl,
    cpopRow_runs fun _ _ _ => rfl, cpopRow_runs fun _ _ _ => rfl, cpopRow_runs fun _ _ _ => rfl, cpopRow_runs fun _ _ _ => rfl,
    cpopRow_runs fun _ _ _ => rfl, cpopRow_runs fun _ _ _ => rfl, cpopRow_runs fun _ _ _ => rfl, cpopRow_runs fun _ _ _ => rfl,
    cpopRow_runs fun _ _ _ => rfl, cpopRow_runs fun _ _ _ => rfl, cpopRow_runs fun _ _ _ => rfl, cpopRow_runs fun _ _ _ => rfl,
    cpopRow_runs fun _ _ _ => rfl, cpopRow_runs fun _ _ _ => rfl, cpopRow_runs fun _ _ _ => rfl, cpopRow_runs fun _ _ _ => rfl,
    cpopRow_runs fun _ _ _ => rfl, cpopRow_runs fun _ _ _ => rfl, cpopRow_runs fun _ _ _ => rfl, cpopRow_runs fun _ _ _ => rfl,
    cpopRow_runs fun _ _ _ => rfl, cpopRow_runs fun _ _ _ => rfl, cpopRow_runs fun _ _ _ => rfl, cpopRow_runs fun _ _ _ => rfl,
    cpopRow_runs fun _ _ _ => rfl, cpopRow_runs fun _ _ _ => rfl, cpopRow_runs fun _ _ _ => rfl, cpopRow_runs fun _ _ _ => rfl,
    cpopRow_runs fun _ _ _ => rfl⟩
  · rintro s _ t f _ _ _ _ rfl rfl rfl hm hz hp he hr rfl rfl
    refine ⟨fun h => ⟨fun room => ?_, fun full => ?_⟩, fun h => ⟨fun g w room sent => ?_, fun full => ?_⟩⟩
    · rw [mtc_eq hm hz hp he hr h]
      exact issue_ran h (cpxIssue_of_room room) _ _
    · rw [mtc_eq hm hz hp he hr h]
      exact issue_waits h (cpxIssue_of_full full) _ _ _
    · rw [mfc_eq hm hz hp he hr h]
      refine issue_waits h ?_ _ _ _
      rw [cpxIssue_of_room room, sent]
    · rw [mfc_eq hm hz hp he hr h]
      exact issue_waits h (cpxIssue_of_full full) _ _ _
  · rintro s _ t f _ _ _ _ _ bs rfl rfl rfl hm hmid hz hp he hr rfl hl rfl rfl
    refine ⟨fun h => ⟨fun room => ?_, fun full => ?_⟩, fun h => ⟨fun g w room sent => ?_, fun full => ?_⟩⟩
    · rw [lcq_eq hm hmid hz hp he hr hl h]
      exact issue_ran h (if_pos room) _ _
    · rw [lcq_eq hm hmid hz hp he hr hl h]
      refine issue_waits h (if_neg ?_) _ _ _
      exact Bool.eq_false_iff.mp full
    · rw [scq_eq hm hmid hz hp he hr hl h]
      refine issue_waits h ?_ _ _ _
      rw [cpxIssue_of_room room, sent]
    · rw [scq_eq hm hmid hz hp he hr hl h]
      exact issue_waits h (cpxIssue_of_full full) _ _ _
  · rintro s _ t f _ _ busy h rfl rfl rfl hm hmid hz hp he hr hb
    exact cpwait_runs h hm hmid hz hp he hr hb
  · rintro s _ t f _ h rfl rfl
    exact cpxXor_refused h

end Sys2Proof.Machine

/-!
PROOF. The class 1 commands: inserting, updating, deleting and finding an entry of each type, cursors, flushes and the clearing of a bad location
(R202, R204–R212).
-/

namespace Sys2Proof.Machine

theorem exec_tblInsert (c : Ctl) (img : List Byte) (s : State) : exec (.tblInsert c img) s = .next (ctlExec s c 0x0101 (fun u _ => tblInsert c img u)) := rfl
theorem exec_tblUpdate (c : Ctl) (img : List Byte) (s : State) : exec (.tblUpdate c img) s = .next (ctlExec s c 0x0102 (fun u _ => tblUpdate c img u)) := rfl
theorem exec_tblDelete (c : Ctl) (img : List Byte) (s : State) : exec (.tblDelete c img) s = .next (ctlExec s c 0x0103 (fun u _ => tblDelete c img u)) := rfl
theorem exec_tblSearch (c : Ctl) (img : List Byte) (s : State) : exec (.tblSearch c img) s = .next (ctlExec s c 0x0104 (fun u fn => tblSearch c img u fn)) := rfl
theorem exec_tblNext (c : Ctl) (s : State) : exec (.tblNext c) s = .next (ctlExec s c 0x0105 (fun u fn => tblNext c u fn)) := rfl
theorem exec_tblFlush (c : Ctl) (s : State) : exec (.tblFlush c) s = .next (ctlExec s c 0x0106 (fun u _ => tblFlush c u)) := rfl
theorem exec_tblCursorClose (c : Ctl) (s : State) : exec (.tblCursorClose c) s = .next (ctlExec s c 0x0107 (fun u _ => tblCursorClose c u)) := rfl
theorem exec_tblLocClear (c : Ctl) (s : State) : exec (.tblLocClear c) s = .next (ctlExec s c 0x0108 (fun u _ => tblLocClear c u)) := rfl
theorem exec_flushVisit (t : Fin 64) (s : State) : exec (.flushVisit t) s = execFlushVisit t s := rfl
theorem exec_tblFlushComplete (t : Fin 64) (s : State) : exec (.tblFlushComplete t) s = execTblFlushComplete t s := rfl
theorem exec_cursorTimeout (t : Fin 64) (n : Nat) (s : State) : exec (.cursorTimeout t n) s = execCursorTimeout t n s := rfl

/-- A command that starts and is done at once. -/
theorem ctlExec_done {s u v : State} {c : Ctl} {op st : Nat} {body : List Nat} {f : State → Nat → CtlRes × State} (h : Starts s u c op)
    (ho : op < 0x600) (hf : f u (s.fld F.HIF_CTR_CFG_FN c.ring.val) = (.done st body, v)) :
    (Host.Outcome.next (ctlExec s c op f) : Out) = .next (ctlEnds s v c op st body) := by
  rw [ctlExec_starts h ho, hf]

section
variable {s u x v : State} {c : Ctl} {img : List Byte} {t : Nat}

theorem Class1.starts {op ty : Nat} (h : Class1 s u c op t ty) : Starts s u c op := by
  obtain ⟨starts, _⟩ := h
  exact starts

theorem Class1.table {op ty : Nat} (h : Class1 s u c op t ty) : cmdTable c = t := by
  obtain ⟨_, ht, _⟩ := h
  exact ht.symm

theorem Class1.type {op ty : Nat} (h : Class1 s u c op t ty) : tblType u t = ty := by
  obtain ⟨_, _, _, _, type⟩ := h
  exact type

theorem plenOk_of_notLpm (h : tblType u t ≠ 1) : plenOk u t img = true := by
  rw [plenOk, decide_eq_true h, Bool.true_or]

/-! ## Inserts -/

theorem tblInsert_em_new {l n m : Nat} {st b : Bool} {e : Item} (h : Class1 s u c 0x101 t 0) (he : e = imageOf img) (hn : n = tblKeyLen u t)
    (hs : emSeek u t (entKey e n) = (x, none))
    (hi : emInsert x t (mkEntry (entStatic e) (entFrozen e) n (entSrc e) (tblGen x t) 0 (entKey e n) (entAction e)) = (⟨some l, m, st, b⟩, v)) :
    tblInsert c img u = (.done stOk (body1 v t l 0 0 m st false), v) := by
  subst he hn
  rw [tblInsert, h.table, class1_live h rfl (by simp [plenOk_of_notLpm, h.type])]
  dsimp only
  rw [if_pos h.type, hs]
  dsimp only
  rw [hi]

theorem tblInsert_em_exists {l : Nat} (h : Class1 s u c 0x101 t 0) (hs : emSeek u t (entKey (imageOf img) (tblKeyLen u t)) = (v, some l)) :
    tblInsert c img u = plain1 v t stExists := by
  rw [tblInsert, h.table, class1_live h rfl (by simp [plenOk_of_notLpm, h.type])]
  dsimp only
  rw [if_pos h.type, hs]

theorem tblInsert_lpm {p : Prefix} (h : Class1 s u c 0x101 t 1) (hlen : plenOk u t img = true) (hp : p = imagePfx u t img)
    (hf : findPfx u t p = (x, none)) (hroom : (pfxAll x t).length < lpmCap x t) :
    tblInsert c img u = plain1 (putPfx x t p (pfxInsert p (pfxAll x t))) t stOk := by
  subst hp
  rw [tblInsert, h.table, class1_live h rfl (by simp [hlen, h.type])]
  dsimp only
  rw [if_neg (by simp [h.type]), if_pos h.type, hf]
  exact if_neg (Nat.not_le.mpr hroom)

theorem tblInsert_dir (h : Class1 s u c 0x101 t 2) (hl : cmdLoc c < tblSize u t) :
    tblInsert c img u = atLoc1 (dirPut u t (cmdLoc c) img) t (cmdLoc c) := by
  rw [tblInsert, h.table, class1_live h rfl (by simp [plenOk_of_notLpm, h.type, locOk, hl])]
  dsimp only
  rw [if_neg (by simp [h.type]), if_neg (by simp [h.type])]

/-! ## Entries by key or location -/

theorem withEntry_of_some {l : Nat} {f : State → Nat → CtlRes × State} (h : cmdEntry c u img = (x, some l)) : withEntry c u img f = f x l := by
  rw [withEntry, h]

theorem withEntry_of_none {f : State → Nat → CtlRes × State} (h : cmdEntry c u img = (x, none)) :
    withEntry c u img f = plain1 x (cmdTable c) stNotFound := by
  rw [withEntry, h]

theorem withPfx_of_some {q : Prefix} {f : State → Prefix → CtlRes × State} (h : findPfx u (cmdTable c) (imagePfx u (cmdTable c) img) = (x, some q)) :
    withPfx c u img f = f x q := by
  rw [withPfx, h]

theorem tblUpdate_em {l : Nat} {e m : Item} (h : Class1 s u c 0x102 t 0) (hl : cmdBit c 14 = false ∨ locOk u t (cmdLoc c) = true)
    (hc : cmdEntry c u img = (x, some l)) (he : e = emRaw x t l) (hm : m = imageOf img) (h16 : cmdBit c 16 = true) (h17 : cmdBit c 17 = false)
    (h18 : cmdBit c 18 = false) (h19 : cmdBit c 19 = false) :
    tblUpdate c img u =
      atLoc1 (emRewrite x t l (entStatic e) (entFrozen e) (entSrc e) (tblGen x t) (entMoves e) (entAction m) (emHit x t l)) t l := by
  subst he hm
  rw [tblUpdate, h.table, class1_live h rfl (by obtain hl | hl := hl <;> simp [plenOk_of_notLpm, h.type, hl])]
  dsimp only
  rw [if_pos h.type, withEntry_of_some hc, h16, h17, h18, h19]
  rfl

theorem tblUpdate_lpm {q : Prefix} (h : Class1 s u c 0x102 t 1) (hlen : plenOk u t img = true)
    (hf : findPfx u t (imagePfx u t img) = (x, some q)) (h16 : cmdBit c 16 = true) :
    tblUpdate c img u =
      plain1 (putPfx x t q ((pfxAll x t).map (fun y => if y == q then { q with result := (imagePfx x t img).result } else y))) t stOk := by
  have ht := h.table
  subst ht
  rw [tblUpdate, class1_live h rfl (by simp [hlen, h.type])]
  dsimp only
  rw [if_neg (by simp [h.type]), withPfx_of_some hf, if_pos h16]

theorem tblDelete_em {l : Nat} (h : Class1 s u c 0x103 t 0) (hl : cmdBit c 14 = false ∨ locOk u t (cmdLoc c) = true)
    (hc : cmdEntry c u img = (x, some l)) : tblDelete c img u = atLoc1 (emDelete x t l) t l := by
  rw [tblDelete, h.table, class1_live h rfl (by obtain hl | hl := hl <;> simp [plenOk_of_notLpm, h.type, hl])]
  rw [if_pos h.type, withEntry_of_some hc]

theorem tblDelete_lpm {q : Prefix} (h : Class1 s u c 0x103 t 1) (hlen : plenOk u t img = true)
    (hf : findPfx u t (imagePfx u t img) = (x, some q)) : tblDelete c img u = plain1 (dropPfx x t q) t stOk := by
  have ht := h.table
  subst ht
  rw [tblDelete, class1_live h rfl (by simp [hlen, h.type])]
  rw [if_neg (by simp [h.type]), if_pos h.type, withPfx_of_some hf]

section
variable {fn : Nat} (h : Class1 s u c 0x104 t 0) (hl : cmdBit c 14 = false ∨ locOk u t (cmdLoc c) = true)
include h hl

theorem tblSearch_found {l : Nat} (hc : cmdEntry c u img = (x, some l)) :
    tblSearch c img u fn = atLoc1 (hostWrite x fn (cmdAddr c) (itemBytes (emImage x t l))) t l := by
  rw [tblSearch, h.table, class1_live h rfl (by obtain hl | hl := hl <;> simp [plenOk_of_notLpm, h.type, hl])]
  rw [if_pos h.type, withEntry_of_some hc]

theorem tblSearch_notFound (hc : cmdEntry c u img = (x, none)) : tblSearch c img u fn = plain1 x t stNotFound := by
  rw [tblSearch, h.table, class1_live h rfl (by obtain hl | hl := hl <;> simp [plenOk_of_notLpm, h.type, hl])]
  rw [if_pos h.type, withEntry_of_none hc, h.table]

end

/-! ## Cursors, flushes and bad locations -/

section
variable {fn : Nat} (h : Class1 s u c 0x105 t 0) (hk : mget noCursor u.agt.cursors t = none) (lo : 1 ≤ bits (bodyWord c 3) 8 0)
  (hi : bits (bodyWord c 3) 8 0 ≤ 256)
include h hk lo hi

theorem tblNext_opens (hopen : cmdBit c 15 = true) {pos done : Nat} {bs : List Byte}
    (hr : emRecords u t ((liveLocs u t).filter (fun l => decide (0 ≤ l))) (bits (bodyWord c 3) 8 0) 0 [] 0 = (pos, bs, done, v)) :
    tblNext c u fn = nextDone c v fn bs ⟨pos, none, v.tim.elapsed⟩ done (decide (tblSize v t + 4096 ≤ pos)) := by
  rw [tblNext, h.table, class1_live h rfl (by simp [lo, hi])]
  dsimp only
  rw [hk, hopen, if_neg (by simp), if_neg (by simp), if_pos h.type, Option.getD_none]
  dsimp only
  rw [hr]

theorem tblNext_notFound (hopen : cmdBit c 15 = false) : tblNext c u fn = plain1 u t stNotFound := by
  rw [tblNext, h.table, class1_live h rfl (by simp [lo, hi])]
  dsimp only
  rw [hk, hopen, if_neg (by simp), if_pos (by simp)]

end

theorem tblFlush_generation (h : Class1 s u c 0x106 t 0) (hf : mget noFlush u.agt.flushes t = none) (hm : bits (bodyWord c 0) 29 28 = 3) :
    tblFlush c u = plain1 (u.setFld F.AGT_TBL_GEN_GEN t (tblGen u t + 1)) t stOk := by
  rw [tblFlush, h.table, class1_live h rfl (by simp [h.type])]
  dsimp only
  rw [hf, if_neg (by simp), if_pos hm]

/-- A flush of everything starts its pass. -/
theorem tblFlush_pass (h : Class1 s u c 0x106 t 0) (hf : mget noFlush u.agt.flushes t = none) (hm : bits (bodyWord c 0) 29 28 = 0) :
    tblFlush c u = (.later (.tblFlush t), setFlush u t ⟨0, bits (bodyWord c 0) 27 20, bits (bodyWord c 2) 15 0, cmdBit c 13, 0, none, 0⟩) := by
  rw [tblFlush, h.table, class1_live h rfl (by simp [h.type])]
  dsimp only
  rw [hf, if_neg (by simp), hm, if_neg (by decide)]
  rfl

theorem tblCursorClose_done {ty : Nat} (hty : ty ≤ 2) (h : Class1 s u c 0x107 t ty) : tblCursorClose c u = plain1 (setCursor u t none) t stOk := by
  have any : [0, 1, 2].contains ty = true := by
    simp
    omega
  rw [tblCursorClose, class1_live h any rfl, h.table]

theorem tblLocClear_done (h : Class1 s u c 0x108 t 0) (hl : cmdLoc c < tblSize u t) (hb : locListed u t (cmdLoc c) = true)
    (hv : v = setHit (emPut u t (cmdLoc c) 0) t (cmdLoc c) false) :
    tblLocClear c u = atLoc1 { v with agt := { v.agt with listed := v.agt.listed.filter (· != (t, cmdLoc c)) } } t (cmdLoc c) := by
  subst hv
  have there : locOk u t (cmdLoc c) = true := by
    rw [locOk, if_pos h.type, decide_eq_true]
    omega
  rw [tblLocClear, h.table, class1_live h rfl there]
  dsimp only
  rw [hb, if_neg (by simp), if_pos hl]

end

/-! ## Passes -/

theorem flushVisit_of_found {s u : State} {t l : Nat} {p : FlushPass} (ht : tblType s t = 0) (hn : flushNextLoc s t p = some l)
    (hv : visitProbe s t l = (u, false)) :
    flushVisit s t p = if flushSelects p (emRaw u t l) then
      count (setFlush (emDelete u t l) t { p with pos := l + 1, deleted := p.deleted + 1 }) (12800 + 8 * t + 7) 1 0
      else setFlush u t { p with pos := l + 1 } := by
  rw [flushVisit, if_neg (by simp [ht]), hn]
  dsimp only
  rw [hv, Bool.not_false, Bool.true_and]

theorem exec_flushVisit_of_pass {s : State} {t : Fin 64} {p : FlushPass} (up : pktUp s = true) (hp : mget noFlush s.agt.flushes t.val = some p) :
    exec (.flushVisit t) s = .next (flushVisit s t.val p) := by
  rw [exec_flushVisit, execFlushVisit, hp]
  dsimp only
  rw [if_pos up]

/-- Settles O13: each command on a table that it takes, by what it finds there, and the passes' own steps. -/
theorem tableEntries : Obligations.TableEntries := by
  refine ⟨⟨?_, ?_, ?_, ?_, ?_, ?_, ?_, ?_, ?_, ?_⟩, ?_, ?_, ?_, ?_, ?_, ?_, ?_, ?_, ?_⟩
  · intro s u x v c img t l n e m st b h he hn hs hi
    rw [exec_tblInsert]
    exact ctlExec_done h.starts (by decide) (tblInsert_em_new h he hn hs hi)
  · intro s u v c img t l h hs
    rw [exec_tblInsert]
    exact ctlExec_done h.starts (by decide) (tblInsert_em_exists h hs)
  · rintro s u x _ c img t p h hlen hp hf hroom rfl
    rw [exec_tblInsert]
    exact ctlExec_done h.starts (by decide) (tblInsert_lpm h hlen hp hf hroom)
  · rintro s u _ c img t h hl rfl
    rw [exec_tblInsert]
    exact ctlExec_done h.starts (by decide) (tblInsert_dir h hl)
  · rintro s u x _ c img t l e m h hl hc he hm h16 h17 h18 h19 rfl
    rw [exec_tblUpdate]
    exact ctlExec_done h.starts (by decide) (tblUpdate_em h hl hc he hm h16 h17 h18 h19)
  · rintro s u x _ c img t q h hlen hf h16 rfl
    rw [exec_tblUpdate]
    exact ctlExec_done h.starts (by decide) (tblUpdate_lpm h hlen hf h16)
  · rintro s u x _ c img t l h hl hc rfl
    rw [exec_tblDelete]
    exact ctlExec_done h.starts (by decide) (tblDelete_em h hl hc)
  · rintro s u x _ c img t q h hlen hf rfl
    rw [exec_tblDelete]
    exact ctlExec_done h.starts (by decide) (tblDelete_lpm h hlen hf)
  · rintro s u x _ c img t l h hl hc rfl
    rw [exec_tblSearch]
    exact ctlExec_done h.starts (by decide) (tblSearch_found h hl hc)
  · intro s u v c img t h hl hc
    rw [exec_tblSearch]
    exact ctlExec_done h.starts (by decide) (tblSearch_notFound h hl hc)
  · intro s u v c t pos done bs h hopen hk lo hi hr
    refine ⟨_, ?_, rfl⟩
    rw [exec_tblNext]
    refine ctlExec_done h.starts (by decide) ((tblNext_opens h hk lo hi hopen hr).trans ?_)
    rw [nextDone, h.table]
  · intro s u c t h hopen hk lo hi
    rw [exec_tblNext]
    exact ctlExec_done h.starts (by decide) (tblNext_notFound h hk lo hi hopen)
  · rintro s u _ c t h hf hm rfl
    rw [exec_tblFlush]
    exact ctlExec_done h.starts (by decide) (tblFlush_generation h hf hm)
  · intro s u c t h hf hm
    refine ⟨_, rfl, ?_⟩
    rw [ctlExec_starts h.starts (by decide), tblFlush_pass h hf hm]
    exact ⟨rfl, rfl⟩
  · rintro s u _ c t ty hty h rfl
    rw [exec_tblCursorClose]
    exact ctlExec_done h.starts (by decide) (tblCursorClose_done hty h)
  · rintro s u v _ c t h hl hb hv rfl
    rw [exec_tblLocClear]
    exact ctlExec_done h.starts (by decide) (tblLocClear_done h hl hb hv)
  · intro s u t p l up hp ht hn hv
    rw [exec_flushVisit_of_pass up hp, flushVisit_of_found ht hn hv]
    exact ⟨fun sel => by rw [if_pos sel], fun sel => by rw [sel, if_neg Bool.false_ne_true]⟩
  · rintro s _ t p c up hp hover hc rfl
    rw [exec_tblFlushComplete, execTblFlushComplete, hp]
    dsimp only
    rw [up, hover, if_pos (by simp), flushEnd, hp, hc]
  · rintro s _ t n k rfl up hk late
    rw [exec_cursorTimeout, execCursorTimeout, hk]
    dsimp only
    rw [up, decide_eq_true late, if_pos (by simp)]

end Sys2Proof.Machine

/-!
PROOF. Class 3 commands: the checks of the item, and what the queue or the delay list makes of it (R218, R247, R251–R253).
-/

namespace Sys2Proof.Machine

theorem exec_enq (c : Ctl) (it : Item) (s : State) : exec (.enq c it) s = .next (settleAll (ctlExec s c 0x0301 (fun u _ => ctlEnq c it u))) := rfl
theorem exec_dlyInsert (c : Ctl) (it : Item) (s : State) :
    exec (.dlyInsert c it) s = .next (settleAll (ctlExec s c 0x0302 (fun u _ => ctlDlyInsert c it u))) := rfl

/-- The state after a command that starts and is done at once. -/
theorem ctlExec_eq_ends {s u v : State} {c : Ctl} {op st : Nat} {body : List Nat} {f : State → Nat → CtlRes × State} (h : Starts s u c op)
    (ho : op < 0x600) (hf : f u (s.fld F.HIF_CTR_CFG_FN c.ring.val) = (.done st body, v)) : ctlExec s c op f = ctlEnds s v c op st body := by
  rw [ctlExec_starts h ho, hf]

section
variable {u v : State} {c : Ctl} {it : Item}

theorem class3_of_badForm (hf : itForm it = false) (f : State → CtlRes × State) : class3 it u f = (.done stRange [], u) := by
  rw [class3, hf]
  rfl

section
variable (hf : itForm it = true) (hn : itemWord it 0 = nullHandle)
include hf hn

/-- An item in form without a chain passes the checks. -/
theorem class3_of_null (f : State → CtlRes × State) : class3 it u f = f u := by
  rw [class3, hf, if_neg (by simp), if_neg (by simp [hn])]

omit hf in
theorem passHandle_of_null : passHandle v it = v := if_pos hn

theorem ctlEnq_ok {tag : Option Nat} {b : Nat}
    (he : enqueue u false (bits (bodyWord c 0) 11 0) (bits (bodyWord c 0) 29 16) (c.body.getD 1 0) it none 0 = (.ok tag b, v)) :
    ctlEnq c it u = (.done stOk [tag.elim 0 (2 ^ 31 + ·)], v) := by
  rw [ctlEnq, class3_of_null hf hn, he]
  dsimp only
  rw [passHandle_of_null hn]
  cases tag <;> rfl

theorem ctlEnq_qoff
    (he : enqueue u false (bits (bodyWord c 0) 11 0) (bits (bodyWord c 0) 29 16) (c.body.getD 1 0) it none 0 = (.qoff, v)) :
    ctlEnq c it u = (.done stQoff [], v) := by
  rw [ctlEnq, class3_of_null hf hn, he]

theorem ctlDlyInsert_ok {tick : Nat} (hr : dlyRefusal u (bits (bodyWord c 0) 15 12) = none)
    (hd : dlyInsert u (bits (bodyWord c 0) 15 12) (bodyDword c 2) (bits (bodyWord c 0) 11 0) (bits (bodyWord c 0) 29 16) (c.body.getD 1 0) it =
      (tick, v)) : ctlDlyInsert c it u = (.done stOk [0, tick % 2 ^ 32, tick / 2 ^ 32], v) := by
  rw [ctlDlyInsert, class3_of_null hf hn]
  dsimp only
  rw [hr]
  dsimp only
  rw [hd]
  dsimp only
  rw [passHandle_of_null hn]

theorem ctlDlyInsert_qoff (hr : dlyRefusal u (bits (bodyWord c 0) 15 12) = some true) : ctlDlyInsert c it u = (.done stQoff [], u) := by
  rw [ctlDlyInsert, class3_of_null hf hn]
  dsimp only
  rw [hr]

end

end

/-- Settles O15: the item's checks, and each result of the queue or the list. -/
theorem orreryClass3 : Obligations.OrreryClass3 := by
  refine ⟨fun s u c it h hf => ?_, fun s u v c it tag b h hf hn he => ?_, fun s u v c it h hf hn he => ?_, fun s u v c it tick h hf hn hr hd => ?_,
    fun s u c it h hf hn hr => ?_⟩
  · rw [exec_enq, ctlExec_eq_ends h (by decide) (class3_of_badForm hf _)]
  · rw [exec_enq, ctlExec_eq_ends h (by decide) (ctlEnq_ok hf hn he)]
    cases tag <;> rfl
  · rw [exec_enq, ctlExec_eq_ends h (by decide) (ctlEnq_qoff hf hn he)]
  · rw [exec_dlyInsert, ctlExec_eq_ends h (by decide) (ctlDlyInsert_ok hf hn hr hd)]
  · rw [exec_dlyInsert, ctlExec_eq_ends h (by decide) (ctlDlyInsert_qoff hf hn hr)]

end Sys2Proof.Machine

/-!
PROOF. The system instructions' feature words (R333).
-/

namespace Sys2Proof.Machine

/-- An SZ-1600A whose fused mask names no cluster: every cluster of this part is present all the same (R6). -/
def unfused : State := { State.reset with present := 0 }

theorem featWord_unfused : featWord unfused 0 5 = 0xFFFFFFFF := by decide

/-- Refutes O47: feature word 5 is GLB_CLUSTER_PRESENT, which on the SZ-1600A is every cluster whatever the fused mask holds; the statement
gives the mask itself. -/
theorem not_systemInstructions : ¬ Obligations.SystemInstructions := by
  rintro ⟨_, features, _⟩
  obtain ⟨_, _, _, _, _, five, _⟩ := features unfused 0 0
  have : featWord unfused 0 5 = 0 := five
  rw [featWord_unfused] at this
  contradiction

end Sys2Proof.Machine

/-!
PROOF. Network time: the clamp of TIM_INCR, and adjustments from GO to their end (R35–R41).
-/

namespace Sys2Proof.Machine

/-! ## TIM_INCR -/

theorem exec_timIncrWrite {s : State} (v : W32) (hp : pktUp s = true) (hh : s.flag F.TIM_STS_HOLDOVER 0 = false) :
    exec (.timIncrWrite v) s =
      let c := clamp 0xAA800000 0xAAD55556 v.toNat
      let u := s.setReg .TIM_INCR 0 c
      let w := if c = v.toNat then u else u.setFlag F.TIM_STS_INCR_CLAMP 0 true
      .next { w with tim := { w.tim with holdIncr := w.tim.elapsed } } := by
  change execTimIncrWrite v s = _
  rw [execTimIncrWrite, if_neg (by simp [hp, hh])]

theorem timIncr_taken {s : State} {v : W32} (hp : pktUp s = true) (hh : s.flag F.TIM_STS_HOLDOVER 0 = false) (lo : 0xAA800000 ≤ v.toNat)
    (hi : v.toNat ≤ 0xAAD55556) :
    exec (.timIncrWrite v) s = .next { s.setReg .TIM_INCR 0 v.toNat with tim := { s.tim with holdIncr := s.tim.elapsed } } := by
  have within : clamp 0xAA800000 0xAAD55556 v.toNat = v.toNat := by
    rw [clamp, if_neg (Nat.not_lt.mpr lo), if_neg (Nat.not_lt.mpr hi)]
  rw [exec_timIncrWrite v hp hh]
  dsimp only
  rw [within, if_pos rfl]
  rfl

/-- A value that the clamp changes is reported. -/
theorem timIncr_clamped {s : State} {v : W32} {c : Nat} (hp : pktUp s = true) (hh : s.flag F.TIM_STS_HOLDOVER 0 = false)
    (hc : clamp 0xAA800000 0xAAD55556 v.toNat = c) (hne : c ≠ v.toNat) :
    exec (.timIncrWrite v) s =
      .next { (s.setReg .TIM_INCR 0 c).setFlag F.TIM_STS_INCR_CLAMP 0 true with tim := { s.tim with holdIncr := s.tim.elapsed } } := by
  rw [exec_timIncrWrite v hp hh]
  dsimp only
  rw [hc, if_neg hne]
  rfl

/-! ## GO and ABORT -/

theorem adjRefused_eq_false {u : State} (hb : u.flag F.TIM_STS_ADJ_BUSY 0 = false) (hh : u.flag F.TIM_STS_HOLDOVER 0 = false) :
    adjRefused u = false := by
  rw [adjRefused, hb, hh]
  rfl

theorem adjJump_starts {s u : State} (step : Bool) (hu : u = s.setFld F.TIM_ADJ_CTL_MODE 0 (b2n step))
    (hb : u.flag F.TIM_STS_ADJ_BUSY 0 = false) (hh : u.flag F.TIM_STS_HOLDOVER 0 = false) :
    adjJump s step = { u with tim := { u.tim with
      adj := some (.jump step (BitVec.ofNat 64 (u.reg .TIM_ADJ_OFFSET 0)) 64) } }.setFlag F.TIM_STS_ADJ_BUSY 0 true := by
  rw [adjJump, ← hu]
  dsimp only
  rw [if_neg (by simp [adjRefused_eq_false hb hh])]

/-- The edges of a slew are the least number that fills its interval at the trim in force (log entry 15). -/
theorem slewEdges_fill {iv incr n : Nat} (hn : n = max 1 ((iv + incr - 1) / incr)) (hi : 0 < incr) :
    iv ≤ n * incr ∧ (1 < n → (n - 1) * incr < iv) := by
  have lower : iv ≤ (iv + incr - 1) / incr * incr := by
    have := Nat.lt_div_mul_add (a := iv + incr - 1) hi
    omega
  constructor
  · exact le_trans lower (Nat.mul_le_mul_right _ (hn ▸ le_max_right _ _))
  · intro more
    have exact_n : n = (iv + incr - 1) / incr := by omega
    have upper : n * incr ≤ iv + incr - 1 := exact_n ▸ Nat.div_mul_le_self _ _
    rw [Nat.sub_mul, one_mul]
    have : incr ≤ n * incr := Nat.le_mul_of_pos_left _ (by omega)
    omega

theorem adjSlew_starts {s u : State} {off : Int} (hu : u = s.setFld F.TIM_ADJ_CTL_MODE 0 2) (hb : u.flag F.TIM_STS_ADJ_BUSY 0 = false)
    (hh : u.flag F.TIM_STS_HOLDOVER 0 = false) (ho : off = (BitVec.ofNat 64 (u.reg .TIM_ADJ_OFFSET 0)).toInt)
    (hr : off.natAbs * 1024 ≤ u.reg .TIM_ADJ_INTERVAL 0) {n : Nat}
    (hn : n = max 1 ((u.reg .TIM_ADJ_INTERVAL 0 * 2 ^ 32 + incrOf u - 1) / incrOf u)) :
    adjSlew s = { u with tim := { u.tim with adj := some (.slew n n off) } }.setFlag F.TIM_STS_ADJ_BUSY 0 true := by
  rw [adjSlew, ← hu]
  dsimp only
  rw [← ho, ← hn, if_neg (by simp [adjRefused_eq_false hb hh, hr])]

theorem adjSlew_refused {s u : State} (hu : u = s.setFld F.TIM_ADJ_CTL_MODE 0 2)
    (hr : u.reg .TIM_ADJ_INTERVAL 0 < (BitVec.ofNat 64 (u.reg .TIM_ADJ_OFFSET 0)).toInt.natAbs * 1024) :
    adjSlew s = u.setFlag F.TIM_STS_ADJ_REJECT 0 true := by
  rw [adjSlew, ← hu]
  dsimp only
  rw [if_pos (by simp [hr])]

theorem exec_adjSet {s : State} (hp : pktUp s = true) : exec .adjSet s = .next (adjJump s false) := by
  change Host.Outcome.next (if pktUp s then adjJump s false else s) = _
  rw [if_pos hp]

theorem exec_adjStep {s : State} (hp : pktUp s = true) : exec .adjStep s = .next (adjJump s true) := by
  change Host.Outcome.next (if pktUp s then adjJump s true else s) = _
  rw [if_pos hp]

theorem exec_adjSlew {s : State} (hp : pktUp s = true) : exec .adjSlew s = .next (adjSlew s) := by
  change Host.Outcome.next (if pktUp s then adjSlew s else s) = _
  rw [if_pos hp]

theorem exec_adjAbort {s : State} (hp : pktUp s = true) : exec .adjAbort s = .next (adjAbort s) := by
  change Host.Outcome.next (if pktUp s then adjAbort s else s) = _
  rw [if_pos hp]

/-! ## Edges -/

theorem addEdges_zero (s : State) : addEdges s 0 0 = s := by
  simp [addEdges]

/-- Time passes as Sidereal's edges say; beside them only the view of the last edge moves. -/
theorem advance_of_pktUp {s : State} (hp : pktUp s = true) (n : Nat) :
    ∃ x, advance s n = { siderealEdges { s with clk := s.clk + n } n with
      tim := { (siderealEdges { s with clk := s.clk + n } n).tim with seen := x } } := by
  have up : pktUp { s with clk := s.clk + n } = true := hp
  rw [advance]
  dsimp only
  rw [if_neg (by simp [up])]
  exact ⟨_, rfl⟩

theorem siderealEdges_within_slew {s : State} {k n total : Nat} {off : Int} (ha : s.tim.adj = some (.slew n total off)) (hk : k < n) :
    siderealEdges s k =
      let u := addEdges s k (slewAt off total (total - n + k) - slewAt off total (total - n))
      { u with tim := { u.tim with adj := some (.slew (n - k) total off) } } := by
  rw [siderealEdges, ha]
  dsimp only
  rw [if_pos hk]

theorem siderealEdges_end_slew {s : State} {n total : Nat} {off : Int} (ha : s.tim.adj = some (.slew n total off)) :
    siderealEdges s n =
      let u := addEdges s n (slewAt off total total - slewAt off total (total - n))
      ({ u with tim := { u.tim with adj := none } }).setFlag F.TIM_STS_ADJ_BUSY 0 false := by
  rw [siderealEdges, ha]
  dsimp only
  rw [if_neg (lt_irrefl n), Nat.sub_self, addEdges_zero]

theorem siderealEdges_end_jump {s : State} {n : Nat} {step : Bool} {off : W64} (ha : s.tim.adj = some (.jump step off n)) :
    siderealEdges s n = applyJump (addEdges s n 0) step off := by
  rw [siderealEdges, ha]
  dsimp only
  rw [if_neg (lt_irrefl n), Nat.sub_self, addEdges_zero]

theorem slewAt_total (off : Int) {total : Nat} (h : 0 < total) : slewAt off total total = off * 2 ^ 32 := by
  rw [slewAt, Int.mul_ediv_cancel _ (by omega)]

theorem slewAt_bounds (off : Int) {total : Nat} (k : Nat) (h : 0 < total) :
    slewAt off total k * total ≤ off * 2 ^ 32 * k ∧ off * 2 ^ 32 * k < (slewAt off total k + 1) * total :=
  ⟨Int.ediv_mul_le _ (by omega), Int.lt_ediv_add_one_mul_self _ (by omega)⟩

theorem slew_within {s : State} {k n total : Nat} {off : Int} (hp : pktUp s = true) (ha : s.tim.adj = some (.slew n total off)) (hk : k < n) :
    (advance s k).tim.adj = some (.slew (n - k) total off) ∧
    (advance s k).tim.nt = BitVec.ofInt 96 (s.tim.nt.toNat + k * s.reg .TIM_INCR 0 +
      (slewAt off total (total - n + k) - slewAt off total (total - n))) := by
  obtain ⟨x, passed⟩ := advance_of_pktUp hp k
  rw [passed, siderealEdges_within_slew (s := { s with clk := s.clk + k }) ha hk]
  refine ⟨rfl, ?_⟩
  rw [add_assoc]
  rfl

theorem slew_ends {s : State} {n total : Nat} {off : Int} (hp : pktUp s = true) (ha : s.tim.adj = some (.slew n total off))
    (ht : 0 < total) :
    ∃ u, exec .slewComplete s = .next u ∧ u.tim.adj = none ∧ u.clk = s.clk + n ∧
      u.tim.nt = BitVec.ofInt 96 (s.tim.nt.toNat + n * s.reg .TIM_INCR 0 + (off * 2 ^ 32 - slewAt off total (total - n))) := by
  have passes : exec .slewComplete s = .next (advance s n) := by
    change execSlewComplete s = _
    rw [execSlewComplete, ha]
    dsimp only
    rw [if_pos hp]
  obtain ⟨x, passed⟩ := advance_of_pktUp hp n
  refine ⟨_, passes, ?_⟩
  rw [passed, siderealEdges_end_slew (s := { s with clk := s.clk + n }) ha, slewAt_total off ht]
  refine ⟨rfl, rfl, ?_⟩
  rw [add_assoc]
  rfl

theorem jump_applies {s v : State} {step : Bool} {off : W64} {n : Nat} (hp : pktUp s = true) (ha : s.tim.adj = some (.jump step off n))
    (hv : v = { s with clk := s.clk + n, tim := { s.tim with
      nt := BitVec.ofInt 96 (s.tim.nt.toNat + n * s.reg .TIM_INCR 0), elapsed := s.tim.elapsed + n * s.reg .TIM_INCR 0 } }) :
    ∃ u w, exec .setStepApply s = .next u ∧ w = applyJump v step off ∧ u = { w with tim := { w.tim with seen := u.tim.seen } } := by
  have passes : exec .setStepApply s = .next (advance s n) := by
    change execSetStepApply s = _
    rw [execSetStepApply, ha]
    dsimp only
    rw [if_pos hp]
  have edges : addEdges { s with clk := s.clk + n } n 0 = v := by
    have whole : (s.tim.elapsed + n * s.reg .TIM_INCR 0 : Int).toNat = s.tim.elapsed + n * s.reg .TIM_INCR 0 := by omega
    rw [hv, addEdges]
    dsimp only
    rw [add_zero]
    exact congrArg (fun e => ({ s with clk := s.clk + n, tim := { s.tim with
      nt := BitVec.ofInt 96 (s.tim.nt.toNat + n * s.reg .TIM_INCR 0), elapsed := e } } : State)) whole
  obtain ⟨x, passed⟩ := advance_of_pktUp hp n
  rw [siderealEdges_end_jump (s := { s with clk := s.clk + n }) ha, edges] at passed
  exact ⟨_, _, passes, rfl, by rw [passed]⟩

/-! ## The statement -/

/-- Settles O1: each clause is the branch of TIM_INCR's write, of GO or of Sidereal's edges that it speaks of. -/
theorem adjustments : Obligations.Adjustments := by
  refine ⟨fun s v hp hh => ⟨timIncr_taken hp hh, fun low => ?_, fun high => ?_⟩,
    ⟨fun s u hp hu hb hh => ?_, fun s u hp hu hb hh => ?_, fun s u off hp hu hb hh ho hr => ?_, fun s u hp hu hr => ?_,
      fun s n total off hp ha => ?_, fun s b off n hp ha => ?_⟩,
    fun s n total off hp ha ht => slew_ends hp ha ht, fun s k n total off hp ha _ hk => slew_within hp ha hk,
    fun off total k ht => slewAt_bounds off k ht, fun s v step off n hp ha hv => jump_applies hp ha hv⟩
  · exact timIncr_clamped hp hh (by rw [clamp, if_pos low]) (by omega)
  · exact timIncr_clamped hp hh (by rw [clamp, if_neg (by omega), if_pos high]) (by omega)
  · rw [exec_adjSet hp, adjJump_starts false hu hb hh]
  · rw [exec_adjStep hp, adjJump_starts true hu hb hh]
  · refine ⟨_, Nat.lt_of_lt_of_le Nat.one_pos (le_max_left 1 _), fun hi => slewEdges_fill rfl hi, ?_⟩
    rw [exec_adjSlew hp, adjSlew_starts hu hb hh ho hr rfl]
    rfl
  · rw [exec_adjSlew hp, adjSlew_refused hu hr]
  · rw [exec_adjAbort hp, adjAbort, ha]
  · rw [exec_adjAbort hp, adjAbort, ha]

end Sys2Proof.Machine

/-!
PROOF. Holdover, the time pins, and the reads that pop or latch (R45–R51, R550).
-/

namespace Sys2Proof.Machine

/-! ## Holdover -/

theorem enterHold_enters {s : State} (hh : s.flag F.TIM_STS_HOLDOVER 0 = false) (cause : Nat) :
    enterHold s cause = raiseSrc ((s.setFlag F.TIM_STS_HOLDOVER 0 true).setFld F.TIM_STS_HOLD_CAUSE 0 cause) 32 cause := by
  rw [enterHold, if_neg (by simp [hh])]

theorem exec_holdReq {s : State} (hp : pktUp s = true) : exec .holdReq s = .next (enterHold s 0) := by
  change Host.Outcome.next (if pktUp s then enterHold s 0 else s) = _
  rw [if_pos hp]

theorem exec_holdExit {s u : State} (hp : pktUp s = true) (hh : s.flag F.TIM_STS_HOLDOVER 0 = true)
    (hu : u = s.setFlag F.TIM_STS_HOLDOVER 0 false) :
    exec .holdExit s = .next { u with tim := { u.tim with holdIncr := u.tim.elapsed, holdPps := u.tim.elapsed } } := by
  change Host.Outcome.next (if pktUp s then exitHold s else s) = _
  rw [if_pos hp, exitHold, if_pos hh, ← hu]

theorem holdDue_of_elapsed {u : State} {start : Nat} (ht : u.reg .TIM_HOLD_TIMEOUT 0 ≠ 0)
    (hd : u.reg .TIM_HOLD_TIMEOUT 0 * 1000 * 2 ^ 32 ≤ u.tim.elapsed - start) : holdDue u start = true := by
  rw [holdDue, decide_eq_true ht, decide_eq_true hd]
  rfl

theorem exec_holdTimeoutIncr {s u : State} {n : Nat} (hu : u = advance s n) (hp : pktUp u = true) (hd : holdDue u u.tim.holdIncr = true) :
    exec (.holdTimeoutIncr n) s = .next (enterHold u 1) := by
  change execHoldTimeoutIncr n s = _
  rw [execHoldTimeoutIncr, ← hu]
  rw [if_pos (by simp [hp, hd])]

theorem exec_holdTimeoutPps {s u : State} {n : Nat} (hu : u = advance s n) (hp : pktUp u = true) (hr : u.flag F.TIM_CTL_REF_SEL 0 = true)
    (hd : holdDue u u.tim.holdPps = true) : exec (.holdTimeoutPps n) s = .next (enterHold u 2) := by
  change execHoldTimeoutPps n s = _
  rw [execHoldTimeoutPps, ← hu]
  rw [if_pos (by simp [hp, hr, hd])]

/-! ## Input edges -/

theorem exec_ppsInEdge {s u : State} {w : Nat} (hp : pktUp s = true) (hw : 100 ≤ w)
    (hu : u = (s.setReg .TIM_PPS_IN_TS 0 (nt64 s)).wrapAdd F.TIM_INPUT_CNT_PPS 0 1) :
    exec (.ppsInEdge w) s = .next { u with tim := { u.tim with holdPps := u.tim.elapsed } } := by
  change execPpsInEdge w s = _
  rw [execPpsInEdge, if_pos (by simp [hp, hw]), ← hu]

theorem exec_calSyncInEdge {s u : State} {w : Nat} (hp : pktUp s = true) (hw : 100 ≤ w)
    (hu : u = (s.setReg .TIM_CSI_TS 0 (nt64 s)).wrapAdd F.TIM_INPUT_CNT_CSI 0 1) :
    exec (.calSyncInEdge w) s = .next (foldS (List.range 16) merAnchor u) := by
  change execCalSyncInEdge w s = _
  rw [execCalSyncInEdge, if_pos (by simp [hp, hw]), ← hu]

theorem exec_ppsInEdge_short (s : State) {w : Nat} (hw : w < 100) : exec (.ppsInEdge w) s = .next s := by
  change execPpsInEdge w s = _
  rw [execPpsInEdge, if_neg (by simp [hw])]

theorem exec_calSyncInEdge_short (s : State) {w : Nat} (hw : w < 100) : exec (.calSyncInEdge w) s = .next s := by
  change execCalSyncInEdge w s = _
  rw [execCalSyncInEdge, if_neg (by simp [hw])]

/-! ## Output pulses -/

theorem exec_ppsOutPulse {s u : State} {n : Nat} (hu : u = advance s n) (hp : pktUp u = true) :
    exec (.ppsOutPulse n) s = .next (firePps u) := by
  change execPpsOutPulse n s = _
  rw [execPpsOutPulse, ← hu]
  rw [if_pos hp]

theorem firePps_rises {u : State} (he : u.flag F.TIM_PPS_OUT_CFG_EN 0 = true) (hn : u.tim.ppsNext ≤ nt64 u) :
    firePps u = { u with tim := { u.tim with ppsHigh := true, ppsEnd := u.tim.elapsed + ppsWidth u * 1000 * 2 ^ 32,
                                             ppsNext := (nt64 u / 1000000000 + 1) * 1000000000 } } := by
  rw [firePps, if_pos (by simp [he, hn])]

theorem exec_ppsOutPulseEnd {s u : State} {n : Nat} (hu : u = advance s n) (hp : pktUp u = true) (hh : u.tim.ppsHigh = true)
    (he : u.tim.ppsEnd ≤ u.tim.elapsed) : exec (.ppsOutPulseEnd n) s = .next { u with tim := { u.tim with ppsHigh := false } } := by
  change execPpsOutPulseEnd n s = _
  rw [execPpsOutPulseEnd, ← hu]
  dsimp only
  rw [if_pos (by simp [hp, hh, he])]

theorem exec_timeCompareFire {s u : State} (k : Fin 4) {n : Nat} (hu : u = advance s n) (hp : pktUp u = true) :
    exec (.timeCompareFire k n) s = .next (fireTcmp u k) := by
  change execTimeCompareFire k n s = _
  rw [execTimeCompareFire, ← hu]
  rw [if_pos hp]

theorem fireTcmp_once {u : State} {k : Nat} (he : u.flag F.TIM_TCMP_CFG_EN k = true) (ha : u.reg .TIM_TCMP_AT k ≤ nt64 u)
    (hn : (tcmpOf u k).pulsed = false) (hp : u.flag F.TIM_TCMP_CFG_PERIODIC k = false) :
    fireTcmp u k = raiseSrc ((setTcmp u k ⟨true, u.tim.elapsed + max 1 (u.fld F.TIM_TCMP_CFG_WIDTH k) * 2 ^ 32, true⟩).setFlag
      F.TIM_TCMP_CFG_FIRED k true) (34 + k) 0 := by
  rw [fireTcmp]
  dsimp only
  rw [if_pos (by simp [he, ha, hn]), hp, if_neg Bool.false_ne_true, Bool.not_false]

theorem exec_timeComparePulseEnd {s u : State} {k : Fin 4} {n : Nat} (hu : u = advance s n) (hp : pktUp u = true)
    (hh : (tcmpOf u k).high = true) (he : (tcmpOf u k).endAt ≤ u.tim.elapsed) :
    exec (.timeComparePulseEnd k n) s = .next (setTcmp u k { tcmpOf u k with high := false }) := by
  change execTimeComparePulseEnd k n s = _
  rw [execTimeComparePulseEnd, ← hu]
  dsimp only
  rw [if_pos (by simp [hp, hh, he])]

/-! ## Reads that latch or pop -/

theorem exec_timNtLowRead {s : State} (hp : pktUp s = true) : exec .timNtLowRead s =
    .next { { s with tim := { s.tim with ntHi := some (BitVec.ofNat 32 (nt64 s / 2 ^ 32)) } }.setReg .TIM_NT_FRAC 0
      (s.tim.nt.toNat % 2 ^ 32) with rdata := BitVec.ofNat 64 (nt64 s % 2 ^ 32) } := by
  change execTimNtLowRead s = _
  rw [execTimNtLowRead, if_neg (by simp [hp])]
  rfl

theorem exec_txtsMetaRead {s : State} (p : Fin 16) (hp : pktUp s = true) (hl : lanePresent s p = true) :
    exec (.txtsMetaRead p) s = .next { (popTxts s p).2 with rdata := BitVec.ofNat 64 (popTxts s p).1 } := by
  change execTxtsMetaRead p s = _
  rw [execTxtsMetaRead, if_pos (by simp [hp, hl])]

theorem popTxts_empty {s : State} {p : Nat} (h : txtsOf s p = []) : popTxts s p = (0, s) := by
  rw [popTxts, h]

theorem popTxts_cons {s : State} {p : Nat} {x : TxTs} {r : List TxTs} (h : txtsOf s p = x :: r) :
    popTxts s p = (2 ^ 31 + x.frac.toNat * 2 ^ 16 + x.cookie.toNat,
      levelSrc ((setTxts s p r).setReg .TIM_TXTS p x.nt.toNat) (16 + p) (!r.isEmpty) 0) := by
  rw [popTxts, h]

/-! ## The statement -/

/-- Settles O2: each clause is the branch of its request, pin or read. -/
theorem holdoverAndTimePins : Obligations.HoldoverAndTimePins := by
  refine ⟨⟨fun s hp hh => ?_, fun s u hp hh hu => exec_holdExit hp hh hu, fun s u n hu hp ht hd hh => ?_,
      fun s u n hu hp hr ht hd hh => ?_⟩,
    fun s u w hp hw hu => exec_ppsInEdge hp hw hu, fun s w hw => ⟨exec_ppsInEdge_short s hw, exec_calSyncInEdge_short s hw⟩,
    fun s u w hp hw hu => exec_calSyncInEdge hp hw hu, fun s u n hu hp he hn => ?_,
    fun s u n hu hp hh he => exec_ppsOutPulseEnd hu hp hh he, fun s u k n hu hp he ha hn hs => ?_,
    fun s u k n hu hp hh he => exec_timeComparePulseEnd hu hp hh he, fun s hp => exec_timNtLowRead hp, fun s p hp hl he => ?_,
    fun s p x r hp hl he => ?_⟩
  · rw [exec_holdReq hp, enterHold_enters hh]
  · rw [exec_holdTimeoutIncr hu hp (holdDue_of_elapsed ht hd), enterHold_enters hh]
  · rw [exec_holdTimeoutPps hu hp hr (holdDue_of_elapsed ht hd), enterHold_enters hh]
  · exact ⟨_, (exec_ppsOutPulse hu hp).trans (congrArg _ (firePps_rises he hn)), rfl, rfl, rfl⟩
  · rw [exec_timeCompareFire k hu hp, fireTcmp_once he ha hn hs]
  · rw [exec_txtsMetaRead p hp hl, popTxts_empty he]
    rfl
  · rw [exec_txtsMetaRead p hp hl, popTxts_cons he]

end Sys2Proof.Machine

/-!
PROOF. The epoch counters: arming, the edge of a flip, and dumps (R54–R61).
-/

namespace Sys2Proof.Machine

/-! ## Steps that move registers alone -/

/-- Beside its registers, `u` is `s`. -/
def RegsMove (s u : State) : Prop := u = { s with regs := u.regs }

theorem RegsMove.refl (s : State) : RegsMove s s := rfl

theorem RegsMove.setReg {s u : State} (h : RegsMove s u) (r : RegName) (i v : Nat) : RegsMove s (u.setReg r i v) := by
  unfold RegsMove at h ⊢
  rw [h]
  rfl

theorem RegsMove.setFld {s u : State} (h : RegsMove s u) (f : Fld) (i v : Nat) : RegsMove s (u.setFld f i v) := h.setReg _ _ _

theorem RegsMove.setFlag {s u : State} (h : RegsMove s u) (f : Fld) (i : Nat) (b : Bool) : RegsMove s (u.setFlag f i b) := h.setFld _ _ _

theorem RegsMove.ite {s u v : State} {p : Prop} [Decidable p] (h : RegsMove s u) (h' : RegsMove s v) : RegsMove s (if p then u else v) := by
  split
  · exact h
  · exact h'

theorem RegsMove.foldS {α : Type} {s : State} {f : State → α → State} (hf : ∀ u x, RegsMove s u → RegsMove s (f u x)) :
    ∀ (l : List α) {u : State}, RegsMove s u → RegsMove s (foldS l f u)
  | [], _, h => h
  | x :: l, _, h => RegsMove.foldS hf l (hf _ x h)

theorem RegsMove.tim {s u : State} (h : RegsMove s u) : u.tim = s.tim := by rw [h]

/-! ## Arming -/

theorem exec_epochArm {s u : State} (hp : pktUp s = true) (ha : s.flag F.TIM_EPOCH_CTL_ARM 0 = false)
    (hu : u = (s.setFlag F.TIM_EPOCH_CTL_ARM 0 true).setFlag F.TIM_EPOCH_STS_SWITCHED 0 false) :
    exec .epochArm s = .next { u with tim := { u.tim with flipLate := decide (u.reg .TIM_EPOCH_AT 0 < nt64 u) } } := by
  change Host.Outcome.next (if pktUp s then epochArm s else s) = _
  rw [if_pos hp, epochArm, if_neg (by simp [ha]), ← hu]

theorem exec_epochDisarm {s : State} (hp : pktUp s = true) : exec .epochDisarm s =
    .next { s.setFlag F.TIM_EPOCH_CTL_ARM 0 false with tim := { s.tim with flipLate := false } } := by
  change Host.Outcome.next (if pktUp s then epochDisarm s else s) = _
  rw [if_pos hp]
  rfl

theorem exec_epochAtWrite {s u : State} {v : W64} (hp : pktUp s = true) (hu : u = s.setReg .TIM_EPOCH_AT 0 v.toNat) :
    exec (.epochAtWrite v) s = .next { u with tim := { u.tim with
      flipLate := u.flag F.TIM_EPOCH_CTL_ARM 0 && decide (v.toNat < nt64 u) } } := by
  change Host.Outcome.next (if pktUp s then epochAtWrite s v.toNat else s) = _
  rw [if_pos hp, epochAtWrite, ← hu]

/-! ## The edge of a flip -/

/-- A binary search finds the first number that passes, if its fuel covers the range's digits. -/
theorem firstEdge_eq {p : Nat → Bool} {m : Nat} : ∀ (f lo len : Nat), len < 2 ^ f → lo ≤ m → m ≤ lo + len →
    (∀ k, k ≤ lo + len → (p k = true ↔ m ≤ k)) → firstEdge p f lo len = m
  | 0, lo, len, hl, h1, h2, _ => by
    rw [firstEdge]
    omega
  | f + 1, lo, len, hl, h1, h2, hp => by
    rw [firstEdge]
    split
    case isTrue passed =>
      have below : m ≤ lo + len / 2 := (hp _ (by omega)).mp passed
      exact firstEdge_eq f _ _ (by omega) h1 below (fun k hk => hp k (by omega))
    case isFalse failed =>
      have above : ¬ m ≤ lo + len / 2 := fun h => failed ((hp _ (by omega)).mpr h)
      exact firstEdge_eq f _ _ (by omega) (by omega) (by omega) (fun k hk => hp k (by omega))

theorem firstEdge_from_zero {p : Nat → Bool} {m n : Nat} (hm : m ≤ n) (hp : ∀ k, k ≤ n → (p k = true ↔ m ≤ k)) :
    firstEdge p (n.log2 + 1) 0 n = m :=
  firstEdge_eq _ _ _ Nat.lt_log2_self (Nat.zero_le _) (by omega) (fun k hk => hp k (by omega))

theorem exec_epochFlip {s : State} (hp : pktUp s = true) (n : Nat) : exec (.epochFlip n) s = .next (flipRun s n) := by
  change Host.Outcome.next (if pktUp s then flipRun s n else advance s n) = _
  rw [if_pos hp]

theorem flipRun_of_notWanted {s : State} {n : Nat} (h : flipWanted (advance s n) = false) : flipRun s n = advance s n := by
  rw [flipRun, if_pos (by simp [h])]

theorem flipRun_of_wanted {s v : State} {n m : Nat} (hm : m ≤ n) (h : ∀ k, k ≤ n → (flipWanted (advance s k) = true ↔ m ≤ k))
    (hv : v = flipDue (advance s m)) :
    flipRun s n = if flipWanted v then flipDeferred v (n - m) else advance v (n - m) := by
  have wanted : flipWanted (advance s n) = true := (h n le_rfl).mpr hm
  rw [flipRun, if_neg (by simp [wanted])]
  dsimp only
  rw [firstEdge_from_zero hm h, ← hv]

theorem flipDeferred_soon {v : State} {n : Nat} (h : flipSoon (advance v n) = true) : flipDeferred v n = advance v n := by
  rw [flipDeferred, if_pos h]

theorem flipDeferred_at {v : State} {n d : Nat} (hd : d ≤ n) (h : ∀ k, k ≤ n → (flipSoon (advance v k) = false ↔ d ≤ k)) :
    flipDeferred v n = advance (flipDue (advance v d)) (n - d) := by
  have later : flipSoon (advance v n) = false := (h n le_rfl).mpr hd
  rw [flipDeferred, if_neg (by simp [later])]
  dsimp only
  rw [firstEdge_from_zero hd (fun k hk => by rw [Bool.not_eq_true', h k hk])]

theorem flipWanted_iff (u : State) : flipWanted u = true ↔ u.flag F.TIM_EPOCH_CTL_ARM 0 = true ∧ u.reg .TIM_EPOCH_AT 0 ≤ nt64 u := by
  rw [flipWanted, Bool.and_eq_true, decide_eq_true_iff]

theorem flipDue_deferred {u : State} {e : Nat} (hw : flipWanted u = true) (he : u.tim.flipAt = some e)
    (hs : u.tim.elapsed - e < 100000 * 2 ^ 32) :
    flipDue u = { u.setFlag F.TIM_EPOCH_STS_DEFERRED 0 true with tim := { u.tim with flipLate := true } } := by
  have soon : flipSoon u = true := by
    rw [flipSoon, he]
    exact decide_eq_true hs
  rw [flipDue, if_neg (by simp [hw]), if_pos soon]

theorem flipDue_flips {u : State} (hw : flipWanted u = true)
    (hl : ∀ e, u.tim.flipAt = some e → 100000 * 2 ^ 32 ≤ u.tim.elapsed - e) : flipDue u = flip u u.tim.flipLate := by
  have settled : flipSoon u = false := by
    rw [flipSoon]
    split
    next e he => exact decide_eq_false (Nat.not_lt.mpr (hl e he))
    next => rfl
  rw [flipDue, if_neg (by simp [hw]), if_neg (by simp [settled])]

/-- A flip with no counters and no dumps in progress. -/
theorem flip_of_empty {u : State} (late : Bool) (hc : u.hif.ctl = []) (h1 : u.tim.cnt = []) (h2 : u.tim.entryCnt = []) :
    ∃ v : State, flip u late = raiseSrc v 33 ((u.fld F.TIM_EPOCH_STS_SEQ 0 + 1) % 2 ^ 16) ∧
      v.tim = { u.tim with flipAt := some u.tim.elapsed, prevFlip := BitVec.ofNat 64 (u.reg .TIM_EPOCH_LAST 0), flipLate := false } ∧
      v = { u with tim := v.tim, regs := v.regs } := by
  have noDumps : foldS u.hif.ctl cutDump u = u := by
    rw [hc]
    rfl
  have marks (live : Bool) : markSets live u.tim.cnt = u.tim.cnt ∧ markSets live u.tim.entryCnt = u.tim.entryCnt := by
    rw [h1, h2]
    exact ⟨rfl, rfl⟩
  let w : State := { u with tim := { u.tim with
    flipAt := some u.tim.elapsed, prevFlip := BitVec.ofNat 64 (u.reg .TIM_EPOCH_LAST 0), flipLate := false } }
  have moves {v : State} (h : RegsMove w v) : v.tim = w.tim ∧ v = { u with tim := v.tim, regs := v.regs } :=
    ⟨h.tim, by rw [h]⟩
  rw [flip]
  dsimp only
  rw [noDumps, (marks _).1, (marks _).2]
  refine ⟨_, rfl, moves ?_⟩
  refine RegsMove.ite (RegsMove.setFlag ?_ _ _ _) (RegsMove.setReg ?_ _ _ _) <;>
    exact RegsMove.foldS (fun _ _ h => (h.setFlag _ _ _).setFld _ _ _) _
      (((((RegsMove.refl w).setFlag _ _ _).setFld _ _ _).setFlag _ _ _).setReg _ _ _)

/-- Settles O3: the two searches for an edge are exact, and the flip and its deferral are the two branches of `flipDue`. -/
theorem epochFlips : Obligations.EpochFlips := by
  refine ⟨⟨fun s u hp ha hu => exec_epochArm hp ha hu, fun s hp => exec_epochDisarm hp, fun s u v hp hu => exec_epochAtWrite hp hu⟩,
    fun s n hp hn => ?_, fun s v n m hp hm hw hv => ⟨fun hn => ?_, fun hv1 hs => ?_, fun d hd hv1 hs => ?_⟩, flipWanted_iff,
    fun u ha hat hl hc h1 h2 => ?_, fun u e ha hat he hs => flipDue_deferred ((flipWanted_iff u).mpr ⟨ha, hat⟩) he hs⟩
  · rw [exec_epochFlip hp, flipRun_of_notWanted hn]
  · rw [exec_epochFlip hp, flipRun_of_wanted hm hw hv, if_neg (by simp [hn])]
  · rw [exec_epochFlip hp, flipRun_of_wanted hm hw hv, if_pos hv1, flipDeferred_soon hs]
  · rw [exec_epochFlip hp, flipRun_of_wanted hm hw hv, if_pos hv1, flipDeferred_at hd hs]
  · rw [flipDue_flips ((flipWanted_iff u).mpr ⟨ha, hat⟩) hl]
    exact flip_of_empty _ hc h1 h2

/-! ## Dumps -/

/-- A line counter dump whose checks hold is work of its ring (R59). -/
theorem cntDump_lines {c : Ctl} (u : State) (h0 : bits (bodyWord c 0) 7 0 = 0) (hn : bodyWord c 2 ≠ 0) (hm : bodyWord c 2 ≤ 65536)
    (hs : bodyWord c 1 + bodyWord c 2 ≤ 524288) :
    cntDump c u = .later (.cntDump 0 (bits (bodyWord c 0) 13 8) (bodyWord c 1) (bodyWord c 2) (BitVec.ofNat 64 (bodyDword c 3))) := by
  rw [cntDump]
  rw [h0, if_neg (by simp [hn, hm]), if_neg (by simp), if_neg (by simp), if_pos rfl, if_neg (Nat.not_lt.mpr hs)]

/-- Settles O4: the checks of a dump hold one by one, and its completion is the work's end. -/
theorem counterDump : Obligations.CounterDump := by
  refine ⟨fun s u c k i h hk hi h0 hn hm hs => ?_, fun s k index c sp t f n a hp hf hw => ?_⟩
  · subst hk hi
    change Host.Outcome.next (ctlExec s c 0x0201 (fun u _ => (cntDump c u, u))) = _
    rw [ctlExec_starts h (by decide), cntDump_lines u h0 hn hm hs]
  · have found : ctlDump s k.val index.toNat = some (c, .cntDump sp t f n a) := by
      rw [ctlDump, hf, Option.map_some, hw]
    change execCntDumpComplete k index s = _
    rw [execCntDumpComplete, found]
    dsimp only
    rw [if_pos hp]

end Sys2Proof.Machine

/-!
PROOF. Line ports: the checks of a received frame, the link states, the enables, and the lanes' tests (R66–R81).
-/

namespace Sys2Proof.Machine

/-! ## Reception -/

theorem exec_rxFrame {s : State} {p : Fin 16} (frame : List Byte) (bad : Nat) (hp : pktUp s = true) (hf : portFormed s p = true)
    (hy : phyOn s p = true) (hl : linkSt s p = 4) (ho : looped s p = false) :
    exec (.rxFrame p frame 0 0 bad) s = .next (linePauses (farLoop (rxFrame s p frame 0 0 bad) p frame)) := by
  change execRxFrame p frame 0 0 bad s = _
  rw [execRxFrame, if_pos (by simp [hp, hf, hy, hl, ho])]

theorem exec_rxFrame_looped {s : State} {p : Fin 16} (frame : List Byte) (ho : looped s p = true) :
    exec (.rxFrame p frame 0 0 0) s = .next s := by
  change execRxFrame p frame 0 0 0 s = _
  rw [execRxFrame, if_neg (by simp [ho])]

/-- The last four bytes of the frame are its FCS. -/
def fcsGood (frame : List Byte) : Prop :=
  frame.drop (frame.length - 4) = leBytes 4 (ethFcs (frame.take (frame.length - 4)))

section
variable {s : State} {p : Nat} {frame : List Byte}

theorem rxFrame_disabled (he : s.flag F.LPT_CFG_EN p = false) : rxFrame s p frame 0 0 0 = count s (32 * p + 7) 1 frame.length := by
  simp [rxFrame, he]

theorem rxFrame_uncorrected {bad : Nat} (hb : 0 < bad) (he : s.flag F.LPT_CFG_EN p = true) :
    rxFrame s p frame 0 0 bad = count (count s (32 * p + 11) bad 0) (32 * p + 1) 1 frame.length := by
  have same : (count s (32 * p + 11) bad 0).flag F.LPT_CFG_EN p = true := by
    rw [State.flag, ((RecordsOnly.refl s).count (32 * p + 11) bad 0).fld (by decide) p, ← State.flag, he]
  rw [rxFrame]
  rw [if_pos rfl, if_neg (Nat.ne_of_gt hb), if_neg (by simp [same]), if_pos (by simp [hb])]

/-- Past the check of the FCS only the length and the type are left. -/
theorem rxFrame_fcsGood (he : s.flag F.LPT_CFG_EN p = true) (h4 : 4 ≤ frame.length) (hg : fcsGood frame) :
    rxFrame s p frame 0 0 0 =
      if frame.length < 64 then count s (32 * p + 2) 1 frame.length
      else if maxFrame s p < frame.length then count s (32 * p + 3) 1 frame.length
      else match macCtl frame with
        | some op => pauseObey (count s (32 * p + (if op = 1 then 4 else 5)) 1 frame.length) p op frame
        | none => rxStore s p frame (ntPlus s.tim.nt.toNat (-(rxCorr s p + (frame.length * psPerByte s p : Nat))) / 2 ^ 32) := by
  rw [fcsGood] at hg
  rw [rxFrame]
  rw [if_pos rfl, if_pos rfl, if_neg (by simp [he]), if_neg (by simp [hg, h4])] <;> rfl

theorem rxFrame_short (he : s.flag F.LPT_CFG_EN p = true) (h4 : 4 ≤ frame.length) (hs : frame.length < 64) (hg : fcsGood frame) :
    rxFrame s p frame 0 0 0 = count s (32 * p + 2) 1 frame.length := by
  rw [rxFrame_fcsGood he h4 hg, if_pos hs]

theorem rxFrame_long (he : s.flag F.LPT_CFG_EN p = true) (h64 : 64 ≤ frame.length) (hm : maxFrame s p < frame.length) (hg : fcsGood frame) :
    rxFrame s p frame 0 0 0 = count s (32 * p + 3) 1 frame.length := by
  rw [rxFrame_fcsGood he (by omega) hg, if_neg (by omega), if_pos hm]

theorem rxFrame_stored (he : s.flag F.LPT_CFG_EN p = true) (h64 : 64 ≤ frame.length) (hm : frame.length ≤ maxFrame s p)
    (hc : macCtl frame = none) (hg : fcsGood frame) : ∃ ts, rxFrame s p frame 0 0 0 = rxStore s p frame ts := by
  rw [rxFrame_fcsGood he (by omega) hg, if_neg (by omega), if_neg (by omega), hc]
  exact ⟨_, rfl⟩

theorem rxFrame_pause {op : Nat} (he : s.flag F.LPT_CFG_EN p = true) (h64 : 64 ≤ frame.length) (hm : frame.length ≤ maxFrame s p)
    (hc : macCtl frame = some op) (hg : fcsGood frame) :
    rxFrame s p frame 0 0 0 = pauseObey (count s (32 * p + (if op = 1 then 4 else 5)) 1 frame.length) p op frame := by
  rw [rxFrame_fcsGood he (by omega) hg, if_neg (by omega), if_neg (by omega), hc]

end

/-- Settles O5: the checks of `rxFrame`, one after the other. -/
theorem receiveChecksInOrder : Obligations.ReceiveChecksInOrder := by
  intro s p frame hp hf hy hl
  refine ⟨exec_rxFrame_looped frame, fun ho => ⟨fun he => ?_, fun bad hb he => ?_, fun he h4 hs hg => ?_, fun he h64 hm hg => ?_,
    fun he h64 hm hc hg => ?_, fun op he h64 hm hc hg => ?_⟩⟩
  · rw [exec_rxFrame frame 0 hp hf hy hl ho, rxFrame_disabled he]
  · exact ⟨_, by rw [exec_rxFrame frame bad hp hf hy hl ho, rxFrame_uncorrected hb he], rfl⟩
  · rw [exec_rxFrame frame 0 hp hf hy hl ho, rxFrame_short he h4 hs hg]
  · rw [exec_rxFrame frame 0 hp hf hy hl ho, rxFrame_long he h64 hm hg]
  · obtain ⟨ts, stored⟩ := rxFrame_stored he h64 hm hc hg
    exact ⟨ts, by rw [exec_rxFrame frame 0 hp hf hy hl ho, stored]⟩
  · rw [exec_rxFrame frame 0 hp hf hy hl ho, rxFrame_pause he h64 hm hc hg]

/-! ## Link states -/

theorem lpt_eq_true {s : State} {p : Nat} (hu : lineUp s = true) (hp : lanePresent s p = true) : lpt s p = true := by
  rw [lpt, hu, hp]
  rfl

section
variable {s u v : State} {p : Fin 16}

theorem exec_phyEnSet_formed (hu : lineUp s = true) (hl : lanePresent s p = true) (hy : phyOn s p = false)
    (h : u = s.setFlag F.LPT_CFG_PHY_EN p true) (hf : portFormed u p = true) : exec (.phyEnSet p) s = .next (phyRise u p) := by
  change execPhyEnSet p s = _
  rw [execPhyEnSet, if_pos (lpt_eq_true hu hl), phySet, if_neg (by simp [hy]), ← h, if_pos hf]

theorem exec_signalDetect (hf : portFormed s p = true) (hy : phyOn s p = true) (hl : linkSt s p = 1)
    (h : u = setLink (setLanes s p F.LPT_LANE_ADAPT_SIG_DET true) p 2) :
    exec (.signalDetect p) s = .next (setPort u p { portOf u p with trainAt := u.tim.elapsed }) := by
  change execSignalDetect p s = _
  rw [execSignalDetect, if_pos (by simp [hf, hy, hl]), ← h]

theorem exec_trainComplete (taps : List (BitVec 6 × BitVec 6 × BitVec 6 × BitVec 6)) (hf : portFormed s p = true) (hy : phyOn s p = true)
    (hl : linkSt s p = 2) (h : u = setLanes s p F.LPT_LANE_ADAPT_CDR_LOCK true) (ha : (portOf u p).anMode ≠ 0) :
    exec (.trainComplete p taps) s = .next (setLink u p 3) := by
  change execTrainComplete p taps s = _
  rw [execTrainComplete, if_pos (by simp [hf, hy, hl]), ← h]
  dsimp only
  rw [if_neg ha]

theorem exec_trainTimeout {n : Nat} (h : u = advance s n) (hf : portFormed u p = true) (hl : linkSt u p = 2)
    (hm : u.fld F.LPT_LINK_CFG_TRAIN_MS p ≠ 0)
    (hd : u.fld F.LPT_LINK_CFG_TRAIN_MS p * 1000000 * 2 ^ 32 ≤ u.tim.elapsed - (portOf u p).trainAt) :
    exec (.trainTimeout p n) s = .next (setLink (u.bump F.LPT_LINK_DOWN_CNT p 1) p 1) := by
  change execTrainTimeout p n s = _
  rw [execTrainTimeout, ← h]
  have inTrain : (portFormed u p && linkSt u p == 2) = true := by rw [hf, hl]; rfl
  rw [inTrain, bne_iff_ne.mpr hm, decide_eq_true hd]
  rfl

theorem exec_alignDone (hf : portFormed s p = true) (hy : phyOn s p = true) (hl : linkSt s p = 3) :
    exec (.alignDone p) s = .next (linePauses (txResume (setLink s p 4) p)) := by
  change execAlignDone p s = _
  rw [execAlignDone, if_pos (by simp [hf, hy, hl])]

theorem exec_signalLoss_up (part : Option Nat) (hf : portFormed s p = true) (hl : linkSt s p = 4)
    (h : u = txCut (rxCut (s.bump F.LPT_LINK_DOWN_CNT p 1) p part) p) :
    exec (.signalLoss p part) s = .next (linePauses (setLink
      (((setLanes (setLanes u p F.LPT_LANE_ADAPT_SIG_DET false) p F.LPT_LANE_ADAPT_CDR_LOCK false).setFlag
        F.LPT_LINK_LOCAL_FAULT p false).setFlag F.LPT_LINK_REMOTE_FAULT p false) p 1)) := by
  change Host.Outcome.next (signalLoss s p part) = _
  rw [signalLoss]
  dsimp only
  rw [if_pos (by simp [hf, hl]), if_pos hl, ← h]

theorem exec_linkFault_up (remote : Bool) (part : Option Nat) (hf : portFormed s p = true) (hl : linkSt s p = 4) :
    exec (.linkFault p remote part) s = .next (linePauses (setLink (txCut (rxCut
      (s.setFlag (if remote then F.LPT_LINK_REMOTE_FAULT else F.LPT_LINK_LOCAL_FAULT) p true) p part) p) p 5)) := by
  change execLinkFault p remote part s = _
  rw [execLinkFault, if_pos (by simp [hf, hl])]

theorem exec_linkFault_again (remote : Bool) (part : Option Nat) (hf : portFormed s p = true) (hl : linkSt s p = 5) :
    exec (.linkFault p remote part) s =
      .next (s.setFlag (if remote then F.LPT_LINK_REMOTE_FAULT else F.LPT_LINK_LOCAL_FAULT) p true) := by
  change execLinkFault p remote part s = _
  rw [execLinkFault, if_neg (by simp [hl]), if_pos (by simp [hf, hl])]

theorem exec_linkFaultClear (hf : portFormed s p = true) (hl : linkSt s p = 5) :
    exec (.linkFaultClear p) s = .next (linePauses (txResume (setLink
      ((s.setFlag F.LPT_LINK_LOCAL_FAULT p false).setFlag F.LPT_LINK_REMOTE_FAULT p false) p 4) p)) := by
  change execLinkFaultClear p s = _
  rw [execLinkFaultClear, if_pos (by simp [hf, hl])]

/-! ## Enables, transmission and pause -/

theorem exec_portEnSet (hu : lineUp s = true) (hl : lanePresent s p = true) (h : u = s.setFlag F.LPT_CFG_EN p true) :
    exec (.portEnSet p) s = .next (if portFormed u p then pauseSync (u.setFlag F.LPT_STS_DRAINED p false) p else u) := by
  change execPortEnSet p s = _
  rw [execPortEnSet, if_pos (lpt_eq_true hu hl), portSet, ← h]
  rfl

theorem exec_portEnClear_formed (part : Option Nat) (hu : lineUp s = true) (hl : lanePresent s p = true)
    (he : s.flag F.LPT_CFG_EN p = true) (h : u = s.setFlag F.LPT_CFG_EN p false) (hf : portFormed u p = true) :
    exec (.portEnClear p part) s = .next (linePauses (portDrain (pauseSync (portFlush (rxCut u p part) p) p) p)) := by
  change execPortEnClear p part s = _
  rw [execPortEnClear, if_pos (lpt_eq_true hu hl), portClear, if_neg (by simp [he]), ← h]
  dsimp only
  rw [if_pos hf]

theorem exec_phyEnClear_unformed (part : Option Nat) (hu : lineUp s = true) (hl : lanePresent s p = true) (hy : phyOn s p = true)
    (h : u = s.setFlag F.LPT_CFG_PHY_EN p false) (hf : portFormed u p = false) :
    exec (.phyEnClear p part) s = .next (linePauses u) := by
  change execPhyEnClear p part s = _
  rw [execPhyEnClear, if_pos (lpt_eq_true hu hl), phyClear, if_neg (by simp [hy]), ← h]
  dsimp only
  rw [if_pos (by simp [hf])]

theorem exec_phyEnClear_formed (part : Option Nat) (hu : lineUp s = true) (hl : lanePresent s p = true) (hy : phyOn s p = true)
    (h : u = s.setFlag F.LPT_CFG_PHY_EN p false) (hf : portFormed u p = true)
    (hv : v = ((setLanes (setLanes (txCut (rxCut u p part) p) p F.LPT_LANE_ADAPT_SIG_DET false) p F.LPT_LANE_ADAPT_CDR_LOCK false).setFlag
      F.LPT_LINK_LOCAL_FAULT p false).setFlag F.LPT_LINK_REMOTE_FAULT p false) (hn : linkSt v p ≠ 0) :
    exec (.phyEnClear p part) s = .next (linePauses (pauseSync (setLink v p 0) p)) := by
  change execPhyEnClear p part s = _
  rw [execPhyEnClear, if_pos (lpt_eq_true hu hl), phyClear, if_neg (by simp [hy]), ← h]
  dsimp only
  rw [if_neg (by simp [hf]), ← hv, if_neg (by simp [linkOff, hn])]

theorem exec_frameTxComplete {n : Nat} (h : u = advance s n) (hf : portFormed u p = true) :
    exec (.frameTxComplete p n) s = .next (linePauses (nearLoop (txResume u p) p)) := by
  change execFrameTxComplete p n s = _
  rw [execFrameTxComplete, ← h, if_pos hf]

theorem nearLoop_sending {p : Nat} {f : TxFrame} (h : txfOf u p = some f) :
    nearLoop u p = (if looped u p then rxFrame (txFinish u p) p f.bytes 0 0 0 else txFinish u p) := by
  rw [nearLoop, h]

theorem exec_pauseRefresh {n : Nat} (h : u = advance s n) (hu : portUp u p = true) (hn : (portOf u p).paused ≠ 0)
    (hd : max 1000 (u.fld F.LPT_FC_REFRESH_NS p) * 2 ^ 32 ≤ u.tim.elapsed - (portOf u p).pauseAt) :
    exec (.pauseRefresh p n) s = .next (sendPause u p (u.fld F.LPT_CFG_FC_MODE p == 2) (pauseMask u p) 0) := by
  change execPauseRefresh p n s = _
  rw [execPauseRefresh, ← h]
  rw [hu, decide_eq_true hn, decide_eq_true hd]
  rfl

end

/-! ## Quads and lanes -/

section
variable {s u v : State} {q : Fin 4} {m : BitVec 3} {l : Fin 16}

theorem exec_quadModeWrite (hu : lineUp s = true) (hq : quadPresent s q = true) :
    exec (.quadModeWrite q m) s = .next (quadWrite s q m.toNat) := by
  change execQuadModeWrite q m s = _
  rw [execQuadModeWrite, if_pos (by simp [hu, hq])]

theorem quadWrite_noMode {q m : Nat} (hm : 5 ≤ m) : quadWrite s q m = s.setFlag F.LPT_QUAD_STS_MODE_REJECT q true := by
  rw [quadWrite]
  dsimp only
  rw [if_pos (by simp [hm])]

theorem quadWrite_busy {q m : Nat} (hi : quadIdle s q = false) : quadWrite s q m = s.setFlag F.LPT_QUAD_STS_MODE_REJECT q true := by
  rw [quadWrite]
  dsimp only
  rw [if_pos (by simp [hi])]

theorem quadIdle_eq_false {q p : Nat} (hp : p ∈ quadPorts s q)
    (h : s.flag F.LPT_CFG_EN p = true ∨ phyOn s p = true ∨ s.flag F.LPT_STS_DRAINED p = false) : quadIdle s q = false := by
  rw [quadIdle, List.all_eq_false]
  refine ⟨p, hp, ?_⟩
  rcases h with h | h | h <;> simp [h]

theorem quadWrite_idle {q m : Nat} (hm : m < 4) (hi : quadIdle s q = true) (hu : u = quadSync (s.setFld F.LPT_QUAD_CFG_MODE q m) q)
    (hq : quadPresent u (if q % 2 = 0 then q + 1 else q - 1) = true) (hv : v = quadSync u (if q % 2 = 0 then q + 1 else q - 1)) :
    quadWrite s q m = foldS ((List.range 16).filter (fun p => portFormed v p && !portFormed s p)) portStart v := by
  have notFour : ¬ m = 4 := by omega
  have notOver : ¬ 5 ≤ m := by omega
  rw [quadWrite]
  dsimp only
  rw [if_neg (by simp [notFour, notOver, hi]), ← hu, if_pos hq, ← hv]

theorem laneUp_eq_true (hu : lineUp s = true) (hl : lanePresent s l = true) : laneUp s l = true := by
  rw [laneUp, hu, hl]
  rfl

theorem exec_eyeMeasureGo (hu : lineUp s = true) (hl : lanePresent s l = true) :
    exec (.eyeMeasureGo l) s = .next (s.setFlag F.LPT_LANE_EYE_CTL_BUSY l true) := by
  change execEyeMeasureGo l s = _
  rw [execEyeMeasureGo, if_pos (laneUp_eq_true hu hl)]
  rfl

theorem exec_eyeMeasureDone (a b c : Byte) (hu : lineUp s = true) (hl : lanePresent s l = true)
    (hb : s.flag F.LPT_LANE_EYE_CTL_BUSY l = true) :
    exec (.eyeMeasureDone l a b c) s = .next ((s.setFlag F.LPT_LANE_EYE_CTL_BUSY l false).setReg .LPT_LANE_EYE_RES l
      (a.toNat * 2 ^ 16 + b.toNat * 2 ^ 8 + c.toNat)) := by
  change execEyeMeasureDone l a b c s = _
  rw [execEyeMeasureDone, if_pos (by simp [laneUp_eq_true hu hl, hb])]

theorem exec_prbsEnable (gen chk : Bool) (hu : lineUp s = true) (hl : lanePresent s l = true) :
    exec (.prbsEnable l gen chk) s = .next (prbsWrite s l gen chk) := by
  change execPrbsEnable l gen chk s = _
  rw [execPrbsEnable, if_pos (laneUp_eq_true hu hl)]

theorem prbsWrite_check {l : Nat} {gen : Bool} (ho : prbsOk s l = true) :
    prbsWrite s l gen true = (s.setFlag F.LPT_LANE_PRBS_CTL_GEN_EN l gen).setFlag F.LPT_LANE_PRBS_CTL_CHK_EN l true := by
  rw [prbsWrite, if_neg (by simp [ho])]
  rfl

theorem prbsWrite_off {l : Nat} : prbsWrite s l false false = ((s.setFlag F.LPT_LANE_PRBS_CTL_GEN_EN l false).setFlag
    F.LPT_LANE_PRBS_CTL_CHK_EN l false).setFlag F.LPT_LANE_PRBS_CTL_CHK_LOCK l false := by
  rw [prbsWrite, if_neg (by simp)]
  rfl

theorem prbsWrite_rejected {l : Nat} {gen chk : Bool} (hg : (gen || chk) = true) (ho : prbsOk s l = false) :
    prbsWrite s l gen chk = s.setFlag F.LPT_LANE_PRBS_CTL_REJECT l true := by
  rw [prbsWrite, if_pos (by simp [hg, ho])]

theorem exec_prbsCheckerLock (n : Nat) (hu : lineUp s = true) (hl : lanePresent s l = true)
    (hc : s.flag F.LPT_LANE_PRBS_CTL_CHK_EN l = true)
    (h : u = (if s.flag F.LPT_LANE_PRBS_CTL_CHK_LOCK l then s else s.setFld F.LPT_LANE_PRBS_ERR_ERRORS l 0)) :
    exec (.prbsCheckerLock l n) s = .next ((u.setFlag F.LPT_LANE_PRBS_CTL_CHK_LOCK l true).bump F.LPT_LANE_PRBS_ERR_ERRORS l n) := by
  change execPrbsCheckerLock l n s = _
  rw [execPrbsCheckerLock, if_pos (by simp [laneUp_eq_true hu hl, hc]), prbsLock, ← h]

end

/-- The link states of O6. -/
theorem linkStates_settled :
    ∀ s u v : State, ∀ p : Fin 16, lineUp s = true → lanePresent s p = true → phyOn s p = false →
      u = s.setFlag F.LPT_CFG_PHY_EN p true → portFormed u p = true →
      v = setLanes (setLanes (setLanes u p F.LPT_LANE_PRBS_CTL_GEN_EN false) p F.LPT_LANE_PRBS_CTL_CHK_EN false) p
        F.LPT_LANE_PRBS_CTL_CHK_LOCK false →
      exec (.phyEnSet p) s = .next (setLink (setPort v p { portOf v p with
        loop := v.fld F.LPT_CFG_LOOPBACK p, anMode := v.fld F.LPT_CFG_AN_MODE p }) p 1) := by
  intro s u v p hu hl hy h hf hv
  rw [exec_phyEnSet_formed hu hl hy h hf, phyRise, hv]

/-- Settles O6: each clause is the branch of its port or lane step. -/
theorem linesAndPorts : Obligations.LinesAndPorts := by
  refine ⟨⟨linkStates_settled, fun s u p hf hy hl h => exec_signalDetect hf hy hl h,
      fun s u p taps hf hy hl h ha => exec_trainComplete taps hf hy hl h ha, fun s u p n h hf hl hm hd => exec_trainTimeout h hf hl hm hd,
      fun s p hf hy hl => exec_alignDone hf hy hl, fun s u p part hf hl h => exec_signalLoss_up part hf hl h,
      fun s p remote part hf hl => exec_linkFault_up remote part hf hl, fun s p remote part hf hl => exec_linkFault_again remote part hf hl,
      fun s p hf hl => exec_linkFaultClear hf hl⟩,
    ⟨fun s u p hu hl h => ⟨fun hf => ?_, fun hf => ?_⟩, fun s u p part hu hl he h hf => exec_portEnClear_formed part hu hl he h hf,
      fun s u p part hu hl hy h hf => exec_phyEnClear_unformed part hu hl hy h hf,
      fun s u v p part hu hl hy h hf hv hn => exec_phyEnClear_formed part hu hl hy h hf hv hn, fun s u p n h hf => exec_frameTxComplete h hf,
      fun u p f h => nearLoop_sending h, fun s u p n h hu hn hd => exec_pauseRefresh h hu hn hd⟩,
    fun s q m hu hq hm => ?_, fun s q m p hu hq hp hb => ?_, fun s u q m hu hq hm hi h hp v hv => ?_, fun s l hu hl => exec_eyeMeasureGo hu hl,
    fun s l a b c hu hl hb => exec_eyeMeasureDone a b c hu hl hb, fun s l gen hu hl ho => ?_, fun s l hu hl => ?_,
    fun s l gen chk hu hl hg ho => ?_, fun s u l n hu hl hc h => exec_prbsCheckerLock n hu hl hc h⟩
  · rw [exec_portEnSet hu hl h, if_pos hf]
  · rw [exec_portEnSet hu hl h, if_neg (by simp [hf])]
  · rw [exec_quadModeWrite hu hq, quadWrite_noMode hm]
  · rw [exec_quadModeWrite hu hq, quadWrite_busy (quadIdle_eq_false hp hb)]
  · rw [exec_quadModeWrite hu hq, quadWrite_idle hm hi h hp hv]
  · rw [exec_prbsEnable gen true hu hl, prbsWrite_check ho]
  · rw [exec_prbsEnable false false hu hl, prbsWrite_off]
  · rw [exec_prbsEnable gen chk hu hl, prbsWrite_rejected hg ho]

end Sys2Proof.Machine

/-!
PROOF. Doorbells, and the enables of rings (R91–R94, R105, R106, R117).
-/

namespace Sys2Proof.Machine

theorem rFld_ne_zero {u : State} {k : Fin 5} {f : RingFlds → Fld} {i : Nat} (h : u.flag (f (ringFlds k)) i = true) : rFld u k f i ≠ 0 :=
  of_decide_eq_true h

theorem rFld_eq_zero {u : State} {k : Fin 5} {f : RingFlds → Fld} {i : Nat} (h : u.flag (f (ringFlds k)) i = false) : rFld u k f i = 0 :=
  not_not.mp (of_decide_eq_false h)

section
variable {s u v : State} {f : BitVec 9} {ring : BitVec 13} {ix : BitVec 17} {i c e : Nat}

/-! ## Doorbells -/

theorem doorbell_acts {k : Fin 5} (hp : pageUp s f.toNat = true) (hf : (fnOf s f.toNat).flr = false)
    (hr : ringFor s k f.toNat ring.toNat = some i) (act : Nat → Out) : doorbell k f ring true s act = act i := by
  rw [doorbell, if_neg (by simp [hp]), if_neg (by simp [hf]), hr]

/-- A doorbell that names no enabled ring is counted. -/
theorem doorbell_counted {k : Fin 5} (hp : pageUp s f.toNat = true) (hr : ringFor s k f.toNat ring.toNat = none) (act : Nat → Out) :
    doorbell k f ring true s act = .next (count s (512 + 8 * f.toNat + 6) 1 0) := by
  rw [doorbell, if_neg (by simp [hp]), hr]
  dsimp only
  rw [ite_self]

theorem prodDoorbell_moves {k : Fin 5} (hu : u = ringProbe s k i) (he : u.flag (ringFlds k).en i = true)
    (ho : prodOk (ringSz u k i) (rFld u k (·.cons) i) (rFld u k (·.prod) i) ix.toNat = true) :
    prodDoorbell k ix s i = .next (arrWrite (u.setFld (ringFlds k).prod i ix.toNat) 4 (ringUnit k i)) := by
  rw [prodDoorbell, ← hu]
  rw [if_neg (rFld_ne_zero he), if_pos ho]

theorem prodDoorbell_lost {k : Fin 5} (hu : u = ringProbe s k i) (he : u.flag (ringFlds k).en i = false) :
    prodDoorbell k ix s i = .next u := by
  rw [prodDoorbell, ← hu]
  rw [if_pos (rFld_eq_zero he)]

theorem cqDoorbell_moves (hv : v = ringProbe s 2 c) (he : v.flag F.HIF_CQ_CFG_EN c = true)
    (ho : consOk (cqSize v c) (v.fld F.HIF_CQ_STS_PROD c) (v.fld F.HIF_CQ_CONS_CONS c) ix.toNat = true) (arm : Bool) :
    cqDoorbell ix arm s c = .next (arrWrite (cqConsume v c ix.toNat arm) 4 (ringUnit 2 c)) := by
  rw [cqDoorbell, ← hv]
  rw [if_neg (rFld_ne_zero (k := 2) (f := (·.en)) he), if_pos ho]

/-- Without ARM, and with nothing unread, the consumer index is all that a completion ring's doorbell moves. -/
theorem cqConsume_unarmed {ix : Nat} (hu : u = cqStall (v.setFld F.HIF_CQ_CONS_CONS c ix) c) (hn : mget noList u.hif.unread c = []) :
    cqConsume v c ix false = cqModerate { u with hif := { u.hif with unread := mset noList u.hif.unread c [] } } c := by
  rw [cqConsume, ← hu]
  dsimp only
  rw [hn, List.drop_nil]
  rfl

theorem evDoorbell_moves (hv : v = ringProbe s 4 e) (he : v.flag F.HIF_EVR_CFG_EN e = true)
    (ho : consOk (evSize v e) (v.fld F.HIF_EVR_STS_PROD e) (v.fld F.HIF_EVR_CONS_CONS e) ix.toNat = true) (arm : Bool) :
    evDoorbell ix arm s e = .next (evModerate (arrWrite (if arm then
      (v.setFld F.HIF_EVR_CONS_CONS e ix.toNat).setFlag F.HIF_EVR_STS_ARMED e true else v.setFld F.HIF_EVR_CONS_CONS e ix.toNat)
      4 (ringUnit 4 e)) e) := by
  rw [evDoorbell, ← hv]
  dsimp only
  rw [if_neg (rFld_ne_zero (k := 4) (f := (·.en)) he), if_pos ho]

theorem exec_doorbellTx : exec (.doorbellTx f ring ix true) s = doorbell 0 f ring true s (prodDoorbell 0 ix s) := rfl

theorem exec_doorbellRx : exec (.doorbellRx f ring ix true) s = doorbell 1 f ring true s (prodDoorbell 1 ix s) := rfl

theorem exec_doorbellControl : exec (.doorbellControl f ring ix true) s = doorbell 3 f ring true s (prodDoorbell 3 ix s) := rfl

theorem exec_doorbellCq {arm : Bool} : exec (.doorbellCq f ring ix arm true) s = doorbell 2 f ring true s (cqDoorbell ix arm s) := rfl

theorem exec_doorbellEventLog {arm : Bool} :
    exec (.doorbellEventLog f ring ix arm true) s = doorbell 4 f ring true s (evDoorbell ix arm s) := rfl

end

/-! ## Enables -/

section
variable {s : State} {k : Fin 5}

theorem exec_ringEnable {i : BitVec 12} (hp : pktUp s = true) (hi : i.toNat < (ringFlds k).count) :
    exec (.ringEnable k i) s = .next (ringEnable s k i.toNat) := by
  change execRingEnable k i s = _
  rw [execRingEnable, if_pos (by simp [hp, hi])]

theorem ringEnable_starts {i : Nat} (he : s.flag (ringFlds k).en i = false) (hr : ringRefused s k i = false) :
    ringEnable s k i = ringForget ((((s.setFlag (ringFlds k).en i true).setFld (ringFlds k).prod i 0).setFld (ringFlds k).cons i 0).setFlag
      (ringFlds k).drained i false) k i := by
  rw [ringEnable]
  rw [if_neg (by simp [he]), if_neg (by simp [hr])]

theorem ringEnable_refused {i : Nat} (he : s.flag (ringFlds k).en i = false) (hr : ringRefused s k i = true) :
    ringEnable s k i = if hasReject k then s.setFlag (ringFlds k).reject i true else s := by
  rw [ringEnable]
  rw [if_neg (by simp [he]), if_pos hr]

theorem ringRefused_of_function {i : Nat}
    (h : fnExists s (s.fld (ringFlds k).fn i) = false ∨ (fnOf s (s.fld (ringFlds k).fn i)).flr = true) : ringRefused s k i = true := by
  rw [ringRefused]
  dsimp only [rFld]
  rcases h with h | h
  · simp [h]
  · simp [h]

/-- Settles O7: a doorbell's branches, one for each kind of ring, and those of EN's two writes. -/
theorem ringsAndDoorbells : Obligations.RingsAndDoorbells := by
  refine ⟨⟨fun s u f ring ix i hp hf hr hu he ho => ?_, fun s u f ring ix i hp hf hr hu he ho => ?_,
      fun s u f ring ix i hp hf hr hu he ho => ?_, fun s v u f ring ix c hp hf hr hv he ho hu hn => ?_,
      fun s v u f ring ix arm e hp hf hr hv he ho hu => ?_, fun s u f ring ix i hp hf hr hu he => ?_, fun s f ring ix hp hr => ?_⟩,
    fun s k i hp hi he hr => ?_, fun s k i hp hi he hr => ?_, fun s i hp he hd => ?_⟩
  · rw [exec_doorbellTx, doorbell_acts hp hf hr, prodDoorbell_moves hu he ho]
    rfl
  · rw [exec_doorbellRx, doorbell_acts hp hf hr, prodDoorbell_moves hu he ho]
    rfl
  · rw [exec_doorbellControl, doorbell_acts hp hf hr, prodDoorbell_moves hu he ho]
    rfl
  · rw [exec_doorbellCq, doorbell_acts hp hf hr, cqDoorbell_moves hv he ho, cqConsume_unarmed hu hn]
  · rw [exec_doorbellEventLog, doorbell_acts hp hf hr, evDoorbell_moves hv he ho, ← hu]
  · rw [exec_doorbellTx, doorbell_acts hp hf hr, prodDoorbell_lost hu he]
  · rw [exec_doorbellTx, doorbell_counted hp hr]
  · rw [exec_ringEnable hp hi, ringEnable_starts he hr]
  · rw [exec_ringEnable hp hi, ringEnable_refused he (ringRefused_of_function hr)]
  · have inRange : i.toNat < (ringFlds 0).count := i.isLt
    refine ⟨_, ?_, rfl⟩
    change execRingDisable 0 i s = _
    rw [execRingDisable, if_pos (by simp [hp, inRange]), ringDisable]
    exact congrArg _ (if_pos he)

end

end Sys2Proof.Machine

/-!
PROOF. Host packets, failed reads, functions and links (R85–R103, R110–R115).
-/

namespace Sys2Proof.Machine

/-! ## Packets of TX rings -/

section
variable {s u v w : State} {i : BitVec 12} {descs ds : List TxDesc} {heads : List (BitVec 12 × Nat)}

theorem exec_txPacketFetch (hp : pktUp s = true) (hds : txPacketDescs 16 (descs.take (txWaiting s i.toNat)) = some ds)
    (hh : (txCands s).2.all (fun k => k == i.toNat || (headBytes heads k).isSome) = true)
    (hc : txChoose s (fun k => if k = i.toNat then txLen ds else (headBytes heads k).getD 0) = some (i.toNat, u))
    (hl : txGood ds = true → ds.all (fun d => d.len != 0) = true) (hw : w = ringProbe u 0 i.toNat)
    (he : w.flag F.HIF_TXR_CFG_EN i.toNat = true) (hv : v = linePauses (txTake w i.toNat ds)) :
    exec (.txPacketFetch i ⟨descs, heads⟩) s = .next (if txWaiting v i.toNat = 0 then setTxDeficit v i.toNat 0 else v) := by
  have lengths : ¬ (txGood ds && ds.any (fun d => d.len == 0)) = true := by
    rw [Bool.and_eq_true, not_and]
    intro good
    have := hl good
    simp_all
  change execTxPacketFetch i ⟨descs, heads⟩ s = _
  rw [execTxPacketFetch]
  dsimp only
  rw [hds]
  dsimp only
  rw [if_neg (by simp only [hp, hh]; simp), hc]
  dsimp only
  rw [if_neg (by simp), if_neg lengths, ← hw, if_neg (rFld_ne_zero (k := 0) (f := (·.en)) he), ← hv]

theorem exec_txPacketComplete (hp : pktUp s = true) : exec (.txPacketComplete i) s = .next (txComplete s i.toNat) := by
  change Host.Outcome.next (if pktUp s then txComplete s i.toNat else s) = _
  rw [if_pos hp]

/-- A packet that wants no entry completes with its ring's index alone. -/
theorem txComplete_silent {i : Nat} {d : TxDone} (hd : s.hif.txDone.find? (·.ring == i) = some d) (hq : d.cqe = false) (hk : d.status = stOk)
    (hu : u = { s with hif := { s.hif with txDone := s.hif.txDone.erase d } }.setFld F.HIF_TXR_STS_CONS i
      ((s.fld F.HIF_TXR_STS_CONS i + d.ndesc) % (2 * ringSize (s.fld F.HIF_TXR_CFG_SIZE_LOG2 i)))) :
    txComplete s i = ringDrain u 0 i := by
  have quiet : (d.cqe || d.status != stOk) = false := by simp [hq, hk]
  rw [txComplete, hd]
  dsimp only
  rw [quiet, if_neg (by simp), if_neg (by simp), hu]
  rfl

theorem txComplete_entry {i cons : Nat} {d : TxDone} (hd : s.hif.txDone.find? (·.ring == i) = some d) (hk : d.status ≠ stOk)
    (hr : cqReady s (s.fld F.HIF_TXR_CFG2_CQ i) = true)
    (hc : cons = (s.fld F.HIF_TXR_STS_CONS i + d.ndesc) % (2 * ringSize (s.fld F.HIF_TXR_CFG_SIZE_LOG2 i)))
    (hu : u = { s with hif := { s.hif with txDone := s.hif.txDone.erase d } }.setFld F.HIF_TXR_STS_CONS i cons) :
    txComplete s i = ringDrain (cqPush u (s.fld F.HIF_TXR_CFG2_CQ i)
      [cons, u.fld F.HIF_TXR_CFG_LOCAL i, d.status, 0, 0, 0, 0, 0]) 0 i := by
  have wants : (d.cqe || d.status != stOk) = true := by simp [hk]
  rw [txComplete, hd]
  dsimp only
  rw [wants, if_neg (by simp [hr]), if_pos rfl, hu, hc]
  rfl

end

/-! ## Packets for RX rings -/

section
variable {s v : State} {e : BitVec 14} {descs use : List RxDesc} {x : EPkt} {held : Bool} {ch : Chain} {r f : Nat}

theorem exec_rxPacketDeliver (hp : pktUp s = true) (hx : rxAtHand s e.toNat = some (x, held))
    (hr : r = s.fld F.EGR_Q_DEST_DEST e.toNat) (hv : v = ringProbe s 1 r)
    (hd : descs.all (fun d => decide (64 ≤ d.len.toNat) && decide (d.len.toNat ≤ 16384)) = true) :
    exec (.rxPacketDeliver e descs) s = .next (linePauses (ringDrain (rxDeliver v x held descs) 1 r)) := by
  have formed : ¬ descs.any (fun d => decide (d.len.toNat < 64) || decide (16384 < d.len.toNat)) = true := by
    simp only [List.all_eq_true, Bool.and_eq_true, decide_eq_true_eq] at hd
    simp only [List.any_eq_true, Bool.or_eq_true, decide_eq_true_eq, not_exists, not_and]
    intro d hm
    have := hd d hm
    omega
  change execRxPacketDeliver e descs s = _
  rw [execRxPacketDeliver, if_neg (by simp [hp]), hx]
  dsimp only
  rw [if_neg formed, ← hr, ← hv]

theorem rxDeliver_disabled (hc : chainAt v x.head = some ch) (hr : r = v.fld F.EGR_Q_DEST_DEST x.queue)
    (he : v.flag F.HIF_RXR_CFG_EN r = false) :
    rxDeliver v x held descs = hifCount (rxGone v x held) (v.fld F.HIF_RXR_CFG_FN r) 5 x.len := by
  rw [rxDeliver, ← hr, hc]
  dsimp only
  rw [if_pos (by simp [he])]

theorem rxDeliver_writes (hc : chainAt v x.head = some ch) (hr : r = v.fld F.EGR_Q_DEST_DEST x.queue) (hf : f = v.fld F.HIF_RXR_CFG_FN r)
    (he : v.flag F.HIF_RXR_CFG_EN r = true) (hx : fnExists v f = true) (hl : linkUp v (fnLink f) = true) (hn : (fnOf v f).flr = false)
    (hd : fnCanDma v f = true) (hb : rxBehind v x held = false) (hq : cqReady v (v.fld F.HIF_RXR_CFG2_CQ r) = true)
    (hu : rxBuffers ((descs.take (ringUsed (ringSz v 1 r) (v.fld F.HIF_RXR_PROD_PROD r) (v.fld F.HIF_RXR_STS_CONS r))).take 16) ch.len =
      some use) (hk : ch.carry = false) (hg : probeChain v ch 4 0 ch.len = (v, [])) :
    rxDeliver v x held descs = rxWrite v r x ch held use := by
  rw [rxDeliver, ← hr, ← hf, hc]
  dsimp only
  rw [if_neg (by simp [he, hx, hl, hn]), if_neg (by simp [hb]), if_neg (by simp [hq]), if_pos hd, hu]
  dsimp only
  rw [if_neg (by simp [hk] : ¬ ch.carry = true), hg]
  dsimp only
  rw [if_neg (by simp [hk])]

end

/-! ## Failed reads -/

section
variable {s : State} {i : BitVec 12} {e : BitVec 14} {filled : List RxDesc}

theorem exec_dmaReadError_rx {x : EPkt} {held : Bool} {r : Nat} (hp : pktUp s = true) (hx : rxAtHand s e.toNat = some (x, held))
    (hr : r = s.fld F.EGR_Q_DEST_DEST e.toNat) (he : s.flag F.HIF_RXR_CFG_EN r = true) (hd : fnCanDma s (s.fld F.HIF_RXR_CFG_FN r) = true) :
    exec (.dmaReadError 1 i ⟨e, filled⟩) s =
      .next (linePauses (ringDrain (rxGone (ringStop (rxPartial s r x filled) 1 r) x held) 1 r)) := by
  change execDmaReadError 1 i ⟨e, filled⟩ s = _
  rw [execDmaReadError, if_neg (by simp [hp])]
  dsimp only
  rw [hx]
  dsimp only
  rw [← hr, if_pos (by simp [he, hd])]

theorem exec_dmaReadError_tx (hp : pktUp s = true) (hr : txReady s i.toNat = true) :
    exec (.dmaReadError 0 i ⟨e, filled⟩) s = .next (ringDrain (ringStop s 0 i.toNat) 0 i.toNat) := by
  change execDmaReadError 0 i ⟨e, filled⟩ s = _
  rw [execDmaReadError, if_neg (by simp [hp])]
  rw [if_pos hr]

theorem exec_dmaReadError_control (hp : pktUp s = true) (he : s.flag F.HIF_CTR_CFG_EN i.toNat = true)
    (hn : ctrNext s i.toNat ≠ s.fld F.HIF_CTR_PROD_PROD i.toNat) (hd : fnCanDma s (s.fld F.HIF_CTR_CFG_FN i.toNat) = true) :
    exec (.dmaReadError 2 i ⟨e, filled⟩) s = .next (ringDrain (ringStop s 3 i.toNat) 3 i.toNat) := by
  change execDmaReadError 2 i ⟨e, filled⟩ s = _
  rw [execDmaReadError, if_neg (by simp [hp])]
  rw [if_pos (by simp [he, hn, hd])]

end

/-- Settles O8: each clause is a path through a packet's fetch, completion, delivery or failed read. -/
theorem hostPackets : Obligations.HostPackets := by
  refine ⟨⟨fun s u w v i descs ds heads hp hds hh hc hl hw he hv => exec_txPacketFetch hp hds hh hc hl hw he hv,
      fun s u i d hp hd hq hk hu => ?_, fun s u i d cons hp hd hk hr hc hu => ?_⟩,
    fun s v e descs x held ch r hp hx hr hv hc hr' hd he => ?_,
    fun s v e descs use x held ch r f hp hx hr hv hc hr' hf he hxf hl hn hd hb hq hds hu hk hg => ?_,
    fun s i e filled x held r hp hx hr he hd => exec_dmaReadError_rx hp hx hr he hd, fun s i e filled hp hr => exec_dmaReadError_tx hp hr,
    fun s i e filled hp he hn hd => exec_dmaReadError_control hp he hn hd⟩
  · rw [exec_txPacketComplete hp, txComplete_silent hd hq hk hu]
  · rw [exec_txPacketComplete hp, txComplete_entry hd hk hr hc hu]
  · rw [exec_rxPacketDeliver hp hx hr hv hd, rxDeliver_disabled hc hr' he]
  · rw [exec_rxPacketDeliver hp hx hr hv hds, rxDeliver_writes hc hr' hf he hxf hl hn hd hb hq hu hk hg]

/-! ## Messages, functions and links -/

section
variable {s u : State} {f : BitVec 9}

theorem exec_cqModerationTimeout {c : BitVec 10} {n : Nat} (hu : u = advance s n) (hp : pktUp u = true) :
    exec (.cqModerationTimeout c n) s = .next (cqModerate u c.toNat) := by
  change execCqModerationTimeout c n s = _
  rw [execCqModerationTimeout, ← hu, if_pos hp]

theorem exec_msixPendingSend {v : BitVec 11} (hb : mget noBool (fnOf s f.toNat).pba v.toNat = true) (hm : fnCanMsg s f.toNat v.toNat = true) :
    exec (.msixPendingSend f v) s = .next (sendMsg (setFn s f.toNat { fnOf s f.toNat with
      pba := mset noBool (fnOf s f.toNat).pba v.toNat false }) f.toNat v.toNat) := by
  change execMsixPendingSend f v s = _
  rw [execMsixPendingSend, if_pos (by simp [hb, hm])]

theorem exec_pf0ReadyWrite {h : Fin 2} {v : Bool} (hp : pktUp s = true) : exec (.pf0ReadyWrite h v true) s =
    .next (s.setFlag (if h = 0 then F.HIF_FN_STS_HL0_PF0_READY else F.HIF_FN_STS_HL1_PF0_READY) 0 v) := by
  change execPf0ReadyWrite h v true s = _
  rw [execPf0ReadyWrite, if_pos (by simp [hp])]

theorem exec_pf0ReadyWrite_host (s : State) (h : Fin 2) (v : Bool) : exec (.pf0ReadyWrite h v false) s = .next s := by
  change execPf0ReadyWrite h v false s = _
  rw [execPf0ReadyWrite, if_neg (by simp)]

theorem exec_flrComplete (hf : (fnOf s f.toNat).flr = true) :
    exec (.flrComplete f) s = .next (icuSync (setFn s f.toNat { fnOf s f.toNat with flr := false })) := by
  change execFlrComplete f s = _
  rw [execFlrComplete, if_pos hf]

/-- A function other than PF0 is reset alone. -/
theorem exec_functionLevelReset_alone (hu : fnUp s f.toNat = true) (hn : f.toNat % 256 ≠ 0) :
    exec (.functionLevelReset f) s = .next (settle (icuSync (flrOne s f.toNat true))) := by
  change execFunctionLevelReset f s = _
  rw [execFunctionLevelReset, if_pos hu, flr, if_neg hn]

theorem exec_vfDisable {h : Fin 2} (hf : fnUp s (256 * h.val) = true) (he : mget noBool s.hif.vfEn h.val = true)
    (hu : u = foldS (vfsOf s h.val) (fun u f => flrOne u f false) s) :
    exec (.vfDisable h) s = .next (settle (icuSync { u with hif := { u.hif with vfEn := mset noBool u.hif.vfEn h.val false } })) := by
  change execVfDisable h s = _
  rw [execVfDisable, if_pos (by simp [hf, he]), vfDisable, ← hu]

theorem exec_vfEnable {h : Fin 2} {n : Byte} (hf : fnUp s (256 * h.val) = true) (he : mget noBool s.hif.vfEn h.val = false)
    (hb : s.hif.bifur = false) (hn : n.toNat ≤ 254) : exec (.vfEnable h n) s = .next (icuSync { s with hif := { s.hif with
      vfEn := mset noBool s.hif.vfEn h.val true, numVfs := mset noNat s.hif.numVfs h.val n.toNat } }) := by
  change execVfEnable h n s = _
  rw [execVfEnable, if_pos (by simp [hf, he, totalVfs, hb, hn])]

theorem exec_busMasterEnableChange {v : Bool} (hu : fnUp s f.toNat = true) (hf : (fnOf s f.toNat).flr = false) :
    exec (.busMasterEnableChange f v) s = .next (ctlResume (icuSync (setFn s f.toNat { fnOf s f.toNat with bme := v }))) := by
  change execBusMasterEnableChange f v s = _
  rw [execBusMasterEnableChange, if_pos (by simp [hu, hf])]

theorem exec_d3hotChange {v : Bool} (hu : fnUp s f.toNat = true) (hf : (fnOf s f.toNat).flr = false) :
    exec (.d3hotChange f v) s = .next (ctlResume (icuSync (setFn s f.toNat { fnOf s f.toNat with d3 := v }))) := by
  change execD3hotChange f v s = _
  rw [execD3hotChange, if_pos (by simp [hu, hf])]

theorem exec_msixEnableChange {en mask : Bool} (hu : fnUp s f.toNat = true) (hf : (fnOf s f.toNat).flr = false) :
    exec (.msixEnableChange f en mask) s = .next (icuSync (setFn s f.toNat { fnOf s f.toNat with msixEn := en, fmask := mask })) := by
  change execMsixEnableChange f en mask s = _
  rw [execMsixEnableChange, if_pos (by simp [hu, hf])]

/-- Link 0 of a chip that is not bifurcated comes up with 16 lanes at the highest rate. -/
theorem exec_pcieLinkUp_full (ha : s.rst.aon = true) (hu : hostUp s 0 = true) (hl : linkUp s 0 = false) (hb : s.hif.bifur = false)
    (hc : s.fld F.HIF_LINK_CFG_MAX_SPEED 0 = 0) :
    exec (.pcieLinkUp 0 6 16 true) s = .next (ctlResume (icuSync ((((s.setFlag F.HIF_LINK_STS_DL_UP 0 true).setFlag F.HIF_LINK_STS_FLIT 0
      true).setFld F.HIF_LINK_STS_WIDTH 0 16).setFld F.HIF_LINK_STS_SPEED 0 6))) := by
  change execPcieLinkUp 0 6 16 true s = _
  rw [execPcieLinkUp, hc, hb]
  rw [if_pos (by simp [ha, hu, hl])]
  rfl

theorem exec_pcieLinkDown {h : Fin 2} (hl : linkUp s h.val = true) : exec (.pcieLinkDown h) s = .next (icuSync (linkDown s h.val)) := by
  change execPcieLinkDown h s = _
  rw [execPcieLinkDown, if_pos hl]

end

/-- Settles O9: each clause is the branch of its step that its conditions choose. -/
theorem functionsAndLinks : Obligations.FunctionsAndLinks :=
  ⟨fun _ _ _ _ hu hp => exec_cqModerationTimeout hu hp, fun _ _ _ hb hm => exec_msixPendingSend hb hm, fun _ hp => exec_pf0ReadyWrite hp,
    fun _ hp => exec_pf0ReadyWrite hp, exec_pf0ReadyWrite_host, fun _ _ hf => exec_flrComplete hf,
    fun _ _ hu hn => exec_functionLevelReset_alone hu hn, fun _ _ _ hf he hu => exec_vfDisable hf he hu,
    fun _ _ _ hf he hb hn => exec_vfEnable hf he hb hn,
    fun _ _ _ hu hf => ⟨exec_busMasterEnableChange hu hf, exec_d3hotChange hu hf⟩, fun _ _ _ _ hu hf => exec_msixEnableChange hu hf,
    fun _ ha hu hl hb hc => exec_pcieLinkUp_full ha hu hl hb hc, fun _ _ hl => exec_pcieLinkDown hl⟩

end Sys2Proof.Machine

/-!
PROOF. Control rings and class 5 (R107, R108, R134), pools (R124–R126), and the parser's turn and switches (R27, R29, R159, R160).
-/

namespace Sys2Proof.Machine

/-! ## Class 5 -/

section
variable {s u v : State} {c : Ctl}

theorem exec_cellAlloc {st : Nat} {body : List Nat} (h : Starts s u c 0x501) (hf : cellAlloc c u = (.done st body, v)) :
    exec (.cellAlloc c) s = .next (linePauses (ctlEnds s v c 0x501 st body)) := by
  change Host.Outcome.next (linePauses (ctlExec s c 0x0501 (fun u _ => cellAlloc c u))) = _
  rw [ctlExec_eq_ends h (by decide) hf]

theorem exec_chainFree {st : Nat} {body : List Nat} (h : Starts s u c 0x502) (hf : chainFree c u = (.done st body, v)) :
    exec (.chainFree c) s = .next (linePauses (ctlEnds s v c 0x502 st body)) := by
  change Host.Outcome.next (linePauses (ctlExec s c 0x0502 (fun u _ => chainFree c u))) = _
  rw [ctlExec_eq_ends h (by decide) hf]

theorem exec_cellRead {st : Nat} {body : List Nat} (h : Starts s u c 0x503)
    (hf : cellRead c u (s.fld F.HIF_CTR_CFG_FN c.ring.val) = (.done st body, v)) :
    exec (.cellRead c) s = .next (ctlEnds s v c 0x503 st body) :=
  ctlExec_done h (by decide) hf

/-- The arguments of CELL_ALLOC are in range. -/
def allocRange (c : Ctl) : Prop :=
  128 ≤ bits (bodyWord c 0) 8 0 ∧ bits (bodyWord c 1) 6 0 ≠ 0 ∧ bits (bodyWord c 1) 6 0 ≤ 80

theorem cellAlloc_granted {cells : List Nat} (h : allocRange c)
    (hr : requestCells u (bits (bodyWord c 0) 8 0) (bits (bodyWord c 1) 6 0) = (some cells, v)) :
    ∃ hd w, newChain (writeCells v 3 cells 0 (List.replicate (128 * bits (bodyWord c 1) 6 0) 0)) cells (128 * bits (bodyWord c 1) 6 0)
      false none = (hd, w) ∧ cellAlloc c u = (.done stOk [handleOf hd], w) := by
  obtain ⟨hq, hn, hm⟩ := h
  refine ⟨_, _, Prod.mk.eta.symm, ?_⟩
  rw [cellAlloc]
  dsimp only
  rw [if_neg (by simp [hq, hn, hm]), hr]

theorem cellAlloc_noCells (h : allocRange c) (hr : requestCells u (bits (bodyWord c 0) 8 0) (bits (bodyWord c 1) 6 0) = (none, v)) :
    cellAlloc c u = (.done stNoBuf [], v) := by
  obtain ⟨hq, hn, hm⟩ := h
  rw [cellAlloc]
  dsimp only
  rw [if_neg (by simp [hq, hn, hm]), hr]

theorem chainFree_good {ch : Chain} (hg : handleGood u (bodyWord c 0) = true) (hc : chainAt u (bodyWord c 0 / 8) = some ch) :
    chainFree c u = (.done stOk [ch.refs - 1], unref u (bodyWord c 0 / 8)) := by
  rw [chainFree]
  dsimp only
  rw [if_pos hg, hc]

theorem cellRead_good {ch : Chain} {n fn : Nat} (hg : handleGood u (bodyWord c 0) = true) (hc : chainAt u (bodyWord c 0 / 8) = some ch)
    (ho : bits (bodyWord c 1) 13 0 < ch.len) (h0 : bits (bodyWord c 2) 13 0 ≠ 0) (hm : bits (bodyWord c 2) 13 0 ≤ 10240)
    (hn : n = min (bits (bodyWord c 2) 13 0) (ch.len - bits (bodyWord c 1) 13 0))
    (hp : probeChain u ch 5 (bits (bodyWord c 1) 13 0) n = (v, [])) :
    cellRead c u fn = (.done stOk [n], hostWrite v fn (bodyDword c 3) (chainBytes v ch (bits (bodyWord c 1) 13 0) n)) := by
  rw [cellRead]
  dsimp only
  rw [if_neg (by simp [h0, hm]), if_neg (by simp [hg]), hc]
  dsimp only
  rw [if_neg (Nat.not_le.mpr ho), ← hn, hp]
  rfl

end

/-- Settles O10: NOP and class 5 by their bodies, and a class that the ring does not permit before any of them. -/
theorem controlRings : Obligations.ControlRings := by
  refine ⟨⟨fun s u c h => ctlExec_done h (by decide) rfl, fun s u c op h hn ho => ctlExec_done h ho ?_,
      fun s u v c cells h h1 h2 h3 hr => ?_, fun s u v c h h1 h2 h3 hr => exec_cellAlloc h (cellAlloc_noCells ⟨h1, h2, h3⟩ hr),
      fun s u c ch h hg hc => exec_chainFree h (chainFree_good hg hc),
      fun s u v c ch n h hg hc ho h0 hm hn hp => exec_cellRead h (cellRead_good hg hc ho h0 hm hn hp)⟩,
    fun s c op k hk hs ho hb => ?_⟩
  · rw [if_neg hn]
  · obtain ⟨hd, w, made, granted⟩ := cellAlloc_granted ⟨h1, h2, h3⟩ hr
    exact ⟨hd, w, made, exec_cellAlloc h granted⟩
  · subst hk
    exact congrArg _ (ctlExec_denied hs hb ho _)

/-! ## Pools -/

section
variable {s u : State} {k : Fin 64}

theorem exec_poolEnable (hp : pktUp s = true) : exec (.poolEnable k) s = poolEnable s k.val := by
  change (if pktUp s then poolEnable s k.val else .next s) = _
  rw [if_pos hp]

theorem poolEnable_empty {k : Nat} (he : s.flag F.CRN_POOL_CFG_EN k = false) (hz : s.fld F.CRN_POOL_SIZE_SIZE k = 0) :
    poolEnable s k = .next (s.setFlag F.CRN_POOL_STS_REJECT k true) := by
  rw [poolEnable, if_neg (by simp [he]), if_pos (by simp [hz])]

theorem poolEnable_draining {k : Nat} (he : s.flag F.CRN_POOL_CFG_EN k = false) (hz : s.fld F.CRN_POOL_SIZE_SIZE k ≠ 0)
    (hs : s.flag F.CRN_POOL_CFG_SPACE k = false) (hd : s.flag F.CRN_POOL_STS_DRAINED k = false) :
    poolEnable s k = .next (s.setFlag F.CRN_POOL_CFG_EN k true) := by
  rw [poolEnable, if_neg (by simp [he]), if_neg (by simp [hz, hs]), if_pos (by simp [hd])]

theorem poolEnable_starts {k : Nat} (he : s.flag F.CRN_POOL_CFG_EN k = false) (hz : s.fld F.CRN_POOL_SIZE_SIZE k ≠ 0)
    (hs : s.flag F.CRN_POOL_CFG_SPACE k = false ∨ s.flag F.CRN_DRAM_CFG_EN 0 = true) (hd : s.flag F.CRN_POOL_STS_DRAINED k = true)
    (ho : poolOverlaps s k = false) :
    poolEnable s k = .next (((s.setFlag F.CRN_POOL_CFG_EN k true).setFlag F.CRN_POOL_STS_DRAINED k false).setFld
      F.CRN_POOL_STS_FREE k (s.fld F.CRN_POOL_SIZE_SIZE k)) := by
  have placed : ¬ (decide (s.fld F.CRN_POOL_SIZE_SIZE k = 0) || s.flag F.CRN_POOL_CFG_SPACE k && !s.flag F.CRN_DRAM_CFG_EN 0) = true := by
    rcases hs with hs | hs <;> simp [hz, hs]
  rw [poolEnable, if_neg (by simp [he]), if_neg placed, if_neg (by simp [hd]), if_neg (by simp [ho])]

theorem exec_poolDisable (hp : pktUp s = true) (he : s.flag F.CRN_POOL_CFG_EN k.val = true) (hu : u = s.setFlag F.CRN_POOL_CFG_EN k.val false) :
    exec (.poolDisable k) s = .next (poolDrain u k.val) := by
  change Host.Outcome.next (if pktUp s then poolDisable s k.val else s) = _
  rw [if_pos hp, poolDisable, if_pos he, hu]

theorem exec_chainSweep {n : Fin 32} (hp : pktUp s = true) (hs : mget noBool s.crn.sweep n.val = true)
    (hu : u = foldS (ownedBy s (32 + n.val)) (fun u h => unref (disown u h) h) s) :
    exec (.chainSweep n) s = .next (linePauses ({ u with crn := { u.crn with
      sweep := mset noBool u.crn.sweep n.val false } }.setFlag F.CRN_CLU_STS_RECLAIM_BUSY n.val false)) := by
  change execChainSweep n s = _
  rw [execChainSweep, if_pos (by simp [hp, hs]), ← hu]

theorem exec_crnReqPeakRead {r : BitVec 9} (hp : pktUp s = true) : exec (.crnReqPeakRead r) s =
    .next { s.setFld F.CRN_REQ_PEAK_PEAK r.toNat (s.fld F.CRN_REQ_STS_USED r.toNat) with
      rdata := BitVec.ofNat 64 (s.fld F.CRN_REQ_PEAK_PEAK r.toNat) } := by
  change execCrnReqPeakRead r s = _
  rw [execCrnReqPeakRead, if_pos hp]
  rfl

/-! ## The parser -/

theorem exec_parsePacket {x : PIn} (hp : pktUp s = true) (he : s.flag F.PRS_CTL_EN 0 = true) (hx : nextPIn s = some x) :
    exec .parsePacket s = .next (linePauses (parsePacket { s with prs := { s.prs with
      waiting := s.prs.waiting.eraseIdx (s.prs.waiting.findIdx (· == x)) } } x)) := by
  change execParsePacket s = _
  rw [execParsePacket, if_pos (by simp [hp, he]), parseNext, hx]

theorem exec_parserEnable (hp : pktUp s = true) :
    exec .parserEnable s = .next ((s.setFlag F.PRS_CTL_EN 0 true).setFlag F.PRS_STS_DRAINED 0 false) := by
  change Host.Outcome.next (if pktUp s then prsEnable s else s) = _
  rw [if_pos hp, prsEnable]

theorem exec_parserDisable (hp : pktUp s = true) (hu : u = (s.setFlag F.PRS_CTL_EN 0 false).setFlag F.PRS_STS_DRAINED 0 true) :
    exec .parserDisable s = .next (linePauses (foldS s.prs.waiting toParser { u with prs := { u.prs with waiting := [] } })) := by
  change Host.Outcome.next (if pktUp s then linePauses (prsDisable s) else s) = _
  rw [if_pos hp, prsDisable, hu]

theorem prsReq_new {req done : Fld} (h : s.flag req 0 = false) : prsReq s req done = (s.setFlag req 0 true).setFlag done 0 false := by
  rw [prsReq, if_neg (by simp [h])]

theorem exec_graphReq (hp : pktUp s = true) : exec .graphReq s = .next (graphReq s) := by
  change Host.Outcome.next (if pktUp s then graphReq s else s) = _
  rw [if_pos hp]

theorem exec_clsReq (hp : pktUp s = true) : exec .clsReq s = .next (clsReq s) := by
  change Host.Outcome.next (if pktUp s then clsReq s else s) = _
  rw [if_pos hp]

theorem prsSwitch_due {req done act : Fld} (he : s.flag F.PRS_CTL_EN 0 = true) (hr : s.flag req 0 = true) :
    prsSwitch s req done act = ((s.setFlag req 0 false).setFlag done 0 true).setFld act 0 (1 - s.fld act 0) := by
  rw [prsSwitch, if_pos (by simp [he, hr])]

theorem exec_graphSwitch_alone (hp : pktUp s = true) (hj : s.prs.joint = false) : exec .graphSwitch s = .next (graphSwitch s) := by
  change Host.Outcome.next (if pktUp s then (if s.prs.joint then switchBoth s else graphSwitch s) else s) = _
  rw [if_pos hp, if_neg (by simp [hj])]

theorem exec_classifierSwitch_alone (hp : pktUp s = true) (hj : s.prs.joint = false) : exec .classifierSwitch s = .next (clsSwitch s) := by
  change Host.Outcome.next (if pktUp s then (if s.prs.joint then switchBoth s else clsSwitch s) else s) = _
  rw [if_pos hp, if_neg (by simp [hj])]

end

/-- Settles O11: each clause is a branch of a pool's or the parser's step. -/
theorem poolsAndParser : Obligations.PoolsAndParser := by
  refine ⟨⟨fun s k hp he hz => ?_, fun s k hp he hz hs hd => ?_, fun s k hp he hz hs hd ho => ?_, fun s u k hp he hu hn hf => ?_,
      fun s u k hp he hu hf => ?_, fun s u n hp hs hu => exec_chainSweep hp hs hu, fun s r hp => exec_crnReqPeakRead hp⟩,
    fun s x hp he hx => exec_parsePacket hp he hx, fun s hp => exec_parserEnable hp, fun s u hp hu => exec_parserDisable hp hu,
    fun s hp hr => ?_, fun s hp hr => ?_, fun s hp hj he hr => ?_, fun s hp hj he hr => ?_⟩
  · rw [exec_poolEnable hp, poolEnable_empty he hz]
  · rw [exec_poolEnable hp, poolEnable_draining he hz hs hd]
  · rw [exec_poolEnable hp, poolEnable_starts he hz hs hd ho]
  · rw [exec_poolDisable hp he hu, poolDrain, if_pos (by simp [hn, hf])]
  · rw [exec_poolDisable hp he hu, poolDrain, if_neg (by simp [hf])]
  · rw [exec_graphReq hp, graphReq, prsReq_new hr]
  · rw [exec_clsReq hp, clsReq, prsReq_new hr]
  · rw [exec_graphSwitch_alone hp hj, graphSwitch, prsSwitch_due he hr]
  · rw [exec_classifierSwitch_alone hp hj, clsSwitch, prsSwitch_due he hr]

end Sys2Proof.Machine

/-!
PROOF. Tables come and go, lookups are answered, and learning and ageing run (R168–R174, R196–R199).
-/

namespace Sys2Proof.Machine

/-! ## Tables -/

section
variable {s u v : State} {t : Fin 64}

theorem exec_tableEnable (hp : pktUp s = true) : exec (.tableEnable t) s = tblEnable s t.val := by
  change (if pktUp s then tblEnable s t.val else .next s) = _
  rw [if_pos hp]

theorem tblEnable_starts {t : Nat} (he : s.flag F.AGT_TBL_CFG_EN t = false) (hd : s.flag F.AGT_TBL_STS_DRAINED t = true)
    (hr : tblRefused s t = false) (hc : tblClash s t = false)
    (hu : u = ((tblClear s t).setFlag F.AGT_TBL_CFG_EN t true).setFlag F.AGT_TBL_STS_DRAINED t false) :
    tblEnable s t = .next (ageRestart (((u.setFlag F.AGT_TBL_STS_INIT t true).setFld F.AGT_TBL_STS_COUNT t
      (if tblType s t = 2 then tblSize s t else 0)).setFld F.AGT_TBL_GEN_GEN t 0) t) := by
  rw [tblEnable, if_neg (by simp [he]), if_neg (by simp [hr]), if_neg (by simp [hc]), if_neg (by simp [hd]), hu]

theorem tblEnable_noType {t : Nat} (he : s.flag F.AGT_TBL_CFG_EN t = false) (hy : tblType s t = 3) :
    tblEnable s t = .next (s.setFlag F.AGT_TBL_STS_REJECT t true) := by
  have refused : tblRefused s t = true := by simp [tblRefused, hy]
  rw [tblEnable, if_neg (by simp [he]), if_pos refused]

theorem exec_tableInitComplete (hp : pktUp s = true) :
    exec (.tableInitComplete t) s = .next (s.setFlag F.AGT_TBL_STS_INIT t.val false) := by
  change execTableInitComplete t s = _
  rw [execTableInitComplete, if_pos hp]

/-- With no learn request queued, a disable closes the cursor, ends the flush and the ageing pass, and drains what it can. -/
theorem exec_tableDisable_noLearn (hp : pktUp s = true) (he : s.flag F.AGT_TBL_CFG_EN t.val = true) (hq : s.agt.learnq = [])
    (hu : u = flushEnd (setCursor (s.setFlag F.AGT_TBL_CFG_EN t.val false) t.val none) t.val) (hn : u.agt.learnq = [])
    (hv : v = { u with agt := { u.agt with agePos := mset noPos u.agt.agePos t.val none } }) :
    exec (.tableDisable t) s = .next (tblDrain v t.val) := by
  have same : u.agt.learnq.filter (fun r => r.table != t.val) = u.agt.learnq := by
    rw [hn]
    rfl
  change execTableDisable t s = _
  rw [execTableDisable, if_pos hp, tblDisable, if_neg (by simp [he]), hq, ← hu]
  dsimp only
  rw [same, List.filter_nil, List.length_nil, if_pos rfl, hv]

theorem exec_lookupComplete_answered {j : Nat} {k : Lkp} {r : Resp} (hp : pktUp s = true) (hk : s.agt.lookups[j]? = some k)
    (ha : k.absent = false) (hs : k.stuck = false) (hu : u = { s with agt := { s.agt with lookups := s.agt.lookups.eraseIdx j } })
    (hr : lookupResp u k = (r, v)) :
    exec (.lookupComplete j) s = .next (settle (deliver (learnAfter v k r) k (respBytes k.table r))) := by
  change execLookupComplete j s = _
  rw [execLookupComplete, hk]
  dsimp only
  rw [if_neg (by simp [hp, hs]), if_neg (by simp [ha]), ← hu, hr]

theorem exec_fcFlush (hp : pktUp s = true) : exec .fcFlush s = .next (s.setFlag F.AGT_CTL_FC_FLUSH 0 true) := by
  change execFcFlush s = _
  rw [execFcFlush, if_pos hp]

theorem exec_fcFlushDone (hp : pktUp s = true) (hf : s.flag F.AGT_CTL_FC_FLUSH 0 = true) :
    exec .fcFlushDone s = .next ({ s with agt := { s.agt with fc := [] } }.setFlag F.AGT_CTL_FC_FLUSH 0 false) := by
  change execFcFlushDone s = _
  rw [execFcFlushDone, if_pos (by simp [hp, hf])]

theorem exec_fcInvalidateTableDone (hp : pktUp s = true) (hi : mget noBool s.agt.fcInv t.val = true) :
    exec (.fcInvalidateTableDone t) s = .next { s with agt := { s.agt with
      fcInv := mset noBool s.agt.fcInv t.val false, fc := s.agt.fc.filter (fun w => w.table != t.val) } } := by
  change execFcInvalidateTableDone t s = _
  rw [execFcInvalidateTableDone, if_pos (by simp [hp, hi])]

end

/-! ## Learning -/

section
variable {s u v : State} {r : LearnReq} {l : List LearnReq} {loc : Nat}

theorem exec_learnRequest (hp : pktUp s = true) (hq : s.agt.learnq = r :: l) (hu : u = { s with agt := { s.agt with learnq := l } }) :
    exec .learnRequest s = .next (learnAct u r) := by
  change execLearnRequest s = _
  rw [execLearnRequest, hq]
  dsimp only
  rw [if_pos hp, ← hu]

theorem learnAct_disabled (he : u.flag F.AGT_TBL_CFG_EN r.table = false) : learnAct u r = count u (12800 + 8 * r.table + 2) 1 0 := by
  rw [learnAct]
  dsimp only
  rw [if_pos (by simp [he])]

/-- A key that its source already has counts as a hit. -/
theorem learnAct_known (he : u.flag F.AGT_TBL_CFG_EN r.table = true) (hi : u.flag F.AGT_TBL_STS_INIT r.table = false)
    (hs : emSeek u r.table r.key = (v, some loc)) (hk : entSrc (emRaw v r.table loc) = r.srcport.toNat) :
    learnAct u r = setHit v r.table loc true := by
  rw [learnAct]
  dsimp only
  rw [if_neg (by simp [he, hi]), hs]
  dsimp only
  rw [if_pos hk]

theorem learnAct_static (he : u.flag F.AGT_TBL_CFG_EN r.table = true) (hi : u.flag F.AGT_TBL_STS_INIT r.table = false)
    (hs : emSeek u r.table r.key = (v, some loc)) (hk : entSrc (emRaw v r.table loc) ≠ r.srcport.toNat)
    (hf : entStatic (emRaw v r.table loc) = true) : learnAct u r = count v (12800 + 8 * r.table + 4) 1 0 := by
  rw [learnAct]
  dsimp only
  rw [if_neg (by simp [he, hi]), hs]
  dsimp only
  rw [if_neg hk, if_pos (by simp [hf])]

end

theorem exec_moveWindowClose {s u : State} {t : Fin 64} {key : List Byte} {n : Nat} (hu : u = advance s n) (hp : pktUp u = true)
    (hw : windowOpen u t.val key = false) : exec (.moveWindowClose t key n) s = .next (trackDrop u t.val key) := by
  change execMoveWindowClose t key n s = _
  rw [execMoveWindowClose, ← hu]
  rw [if_pos (by simp [hp, hw])]

/-! ## Ageing -/

section
variable {s u : State} {t : Fin 64} {n : Nat} {p : AgePass}

theorem exec_ageingPassStart (hu : u = advance s n) (hp : pktUp u = true) (hl : tblLive u t.val = true)
    (hi : u.flag F.AGT_TBL_STS_INIT t.val = false) (hy : tblType u t.val = 0) (ha : u.flag F.AGT_TBL_CFG_AGE_EN t.val = true)
    (hz : agePeriod u t.val ≠ 0) (hn : mget noPos u.agt.agePos t.val = none) (hd : mget noNat u.agt.ageDue t.val ≤ u.tim.elapsed) :
    exec (.ageingPassStart t n) s = .next { u with agt := { u.agt with
      agePos := mset noPos u.agt.agePos t.val (some ⟨0, 0, u.tim.elapsed, agePeriod u t.val, tblSize u t.val + (stashLocs u t.val).length⟩),
      ageDue := mset noNat u.agt.ageDue t.val (mget noNat u.agt.ageDue t.val + agePeriod u t.val) } } := by
  change execAgeingPassStart t n s = _
  rw [execAgeingPassStart, ← hu]
  dsimp only
  rw [if_pos (by simp [hp, hl, hi, hy, ha, hz, hn, hd])]

theorem exec_ageingVisit (hu : u = advance s n) (hp : pktUp u = true) (hpos : mget noPos u.agt.agePos t.val = some p)
    (ha : u.flag F.AGT_TBL_CFG_AGE_EN t.val = true) : exec (.ageingVisit (t, n)) s = .next (ageNext u t.val p) := by
  change execAgeingVisit (t, n) s = _
  rw [execAgeingVisit]
  dsimp only
  rw [← hu, hpos]
  dsimp only
  rw [if_pos (by simp [hp, ha])]

theorem ageNext_none {t : Nat} (hl : (liveLocs u t).find? (fun l => decide (p.pos ≤ l)) = none) :
    ageNext u t p = if ageTime p p.count ≤ u.tim.elapsed then { u with agt := { u.agt with agePos := mset noPos u.agt.agePos t none } }
      else u := by
  rw [ageNext, hl]

theorem ageNext_some {t l : Nat} (hl : (liveLocs u t).find? (fun l => decide (p.pos ≤ l)) = some l) :
    ageNext u t p = if u.tim.elapsed < ageTime p (agePlace u t p l) then u
      else ageVisit { u with agt := { u.agt with agePos := mset noPos u.agt.agePos t (some ⟨l + 1,
        if l < tblSize u t then p.slots else p.slots + 1, p.start + (u.tim.elapsed - ageTime p (agePlace u t p l)), p.period, p.count⟩) } }
        t l := by
  rw [ageNext, hl]

end

/-- A visit that finds no parity error decides by the hit bit and the entry's flags. -/
theorem ageVisit_clean {v : State} {t l : Nat} (hd : locInDram v t l = true → tagProbe v 2 t (l / 4) = (v, false))
    (hn : locInDram v t l = false → visitProbe v t l = (v, false)) :
    ageVisit v t l = if emHit v t l then setHit v t l false
      else if entStatic (emRaw v t l) || entFrozen (emRaw v t l) then v else count (emDelete v t l) (12800 + 8 * t + 6) 1 0 := by
  rw [ageVisit]
  by_cases h : locInDram v t l = true
  · rw [if_pos h, hd h]
    rfl
  · rw [if_neg h, hn (by simpa using h)]
    rfl

/-- Settles O12: each clause is a branch of a table's, a lookup's, the learner's or the ageing pass's step. -/
theorem tablesLookupsAndAgeing : Obligations.TablesLookupsAndAgeing := by
  refine ⟨⟨fun s u t hp he hd hr hc hu => ?_, fun s t hp he hd hy => ?_, fun s t hp => exec_tableInitComplete hp,
      fun s u v t hp he hq hu hn hv => exec_tableDisable_noLearn hp he hq hu hn hv,
      fun s u v j k r hp hk ha hs hu hr => exec_lookupComplete_answered hp hk ha hs hu hr, fun s hp => exec_fcFlush hp,
      fun s hp hf => exec_fcFlushDone hp hf, fun s t hp hi => exec_fcInvalidateTableDone hp hi⟩,
    fun s u r l hp hq hu he => ?_, fun s u v r l loc hp hq hu he hi hs hk => ?_, fun s u v r l loc hp hq hu he hi hs hk hf => ?_,
    fun s u t key n hu hp hw => exec_moveWindowClose hu hp hw,
    fun s u t n hu hp hl hi hy ha hz hn hd => ⟨_, exec_ageingPassStart hu hp hl hi hy ha hz hn hd, rfl, rfl, rfl⟩,
    fun s u t n p hu hp hpos ha hl => ⟨fun done => ?_, fun early => ?_⟩,
    fun s u t n l p q hu hp hpos ha hl hq => ⟨fun early => ?_, fun v due hv => ?_⟩,
    fun v t l hd hn => ⟨fun hh => ?_, fun hh hs hf => ?_, fun hh hs => ?_⟩⟩
  · rw [exec_tableEnable hp, tblEnable_starts he hd hr hc hu]
  · rw [exec_tableEnable hp, tblEnable_noType he hy]
  · rw [exec_learnRequest hp hq hu, learnAct_disabled he]
  · rw [exec_learnRequest hp hq hu, learnAct_known he hi hs hk]
  · rw [exec_learnRequest hp hq hu, learnAct_static he hi hs hk hf]
  · rw [exec_ageingVisit hu hp hpos ha, ageNext_none hl, if_pos (show ageTime p p.count ≤ _ from done)]
  · rw [exec_ageingVisit hu hp hpos ha, ageNext_none hl, if_neg (show ¬ ageTime p p.count ≤ _ from Nat.not_le.mpr early)]
  · rw [exec_ageingVisit hu hp hpos ha, ageNext_some hl, if_pos early]
  · rw [exec_ageingVisit hu hp hpos ha, ageNext_some hl, if_neg (Nat.not_lt.mpr due), hv, hq]
  · rw [ageVisit_clean hd hn, if_pos hh]
  · rw [ageVisit_clean hd hn, if_neg (by simp [hh]), if_neg (by simp [hs, hf])]
  · rw [ageVisit_clean hd hn, if_neg (by simp [hh]), if_pos (by simp [hs])]

end Sys2Proof.Machine

/-!
PROOF. Orrery's own steps: dispatch, refill, held tags, disables, purges and groups (R221–R223, R239–R242, R250, R255–R257).
-/

namespace Sys2Proof.Machine

/-! ## Dispatch and refill -/

section
variable {s u v : State}

theorem exec_dispatch {g : Fin 64} {n : Nat} (hu : u = advance s n) (hp : pktUp u = true) :
    exec (.dispatch g n) s = .next (settleAll (dispatchOne u g.val)) := by
  change execDispatch g n s = _
  rw [execDispatch, ← hu]
  rw [if_pos hp]

theorem slotRead_good {g q t : Nat} {x : QItem} (h : unitErr s 11 x.uid = 0) : slotRead s g q t x = dispatchTo s g q t x := by
  rw [slotRead, h]
  rfl

theorem dispatchOne_chosen {g p q turn left t : Nat} {x : QItem} (hq : dispQueue u g = some (p, q, turn, left))
    (hx : eligible u q = some x) (ht : dispTarget u g = some t) (he : unitErr u 11 x.uid = 0) :
    dispatchOne u g = dispatchTo { u with ory := { u.ory with turn := mset noTurn u.ory.turn (8 * g + p) (turn, left) } } g q t x := by
  rw [dispatchOne, hq]
  dsimp only
  rw [hx, ht]
  exact slotRead_good he

theorem exec_spillRefill (hp : pktUp s = true) : exec .spillRefill s = .next (settleAll (refillOne s)) := by
  change Host.Outcome.next (if pktUp s then settleAll (refillOne s) else s) = _
  rw [if_pos hp]

theorem refillOne_good {q : Nat} {x : QItem} {r : List QItem} (hf : slotsFree s ≠ 0)
    (hq : (rotateAfter (refillable s) s.ory.refilled).head? = some q) (hx : spillQ s q = x :: r) (hg : spillProbe s q = (false, u))
    (hv : v = { setSpill u q r with ory := { (setSpill u q r).ory with refilled := q } }) :
    refillOne s = setOnchip (noteWrite v 11 0 x.uid x.uid true) q (onchipQ v q ++ [x]) := by
  rw [refillOne, if_neg hf, hq]
  dsimp only
  rw [hx]
  dsimp only
  rw [hg]
  dsimp only
  rw [← hv]
  exact if_neg Bool.false_ne_true

/-! ## Held tags -/

theorem execTagSkip_head {d : BitVec 14} {n t : Nat} {x : Tag} (hu : u = advance s n) (ht : (domTags u d.toNat).head? = some t)
    (hx : tagOf u t = some x) :
    exec (.tagSkip d n) s = .next (if pktUp u && skipDue u x then settleAll (tagSkip u d.toNat t x) else u) := by
  change execTagSkip d n s = _
  rw [execTagSkip, ← hu]
  rw [ht]
  dsimp only
  rw [hx]

theorem skipDue_of_held {x : Tag} {e : Nat} (hl : u.fld F.ORY_DOM_CFG_HOLD_LIMIT 0 ≠ 0xFFFFFFFF) (he : x.heldFrom = some e)
    (hd : max 1 (u.fld F.ORY_DOM_CFG_HOLD_LIMIT 0 * 2 ^ 32) ≤ u.tim.elapsed - e) : skipDue u x = true := by
  rw [skipDue, he]
  dsimp only
  rw [decide_eq_true hl, decide_eq_true hd]
  rfl

theorem skipDue_of_noLimit {x : Tag} (hl : u.fld F.ORY_DOM_CFG_HOLD_LIMIT 0 = 0xFFFFFFFF) : skipDue u x = false := by
  rw [skipDue, hl]
  rfl

/-! ## Disables, purges and groups -/

theorem exec_queueDisable {q : BitVec 12} (hp : pktUp s = true) (he : s.flag F.ORY_Q_CFG_EN q.toNat = true) :
    exec (.queueDisable q) s = .next (settleAll (qDrain (s.setFlag F.ORY_Q_CFG_EN q.toNat false) q.toNat)) := by
  change Host.Outcome.next (if pktUp s then settleAll (qDisable s q.toNat) else s) = _
  rw [if_pos hp, qDisable, if_pos he]

theorem exec_purge {q : BitVec 12} (hp : pktUp s = true) : exec (.purge q) s = .next
    (if s.flag F.ORY_Q_CFG_EN q.toNat then s.setFlag F.ORY_Q_STS_REJECT q.toNat true else s.setFlag F.ORY_Q_STS_PURGE_BUSY q.toNat true) := by
  change Host.Outcome.next (if pktUp s then qPurge s q.toNat else s) = _
  rw [if_pos hp, qPurge]

theorem exec_purgeComplete {q : BitVec 12} (hp : pktUp s = true) (hb : s.flag F.ORY_Q_STS_PURGE_BUSY q.toNat = true) :
    exec (.purgeComplete q) s = .next (purgeEnd (purgeAll s q.toNat) q.toNat) := by
  change execPurgeComplete q s = _
  rw [execPurgeComplete, if_pos (by simp [hp, hb])]

theorem exec_groupMembershipWrite_present {g : Fin 64} {w : W32} (hp : pktUp s = true)
    (hw : ∀ n < 32, w.getLsbD n = true → clusterPresent s n = true) :
    exec (.groupMembershipWrite g w) s = .next (s.setReg .ORY_GRP_MEMBERS g.val w.toNat) := by
  have allPresent : ¬ (List.range 32).any (fun n => w.getLsbD n && !clusterPresent s n) = true := by
    rw [List.any_eq_true]
    rintro ⟨n, hn, absent⟩
    rw [Bool.and_eq_true] at absent
    rw [hw n (List.mem_range.mp hn) absent.1] at absent
    exact Bool.noConfusion absent.2
  change (if pktUp s then membersWrite s g.val w else .next s) = _
  rw [if_pos hp, membersWrite, if_neg allPresent]

theorem exec_orreryDisable (hp : pktUp s = true) (he : s.flag F.ORY_CTL_EN 0 = true) :
    exec .orreryDisable s = .next (settleAll (oryDrain (s.setFlag F.ORY_CTL_EN 0 false))) := by
  change Host.Outcome.next (if pktUp s then settleAll (oryDisable s) else s) = _
  rw [if_pos hp, oryDisable, if_pos he]

theorem exec_delayListDisable {l : Fin 16} (hp : pktUp s = true) (he : s.flag F.ORY_DLY_L_CFG_EN l.val = true) :
    exec (.delayListDisable l) s = .next (dlyDrain (s.setFlag F.ORY_DLY_L_CFG_EN l.val false) l.val) := by
  change Host.Outcome.next (if pktUp s then dlyDisable s l.val else s) = _
  rw [if_pos hp, dlyDisable, if_pos he]

theorem exec_delayAreaDisable (hp : pktUp s = true) (he : s.flag F.ORY_DLY_CTL_EN 0 = true) :
    exec .delayAreaDisable s = .next (settleAll (foldS (List.range 16) dlyDrain (foldS s.ory.delayed dlyLose
      (s.setFlag F.ORY_DLY_CTL_EN 0 false)))) := by
  change Host.Outcome.next (if pktUp s then settleAll (dlyAreaDisable s) else s) = _
  rw [if_pos hp, dlyAreaDisable, if_pos he]

theorem exec_delayTick {l : Fin 16} {n : Nat} (hu : u = advance s n) (hp : pktUp u = true) :
    exec (.delayTick l n) s = .next (settleAll (dlyDrain (foldS (dlyDue u l.val) dlyRelease u) l.val)) := by
  change execDelayTick l n s = _
  rw [execDelayTick, ← hu]
  rw [if_pos hp]

end

/-- Settles O14: each clause is a branch of one of Orrery's steps. -/
theorem orreryQueues : Obligations.OrreryQueues := by
  refine ⟨⟨fun s u g n p q t left turn x hu hp hq hx ht he => ?_, fun s u v q x r hp hf hq hx hg hv => ?_,
      fun s u d n t e x hu ht hx hp hl he hd => ?_, fun s u d n t x hu ht hx hl => ?_⟩,
    fun s q hp he => exec_queueDisable hp he, fun s q hp he => ?_, fun s q hp he => ?_, fun s q hp hb => exec_purgeComplete hp hb,
    fun s g v hp hv => exec_groupMembershipWrite_present hp hv, fun s hp he => exec_orreryDisable hp he,
    fun s l hp he => exec_delayListDisable hp he, fun s hp he => exec_delayAreaDisable hp he, fun s u l n hu hp => exec_delayTick hu hp⟩
  · rw [exec_dispatch hu hp, dispatchOne_chosen hq hx ht he]
  · rw [exec_spillRefill hp, refillOne_good hf hq hx hg hv]
  · rw [execTagSkip_head hu ht hx, if_pos (by simp [hp, skipDue_of_held hl he hd])]
  · rw [execTagSkip_head hu ht hx, if_neg (by simp [skipDue_of_noLimit hl])]
  · rw [exec_purge hp, if_pos he]
  · rw [exec_purge hp, if_neg (by simp [he])]

end Sys2Proof.Machine

/-!
PROOF. Egress starts, received pause, and the Meridian calendar (R387–R390, R394, R398–R403).
-/

namespace Sys2Proof.Machine

section
variable {s u v w : State}

/-! ## Scheduling -/

theorem exec_egressStart {p : Fin 18} {n : Nat} (enters : Bool) (hu : u = advance s n) (hp : pktUp u = true) :
    exec (.egressStart p n enters) s = .next (linePauses (egressStart u p enters)) := by
  change execEgressStart p n enters s = _
  rw [execEgressStart, ← hu]
  rw [if_pos hp]

theorem egressStart_none {p : Nat} (enters : Bool) (hc : choose u p = (v, none)) : egressStart u p enters = v := by
  rw [egressStart, hc]

/-- The chosen queue's entry is read; where its head proves lost nothing starts. -/
theorem egressStart_chosen {p : Nat} (enters : Bool) {c : Choice} {x : EPkt} {rest : List EPkt} (hc : choose u p = (v, some c))
    (hq : egrQ v c.que = x :: rest) (hw : w = arrProbe v 3 c.que (fun y => putEgrQ y c.que (egrQ y c.que).tail)) :
    egressStart u p enters = if egrQ w c.que = x :: rest then startPkt (takeHead w p c x rest) p x enters else w := by
  rw [egressStart, hc]
  dsimp only
  rw [← hw, hq]
  by_cases same : egrQ w c.que = x :: rest
  · rw [if_pos same, if_neg (by simp [same]), same]
  · rw [if_neg same, if_pos (bne_iff_ne.mpr same)]

theorem exec_pauseExpire {p : Fin 16} {i : Fin 8} {n : Nat} (hu : u = advance s n) :
    exec (.pauseExpire p i n) s = .next (if pausedNow u p i then u else
      { u with egr := { u.egr with pauseEnd := mset noNat u.egr.pauseEnd (8 * p.val + i) 0 } }) := by
  change execPauseExpire p i n s = _
  rw [execPauseExpire, ← hu]

/-! ## The calendar -/

theorem exec_calendarEnable {p : Fin 16} (hp : pktUp s = true) (hl : lanePresent s p = true) :
    exec (.calendarEnable p) s = .next (merEnable s p) := by
  change execCalendarEnable p s = _
  rw [execCalendarEnable, if_pos (by simp [hp, hl])]

theorem merEnable_starts {p : Nat} (he : s.flag F.MER_CFG_EN p = false) (hr : merRefused s p = false) (hz : s.fld F.MER_STS_STATE p = 0)
    (hu : u = s.setFlag F.MER_CFG_EN p true) :
    merEnable s p = setMer (pfFill (u.setFld F.MER_STS_STATE p 1) p []) p { noMer 0 with
      next := if s.flag F.MER_CFG_MODE p then none else some (merNextNt s p (nt64 s + s.fld F.MER_PREROLL_NS p)) } := by
  rw [merEnable, if_neg (by simp [he]), if_neg (by simp [hr]), ← hu]
  dsimp only
  rw [if_neg (by simp [hz])]

theorem merEnable_refused {p : Nat} (he : s.flag F.MER_CFG_EN p = false) (hm : s.flag F.MER_CFG_MODE p = true)
    (hd : s.fld F.MER_SYNC_DELAY p < s.fld F.MER_CFG_GAP_GUARD p + 1000) :
    merEnable s p = s.setFlag F.MER_STS_REJECT p true := by
  have refused : merRefused s p = true := by simp [merRefused, hm, hd]
  rw [merEnable, if_neg (by simp [he]), if_pos refused]

theorem exec_calendarDisable {p : Fin 16} (hp : pktUp s = true) (hl : lanePresent s p = true) (he : s.flag F.MER_CFG_EN p = true)
    (hu : u = s.setFlag F.MER_CFG_EN p false) :
    exec (.calendarDisable p) s =
      .next (if s.fld F.MER_STS_STATE p = 2 then setMer u p { merOf u p with stopping := true } else merOff u p) := by
  change execCalendarDisable p s = _
  rw [execCalendarDisable, if_pos (by simp [hp, hl]), merDisable, if_neg (by simp [he]), ← hu]

theorem exec_calendarStop {p : Fin 16} {n : Nat} (hu : u = advance s n) (hp : pktUp u = true) (hs : (merOf u p).stopping = true)
    (h2 : u.fld F.MER_STS_STATE p = 2) (ho : periodOver u p = true) : exec (.calendarStop p n) s = .next (merOff u p) := by
  change execCalendarStop p n s = _
  rw [execCalendarStop, ← hu]
  rw [if_pos (by simp [hp, hs, h2, ho])]

theorem exec_swReq_new {p : Fin 16} (hp : pktUp s = true) (hl : lanePresent s p = true) (hr : s.flag F.MER_CTL_SW_REQ p = false) :
    exec (.swReq p) s = .next ((s.setFlag F.MER_CTL_SW_REQ p true).setFlag F.MER_STS_SWITCHED p false) := by
  change execSwReq p s = _
  rw [execSwReq, if_pos (by simp [hp, hl]), merSwReq, if_neg (by simp [hr])]

theorem exec_periodStart {p : Fin 16} {n : Nat} (hu : u = advance s n) (hp : pktUp u = true) :
    exec (.periodStart p n) s = .next (periodStart u p) := by
  change execPeriodStart p n s = _
  rw [execPeriodStart, ← hu]
  rw [if_pos hp]

theorem periodStart_fromGap {p a : Nat} (ha : (merOf u p).next = some a) (h1 : u.fld F.MER_STS_STATE p = 1)
    (hs : (merOf u p).stopping = false) (ht : a ≤ nt64 u) : periodStart u p = beginPeriod u p a := by
  rw [periodStart]
  rw [ha, h1]
  dsimp only
  rw [if_neg (by simp [hs, ht]), if_neg (by simp)]

theorem periodStart_early {p a : Nat} (ha : (merOf u p).next = some a) (h2 : u.fld F.MER_STS_STATE p = 2)
    (hs : (merOf u p).stopping = false) (ht : a ≤ nt64 u) (ho : periodOver u p = false) (hm : u.flag F.MER_CFG_MODE p = true) :
    periodStart u p = syncEarly u p := by
  rw [periodStart]
  rw [ha, h2]
  dsimp only
  rw [if_neg (by simp [hs, ht]), if_pos (by simp [ho]), if_pos hm]

theorem exec_slotBoundary {p : Fin 16} {n : Nat} (hu : u = advance s n) (hp : pktUp u = true) :
    exec (.slotBoundary p n) s = .next (slotBoundary u p) := by
  change execSlotBoundary p n s = _
  rw [execSlotBoundary, ← hu]
  rw [if_pos hp]

theorem slotBoundary_next {p : Nat} (h2 : u.fld F.MER_STS_STATE p = 2) (ht : (merOf u p).slotEnd ≤ nt64 u)
    (hn : u.fld F.MER_STS_SLOT p + 1 < u.fld F.MER_NSLOTS_ACTIVE p) :
    slotBoundary u p = enterSlot u p (u.fld F.MER_STS_SLOT p + 1) (merOf u p).slotEnd := by
  rw [slotBoundary]
  rw [if_neg (by simp [h2, ht]), if_pos hn]

theorem slotBoundary_gap {p : Nat} (h2 : u.fld F.MER_STS_STATE p = 2) (ht : (merOf u p).slotEnd ≤ nt64 u)
    (hn : u.fld F.MER_NSLOTS_ACTIVE p ≤ u.fld F.MER_STS_SLOT p + 1) (hm : u.flag F.MER_CFG_MODE p = true)
    (hs : (merOf u p).stopping = false) : slotBoundary u p = enterGap u p := by
  rw [slotBoundary]
  rw [if_neg (by simp [h2, ht]), if_neg (Nat.not_lt.mpr hn), if_pos (by simp [hm, hs])]

theorem exec_prerollStart {p : Fin 16} {n : Nat} (hu : u = advance s n) (hp : pktUp u = true) (hf : portFormed u p = true) :
    exec (.prerollStart p n) s = .next (panicSync (prerollStart u p)) := by
  change execPrerollStart p n s = _
  rw [execPrerollStart, ← hu]
  rw [if_pos (by simp [hp, hf])]

end

/-- Settles O16: each clause is a branch of the scheduler's decision or of a calendar's step. -/
theorem egressAndCalendar : Obligations.EgressAndCalendar := by
  refine ⟨⟨fun s u v w p n enters c x rest hu hp hc hq hw => ⟨fun same => ?_, fun lost => ?_⟩, fun s u v p n enters hu hp hc => ?_,
      fun s u p i n hu hn => ?_, fun s u p i n hu hn => ?_⟩,
    fun s u p hp hl he hr hz hu _ => ?_, fun s p hp hl he hm hd => ?_, fun s u p hp hl he hu => ⟨fun h2 => ?_, fun h2 => ?_⟩,
    fun s u p n hu hp hs h2 ho => exec_calendarStop hu hp hs h2 ho, fun s p hp hl hr => exec_swReq_new hp hl hr,
    fun s u p n a hu hp ha h1 hs ht => ?_, fun s u p n a hu hp ha h2 hs ht ho hm => ?_, fun s u p n hu hp h2 ht hn => ?_,
    fun s u p n hu hp h2 ht hn hm hs => ?_, fun s u p n hu hp hf => exec_prerollStart hu hp hf⟩
  · rw [exec_egressStart enters hu hp, egressStart_chosen enters hc hq hw, if_pos same]
  · rw [exec_egressStart enters hu hp, egressStart_chosen enters hc hq hw, if_neg lost]
  · rw [exec_egressStart enters hu hp, egressStart_none enters hc]
  · rw [exec_pauseExpire hu, if_neg (by simp [hn])]
  · rw [exec_pauseExpire hu, if_pos hn]
  · rw [exec_calendarEnable hp hl, merEnable_starts he hr hz hu]
  · rw [exec_calendarEnable hp hl, merEnable_refused he hm hd]
  · rw [exec_calendarDisable hp hl he hu, if_pos h2]
  · rw [exec_calendarDisable hp hl he hu, if_neg h2, merOff]
  · rw [exec_periodStart hu hp, periodStart_fromGap ha h1 hs ht]
  · rw [exec_periodStart hu hp, periodStart_early ha h2 hs ht ho hm, syncEarly]
  · rw [exec_slotBoundary hu hp, slotBoundary_next h2 ht hn]
  · rw [exec_slotBoundary hu hp, slotBoundary_gap h2 ht hn hm hs]

end Sys2Proof.Machine

/-!
PROOF. The DDR5 controller: requests, the order of service, scrubbing, enables, and the command and training engines (R411–R426).
-/

namespace Sys2Proof.Machine

section
variable {s u : State}

/-! ## Requests -/

theorem exec_dramRequest {k : Fin 8} {b : BitVec 33} {wr : Option (Fin 64 × List Byte)} {l : Fin 16} {n : Nat} (hu : u = advance s n)
    (hr : drcReady u = true) (hm : (k ≠ 0 ∨ pfNext u l.val = some b.toNat) ∨ wr.isSome = true) :
    exec (.dramRequest k b wr l n) s =
      .next (dramRequest u ⟨k.val, b.toNat, wr.map (fun d => (d.1.val, d.2.take (64 - d.1.val))), l.val, 0, 0, false⟩) := by
  have made : (drcReady u && (k.val ≠ 0 || wr.isSome || pfNext u l.val == some b.toNat)) = true := by
    rw [hr, Bool.true_and]
    rcases hm with (hk | hp) | hw
    · simp [hk]
    · simp [hp]
    · simp [hw]
  change execDramRequest k b wr l n s = _
  rw [execDramRequest, ← hu]
  rw [if_pos made]

theorem dramRequest_outside {x : DReq} (hc : drcCapacity u * 2 ^ 24 ≤ x.burst) :
    dramRequest u x = if isWrite x then u.bump F.DRC_STS_OOR 0 1 else giveBack (u.bump F.DRC_STS_OOR 0 1) x (List.replicate 64 0) 0 := by
  rw [dramRequest, if_pos hc]

theorem dramRequest_inside {x : DReq} (hc : x.burst < drcCapacity u * 2 ^ 24) :
    dramRequest u x = enterAll { u with drc := { u.drc with waiting := u.drc.waiting ++ [x] } } := by
  rw [dramRequest, if_neg (Nat.not_le.mpr hc)]

/-! ## Service -/

theorem exec_dramReadComplete {c : Fin 6} {pos : List (Fin 10)} {n : Nat} (hu : u = advance s n) (ho : dramOn u = true) :
    exec (.dramReadComplete c ⟨pos, n⟩) s = .next (slot u c.val false (pos.map (·.val))) := by
  change execDramReadComplete c ⟨pos, n⟩ s = _
  rw [execDramReadComplete]
  dsimp only
  rw [← hu, if_pos ho]

theorem exec_dramWriteDrain {c : Fin 6} {n : Nat} (hu : u = advance s n) (ho : dramOn u = true) :
    exec (.dramWriteDrain c n) s = .next (slot u c.val true []) := by
  change execDramWriteDrain c n s = _
  rw [execDramWriteDrain, ← hu]
  rw [if_pos ho]

theorem slot_serves {c : Nat} {wr : Bool} {pos : List Nat} {x : DReq} (h0 : refAtLimit u c 0 = false) (h1 : refAtLimit u c 1 = false)
    (hx : chooseNext u c = some x) (hw : isWrite x = wr) : slot u c wr pos = serveNext u c x pos := by
  have noRefresh : [0, 1].find? (refAtLimit u c) = none := by simp [h0, h1]
  rw [slot, noRefresh, hx]
  dsimp only
  rw [if_pos (by simp [hw])]

theorem slot_refreshes {c : Nat} {wr : Bool} {pos : List Nat} (h0 : refAtLimit u c 0 = true) : slot u c wr pos = refresh u c 0 := by
  have atLimit : [0, 1].find? (refAtLimit u c) = some 0 := by simp [h0]
  rw [slot, atLimit]

/-- Outside panic: an aged request, then a row hit, then the oldest. -/
theorem chooseNext_calm {c : Nat} {l : List DReq} (hl : l = rqOf s c ++ (if drainMode s c = 0 then [] else freeWrites s c))
    (hp : panicOn s = false) :
    chooseNext s c = match oldest (l.filter (agedReq s)) with
      | some x => some x
      | none => match oldest (l.filter (rowHit s)) with
        | some x => some x
        | none => oldest l := by
  rw [chooseNext]
  rw [hp, ← hl]
  rfl

theorem chooseNext_panic {c : Nat} {x : DReq} (hp : panicOn s = true) (hm : drainMode s c ≠ 2)
    (hx : oldest ((rqOf s c).filter (·.port == 0)) = some x) : chooseNext s c = some x := by
  rw [chooseNext]
  rw [if_neg (by simp [hm]), if_pos hp, hx]

theorem exec_dramRefresh {c : Fin 6} {r : Fin 2} (ho : dramOn s = true) (hc : chanInSet s c.val = true) :
    exec (.dramRefresh (c, r)) s = .next (refresh s c.val r.val) := by
  change execDramRefresh (c, r) s = _
  rw [execDramRefresh, if_pos (by simp [ho, hc])]

/-- A reading that is not a rank's first leaves when its refresh is due. -/
theorem exec_mr4Poll_later {c : Fin 6} {r : Fin 2} {ns : W16} {hot : Bool} (ho : dramOn s = true) (hc : chanInSet s c.val = true)
    (hi : mget noNat s.drc.refInt (2 * c.val + r.val) ≠ 0) (hu : u = { s with drc := { s.drc with
      refInt := mset noNat s.drc.refInt (2 * c.val + r.val) ns.toNat, hot := mset noBool s.drc.hot (2 * c.val + r.val) hot } }) :
    exec (.mr4Poll c ⟨r, ns, hot⟩) s = .next (u.setFlag F.DRC_CH_STS_HI_TEMP c.val
      (mget noBool u.drc.hot (2 * c.val) || mget noBool u.drc.hot (2 * c.val + 1))) := by
  change execMr4Poll c ⟨r, ns, hot⟩ s = _
  rw [execMr4Poll, if_pos (by simp [ho, hc]), mr4]
  dsimp only
  rw [if_neg hi, hu]

/-! ## The scrubber -/

theorem exec_dramScrubRead (hr : drcReady s = true) (he : s.flag F.DRC_SCRUB_EN 0 = true) (hp : panicOn s = false) :
    exec .dramScrubRead s = .next (dramScrub s) := by
  change execDramScrubRead s = _
  rw [execDramScrubRead, if_pos (by simp [hr, he, hp])]

theorem dramScrub_moves {n b : Nat} (hn : n = drcCapacity s * 2 ^ 24) (h0 : 0 < n) (hb : b = s.drc.scrubPos % n) (hu : u = scrubBurst s b) :
    dramScrub s = if b + 1 = n then { u with drc := { u.drc with scrubPos := 0 } }.wrapAdd F.DRC_SCRUB_STS_PASSES 0 1
      else { u with drc := { u.drc with scrubPos := b + 1 } } := by
  rw [dramScrub]
  dsimp only
  rw [← hn, if_neg (Nat.ne_of_gt h0), ← hb, ← hu]

/-! ## Initialisation, enable and disable -/

theorem exec_initGo (hm : memUp s = true) : exec .initGo s = .next (initGo s) := by
  change execInitGo s = _
  rw [execInitGo, if_pos hm]

theorem initGo_starts (he : s.flag F.DRC_CTL_EN 0 = false) (ho : dramOn s = true) (hg : s.flag F.DRC_CTL_INIT_GO 0 = false) :
    initGo s = (s.setFlag F.DRC_CTL_INIT_GO 0 true).setFlag F.DRC_STS_INIT_DONE 0 false := by
  rw [initGo, if_neg (by simp [he, ho, hg])]

theorem initGo_enabled (he : s.flag F.DRC_CTL_EN 0 = true) : initGo s = s.setFlag F.DRC_STS_REJECT 0 true := by
  rw [initGo, if_pos (by simp [he]), drcReject]

theorem exec_initDone (ho : dramOn s = true) (hg : s.flag F.DRC_CTL_INIT_GO 0 = true) : exec .initDone s = .next (initDone s) := by
  change execInitDone s = _
  rw [execInitDone, if_pos (by simp [ho, hg])]

theorem exec_drcEnable (hm : memUp s = true) : exec .drcEnable s = .next (drcEnable s) := by
  change execDrcEnable s = _
  rw [execDrcEnable, if_pos hm]

theorem drcEnable_starts (he : s.flag F.DRC_CTL_EN 0 = false) (hc : drcCapacity s ≠ 0) (hr : s.flag F.DRC_CTL_DRAM_RESET_N 0 = true)
    (hi : s.flag F.DRC_STS_INIT_DONE 0 = true) :
    drcEnable s = enterAll ((s.setFlag F.DRC_CTL_EN 0 true).setFlag F.DRC_STS_DRAINED 0 false) := by
  rw [drcEnable, if_neg (by simp [he]), if_neg (by simp [hc, hr, hi])]

theorem drcEnable_refused (he : s.flag F.DRC_CTL_EN 0 = false) (hi : s.flag F.DRC_STS_INIT_DONE 0 = false) :
    drcEnable s = s.setFlag F.DRC_STS_REJECT 0 true := by
  rw [drcEnable, if_neg (by simp [he]), if_pos (by simp [hi]), drcReject]

theorem exec_drcDisable (hm : memUp s = true) (he : s.flag F.DRC_CTL_EN 0 = true) :
    exec .drcDisable s = .next (if dramAreaOn s then s.setFlag F.DRC_STS_REJECT 0 true else drcDrain (s.setFlag F.DRC_CTL_EN 0 false)) := by
  change execDrcDisable s = _
  rw [execDrcDisable, if_pos hm, drcDisable, if_neg (by simp [he])]
  rfl

theorem dramAreaOn_of_cairn (h : s.flag F.CRN_DRAM_CFG_EN 0 = true) : dramAreaOn s = true := by
  rw [dramAreaOn, h, Bool.true_or, Bool.true_or, Bool.true_or]

theorem exec_drcEccRead {c : Fin 6} (hm : memUp s = true) (hc : channelPresent s c.val = true) :
    exec (.drcEccRead c) s = .next (eccRead s c.val) := by
  change execDrcEccRead c s = _
  rw [execDrcEccRead, if_pos (by simp [hm, hc])]

theorem exec_drcEccAddrRead {c : Fin 6} (hm : memUp s = true) (hc : channelPresent s c.val = true) :
    exec (.drcEccAddrRead c) s = .next (eccAddrRead s c.val) := by
  change execDrcEccAddrRead c s = _
  rw [execDrcEccAddrRead, if_pos (by simp [hm, hc])]

end

/-- Settles O17: the order of service is the order of `chooseNext`'s three searches; the rest are branches of the controller's steps. -/
theorem dramServiceAndControl : Obligations.DramServiceAndControl := by
  refine ⟨⟨fun s u k b o bs l n hu hr hc => ?_, fun s u k b l n hu hr hk hc => ?_, fun s u k b l n hu hr hk hc => ?_,
      fun s u c pos n x hu ho h0 h1 hx => ⟨fun hw => ?_, fun hw => ?_⟩, fun s u c pos n hu ho h0 => ⟨?_, ?_⟩,
      fun s c l x hl => ⟨fun hp ha => ?_, fun hp ha hr => ?_, fun hp ha hr => ?_, fun hp hm hx => chooseNext_panic hp hm hx⟩,
      fun s c r ho hc => ⟨exec_dramRefresh ho hc, fun ns hot hi => ⟨_, exec_mr4Poll_later ho hc hi rfl, rfl, rfl⟩⟩,
      fun s u n b hr he hp hn h0 hb hu => ⟨fun more => ?_, fun last => ?_⟩⟩,
    fun s hm he ho hg => ?_, fun s hm he => ?_, fun s ho hg => ⟨_, exec_initDone ho hg, rfl, rfl⟩, fun s hm he hc hr hi => ?_,
    fun s hm he hi => ?_, fun s hm he hc => ?_, fun s hm he ha => ?_, fun s c hm hc => ⟨exec_drcEccRead hm hc, exec_drcEccAddrRead hm hc⟩⟩
  · rw [exec_dramRequest hu hr (.inr rfl), dramRequest_outside hc]
    rfl
  · rw [exec_dramRequest hu hr (.inl (.inl hk)), dramRequest_outside hc]
    rfl
  · rw [exec_dramRequest hu hr (.inl hk), dramRequest_inside hc]
    rfl
  · rw [exec_dramReadComplete hu ho, slot_serves h0 h1 hx hw]
  · rw [exec_dramWriteDrain hu ho, slot_serves h0 h1 hx hw]
  · rw [exec_dramReadComplete hu ho, slot_refreshes h0]
  · rw [exec_dramWriteDrain hu ho, slot_refreshes h0]
  · rw [chooseNext_calm hl hp, ha]
  · rw [chooseNext_calm hl hp, ha, hr]
  · rw [chooseNext_calm hl hp, ha, hr]
  · rw [exec_dramScrubRead hr he hp, dramScrub_moves hn h0 hb hu, if_neg (by omega)]
  · rw [exec_dramScrubRead hr he hp, dramScrub_moves hn h0 hb hu, if_pos last]
  · rw [exec_initGo hm, initGo_starts he ho hg]
  · rw [exec_initGo hm, initGo_enabled he]
  · rw [exec_drcEnable hm, drcEnable_starts he hc hr hi]
  · rw [exec_drcEnable hm, drcEnable_refused he hi]
  · rw [exec_drcDisable hm he, if_pos (dramAreaOn_of_cairn hc)]
  · rw [exec_drcDisable hm he, if_neg (by simp [ha])]

/-! ## The command engine and training -/

section
variable {s u : State}

theorem mrwGo_starts {op ch sub rank addr data : Nat} (hm : memUp s = true) (hb : s.flag F.DRC_MRW_BUSY 0 = false) (ho : dramOn s = true)
    (hu : u = foldS [(F.DRC_MRW_OP, op), (F.DRC_MRW_CH, ch), (F.DRC_MRW_SUB, sub), (F.DRC_MRW_RANK, rank),
      (F.DRC_MRW_ADDR, addr), (F.DRC_MRW_DATA, data)] (fun v x => v.setFld x.1 0 x.2) s) :
    mrwGo s op ch sub rank addr data =
      { u.setFlag F.DRC_MRW_BUSY 0 true with drc := { s.drc with mrw := some (op, ch, sub, rank, addr, data) } } := by
  rw [mrwGo]
  dsimp only
  rw [if_neg (by simp [hm]), if_neg (by simp [hb, ho]), ← hu]

/-- The command that asks for operation `op`. -/
noncomputable def mrwInstr (op : Fin 4) (ch : BitVec 3) (sub rank : Bool) (addr : BitVec 12) (data : Byte) : Instr :=
  match op with
  | 0 => .modeRegisterWrite ch sub rank addr data
  | 1 => .modeRegisterRead ch sub rank addr data
  | 2 => .rcdWrite ch sub rank addr data
  | 3 => .rcdRead ch sub rank addr data

theorem exec_mrwInstr (op : Fin 4) (ch : BitVec 3) (sub rank : Bool) (addr : BitVec 12) (data : Byte) :
    exec (mrwInstr op ch sub rank addr data) s =
      .next (mrwGo s op.val ch.toNat (b2n sub) (b2n rank) addr.toNat data.toNat) := by
  match op with
  | 0 | 1 | 2 | 3 => rfl

theorem exec_mrwComplete {v : Byte} {op ch sub rank addr data : Nat} (hm : memUp s = true)
    (hw : s.drc.mrw = some (op, ch, sub, rank, addr, data)) (hu : u = { s with drc := { s.drc with mrw := none } }.setFlag F.DRC_MRW_BUSY 0 false) :
    exec (.mrwComplete v) s = .next (if op % 2 = 1 then u.setFld F.DRC_MRW_DATA 0 v.toNat
      else { u with drc := { u.drc with devRegs := mset zeroByte u.drc.devRegs (devKey op ch sub rank addr) (BitVec.ofNat 8 data) } }) := by
  change execMrwComplete v s = _
  rw [execMrwComplete, if_pos hm, mrwDone, hw]
  dsimp only
  rw [← hu]

theorem trnGo_starts {k ch sub rank lo hi : Nat} (hk : k < 8) (hm : memUp s = true) (hb : s.flag F.DRC_TRN_CTL_BUSY 0 = false)
    (hu : u = foldS [(F.DRC_TRN_CTL_STEP, k), (F.DRC_TRN_CTL_CH, ch), (F.DRC_TRN_CTL_SUB, sub), (F.DRC_TRN_CTL_RANK, rank),
      (F.DRC_TRN_CTL_SWEEP_LO, lo), (F.DRC_TRN_CTL_SWEEP_HI, hi)] (fun v x => v.setFld x.1 0 x.2) s) :
    trnGo s k ch sub rank lo hi = { u.setFlag F.DRC_TRN_CTL_BUSY 0 true with drc := { u.drc with trn := some k } } := by
  rw [trnGo, ← hu]
  dsimp only
  rw [if_neg (by simp [hm]), if_neg (by simp [hb, hk])]

/-- The command that asks for training step `k`. -/
noncomputable def trnInstr (k : Fin 8) (ch : BitVec 3) (sub rank : Bool) (lo hi : Byte) : Instr :=
  match k with
  | 0 => .csTraining ch sub rank lo hi
  | 1 => .caTraining ch sub rank lo hi
  | 2 => .writeLevelling ch sub rank lo hi
  | 3 => .readStrobeGating ch sub rank lo hi
  | 4 => .readDataEye ch sub rank lo hi
  | 5 => .writeDataEye ch sub rank lo hi
  | 6 => .dqReferenceVoltage ch sub rank lo hi
  | 7 => .caReferenceVoltage ch sub rank lo hi

theorem exec_trnInstr (k : Fin 8) (ch : BitVec 3) (sub rank : Bool) (lo hi : Byte) :
    exec (trnInstr k ch sub rank lo hi) s = .next (trnGo s k.val ch.toNat (b2n sub) (b2n rank) lo.toNat hi.toNat) := by
  match k with
  | 0 | 1 | 2 | 3 | 4 | 5 | 6 | 7 => rfl

theorem exec_trainingStepDone {k : Nat} {res : List (Byte × Byte × Bool)} (hm : memUp s = true) (ht : s.drc.trn = some k)
    (hu : u = foldS ((res.take (trnLanes k)).zipIdx) (fun v x =>
      v.setReg .DRC_TRN_RES x.2 (x.1.1.toNat * 2 ^ 16 + x.1.2.1.toNat * 2 ^ 8 + b2n x.1.2.2 * 2 ^ 7)) s) :
    exec (.trainingStepDone res) s = .next ({ u with drc := { u.drc with trn := none } }.setFlag F.DRC_TRN_CTL_BUSY 0 false) := by
  change execTrainingStepDone res s = _
  rw [execTrainingStepDone, if_pos hm, trnDone, ht]
  dsimp only
  rw [← hu]

end

/-- Settles O18: the four commands and the eight steps are one request each, whose number is the operation. -/
theorem dramEngineAndTraining : Obligations.DramEngineAndTraining := by
  refine ⟨⟨fun s u op ch sub rank addr data hm hb ho hu => ?_, fun s u v op ch sub rank addr data hm hw hu => ⟨fun read => ?_, fun write => ?_⟩⟩,
    fun s u k ch sub rank lo hi hm hb hu => ?_, fun s u k res hm ht hu => exec_trainingStepDone hm ht hu⟩
  · rw [← mrwGo_starts hm hb ho hu]
    exact exec_mrwInstr op ch sub rank addr data
  · rw [exec_mrwComplete hm hw hu, if_pos read]
  · rw [exec_mrwComplete hm hw hu, if_neg (by omega)]
  · rw [← trnGo_starts k.isLt hm hb hu]
    exact exec_trnInstr k ch sub rank lo hi

end Sys2Proof.Machine

/-!
PROOF. Lost interrupt sources (R452), MGT's sleep, resent beats, the on-chip scrubber and error injection (R440, R453, R462, R463, R483).
-/

namespace Sys2Proof.Machine

/-! ## A lost source in a map out of form -/

/-- A register map that lists source 0's word twice, and a source entry that cannot be read. -/
def wordListedTwice : State :=
  { State.reset with
    regs := [(regKey .ICU_PEND_SET 0, 0), (regKey .ICU_PEND_SET 0, 1)]
    integ := { State.reset.integ with bad := [(badKey 11 (arrUnit 7 0), 2)] } }

theorem wordListedTwice_lost : unitErr wordListedTwice 11 (arrUnit 7 0) = 2 := by decide

/-- The write that withdraws the source takes the first listing away, and the second is read. -/
theorem wordListedTwice_pending : srcPending (srcProbe wordListedTwice 0) 0 = true := by decide

/-- Refutes O19: the clause on a lost source speaks of every state, but where the register map is not canonical the source stays pending;
the clause lacks `mwf regReset s.regs`, as the last clause has it for the outstanding set. -/
theorem not_interrupts : ¬ Obligations.Interrupts := by
  rintro ⟨⟨_, probes, _⟩, _⟩
  have gone := (probes wordListedTwice 0).2 (le_of_eq wordListedTwice_lost.symm)
  rw [wordListedTwice_pending] at gone
  contradiction

/-! ## MGT's sleep -/

section
variable {s u v : State}

theorem exec_mgtSleep (hu : mgtUp s = true) (he : s.flag F.RST_MGT_PWR_SLEEP_EN 0 = true) (ha : s.flag F.RST_MGT_PWR_ASLEEP 0 = false)
    (hq : mgtQuiet s = true) : exec .mgtSleep s = .next (mgtSleep s) := by
  change execMgtSleep s = _
  rw [execMgtSleep, if_pos (by simp [hu, he, ha, hq])]

theorem exec_mgtWake {n : Nat} (hu : u = advance s n) (hm : mgtUp u = true) (ha : u.flag F.RST_MGT_PWR_ASLEEP 0 = true)
    (hw : wakeDue u = true) : exec (.mgtWake n) s = .next (mgtWake u) := by
  change execMgtWake n s = _
  rw [execMgtWake, ← hu]
  rw [if_pos (by simp [hm, ha, hw])]

/-- A wake for which no delivery came restores the copy alone. -/
theorem mgtWake_noDelivery (hn : u.icu.retNew = false) (hv : v = { u with icu := { u.icu with
      out := u.icu.retOut.foldl (fun m i => mset noTgt m i (some 32)) u.icu.out, retOut := [], retNew := false } }) :
    mgtWake u = settleAll (((v.setFlag F.ICU_TGT_CFG_EN 32 u.icu.retEn).setFlag F.ICU_RET_STS_SAVED 0 false).setFlag
      F.RST_MGT_PWR_ASLEEP 0 false) := by
  rw [mgtWake]
  dsimp only
  rw [if_neg (by simp [hn]), hv]

/-! ## The on-chip network -/

theorem exec_nocBeatResend {h : Byte} {again : Bool} (hp : pktUp s = true) (hs : nocStopped s h.toNat = false)
    (hn : (if again then nocFails s h.toNat else 0) + 1 < 256) : exec (.nocBeatResend h again) s =
      .next ((setNoc s h.toNat ((if again then nocFails s h.toNat else 0) + 1)).bump F.RST_ERR_CNT_CE 12 1) := by
  change execNocBeatResend h again s = _
  rw [execNocBeatResend]
  rw [if_pos (by rw [hp, hs, decide_eq_true hn]; rfl)]

theorem exec_nocStuck {h : Byte} (hp : pktUp s = true) (hs : nocStopped s h.toNat = false) (hn : nocFails s h.toNat = 255) :
    exec (.nocStuck h) s = .next (nocStuck s h.toNat) := by
  change execNocStuck h s = _
  rw [execNocStuck, if_pos (by simp [hp, hs, hn])]

/-! ## The on-chip scrubber -/

theorem exec_onchipScrubRead (hp : pktUp s = true) (he : s.flag F.RST_SCRUB_CFG_EN 0 = true) :
    exec .onchipScrubRead s = .next (settleAll (scrubStep s)) := by
  change execOnchipScrubRead s = _
  rw [execOnchipScrubRead, if_pos (by simp [hp, he])]

/-- In the cell memory a read goes on to the next unit. -/
theorem scrubStep_cells (hm : s.integ.scrubMem = 0) (hn : s.integ.scrubPos + 1 < 4194304) :
    scrubStep s =
      let u := scrubUnit s 0 s.integ.scrubPos 2 1 2 (handleOf (s.integ.scrubPos / 8)) 6
      { u with integ := { u.integ with scrubPos := s.integ.scrubPos + 1 } } := by
  have next : scrubNext s 0 s.integ.scrubPos = s.integ.scrubPos + 1 := by
    rw [scrubNext, if_neg (by simp)]
  rw [scrubStep, hm]
  dsimp only
  rw [next, if_pos (show s.integ.scrubPos + 1 < scrubSize 0 from hn), scrubAt]

theorem scrubUnit_good {m i cls ce ue d0 d1 : Nat} (he : unitErr s m i = 0) : scrubUnit s m i cls ce ue d0 d1 = s := by
  rw [scrubUnit]
  rw [if_pos he]

theorem scrubUnit_corrected {m i cls ce ue d0 d1 : Nat} (he : unitErr s m i = 1) :
    scrubUnit s m i cls ce ue d0 d1 = noteCe (setUnitErr s m i 0) m cls ce d0 d1 := by
  rw [scrubUnit]
  rw [he, if_neg (by simp), if_pos rfl]

/-! ## Error injection -/

theorem exec_einjArm {m : BitVec 4} {b : BitVec 2} {n : Fin 32} {x : Bool} {a : W64} (hp : pktUp s = true)
    (hu : u = foldS [(F.RST_EINJ_CTL_TARGET, m.toNat), (F.RST_EINJ_CTL_BITS, b.toNat), (F.RST_EINJ_CTL_CLUSTER, n.val),
      (F.RST_EINJ_CTL_MATCH, b2n x), (F.RST_EINJ_ADDR_ADDR, a.toNat)] (fun v x => v.setFld x.1 0 x.2) s) :
    exec (.einjArm m b n x a) s = .next (einjArm u) := by
  change execEinjArm m b n x a s = _
  rw [execEinjArm, if_pos hp, ← hu]

theorem einjArm_arms (ht : u.fld F.RST_EINJ_CTL_TARGET 0 < 12) (ha : u.flag F.RST_EINJ_CTL_ARM 0 = false) :
    einjArm u = u.setFlag F.RST_EINJ_CTL_ARM 0 true := by
  have known : ¬ 14 ≤ u.fld F.RST_EINJ_CTL_TARGET 0 := by omega
  rw [einjArm]
  rw [if_neg (by simp [ha, known]), if_neg (Nat.ne_of_lt ht)]

end

/-- Settles O20: each clause is a branch of MGT's sleep, of a hop, of the scrubber or of the injector. -/
theorem sleepAndIntegrity : Obligations.SleepAndIntegrity := by
  refine ⟨⟨fun s hu he ha hq => ⟨_, exec_mgtSleep hu he ha hq, rfl, rfl, rfl, rfl⟩, fun s u v n hu hm ha hw hn hv => ?_⟩,
    fun s h hp hs => ?_, fun s h hp hs hn => ?_, fun s u h hp hs hn hu => ?_, fun s hp he hm hg hn => ?_,
    fun s pos hp he hm hpos hn hg => ?_, fun s u m b n x a hp hu ht ha => ?_⟩
  · rw [exec_mgtWake hu hm ha hw, mgtWake_noDelivery hn hv]
  · exact exec_nocBeatResend (again := false) hp hs (by simp)
  · exact exec_nocBeatResend (again := true) hp hs (Nat.succ_lt_succ hn)
  · rw [exec_nocStuck hp hs hn, nocStuck, hu]
  · rw [exec_onchipScrubRead hp he, scrubStep_cells hm hn, scrubUnit_good hg]
  · subst hpos
    rw [exec_onchipScrubRead hp he, scrubStep_cells hm hn, scrubUnit_corrected hg]
  · rw [exec_einjArm hp hu, einjArm_arms ht ha]

end Sys2Proof.Machine

/-!
PROOF. A cluster's caches, its start, its fault queue and its thread control (R264, R269, R270, R276–R282, R336).
-/

namespace Sys2Proof.Machine

/-! ## Instruction caches and the start -/

section
variable {s u v w : State} {n : Fin 32}

theorem icEvict_of_room {c : Nat} (h : (icOf s c).length < 4096) : icEvict s c = s := by
  rw [icEvict, if_pos h]

/-- A good word enters a cache that has room for it. Here and in the two fills the function is opened as a whole: its equation lemma would
have the kernel compute with the address of shared memory. -/
theorem icPlace_good {t pc : Nat} {bs : List Byte} (hr : placeRead s t (.shared (pc - 0x100000)) 4 = (bs, none, s))
    (hl : (icOf s (coreOf t)).length < 4096)
    (hu : u = { s with gar := { s.gar with icache := mset noWord s.gar.icache (icKey t pc) (some (icWord s (cluOf t) pc)) } }) :
    icPlace s t pc = (none, noteWrite u 5 (cluOf t) (icKey t pc) (icKey t pc) true) := by
  have opened : icPlace = icPlace := rfl
  conv at opened =>
    rhs
    delta icPlace
  rw [opened]
  beta_reduce
  rw [hr]
  dsimp only
  rw [icEvict_of_room hl, hu]

theorem icFill_good {t : Nat} (h : icPlace s t (thrOf s t).pc.toNat = (none, v)) : icFill s t = settleAll (endWait v t (thrOf v t)) := by
  have opened : icFill = icFill := rfl
  conv at opened =>
    rhs
    delta icFill
  rw [opened]
  beta_reduce
  rw [h]

theorem icLate_good {t : Nat} {pc : W32} {rest : List W32} (hw : w = setThr s t { thrOf s t with fills := rest })
    (h : icPlace w t pc.toNat = (none, v)) : icLate s t pc rest = v := by
  have opened : icLate = icLate := rfl
  conv at opened =>
    rhs
    delta icLate
  rw [opened]
  beta_reduce
  rw [← hw, h]

theorem exec_icacheMissFill {t : BitVec 14} (hu : thrUp s t.toNat = true) (hm : isMgt t.toNat = false)
    (hp : parked s (cluOf t.toNat) = false) :
    exec (.icacheMissFill t) s = .next (match (thrOf s t.toNat).fills with
      | pc :: rest => icLate s t.toNat pc rest
      | [] => if (thrOf s t.toNat).wait == .fetch then icFill s t.toNat else s) := by
  change execIcacheMissFill t s = _
  rw [execIcacheMissFill, if_pos (by simp [hu, hm, hp])] <;> rfl

theorem exec_icInv (hu : clUp s n.val = true) : exec (.icInv n) s = .next (s.setFlag F.GCL_CTL_IC_INV n.val true) := by
  change execIcInv n s = _
  rw [execIcInv, if_pos hu, icInv]

theorem exec_icInvDone (hu : clUp s n.val = true) (hi : s.flag F.GCL_CTL_IC_INV n.val = true) :
    exec (.icInvDone n) s = .next (icInvDone s n.val) := by
  change execIcInvDone n s = _
  rw [execIcInvDone, if_pos (by simp [hu, hi])]

theorem exec_clusterStart (hu : clUp s n.val = true) : exec (.clusterStart n) s = .next (clusterStart s n.val) := by
  change execClusterStart n s = _
  rw [execClusterStart, if_pos hu]

/-! ## The fault queue -/

theorem exec_faultqPop (hu : clUp s n.val = true) : exec (.faultqPop n) s = .next (faultqPop s n.val) := by
  change execFaultqPop n s = _
  rw [execFaultqPop, if_pos hu]

theorem faultqPop_empty {n : Nat} (h : faultqOf s n = []) : faultqPop s n = { s with rdata := 0 } := by
  rw [faultqPop, h]

theorem faultqPop_cons {n : Nat} {r : List W32} {l : List (List W32)} (h : faultqOf s n = r :: l)
    (hu : u = foldS [0, 1, 2, 3] (fun u k => u.setReg .GCL_FAULTQ_REC (4 * n + k) (r.getD k 0).toNat)
      { s with gar := { s.gar with faultq := mset noRecs s.gar.faultq n l } }) :
    faultqPop s n = settleAll { levelSrc u (96 + n) (!l.isEmpty) 0 with rdata := BitVec.ofNat 64 (2 ^ 31 + l.length) } := by
  rw [faultqPop, h]
  dsimp only
  rw [← hu]

/-! ## Thread control -/

/-- What operation `op` of GCL_THRCTL does to thread `t` of cluster `n`; the row's settling follows. -/
def thrctlAct (s : State) (n t op : Nat) (pc : W32) (sev : Nat) : State :=
  if op = 1 then (if (thrOf s t).st == .fault then thrResume s t else thrctlReject s n)
  else if op = 2 then (if (thrOf s t).st == .fault then goAt s t ((thrOf s t).pc + 4) else thrctlReject s n)
  else if op = 3 then (if (thrOf s t).st == .fault then goAt s t (BitVec.ofNat 32 (pc.toNat / 4 * 4)) else thrctlReject s n)
  else if op = 4 then (if (thrOf s t).st == .fault && (thrOf s t).item.isSome then thrDrop s t else thrctlReject s n)
  else if op = 5 then (if isSupv s t then thrctlReject s n else thrReset s t)
  else if op = 6 then (if (thrOf s t).st = .dormant then
      startThr s t (BitVec.ofNat 32 (pc.toNat / 4 * 4)) (isSupv s t || thrMask s .GCL_THR_PRIV t) else thrctlReject s n)
  else if op = 7 then (if (thrOf s t).st = .dormant then thrctlReject s n else setEv s t (BitVec.ofNat 16 (sev % 256 * 256)))
  else thrctlReject s n

theorem thrctlRow_acts {i sev : Byte} {t op : Nat} {pc : W32} (hu : clUp s n.val = true) (ht : t = 256 * n.val + i.toNat) (ho : op ≠ 0) :
    thrctlRow n i op pc sev s = .next (settleAll (thrctlAct s n.val t op pc sev.toNat)) := by
  rw [thrctlRow, if_pos hu, thrctl]
  rw [if_neg ho, ← ht]
  rfl

variable {i sev : Byte} {t : Nat} {pc : W32}

theorem exec_thrctlResume (hu : clUp s n.val = true) (ht : t = 256 * n.val + i.toNat) : exec (.thrctlResume n i) s =
    .next (settleAll (if (thrOf s t).st == .fault then thrResume s t else thrctlReject s n.val)) := by
  change thrctlRow n i 1 0 0 s = _
  rw [thrctlRow_acts hu ht (by decide), thrctlAct, if_pos rfl]

theorem exec_thrctlSkip (hu : clUp s n.val = true) (ht : t = 256 * n.val + i.toNat) : exec (.thrctlSkip n i) s =
    .next (settleAll (if (thrOf s t).st == .fault then goAt s t ((thrOf s t).pc + 4) else thrctlReject s n.val)) := by
  change thrctlRow n i 2 0 0 s = _
  rw [thrctlRow_acts hu ht (by decide), thrctlAct, if_neg (by decide), if_pos rfl]

theorem exec_thrctlRedirect (hu : clUp s n.val = true) (ht : t = 256 * n.val + i.toNat) : exec (.thrctlRedirect n i pc) s =
    .next (settleAll (if (thrOf s t).st == .fault then goAt s t (BitVec.ofNat 32 (pc.toNat / 4 * 4)) else thrctlReject s n.val)) := by
  change thrctlRow n i 3 pc 0 s = _
  rw [thrctlRow_acts hu ht (by decide), thrctlAct, if_neg (by decide), if_neg (by decide), if_pos rfl]

theorem exec_thrctlDrop (hu : clUp s n.val = true) (ht : t = 256 * n.val + i.toNat) : exec (.thrctlDrop n i) s =
    .next (settleAll (if (thrOf s t).st == .fault && (thrOf s t).item.isSome then thrDrop s t else thrctlReject s n.val)) := by
  change thrctlRow n i 4 0 0 s = _
  rw [thrctlRow_acts hu ht (by decide), thrctlAct, if_neg (by decide), if_neg (by decide), if_neg (by decide), if_pos rfl]

theorem exec_thrctlReset (hu : clUp s n.val = true) (ht : t = 256 * n.val + i.toNat) : exec (.thrctlReset n i) s =
    .next (settleAll (if isSupv s t then thrctlReject s n.val else thrReset s t)) := by
  change thrctlRow n i 5 0 0 s = _
  rw [thrctlRow_acts hu ht (by decide), thrctlAct, if_neg (by decide), if_neg (by decide), if_neg (by decide), if_neg (by decide), if_pos rfl]

theorem exec_thrctlStart (hu : clUp s n.val = true) (ht : t = 256 * n.val + i.toNat) : exec (.thrctlStart n i pc) s =
    .next (settleAll (if (thrOf s t).st = .dormant then
      startThr s t (BitVec.ofNat 32 (pc.toNat / 4 * 4)) (isSupv s t || thrMask s .GCL_THR_PRIV t) else thrctlReject s n.val)) := by
  change thrctlRow n i 6 pc 0 s = _
  rw [thrctlRow_acts hu ht (by decide), thrctlAct, if_neg (by decide), if_neg (by decide), if_neg (by decide), if_neg (by decide),
    if_neg (by decide), if_pos rfl]

theorem exec_thrctlSignal (hu : clUp s n.val = true) (ht : t = 256 * n.val + i.toNat) : exec (.thrctlSignal n i sev) s =
    .next (settleAll (if (thrOf s t).st = .dormant then thrctlReject s n.val
      else setEv s t (BitVec.ofNat 16 (sev.toNat % 256 * 256)))) := by
  change thrctlRow n i 7 0 sev s = _
  rw [thrctlRow_acts hu ht (by decide), thrctlAct, if_neg (by decide), if_neg (by decide), if_neg (by decide), if_neg (by decide),
    if_neg (by decide), if_neg (by decide), if_pos rfl]

/-- With nothing that it waits for, a thread resumes at the instruction that faulted. -/
theorem thrResume_noWait (h : (thrOf s t).wait = .none) : thrResume s t = goAt s t (thrOf s t).pc := by
  rw [thrResume]
  rw [h]

theorem startThr_dormant {priv : Bool} (h : (thrOf s t).st = .dormant) :
    startThr s t pc priv = setThr s t { thrOf s t with st := .ready, pc := pc, priv := priv, readyAt := s.clk } := by
  rw [startThr]
  dsimp only
  rw [if_pos h]

theorem setEv_awake {m : W16} (h : (thrOf s t).st ≠ .dormant) : setEv s t m = setThr s t { thrOf s t with ev := (thrOf s t).ev ||| m } := by
  rw [setEv]
  dsimp only
  rw [if_neg h]

theorem exec_supervisorChange (hu : clUp s n.val = true) : exec (.supervisorChange n i) s = .next (supvWrite s n.val i.toNat) := by
  change execSupervisorChange n i s = _
  rw [execSupervisorChange, if_pos hu]

theorem supvWrite_fromDormant {n i : Nat} (hg : inAnyGroup s n i = false)
    (hd : (thrOf s (256 * n + s.fld F.GCL_SUPV_TID n)).st = .dormant) :
    supvWrite s n i = settleAll (disarmBudget (s.setFld F.GCL_SUPV_TID n i) (256 * n + i)) := by
  rw [supvWrite, if_neg (by simp [hg])]
  dsimp only
  rw [if_pos hd]

theorem supvWrite_refused {n i : Nat} (hg : inAnyGroup s n i = true) : supvWrite s n i = s.setFlag F.GCL_SUPV_REJECT n true := by
  rw [supvWrite, if_pos hg]

end

/-- The caches and the start of O21. -/
theorem clusterCaches_settled {s u v : State} {t : BitVec 14} {pc : Nat} (ht : thrUp s t.toNat = true) (hm : isMgt t.toNat = false)
    (hp : parked s (cluOf t.toNat) = false) (hw : (thrOf s t.toNat).wait = .fetch) (hf : (thrOf s t.toNat).fills = [])
    (hpc : pc = (thrOf s t.toNat).pc.toNat)
    (hr : placeRead s t.toNat (.shared (pc - 0x100000)) 4 = ((placeRead s t.toNat (.shared (pc - 0x100000)) 4).1, none, s))
    (hl : (icOf s (coreOf t.toNat)).length < 4096)
    (hu : u = { s with gar := { s.gar with icache := mset noWord s.gar.icache (icKey t.toNat pc) (some (icWord s (cluOf t.toNat) pc)) } })
    (hv : v = noteWrite u 5 (cluOf t.toNat) (icKey t.toNat pc) (icKey t.toNat pc) true) :
    exec (.icacheMissFill t) s = .next (settleAll (endWait v t.toNat (thrOf v t.toNat))) := by
  rw [exec_icacheMissFill ht hm hp, hf]
  dsimp only
  have placed : icPlace s t.toNat (thrOf s t.toNat).pc.toNat = (none, v) := by
    rw [← hpc, icPlace_good hr hl hu, ← hv]
  rw [hw, if_pos (by rfl), icFill_good placed]

/-- A fill for which no thread waits enters the cache and ends. -/
theorem lateFill_settled {s w u : State} {t : BitVec 14} {p : W32} {r : List W32} {pc : Nat} (ht : thrUp s t.toNat = true)
    (hm : isMgt t.toNat = false) (hp : parked s (cluOf t.toNat) = false) (hf : (thrOf s t.toNat).fills = p :: r) (hpc : pc = p.toNat)
    (hw : w = setThr s t.toNat { thrOf s t.toNat with fills := r })
    (hr : placeRead w t.toNat (.shared (pc - 0x100000)) 4 = ((placeRead w t.toNat (.shared (pc - 0x100000)) 4).1, none, w))
    (hl : (icOf w (coreOf t.toNat)).length < 4096)
    (hu : u = { w with gar := { w.gar with icache := mset noWord w.gar.icache (icKey t.toNat pc) (some (icWord w (cluOf t.toNat) pc)) } }) :
    exec (.icacheMissFill t) s = .next (noteWrite u 5 (cluOf t.toNat) (icKey t.toNat pc) (icKey t.toNat pc) true) := by
  rw [exec_icacheMissFill ht hm hp, hf]
  dsimp only
  have placed : icPlace w t.toNat p.toNat = (none, noteWrite u 5 (cluOf t.toNat) (icKey t.toNat pc) (icKey t.toNat pc) true) := by
    rw [← hpc, icPlace_good hr hl hu]
  rw [icLate_good hw placed]

/-- Settles O21: each operation of GCL_THRCTL by its own line of `thrctlAct`. -/
theorem clusterCachesAndThreads : Obligations.ClusterCachesAndThreads := by
  refine ⟨⟨fun s u v t pc ht hm hp hw hf hpc hr hl hu hv => clusterCaches_settled ht hm hp hw hf hpc hr hl hu hv,
      fun s w u t p r pc ht hm hp hf hpc hw hr hl hu => lateFill_settled ht hm hp hf hpc hw hr hl hu, fun s n hu => exec_icInv hu,
      fun s n hu hi => exec_icInvDone hu hi, fun s n hu => exec_clusterStart hu⟩,
    fun s n hu he => ?_, fun s u n r l hu he h => ?_, fun s n i t pc hu ht hf => ⟨?_, ?_, ?_, ?_⟩,
    fun s n i t pc hu ht hf => ⟨?_, ?_, fun hw => ?_, fun h hi => ?_⟩, fun s n i t hu ht => ⟨fun hv => ?_, fun hv => ?_⟩,
    fun s n i sev t pc hu ht => ⟨fun hd => ?_, fun hd => ?_, fun hd => ?_, fun hd => ?_⟩, fun s n i hu hg hd => ?_, fun s n i hu hg => ?_⟩
  · rw [exec_faultqPop hu, faultqPop_empty he]
  · rw [exec_faultqPop hu, faultqPop_cons he h]
  · rw [exec_thrctlResume hu ht, if_neg (by simp [hf]), thrctlReject]
  · rw [exec_thrctlSkip hu ht, if_neg (by simp [hf]), thrctlReject]
  · rw [exec_thrctlRedirect hu ht, if_neg (by simp [hf]), thrctlReject]
  · rw [exec_thrctlDrop hu ht, if_neg (by simp [hf]), thrctlReject]
  · rw [exec_thrctlSkip hu ht, if_pos (by simp [hf])]
  · rw [exec_thrctlRedirect hu ht, if_pos (by simp [hf])]
  · rw [exec_thrctlResume hu ht, if_pos (by simp [hf]), thrResume_noWait hw]
  · rw [exec_thrctlDrop hu ht, if_pos (by simp [hf, hi])]
  · rw [exec_thrctlReset hu ht, if_neg (by simp [hv])]
  · rw [exec_thrctlReset hu ht, if_pos hv, thrctlReject]
  · rw [exec_thrctlStart hu ht, if_pos hd, startThr_dormant hd]
  · rw [exec_thrctlStart hu ht, if_neg hd, thrctlReject]
  · rw [exec_thrctlSignal hu ht, if_neg hd, setEv_awake hd]
  · rw [exec_thrctlSignal hu ht, if_pos hd, thrctlReject]
  · rw [exec_supervisorChange hu, supvWrite_fromDormant hg hd]
  · rw [exec_supervisorChange hu, supvWrite_refused hg]

end Sys2Proof.Machine

/-!
PROOF. Timer compares, budgets, wait groups and channels, and the ends of long stalls (R229, R236–R238, R273–R289, R318–R336).
-/

namespace Sys2Proof.Machine

section
variable {s u v : State} {t : BitVec 14}

/-! ## What comes when its time has come -/

theorem exec_timerCompareFire {n : Nat} {w : W64} (hu : u = advance s n) (ht : thrUp u t.toNat = true)
    (hp : isMgt t.toNat = true ∨ parked u (cluOf t.toNat) = false) (hc : (thrOf u t.toNat).tcmp = some w) (hd : w.toNat ≤ nt64 u) :
    exec (.timerCompareFire t n) s = .next (settleAll (setThr u t.toNat { thrOf u t.toNat with
      tcmp := none, ev := (thrOf u t.toNat).ev ||| 1 })) := by
  have clocked : (isMgt t.toNat || !parked u (cluOf t.toNat)) = true := by
    rcases hp with hp | hp <;> simp [hp]
  have due : tcmpDue u t.toNat = true := by
    rw [tcmpDue, ht, clocked, hc]
    exact decide_eq_true hd
  change execTimerCompareFire t n s = _
  rw [execTimerCompareFire, ← hu, if_pos due, tcmpFire]

theorem exec_budgetExpire {n : Nat} (hu : u = advance s n) (ht : thrUp u t.toNat = true) (hb : budgetOut u t.toNat = true)
    (hs : (thrOf u t.toNat).st = .run ∨ (thrOf u t.toNat).st = .ready ∨ (thrOf u t.toNat).st = .stall) :
    exec (.budgetExpire t n) s = .next (budgetFault u t.toNat) := by
  have counting : ((thrOf u t.toNat).st == .run || (thrOf u t.toNat).st == .ready || (thrOf u t.toNat).st == .stall) = true := by
    rcases hs with hs | hs | hs <;> simp [hs]
  change execBudgetExpire t n s = _
  rw [execBudgetExpire, ← hu]
  rw [ht, hb, counting]
  rfl

theorem budgetFault_running {t : Nat} (hs : (thrOf u t).st = .run ∨ (thrOf u t).st = .ready) :
    budgetFault u t = thrFault u t cBudget 0 := by
  have notStalled : (thrOf u t).st ≠ .stall := by
    rcases hs with hs | hs <;> simp [hs]
  rw [budgetFault, if_neg notStalled]

theorem budgetFault_stalled {t : Nat} (hs : (thrOf u t).st = .stall) : budgetFault u t = thrFault (cutWait u t) t cBudget 0 := by
  rw [budgetFault, if_pos hs]

/-- An event set leaves everything but the thread. -/
theorem setEv_keeps (s : State) (t : Nat) (m : W16) :
    setEv s t m = { s with gar := (setEv s t m).gar } ∧ (setEv s t m).gar.wg = s.gar.wg := by
  rw [setEv]
  split
  · exact ⟨rfl, rfl⟩
  · exact ⟨rfl, rfl⟩

theorem exec_deadlockDetect {n : Fin 32} {w : Fin 8} {k : Nat} (hu : u = advance s k) (hc : clUp u n.val = true)
    (hp : parked u n.val = false) (hd : wgDue u n.val w.val = true) :
    exec (.deadlockDetect n w k) s = .next (deadlock u n.val w.val) := by
  change execDeadlockDetect n w k s = _
  rw [execDeadlockDetect, ← hu]
  rw [if_pos (by simp [hc, hp, hd])]

/-- DEADLOCK is an event of the supervisor, a source and a count; the group has raised it. -/
theorem deadlock_raises (u : State) (n w : Nat) :
    ∃ v : State, deadlock u n w = settleAll (count (raiseSrc v (64 + n) w) (393216 + 4096 * n + 4094) 1 0) ∧
      v = { u with gar := v.gar, regs := v.regs } ∧
      v.gar.wg = mset noWg u.gar.wg (8 * n + w) { mget noWg u.gar.wg (8 * n + w) with raised := true } := by
  refine ⟨_, rfl, ?_, (setEv_keeps _ _ _).2⟩
  rw [(setEv_keeps _ _ _).1]
  rfl

/-! ## Channels -/

theorem exec_channelDisable {n : Fin 32} {c : Fin 64} {k : Nat} (hc : clUp s n.val = true) (hk : k = 64 * n.val + c.val)
    (he : chanEn s k = true) (hu : u = sendersOff (s.setFlag F.GCL_CH_CFG_EN k false) (· == k)) :
    exec (.channelDisable n c) s = .next (settleAll (chanDrain (receiversOff u k) k)) := by
  change execChannelDisable n c s = _
  rw [execChannelDisable, if_pos hc, ← hk, chanDisable, if_pos he, hu]

theorem exec_channelMessageArrival {n : Fin 32} {c : Fin 64} {i k : Nat} {m : Msg} (hk : k = 64 * n.val + c.val)
    (hm : transitPick s k i = some (k, m)) (hu : u = { s with gar := { s.gar with transit := s.gar.transit.erase (k, m) } }) :
    exec (.channelMessageArrival n c i) s =
      .next (settleAll (if clUp u n.val then setChan u k (chanOf u k ++ [m]) else noteChoff u m.from_)) := by
  have cluster : k / 64 = n.val := by omega
  have sameClusters : clUp u n.val = clUp s n.val := by rw [hu]; rfl
  change execChannelMessageArrival n c i s = _
  rw [execChannelMessageArrival, ← hk, hm]
  dsimp only
  rw [transitLand]
  dsimp only
  rw [cluster, ← hu, sameClusters]

theorem exec_chsendUnblock {rd c : Nat} {a : Nat × List W32} {ws : List W32} (hw : (thrOf s t.toNat).wait = .send rd c ws)
    (hh : (blockedSend s c).head? = some (t.toNat, a)) (ht : chanTakes s c = true) (hr : chanRoom s c = true)
    (hu : u = chanCommit s t.toNat c a.2) :
    exec (.chsendUnblock t) s = .next (settleAll (endWaitNext u t.toNat (setStatus (thrOf u t.toNat) a.1 0 0))) := by
  change execChsendUnblock t s = _
  rw [execChsendUnblock, hw]
  dsimp only
  rw [hh]
  dsimp only
  rw [if_pos rfl, sendGo, if_pos (by simp [ht, hr])]
  dsimp only
  rw [← hu]

theorem exec_chrecvUnblock {rd c n : Nat} {a : W32} {b : Nat × W32} (hw : (thrOf s t.toNat).wait = .recv rd a c)
    (hh : (blockedRecv s c).head? = some (t.toNat, b)) (hm : chanTake s t.toNat c b.2.toNat = some (n, u)) :
    exec (.chrecvUnblock t) s = .next (settleAll (recvEnd (endWaitNext u t.toNat (setStatus (thrOf u t.toNat) b.1 0 n)) c)) := by
  change execChrecvUnblock t s = _
  rw [execChrecvUnblock, hw]
  dsimp only
  rw [hh]
  dsimp only
  rw [if_pos rfl, recvGo, hm]

/-- A thread in the list of blocked senders waits in a send to that channel. -/
theorem mem_blockedSend {c t : Nat} {a : Nat × List W32} (h : (t, a) ∈ blockedSend s c) :
    t ∈ s.gar.chq ∧ (thrOf s t).wait = .send a.1 c a.2 ∧ thrUp s t = true ∧ parked s (cluOf t) = false := by
  obtain ⟨x, inQueue, waits⟩ := List.mem_filterMap.mp h
  split at waits
  next rd ch ws sends =>
    split at waits
    next eligible =>
      cases waits
      simp only [Bool.and_eq_true, decide_eq_true_eq, Bool.not_eq_true'] at eligible
      obtain ⟨⟨⟨rfl, _⟩, up⟩, running⟩ := eligible
      exact ⟨inQueue, sends, up, running⟩
    next => contradiction
  next => contradiction

theorem mem_blockedRecv {c t : Nat} {a : Nat × W32} (h : (t, a) ∈ blockedRecv s c) :
    t ∈ s.gar.chq ∧ (thrOf s t).wait = .recv a.1 a.2 c ∧ thrUp s t = true ∧ parked s (cluOf t) = false := by
  obtain ⟨x, inQueue, waits⟩ := List.mem_filterMap.mp h
  split at waits
  next rd ad ch receives =>
    split at waits
    next eligible =>
      cases waits
      simp only [Bool.and_eq_true, decide_eq_true_eq, Bool.not_eq_true'] at eligible
      obtain ⟨⟨⟨rfl, _⟩, up⟩, running⟩ := eligible
      exact ⟨inQueue, receives, up, running⟩
    next => contradiction
  next => contradiction

/-! ## Cells and transfers -/

theorem exec_cellOpComplete_first {a : CellReq} (ht : thrUp s t.toNat = true) (ha : nextAcc (thrOf s t.toNat) false = some a) :
    exec (.cellOpComplete t) s = .next (settleAll (accFinish (landLocal s t.toNat a.dst.toNat a.data a.poison) t.toNat a)) := by
  change execCellOpComplete t s = _
  rw [execCellOpComplete, if_neg (by simp [ht]), ha]

/-- The transfer reads host memory. -/
def readsHost (a : CellReq) : Bool := match a.xfer with | some (_, out, some _, _) => !out && a.ok | _ => false

/-- The bytes that a transfer moves. -/
def xferBytes (a : CellReq) : Nat := match a.xfer with | some (_, _, _, n) => n | none => 0

/-- The answer of a transfer whose read has failed. -/
def dmaFailed (a : CellReq) : CellReq := { a with val := BitVec.ofNat 32 tsDmaErr, ok := false }

/-- Thread `t`'s transfer `a` is answered by `b` in its place. -/
def replaceAcc (s : State) (t : Nat) (a b : CellReq) : State :=
  setThr s t { thrOf s t with acc := (thrOf s t).acc.map (fun c => if c = a then b else c) }

theorem exec_dmaComplete {a : CellReq} {data : List Byte} {err : Bool} (ht : thrUp s t.toNat = true)
    (ha : nextAcc (thrOf s t.toNat) true = some a) :
    exec (.dmaComplete t data err) s = .next (
      if !readsHost a then settleAll (accFinish (landLocal s t.toNat a.dst.toNat a.data a.poison) t.toNat a)
      else if err then settleAll (accFinish (landLocal (replaceAcc (freeBytes s (xferBytes a)).2 t.toNat a (dmaFailed a)) t.toNat a.dst.toNat
        (freeBytes s (xferBytes a)).1 []) t.toNat (dmaFailed a))
      else settleAll (accFinish (landLocal s t.toNat a.dst.toNat ((data ++ List.replicate (xferBytes a) 0).take (xferBytes a)) [])
        t.toNat a)) := by
  change execDmaComplete t data err s = _
  rw [execDmaComplete, if_neg (by simp [ht]), ha]
  rfl

theorem readsHost_false {a : CellReq} (h : ∀ (p : Nat) (out : Bool) (fn : Option Nat) (n : Nat), a.xfer = some (p, out, fn, n) →
    out = true ∨ fn = none ∨ a.ok = false) : readsHost a = false := by
  rw [readsHost]
  split
  next p out fn n hx =>
    rcases h p out (some fn) n hx with ho | hf | hk
    · rw [ho]
      rfl
    · contradiction
    · rw [hk, Bool.and_false]
  next => rfl

theorem readsHost_true {a : CellReq} {p k n : Nat} (hx : a.xfer = some (p, false, some k, n)) (hk : a.ok = true) :
    readsHost a = true ∧ xferBytes a = n := by
  rw [readsHost, xferBytes, hx]
  exact ⟨hk, rfl⟩

/-! ## Orrery's waits -/

theorem exec_enqUnblock {rd st : Nat} {qd flow : W32} {derived : Bool} {it : Item} (ht : thrUp s t.toNat = true)
    (hs : (thrOf s t.toNat).st = .stall) (hw : (thrOf s t.toNat).wait = .enq rd qd flow (derived, it))
    (hr : thrEnqReady s t.toNat qd derived = true) (he : thrEnq s t.toNat qd flow derived it = (st, u)) :
    exec (.enqUnblock t) s = .next (settleAll (endWaitNext u t.toNat (setStatus (thrOf u t.toNat) rd st 0))) := by
  change execEnqUnblock t s = _
  rw [execEnqUnblock, hw]
  dsimp only
  rw [if_pos (by simp [ht, hs, hr]), he]

theorem exec_gateRecordWaitEnd {rd st : Nat} {a b : W32} {final : Bool} {hdr : List Byte} {it : Item} {h : Held}
    (ht : thrUp s t.toNat = true) (hs : (thrOf s t.toNat).st = .stall) (hw : (thrOf s t.toNat).wait = .gate rd a b (final, hdr, it))
    (hi : (thrOf s t.toNat).item = some h) (hg : emitWaits s h final it = false)
    (he : emitRun s t.toNat h final a.toNat b hdr it = (st, u)) :
    exec (.gateRecordWaitEnd t) s = .next (settleAll (endWaitNext u t.toNat (setStatus (thrOf u t.toNat) rd st 0))) := by
  change execGateRecordWaitEnd t s = _
  rw [execGateRecordWaitEnd, hw, hi]
  dsimp only
  rw [if_pos (by simp [ht, hs, hg]), he]

end

/-- Settles O22: each clause is the branch that a time that has come, a message or a unit's answer takes. -/
theorem clusterTimersAndStalls : Obligations.ClusterTimersAndStalls := by
  refine ⟨⟨fun s u t n v hu ht hp hc hd => exec_timerCompareFire hu ht hp hc hd, fun s u t n hu ht hb hs => ?_,
      fun s u t n hu ht hb hs => ?_, fun s u n w k hu hc hp hd => ?_⟩,
    ⟨fun s u n c k hc hk he hu => exec_channelDisable hc hk he hu, fun s u n c i k m hk hm hu hc => ?_, fun s u n c i k m hk hm hu hc => ?_⟩,
    fun s t a ht ha => exec_cellOpComplete_first ht ha, fun s t a data err ht ha hx => ?_, fun s t a data p k n ht ha hx hk hn => ?_,
    fun s u v t a b data bs p k n ht ha hx hk hf hb hv => ?_,
    fun s u t rd st qd flow derived it ht hs hw hr he => exec_enqUnblock ht hs hw hr he,
    fun s u t rd st a b final hdr it h ht hs hw hi hg he => exec_gateRecordWaitEnd ht hs hw hi hg he,
    fun s u t rd c a ws hw hh ht hr hu => exec_chsendUnblock hw hh ht hr hu, fun s u t rd c n a b hw hh hm => exec_chrecvUnblock hw hh hm,
    fun s c t a h => mem_blockedSend h, fun s c t a h => mem_blockedRecv h⟩
  · rw [exec_budgetExpire hu ht hb (hs.imp_right .inl), budgetFault_running hs]
  · rw [exec_budgetExpire hu ht hb (.inr (.inr hs)), budgetFault_stalled hs]
  · rw [exec_deadlockDetect hu hc hp hd]
    obtain ⟨v, raised, kept, group⟩ := deadlock_raises u n.val w.val
    exact ⟨v, congrArg _ raised, kept, group⟩
  · rw [exec_channelMessageArrival hk hm hu, if_pos hc]
  · rw [exec_channelMessageArrival hk hm hu, if_neg (by simp [hc])]
  · rw [exec_dmaComplete ht ha, readsHost_false hx, if_pos (by simp)]
  · obtain ⟨reads, bytes⟩ := readsHost_true hx hk
    rw [exec_dmaComplete ht ha, reads, bytes, if_neg (by simp), if_neg (by simp), List.take_append_of_le_length (le_of_eq hn.symm),
      ← hn, List.take_length]
  · obtain ⟨reads, bytes⟩ := readsHost_true hx hk
    have failed : dmaFailed a = b := hb.symm
    rw [exec_dmaComplete ht ha, reads, bytes, if_neg (by simp), if_pos rfl, hf, failed, replaceAcc, ← hv]

end Sys2Proof.Machine

/-!
PROOF. Frequency steps and parking (R292, R293, R481, R482, R487), and the controls of a cluster's coprocessors (R345, R350, R353, R358).
-/

namespace Sys2Proof.Machine

section
variable {s u v : State} {n : Fin 32}

/-! ## Frequency steps and parking -/

theorem exec_frequencyStep (ha : s.rst.aon = true) (hc : clusterPresent s n.val = true) (hp : parked s n.val = false) :
    exec (.frequencyStep n) s = .next (stepApply s n.val) := by
  change execFrequencyStep n s = _
  rw [execFrequencyStep, if_pos (by simp [ha, hc, hp])]

/-- With no step in progress, the one that STEP and LIMIT ask for takes effect. -/
theorem stepApply_idle {k : Nat} (h : mget noNat s.rst.stepTo k = 0) :
    stepApply s k = stepBegin (stepSet s k (min (s.fld F.RST_CLU_CLK_STEP k) (s.fld F.RST_CLU_CLK_LIMIT k))) k := by
  rw [stepApply]
  rw [if_pos h]
  rfl

theorem stepApply_pending {k g : Nat} (h : mget noNat s.rst.stepTo k = g + 1) : stepApply s k = stepBegin (stepSet s k g) k := by
  rw [stepApply]
  rw [h, if_neg (Nat.succ_ne_zero g), Nat.add_sub_cancel]

theorem stepBegin_regs {k : Nat} : (stepBegin s k).regs = s.regs := by
  rw [stepBegin]
  split <;> rfl

theorem stepSet_stepCur {k x : Nat} (hw : mwf regReset s.regs = true) (hx : x < 3) : (stepSet s k x).fld F.RST_CLU_CLK_STEP_CUR k = x := by
  have hwf : mwf regReset (wgFold s k).regs = true := hw
  calc (stepSet s k x).fld F.RST_CLU_CLK_STEP_CUR k
      = ((wgFold s k).setFld F.RST_CLU_CLK_STEP_CUR k x).fld F.RST_CLU_CLK_STEP_CUR k := State.fld_of_regs rfl _ _
    _ = x % 2 ^ 2 := State.fld_setFld_same hwf (by decide) (by decide) k x
    _ = x := Nat.mod_eq_of_lt (by omega)

theorem exec_clusterPark (hu : clUp s n.val = true) (hk : s.flag F.RST_CLU_CLK_PARK n.val = true) (hp : parked s n.val = false)
    (hd : cluDrained s n.val = true) : exec (.clusterPark n) s = .next (parkNow s n.val) := by
  change execClusterPark n s = _
  rw [execClusterPark, if_pos (by simp [hu, hk, hp, hd])]

theorem parkNow_eq {k : Nat} (hv : v = (if mget noNat s.rst.stepTo k = 0 then s else stepApply s k))
    (hu : u = (wgFold v k).setFlag F.RST_CLU_CLK_PARKED k true) :
    parkNow s k = if u.flag F.RST_CLU_CLK_DEEP k then u.setFlag F.RST_CLU_CLK_PLL_LOCK k false else u := by
  rw [parkNow, ← hv]
  rw [← hu]

theorem exec_clusterUnpark (hu : clUp s n.val = true) (hk : s.flag F.RST_CLU_CLK_PARK n.val = false) (hp : parked s n.val = true) :
    exec (.clusterUnpark n) s = .next (unparkNow s n.val) := by
  change execClusterUnpark n s = _
  rw [execClusterUnpark, if_pos (by simp [hu, hk, hp])]

/-! ## Coprocessor commits and controls -/

theorem exec_cpxCommit {x : Fin 2} {l : Fin 16} (hl : cpxLive s n.val x.val = true) (hp : parked s n.val = false) :
    exec (.cpxCommit n x l) s = .next (settleAll (cpxCommit s n.val x.val l.val)) := by
  change execCpxCommit n x l s = _
  rw [execCpxCommit, if_pos (by simp [hl, hp])]

/-- A command that its lane's holder gave, and that is neither a move, a lock nor an unlock, runs and leaves the queue. -/
theorem cpxCommitOne_runs {k x l : Nat} {c : CpxCmd} (hc : cpxNext s k x l = some c) (hm : c.move = none) (hl : isLock c = false)
    (hh : (laneOf s k x l).holder = some c.thr) (hu : c.cop ≠ 1) :
    cpxCommitOne s k x l = dropCmd (cpxRun s k x c) k x c := by
  rw [cpxCommitOne, hc]
  dsimp only
  rw [hl, if_neg (by decide), if_neg (by simp [hh]), hm]
  dsimp only
  rw [if_neg hu]

theorem exec_laneFree {x : Fin 2} {l : Fin 16} (h : cpxLive s n.val x.val = true) :
    exec (.laneFree n x l) s = .next (settleAll (laneFree s n.val x.val l.val)) := by
  change execLaneFree n x l s = _
  rw [execLaneFree, if_pos h, laneCtl, if_pos rfl]

theorem exec_laneClrErr {x : Fin 2} {l : Fin 16} (h : cpxLive s n.val x.val = true) :
    exec (.laneClrErr n x l) s = .next (setLane s n.val x.val l.val { laneOf s n.val x.val l.val with err := false }) := by
  change execLaneClrErr n x l s = _
  rw [execLaneClrErr, if_pos h, laneCtl, if_neg (by decide), if_pos rfl, laneClrErr]

theorem exec_keySlotCommit {k : Fin 512} {valid k256 : Bool} (h : cpxLive s n.val 0 = true) :
    exec (.keySlotCommit n k valid k256) s = .next (keyCommit s n.val k.val valid k256) := by
  change execKeySlotCommit n k valid k256 s = _
  rw [execKeySlotCommit, if_pos h]

theorem keyCommit_clears {i k : Nat} {k256 : Bool}
    (hu : u = { s with cpx := { s.cpx with kbuf := mkeep (fun j => j / 8 != 512 * i + k) s.cpx.kbuf } }) :
    keyCommit s i k false k256 = setSlot u i k ⟨[], false, false⟩ := by
  rw [hu, keyCommit]
  rfl

theorem keyCommit_sets {i k : Nat} {k256 : Bool}
    (hu : u = { s with cpx := { s.cpx with kbuf := mkeep (fun j => j / 8 != 512 * i + k) s.cpx.kbuf } }) :
    keyCommit s i k true k256 = setSlot u i k ⟨(List.range 8).flatMap (fun j =>
      leBytes 4 (mget noW32 s.cpx.kbuf (8 * (512 * i + k) + j)).toNat), true, k256⟩ := by
  rw [hu, keyCommit]
  rfl

theorem exec_cpxDisable {x : Fin 2} (h : cpxLive s n.val x.val = true) (he : s.flag F.CPX_CFG_EN (2 * n.val + x.val) = true) :
    exec (.cpxDisable n x) s = .next (settleAll (cpxDisable s n.val x.val)) := by
  change execCpxDisable n x s = _
  rw [execCpxDisable, if_pos h, cpxOff, if_pos he]

end

/-- Settles O23: a step in progress or asked for takes effect, and parking keeps the groups' counts; a lane's command runs for its holder,
and the controls act on a unit whose cluster runs. -/
theorem clusterClocksAndCoprocessors : Obligations.ClusterClocksAndCoprocessors := by
  refine ⟨⟨fun s n ha hc hp h => ?_, fun s n g ha hc hp h => ?_, fun s n v hw hv => ?_, fun s v u n hu hk hp hd hv hw => ?_,
    fun s u n hu hk hp hw => ?_⟩, ?_, ?_, ?_, ?_, ?_⟩
  · rw [exec_frequencyStep ha hc hp, stepApply_idle h]
  · rw [exec_frequencyStep ha hc hp, stepApply_pending h]
  · rw [State.fld_of_regs stepBegin_regs]
    exact stepSet_stepCur hw hv
  · rw [exec_clusterPark hu hk hp hd, parkNow_eq hv hw]
  · rw [exec_clusterUnpark hu hk hp, unparkNow, hw]
    rfl
  · exact fun s n u l hl hp => exec_cpxCommit hl hp
  · exact fun s n u l c _ hc hm hl hh hu => cpxCommitOne_runs hc hm hl hh hu
  · exact fun s n u l hl => ⟨exec_laneFree hl, exec_laneClrErr hl⟩
  · intro s u n k k256 hl hu
    exact ⟨by rw [exec_keySlotCommit hl, keyCommit_clears hu], by rw [exec_keySlotCommit hl, keyCommit_sets hu]⟩
  · exact fun s n u hl he => exec_cpxDisable hl he

end Sys2Proof.Machine

/-!
PROOF. Flint's host commands and the forced release (R367–R373, R377).
-/

namespace Sys2Proof.Machine

section
variable {s u v : State} {c : Ctl} {op st : Nat}

/-- A class 4 command whose words are in range completes with the status of its operation. -/
theorem fltRow_done {ok : Bool} {f : State → Nat → Nat × State} (h : Starts s u c op) (ho : op < 0x600) (hok : ok = true)
    (hf : f u (ownerOfFn (s.fld F.HIF_CTR_CFG_FN c.ring.val)) = (st, v)) :
    fltRow c op s ok f = .next (settleAll (ctlEnds s (settleAll v) c op (fltStatus st) [])) := by
  rw [fltRow, ctlExec_eq_ends h ho (st := fltStatus st) (body := []) (v := settleAll v) (by
    rw [if_neg (by simp [hok]), hf])]

theorem semIn_of_range (h0 : bodyWord c 0 < 512) (h1 : 0 < bodyWord c 1) (h2 : bodyWord c 1 < 2 ^ 16) : semIn c = true := by
  rw [semIn, decide_eq_true h0, decide_eq_true h1, decide_eq_true h2]
  rfl

theorem exec_fltLockTry {x : Bool} (h : Starts s u c 0x401) (hk : bodyWord c 0 < 4096)
    (hf : lockTry u (bodyWord c 0) (ownerOfFn (s.fld F.HIF_CTR_CFG_FN c.ring.val)) = (st, x, v)) :
    exec (.fltLockTry c) s = .next (settleAll (ctlEnds s (settleAll v) c 0x401 (fltStatus st) [])) := by
  change execFltLockTry c s = _
  rw [execFltLockTry]
  exact fltRow_done h (by decide) (decide_eq_true hk) (by rw [hf])

theorem exec_fltLockRel (h : Starts s u c 0x402) (hk : bodyWord c 0 < 4096)
    (hf : lockRel u (bodyWord c 0) (ownerOfFn (s.fld F.HIF_CTR_CFG_FN c.ring.val)) = (st, v)) :
    exec (.fltLockRel c) s = .next (settleAll (ctlEnds s (settleAll v) c 0x402 (fltStatus st) [])) := by
  change execFltLockRel c s = _
  rw [execFltLockRel]
  exact fltRow_done h (by decide) (decide_eq_true hk) hf

theorem exec_fltSemTry (h : Starts s u c 0x403) (hk : semIn c = true)
    (hf : semTry u (bodyWord c 0) (ownerOfFn (s.fld F.HIF_CTR_CFG_FN c.ring.val)) (bodyWord c 1) = (st, v)) :
    exec (.fltSemTry c) s = .next (settleAll (ctlEnds s (settleAll v) c 0x403 (fltStatus st) [])) := by
  change execFltSemTry c s = _
  rw [execFltSemTry]
  exact fltRow_done h (by decide) hk hf

theorem exec_fltSemRel (h : Starts s u c 0x404) (hk : semIn c = true)
    (hf : semRel u (bodyWord c 0) (ownerOfFn (s.fld F.HIF_CTR_CFG_FN c.ring.val)) (bodyWord c 1) = (st, v)) :
    exec (.fltSemRel c) s = .next (settleAll (ctlEnds s (settleAll v) c 0x404 (fltStatus st) [])) := by
  change execFltSemRel c s = _
  rw [execFltSemRel]
  exact fltRow_done h (by decide) hk hf

/-- A query of a lock: bit 31 of its word is 0. -/
theorem exec_fltQuery_lock (h : Starts s u c 0x405) (hk : bodyWord c 0 < 4096) :
    exec (.fltQuery c) s = .next (ctlEnds s u c 0x405 stOk [lockWord u (bodyWord c 0), 0]) := by
  have hb : bitOf (bodyWord c 0) 31 = false := by
    rw [bitOf, Nat.shiftRight_eq_div_pow]
    exact decide_eq_false (by omega)
  have hm : bodyWord c 0 % 2 ^ 31 = bodyWord c 0 := Nat.mod_eq_of_lt (by omega)
  change execFltQuery c s = _
  rw [execFltQuery]
  refine ctlExec_done h (by decide) ?_
  dsimp only
  rw [hb, if_neg (by decide), hm, if_pos hk]

/-- A query of a semaphore: bit 31 of its word is 1, and the rest names it. -/
theorem exec_fltQuery_sem {n : Nat} (h : Starts s u c 0x405) (hk : bodyWord c 0 = 2 ^ 31 + n) (hn : n < 512) :
    exec (.fltQuery c) s = .next (ctlEnds s u c 0x405 stOk [semCfgWord u n, semStsWord u n]) := by
  have hb : bitOf (2 ^ 31 + n) 31 = true := by
    rw [bitOf, Nat.shiftRight_eq_div_pow]
    exact decide_eq_true (by omega)
  have hm : (2 ^ 31 + n) % 2 ^ 31 = n := by omega
  change execFltQuery c s = _
  rw [execFltQuery]
  refine ctlExec_done h (by decide) ?_
  dsimp only
  rw [hk, hb, if_pos rfl, hm, if_pos hn]

theorem exec_flintForceRelease {w : W32} (h : pktUp s = true) :
    exec (.flintForceRelease w) s = .next (settleAll (fltForceWrite s w.toNat)) := by
  change execFlintForceRelease w s = _
  rw [execFlintForceRelease, if_pos h]

theorem fltForceWrite_held {w : Nat} (h : fltForce s (bitOf w 31) (bits w 27 16) (bits w 15 0) = (true, u)) :
    fltForceWrite s w = settle u := by
  rw [fltForceWrite, h]
  rfl

theorem fltForceWrite_missed {w : Nat} (h : fltForce s (bitOf w 31) (bits w 27 16) (bits w 15 0) = (false, u)) :
    fltForceWrite s w = s.setFlag F.FLT_STS_FORCE_MISS 0 true := by
  rw [fltForceWrite, h]
  rfl

end

/-- Settles O24: a command whose words are in range completes with what its operation answers, and a forced release either takes the
hold or is recorded as missed. -/
theorem flintHostCommands : Obligations.FlintHostCommands := by
  refine ⟨fun s u v c st x h hk hf => exec_fltLockTry h hk hf, fun s u v c st h hk hf => exec_fltLockRel h hk hf,
    fun s u v c st h h0 h1 h2 hf => exec_fltSemTry h (semIn_of_range h0 h1 h2) hf,
    fun s u v c st h h0 h1 h2 hf => exec_fltSemRel h (semIn_of_range h0 h1 h2) hf,
    fun s u c h hk => exec_fltQuery_lock h hk, fun s u c n h hk hn => exec_fltQuery_sem h hk hn, fun s u w hp hf => ?_, fun s u w hp hf => ?_⟩
  · rw [exec_flintForceRelease hp, fltForceWrite_held hf]
  · rw [exec_flintForceRelease hp, fltForceWrite_missed hf]

end Sys2Proof.Machine

/-!
PROOF. Power-on and brown-out, the reset pins, pulses and the release events (R86, R114, R466, R469–R471, R489).
-/

namespace Sys2Proof.Machine

/-! ## Power -/

/-- The device without power: its identity, host memory and what has left it stay, with the registers `r`. -/
def withoutPower (s : State) (r : SMap W64) : State :=
  { State.reset with
    regs := r, pending := s.pending, variant := s.variant, stepping := s.stepping, present := s.present, clk := s.clk, fresh := s.fresh,
    hif := { Hif.zero with mem := s.hif.mem, sent := s.hif.sent, posted := s.hif.posted },
    egr := { Egr.zero with wire := s.egr.wire },
    rst := { Rst.zero with aon := false, events := [], fuse := s.rst.fuse, strap := s.rst.strap },
    pio := { Pio.zero with spiSent := s.pio.spiSent, i2c1Sent := s.pio.i2c1Sent, gpioIn := s.pio.gpioIn } }

theorem variantRegs_wf {s : State} (h : mwf regReset s.regs = true) : mwf regReset (variantRegs s).regs = true := by
  rw [variantRegs]
  split
  · exact State.setFld_wf h ..
  · exact h

theorem variantRegs_move (s : State) : RegsMove s (variantRegs s) := by
  rw [variantRegs]
  exact .ite ((RegsMove.refl s).setFld ..) (.refl s)

/-- Power goes with all that it held, and what the registers then hold is a canonical map. -/
theorem powerDown_eq (s : State) : ∃ r, mwf regReset r = true ∧ powerDown s = withoutPower s r := by
  have hwf : mwf regReset ((withoutPower s []).setReg .RST_DOM_STS_CL 0 (presentMask s).toNat).regs = true :=
    State.setReg_wf (s := withoutPower s []) rfl ..
  exact ⟨_, variantRegs_wf hwf, variantRegs_move _⟩

section
variable {s u v : State} {n : Nat}

theorem exec_powerOn_cold (s : State) (m : BitVec 2) : exec (.powerOn true m) s = .next (aonRelease (powerDown s) m) := rfl

theorem exec_powerOn_warm {m : BitVec 2} (h : s.rst.aon = false) : exec (.powerOn false m) s = .next (aonRelease s m) := by
  change execPowerOn false m s = _
  rw [execPowerOn, if_neg (by decide), if_neg (by simp [h])]

theorem exec_powerOn_on {m : BitVec 2} (h : s.rst.aon = true) : exec (.powerOn false m) s = .next s := by
  change execPowerOn false m s = _
  rw [execPowerOn, if_neg (by decide), if_pos h]

theorem exec_brownOut_off (h : s.rst.aon = false) : exec .brownOut s = .next s := by
  change execBrownOut s = _
  rw [execBrownOut, if_neg (by simp [h])]

theorem exec_brownOut_on (h : s.rst.aon = true) : exec .brownOut s = .next (brownOut s) := by
  change execBrownOut s = _
  rw [execBrownOut, if_pos h]

/-- A brown-out keeps the record of the lock-ups. -/
theorem brownOut_lockups (s : State) : (brownOut s).reg .RST_LOCKUP_CL 0 = s.reg .RST_LOCKUP_CL 0 := by
  obtain ⟨r, hr, hp⟩ := powerDown_eq s
  have hwf : mwf regReset (withoutPower s r).regs = true := hr
  rw [brownOut, hp]
  rw [State.setFlag, State.setFld, State.reg_setReg_ne _ (regKey_ne_of_kind (by decide) (by decide) (by decide)),
    State.reg_setReg_same (State.setReg_wf hwf ..)]
  exact Nat.mod_eq_of_lt (mget regReset s.regs (regKey .RST_LOCKUP_CL 0)).isLt

/-- A brown-out is the loss of power and the writing of registers. -/
theorem brownOut_eq (s : State) : ∃ r, brownOut s = withoutPower s r := by
  obtain ⟨r, -, hp⟩ := powerDown_eq s
  exact ⟨(brownOut s).regs, by rw [brownOut, hp]; rfl⟩

/-! ## Pins -/

theorem exec_resetNAssert_free (ha : s.rst.aon = true) (hf : srcHeld s .resetN = false) :
    exec .resetNAssert s = .next (assertSrc s ⟨.resetN, 2 ^ 8, none⟩ 2) := by
  change execResetNAssert s = _
  rw [execResetNAssert, if_pos (by simp [ha, hf])]

theorem exec_resetNAssert_held (h : s.rst.aon = false ∨ srcHeld s .resetN = true) : exec .resetNAssert s = .next s := by
  change execResetNAssert s = _
  rw [execResetNAssert, if_neg (by obtain h | h := h <;> simp [h])]

theorem exec_perstAssert_free {h : Fin 2} (ha : s.rst.aon = true) (hf : srcHeld s (.perst h.val) = false) :
    exec (.perstAssert h) s = .next (perstAssert s h.val) := by
  change execPerstAssert h s = _
  rw [execPerstAssert, if_pos (by simp [ha, hf])]

theorem exec_perstAssert_held {h : Fin 2} (hh : s.rst.aon = false ∨ srcHeld s (.perst h.val) = true) : exec (.perstAssert h) s = .next s := by
  change execPerstAssert h s = _
  rw [execPerstAssert, if_neg (by obtain hh | hh := hh <;> simp [hh])]

/-- PERST_N[1] resets its link in the layout with two links. -/
theorem perstAssert_one_bifur (h : s.hif.bifur = true) : perstAssert s 1 = assertSrc s ⟨.perst 1, 2 ^ 3, none⟩ 4 := by
  rw [perstAssert, h]
  rfl

/-- In the layout with one link its level is only remembered. -/
theorem perstAssert_one_single (h : s.hif.bifur = false) :
    perstAssert s 1 = { s with rst := { s.rst with holds := s.rst.holds ++ [⟨.perst 1, 2 ^ 3, none⟩] } } := by
  rw [perstAssert, h]
  rfl

/-! ## Release events -/

theorem exec_domainRelease_on (hu : u = advance s n) (ha : u.rst.aon = true) : exec (.domainRelease n) s = .next (releaseNext u) := by
  change execDomainRelease n s = _
  rw [execDomainRelease, ← hu]
  rw [if_pos ha]

theorem exec_domainRelease_off (hu : u = advance s n) (ha : u.rst.aon = false) : exec (.domainRelease n) s = .next u := by
  change execDomainRelease n s = _
  rw [execDomainRelease, ← hu]
  rw [if_neg (by simp [ha])]

theorem releaseNext_none (h : s.rst.events.findIdx? (eventDue s) = none) : releaseNext s = s := by
  rw [releaseNext, h]

/-- The first due event releases the next of its domains. -/
theorem releaseNext_some {k : Nat} {ds : List Nat} {more : Bool} (hk : s.rst.events.findIdx? (eventDue s) = some k)
    (hd : ds = nextRelease s ((s.rst.events[k]?).getD ⟨0, [], none⟩)) (hv : (v, more) = (if ds = [2] then sampleBifur s else (s, false))) :
    releaseNext s = settleAll (wdtSync (foldS ds leaveReset { v with rst := { v.rst with
      events := (v.rst.events.modify k (fun e => eventAfter e v.clk ds more)).filter (fun e => !e.doms.isEmpty) } })) := by
  rw [releaseNext, hk]
  dsimp only
  rw [← hd, ← hv]

/-- A single event that is due releases one domain other than HOST0. -/
theorem releaseNext_single {e : RelEvent} {d : Nat} (he : s.rst.events = [e]) (hdue : eventDue s e = true) (hd : nextRelease s e = [d])
    (h2 : d ≠ 2) :
    releaseNext s = settleAll (wdtSync (leaveReset
      { s with rst := { s.rst with events := [eventAfter e s.clk [d] false].filter (fun e => !e.doms.isEmpty) } } d)) := by
  have hfound : s.rst.events.findIdx? (eventDue s) = some 0 := by rw [he, List.findIdx?_cons, hdue]; rfl
  have hnext : [d] = nextRelease s ((s.rst.events[0]?).getD ⟨0, [], none⟩) := by rw [he]; exact hd.symm
  have hplain : (s, false) = (if [d] = [2] then sampleBifur s else (s, false)) := (if_neg (by simp [h2])).symm
  rw [releaseNext_some hfound hnext hplain, he]
  rfl

end

/-- Settles O25: power-on starts from what has lost its power, each pin asserts or remembers its source, and the first due event
releases its next domains. -/
theorem powerOnPinsAndReleases : Obligations.PowerOnPinsAndReleases := by
  refine ⟨⟨fun s m => ?_, fun s m h => ?_, fun s m h => exec_powerOn_on h, fun s h => exec_brownOut_off h, fun s h => ?_⟩,
    ⟨fun s ha hf => exec_resetNAssert_free ha hf, fun s h => exec_resetNAssert_held h, fun s => rfl, fun s ha hf => exec_perstAssert_free ha hf,
      fun s ha hf hb => ?_, fun s ha hf hb => ?_, fun s h hh => exec_perstAssert_held hh, fun s h => rfl⟩,
    fun s u n hu => ?_, fun s u n e d hu ha he hdue hd h2 ds hds => ⟨fun h0 => ?_, fun h0 => ?_⟩, fun s u v n k ds more hu ha hk hd hv => ?_,
    fun s u n hu h => ?_⟩
  · obtain ⟨r, -, hp⟩ := powerDown_eq s
    refine ⟨_, exec_powerOn_cold s m, ?_⟩
    rw [hp]
    exact ⟨rfl, rfl, rfl, rfl, rfl, rfl, rfl, rfl, rfl, rfl, rfl, rfl, rfl, rfl, rfl, rfl, rfl, rfl, rfl⟩
  · exact ⟨_, exec_powerOn_warm h, rfl, rfl, rfl, rfl⟩
  · obtain ⟨r, hr⟩ := brownOut_eq s
    refine ⟨_, exec_brownOut_on h, ?_, ?_, brownOut_lockups s, ?_⟩ <;> rw [hr]
    · rfl
    · rfl
    · exact ⟨rfl, rfl, rfl, rfl⟩
  · rw [exec_perstAssert_free ha hf]
    exact congrArg _ (perstAssert_one_bifur hb)
  · rw [exec_perstAssert_free ha hf]
    exact congrArg _ (perstAssert_one_single hb)
  · rw [hu]
    rfl
  · rw [exec_domainRelease_on hu ha, releaseNext_single he hdue hd h2, eventAfter, ← hds, h0]
    rfl
  · rw [exec_domainRelease_on hu ha, releaseNext_single he hdue hd h2, eventAfter, ← hds]
    dsimp only
    rw [if_neg (by decide), List.filter_cons_of_pos (by simp [h0]), List.filter_nil]
  · rw [exec_domainRelease_on hu ha, releaseNext_some hk hd hv]
  · obtain h | h := h
    · exact exec_domainRelease_off hu h
    · cases ha : u.rst.aon with
      | false => exact exec_domainRelease_off hu ha
      | true => rw [exec_domainRelease_on hu ha, releaseNext_none h]

end Sys2Proof.Machine

/-!
PROOF. What reset requests reach (R466, R467), software requests (R295, R425, R474) and block resets (R26, R475).
-/

namespace Sys2Proof.Machine

/-! ## The reach of a request -/

theorem mem_presentClusters {s : State} {n : Nat} : n ∈ presentClusters s ↔ n < 32 ∧ clusterPresent s n = true := by
  rw [presentClusters, List.mem_filter, List.mem_range]

/-- The domains below the clusters that a request reaches. -/
theorem mem_reachOf_common {req d : Nat} :
    d ∈ [1, 2, 3, 4, 5, 6].filter (fun d => bitOf req 8 || bitOf req d || (d = 6 && (bitOf req 8 || bitOf req 5))) ↔
      1 ≤ d ∧ d ≤ 6 ∧ (bitOf req 8 = true ∨ bitOf req d = true ∨ (d = 6 ∧ bitOf req 5 = true)) := by
  have range : d ∈ [1, 2, 3, 4, 5, 6] ↔ 1 ≤ d ∧ d ≤ 6 := by
    simp only [List.mem_cons, List.not_mem_nil, or_false]
    omega
  rw [List.mem_filter, range, and_assoc]
  simp only [Bool.or_eq_true, Bool.and_eq_true, decide_eq_true_eq]
  tauto

theorem mem_reachOf_clusters {s : State} {req d : Nat} :
    d ∈ ((presentClusters s).filter (fun n => (bitOf req 8 || bitOf req 5) || bitOf req (32 + n))).map dCl ↔
      ∃ n < 32, clusterPresent s n = true ∧ d = 32 + n ∧ (bitOf req 8 = true ∨ bitOf req 5 = true ∨ bitOf req (32 + n) = true) := by
  simp only [List.mem_map, List.mem_filter, mem_presentClusters, Bool.or_eq_true, dCl]
  constructor
  · rintro ⟨n, ⟨⟨hn, hp⟩, hr⟩, rfl⟩
    exact ⟨n, hn, hp, rfl, or_assoc.mp hr⟩
  · rintro ⟨n, hn, hp, rfl, hr⟩
    exact ⟨n, ⟨⟨hn, hp⟩, or_assoc.mpr hr⟩, rfl⟩

theorem mem_reachOf {s : State} {req d : Nat} : d ∈ reachOf s req ↔
    (1 ≤ d ∧ d ≤ 6 ∧ (bitOf req 8 = true ∨ bitOf req d = true ∨ (d = 6 ∧ bitOf req 5 = true))) ∨
    (∃ n < 32, clusterPresent s n = true ∧ d = 32 + n ∧ (bitOf req 8 = true ∨ bitOf req 5 = true ∨ bitOf req (32 + n) = true)) := by
  rw [reachOf, List.mem_append]
  exact or_congr mem_reachOf_common mem_reachOf_clusters

section
variable {s v : State} {w : BitVec 9} {cl : W32} {r : Nat} {b : Fin 8}

/-! ## Software requests -/

theorem exec_softwareResetRequest (ha : s.rst.aon = true) : exec (.softwareResetRequest w cl) s = swRequest s w.toNat cl.toNat := by
  change execSoftwareResetRequest w cl s = _
  rw [execSoftwareResetRequest, if_pos ha]

/-- A request that names something, would not reset MEM alone under DRC, and finds its clusters drained, is asserted. -/
theorem swRequest_asserts {a c : Nat} (hr : r = swBits s a c) (h0 : r ≠ 0)
    (hm : bitOf r 4 = true → bitOf r 5 = true ∨ bitOf r 8 = true ∨ s.flag F.DRC_STS_DRAINED 0 = true)
    (hc : ∀ n < 32, bitOf r (32 + n) = true → clUp s n = true → cluDrained s n = true) : swRequest s a c = .next (swAssert s r) := by
  have mem : ¬(bitOf r 4 && !bitOf r 5 && !bitOf r 8 && !s.flag F.DRC_STS_DRAINED 0) = true := by
    intro h
    simp only [Bool.and_eq_true, Bool.not_eq_true'] at h
    obtain ⟨⟨⟨h4, h5⟩, h8⟩, hd⟩ := h
    obtain h | h | h := hm h4 <;> simp_all
  have clusters : ¬((List.range 32).any (fun n => bitOf r (32 + n) && clUp s n && !cluDrained s n)) = true := by
    intro h
    obtain ⟨n, hn, hb⟩ := List.any_eq_true.mp h
    simp only [Bool.and_eq_true, Bool.not_eq_true'] at hb
    obtain ⟨⟨hb, hu⟩, hd⟩ := hb
    exact absurd (hc n (List.mem_range.mp hn) hb hu) (by simp [hd])
  rw [swRequest, ← hr]
  rw [if_neg h0, if_neg mem, if_neg clusters]

/-- MEM alone is not reset while DRC is not drained. -/
theorem swRequest_rejected {a c : Nat} (hr : r = swBits s a c) (h4 : bitOf r 4 = true) (h5 : bitOf r 5 = false) (h8 : bitOf r 8 = false)
    (hd : s.flag F.DRC_STS_DRAINED 0 = false) : swRequest s a c = .next (s.setFlag F.RST_SWRST_CFG_REJECT 0 true) := by
  have h0 : r ≠ 0 := by
    rintro rfl
    exact absurd h4 (by decide)
  rw [swRequest, ← hr]
  rw [if_neg h0, if_pos (by simp [h4, h5, h8, hd])]

theorem swAssert_pulse (h : s.flag F.RST_SWRST_CFG_HOLD 0 = false) : swAssert s r = assertSrc s ⟨.sw, r, some (s.clk + 15360)⟩ 6 := by
  rw [swAssert, if_neg (by simp [h])]
  rfl

/-- With HOLD, and no request held yet, each bit of the request is held by itself. -/
theorem swAssert_hold (h : s.flag F.RST_SWRST_CFG_HOLD 0 = true) (hv : v = assertSrc s ⟨.sw, r, none⟩ 6)
    (hold : s.rst.holds.filter (fun h => h.src == RstSrc.sw && h.till.isNone) = []) :
    swAssert s r = { v with rst := { v.rst with holds := s.rst.holds ++ (reqBits r).map (fun b => (⟨.sw, 2 ^ b, none⟩ : RstHold)) } } := by
  have all : (reqBits r).filter (fun b => !(([] : List RstHold).any (fun h => h.req == 2 ^ b))) = reqBits r :=
    List.filter_eq_self.mpr fun _ _ => rfl
  rw [swAssert, if_pos h, hold]
  dsimp only
  rw [all, ← hv]

theorem exec_softwareResetRelease (ha : s.rst.aon = true) :
    exec (.softwareResetRelease w cl) s = .next (swRelease s w.toNat cl.toNat) := by
  change execSoftwareResetRelease w cl s = _
  rw [execSoftwareResetRelease, if_pos ha]

/-! ## Block resets -/

theorem exec_blockReset (ha : s.rst.aon = true) (hf : s.flag (blkFld b.val) 0 = false) (hd : blkDrained s b.val = true) :
    exec (.blockReset b) s = .next (settleAll ((blkReset s b.val).setFlag (blkFld b.val) 0 true)) := by
  change execBlockReset b s = _
  rw [execBlockReset, if_pos (by simp [ha, hf]), blkWrite, if_neg (by simp [hd])]

end

/-- Settles O26: the reach of a request by its two kinds of domain, the request by the two checks before it, and the block reset by its
drain. -/
theorem resetsReachTheirDomains : Obligations.ResetsReachTheirDomains := by
  refine ⟨fun s req d => mem_reachOf, ⟨fun s w cl r ha hr h0 hm hc => ⟨fun hh => ?_, fun v hh hv hold => ?_⟩,
    fun s w cl r ha hr h4 h5 h8 hd => ?_, fun s w cl ha => exec_softwareResetRelease ha⟩, fun s b ha hf hd => exec_blockReset ha hf hd,
    fun s b => rfl⟩
  · rw [exec_softwareResetRequest ha, swRequest_asserts hr h0 hm hc, swAssert_pulse hh]
  · rw [exec_softwareResetRequest ha, swRequest_asserts hr h0 hm hc, swAssert_hold hh hv hold]
  · rw [exec_softwareResetRequest ha, swRequest_rejected hr h4 h5 h8 hd]

end Sys2Proof.Machine

/-!
PROOF. The watchdog (R476), the clock monitors (R472, R480) and the thermal logic (R484–R486).
-/

namespace Sys2Proof.Machine

section
variable {s u v : State} {n e : Nat}

/-! ## The watchdog -/

theorem exec_wdtKick {k : W16} (ha : s.rst.aon = true) : exec (.wdtKick k) s = .next (wdtKey s k.toNat) := by
  change execWdtKick k s = _
  rw [execWdtKick, if_pos ha]

theorem wdtKey_right (h : s.flag F.RST_WDT_CFG_EN 0 = true) : wdtKey s (0xC1A5 : W16).toNat = wdtKick s := by
  rw [wdtKey, if_neg (by simp [h]), if_pos (by decide)]

theorem wdtKey_wrong {k : W16} (h : s.flag F.RST_WDT_CFG_EN 0 = true) (hk : k ≠ 0xC1A5) :
    wdtKey s k.toNat = s.setFlag F.RST_WDT_STS_BADKICK 0 true := by
  have other : ¬k.toNat % 2 ^ 16 = 0xC1A5 := fun h => hk (BitVec.eq_of_toNat_eq ((Nat.mod_eq_of_lt k.isLt).symm.trans h))
  rw [wdtKey, if_neg (by simp [h]), if_neg other]

theorem wdtKick_running (h : s.rst.wdt = .run e) :
    wdtKick s = { s with rst := { s.rst with wdt := .run s.clk } }.setFlag F.RST_WDT_STS_WARNED 0 false := by
  rw [wdtKick, h]
  rfl

/-- With EN = 0 a kick of either kind changes nothing, in AON's reset too. -/
theorem exec_wdtKick_disabled {k : W16} (h : s.flag F.RST_WDT_CFG_EN 0 = false) : exec (.wdtKick k) s = .next s := by
  have idle : wdtKey s k.toNat = s := by rw [wdtKey, if_pos (by simp [h])]
  change execWdtKick k s = _
  rw [execWdtKick, idle, ite_self]

theorem wdtLeft_running (h : s.rst.wdt = .run e) :
    wdtLeft s = some (max 1 (s.fld F.RST_WDT_CFG_TIMEOUT_MS 0) * 1500000 - (s.clk - e)) := by
  rw [wdtLeft, h]
  rfl

/-- The warning is due when no more than WARN_MS is left of a count. -/
theorem warnDue_running (h : s.rst.wdt = .run e) (hw : s.flag F.RST_WDT_STS_WARNED 0 = false)
    (hlt : s.fld F.RST_WDT_CFG_WARN_MS 0 < max 1 (s.fld F.RST_WDT_CFG_TIMEOUT_MS 0))
    (hle : (max 1 (s.fld F.RST_WDT_CFG_TIMEOUT_MS 0) - s.fld F.RST_WDT_CFG_WARN_MS 0) * 1500000 ≤ s.clk - e) : warnDue s = true := by
  have left : max 1 (s.fld F.RST_WDT_CFG_TIMEOUT_MS 0) * 1500000 - (s.clk - e) ≤ s.fld F.RST_WDT_CFG_WARN_MS 0 * msEdges := by
    rw [msEdges]
    omega
  rw [warnDue, wdtLeft_running h]
  dsimp only
  rw [decide_eq_true hlt, decide_eq_true left, hw]
  rfl

theorem exec_wdtWarn (hu : u = advance s n) (ha : u.rst.aon = true) (hd : warnDue u = true) :
    exec (.wdtWarn n) s = .next (raiseSrc (u.setFlag F.RST_WDT_STS_WARNED 0 true) 170 0) := by
  change execWdtWarn n s = _
  rw [execWdtWarn, ← hu]
  rw [if_pos (by simp [ha, hd])]

theorem exec_wdtExpire (hu : u = advance s n) (ha : u.rst.aon = true) (hl : wdtLeft u = some 0) :
    exec (.wdtExpire n) s = .next (wdtExpire u) := by
  change execWdtExpire n s = _
  rw [execWdtExpire, ← hu]
  rw [if_pos (by simp [ha, hl])]

theorem wdtExpire_pulse (hv : v = { u with rst := { u.rst with wdt := .waiting } }.bump F.RST_WDT_STS_EXPIRED 0 1) :
    wdtExpire u = assertSrc v ⟨.wdt, if v.flag F.RST_WDT_CFG_REACH 0 then 2 ^ 8 else 2, some (v.clk + 15360)⟩ 5 := by
  rw [wdtExpire]
  dsimp only
  rw [← hv]
  rfl

/-! ## Clocks -/

theorem exec_clockFailure {k : Fin 48} (ha : s.rst.aon = true) (hx : clkExists s k.val = true) (hf : srcHeld s (.clk k.val) = false) :
    exec (.clockFailure k) s = .next (clkFailure s k.val) := by
  change execClockFailure k s = _
  rw [execClockFailure, if_pos (by simp [ha, hx, hf])]

theorem clkFailure_asserts {k : Nat} (hu : u = clkCount (clkReport s k false) k)
    (hv : v = { u with rst := { u.rst with clkFail := some (clkCause k - 8) } }) :
    clkFailure s k = assertSrc v ⟨.clk k, clkReach k, none⟩ (clkCause k) := by
  rw [clkFailure, ← hu, hv]
  rfl

theorem exec_clockRecovery {k : Fin 48} (ha : s.rst.aon = true) (hx : clkExists s k.val = true) :
    exec (.clockRecovery k) s = .next (releaseSrcs (clkReport s k.val true) (fun h => h.src == .clk k.val)) := by
  change execClockRecovery k s = _
  rw [execClockRecovery, if_pos (by simp [ha, hx])]

/-! ## Thermal logic -/

theorem exec_thermalSample {ts : List (BitVec 12)} (hu : u = advance s n) (ha : u.rst.aon = true) :
    exec (.thermalSample ts n) s = .next (thermSample u ts) := by
  change execThermalSample ts n s = _
  rw [execThermalSample, ← hu]
  rw [if_pos ha]

/-- Below 125 °C nothing trips. -/
theorem tripSync_cool (h : ∀ i < 36, sensorAt s i 125 = false) : tripSync s = s := by
  have cool : ¬(sensors.any (fun i => sensorAt s i 125)) = true := by
    intro hot
    obtain ⟨i, hi, hb⟩ := List.any_eq_true.mp hot
    exact absurd hb (by simp [h i (List.mem_range.mp hi)])
  rw [tripSync, if_neg cool]

theorem sinceDue_of_le {m : SMap (Option Nat)} {k clk len : Nat} (h : mget noSince m k = some e) (hle : e + len ≤ clk) :
    sinceDue m k clk len = true := by
  rw [sinceDue, h]
  exact decide_eq_true hle

theorem exec_throttleStepDown {c : Fin 32} (hu : u = advance s n) (ha : u.rst.aon = true) (ht : u.flag F.RST_THERM_CFG_THR_EN 0 = true)
    (hl : 0 < u.fld F.RST_CLU_CLK_LIMIT c.val) (hd : sinceDue u.rst.hotAt c.val u.clk 150000 = true)
    (hv : v = { u with rst := { u.rst with hotAt := mset noSince u.rst.hotAt c.val (some u.clk) } }) :
    exec (.throttleStepDown c n) s = .next ((setLimit v c.val (u.fld F.RST_CLU_CLK_LIMIT c.val - 1)).bump F.RST_THERM_STS_THROTTLE_CNT 0 1) := by
  change execThrottleStepDown c n s = _
  rw [execThrottleStepDown, ← hu]
  dsimp only
  rw [if_pos (by simp [ha, ht, hl, hd]), hv]

theorem exec_throttleStepUp {c : Fin 32} (hu : u = advance s n) (ha : u.rst.aon = true) (ht : u.flag F.RST_THERM_CFG_THR_EN 0 = true)
    (hl : u.fld F.RST_CLU_CLK_LIMIT c.val < 2) (hd : sinceDue u.rst.coolAt c.val u.clk 1500000 = true)
    (hv : v = { u with rst := { u.rst with coolAt := mset noSince u.rst.coolAt c.val (some u.clk) } }) :
    exec (.throttleStepUp c n) s = .next (setLimit v c.val (u.fld F.RST_CLU_CLK_LIMIT c.val + 1)) := by
  change execThrottleStepUp c n s = _
  rw [execThrottleStepUp, ← hu]
  dsimp only
  rw [if_pos (by simp [ha, ht, hl, hd]), hv]

end

/-- Settles O27: the watchdog by what is left of its count, the clocks by their reports, and throttling by how long a cluster has been hot
or cool. -/
theorem watchdogClocksAndThermal : Obligations.WatchdogClocksAndThermal := by
  refine ⟨⟨fun s e ha he hw => ?_, fun s k ha he hk => ?_, fun s k h => exec_wdtKick_disabled h, fun s u n e hu ha hw hs hlt hle => ?_,
    fun s u v n e hu ha hw hle hv => ?_⟩, ⟨fun s u v k ha hx hf hu hv => ?_, fun s k ha hx => exec_clockRecovery ha hx⟩,
    fun s u v ts n hu ha hv => ?_, fun s h => tripSync_cool h, fun s u v c n e hu ha ht hl he hle hv => ?_,
    fun s u v c n e hu ha ht hl he hle hv => ?_⟩
  · rw [exec_wdtKick ha, wdtKey_right he, wdtKick_running hw]
  · rw [exec_wdtKick ha, wdtKey_wrong he hk]
  · exact exec_wdtWarn hu ha (warnDue_running hw hs hlt hle)
  · rw [exec_wdtExpire hu ha (by rw [wdtLeft_running hw, Nat.sub_eq_zero_of_le hle]), wdtExpire_pulse hv]
  · rw [exec_clockFailure ha hx hf, clkFailure_asserts hu hv]
  · rw [exec_thermalSample hu ha, thermSample, ← hv]
  · exact exec_throttleStepDown hu ha ht hl (sinceDue_of_le he hle) hv
  · exact exec_throttleStepUp hu ha ht hl (sinceDue_of_le he hle) hv

end Sys2Proof.Machine

/-!
PROOF. The boot ROM's copies, checks and entry (R490, R496–R498), and MGT's slots and memory window (R493, R494, R499, R505).
-/

namespace Sys2Proof.Machine

section
variable {s u : State} {bs : List Byte}

/-! ## The ROM's sources -/

theorem exec_spiLoadComplete (hr : romRuns s = true) (h1 : romAt s 1 = true) : exec (.spiLoadComplete bs) s = .next (spiLoaded s bs) := by
  change execSpiLoadComplete bs s = _
  rw [execSpiLoadComplete, if_pos (by simp [hr, h1])]

theorem spiLoaded_invalid (hu : u = mgtWrite s 0xFFE00 (flashBytes bs 0 512)) (h : hdrValid u = false) :
    spiLoaded s bs = nextCopy (u.setFld F.MGT_BOOT_STS_ERR 0 1) := by
  rw [spiLoaded, hdrArea, ← hu]
  rw [if_pos (by simp [h]), romErr]

/-- A copy with a valid header whose payload lies below the header area is loaded whole. -/
theorem spiLoaded_valid (hu : u = mgtWrite s 0xFFE00 (flashBytes bs 0 512)) (h : hdrValid u = true)
    (hl : imgLoad u + imgLen u ≤ 0xFFE00) :
    spiLoaded s bs = romStage (mgtWrite u (imgLoad u) (flashBytes bs 512 (imgLen u))) 3 := by
  rw [spiLoaded, hdrArea, ← hu]
  rw [if_neg (by simp [h]), if_pos hl]

theorem exec_spiFlashTimeout (hr : romRuns s = true) (h1 : romAt s 1 = true) :
    exec .spiFlashTimeout s = .next (nextCopy (s.setFld F.MGT_BOOT_STS_ERR 0 5)) := by
  change execSpiFlashTimeout s = _
  rw [execSpiFlashTimeout, if_pos (by simp [hr, h1]), romErr]

theorem exec_hostGo (hr : romRuns s = true) (h2 : romAt s 2 = true) : exec .hostGo s = .next (romStage s 3) := by
  change execHostGo s = _
  rw [execHostGo, hostGo, if_pos (by simp [hr, h2])]

/-! ## The verdict on an image -/

theorem exec_imageVerify_accepts (hr : romRuns s = true) (h3 : romAt s 3 = true) (hc : imgCheck s = 0) :
    exec .imageVerifyComplete s = .next (enterFw s) := by
  change execImageVerifyComplete s = _
  rw [execImageVerifyComplete, if_pos (by simp [hr, h3]), if_pos hc]

theorem exec_imageVerify_refuses (hr : romRuns s = true) (h3 : romAt s 3 = true) (hc : imgCheck s ≠ 0)
    (hu : u = s.setFld F.MGT_BOOT_STS_ERR 0 (imgCheck s)) : exec .imageVerifyComplete s = .next (nextSource u) := by
  change execImageVerifyComplete s = _
  rw [execImageVerifyComplete, if_pos (by simp [hr, h3]), if_neg hc, romErr, ← hu]

theorem nextSource_copy (hm : s.fld F.MGT_BOOT_STS_MODE 0 = 0) (hf : s.flag F.MGT_BOOT_STS_FELLBACK 0 = false) :
    nextSource s = nextCopy s := by
  rw [nextSource, if_pos (by simp [hm, hf])]

theorem nextSource_host (h : s.fld F.MGT_BOOT_STS_MODE 0 ≠ 0 ∨ s.flag F.MGT_BOOT_STS_FELLBACK 0 = true) : nextSource s = romStage s 2 := by
  rw [nextSource, if_neg (by obtain h | h := h <;> simp [h])]

theorem wdtKick_keeps (s : State) : (wdtKick s).gar = s.gar ∧ (wdtKick s).mgtMem = s.mgtMem := by
  rw [wdtKick]
  split
  · exact ⟨rfl, rfl⟩
  · exact ⟨rfl, rfl⟩

theorem romStage_gar (s : State) (k : Nat) : (romStage s k).gar = s.gar := (wdtKick_keeps _).1

theorem romStage_mgtMem (s : State) (k : Nat) : (romStage s k).mgtMem = s.mgtMem := (wdtKick_keeps _).2

theorem enterFw_mgtMem (s : State) : (enterFw s).mgtMem = s.mgtMem := romStage_mgtMem _ 4

/-- Slot 0 jumps to the image's entry. -/
theorem enterFw_pc (h : mwf noThread s.gar.thr = true) : (thrOf (enterFw s) 0x2000).pc = BitVec.ofNat 32 (imgEntry s) := by
  rw [enterFw, thrOf, romStage_gar]
  exact congrArg Thread.pc (mget_mset_eq noThread _ _ h)

theorem exec_romWdtKick (hr : romRuns s = true) (h3 : s.fld F.MGT_BOOT_STS_STAGE 0 ≤ 3) : exec .romWdtKick s = .next (wdtKick s) := by
  change execRomWdtKick s = _
  rw [execRomWdtKick, if_pos (by simp [hr, h3])]

/-! ## The checks in their order -/

theorem imgCheck_eq_zero : imgCheck s = 0 ↔ imgMagic s = true ∧ imgZeros s = true ∧ imgRange s = true ∧ s.rst.fuse ≠ 0 ∧
    keyFused s.rst.fuse (hdrBytes s 64 48) (hdrBytes s 112 48) = true ∧ imgSigned s = true := by
  rw [imgCheck]
  by_cases hm : imgMagic s = true ∧ imgZeros s = true
  case neg =>
    have fails : (!(imgMagic s && imgZeros s)) = true := by rw [Bool.not_eq_true', ← Bool.not_eq_true, Bool.and_eq_true]; exact hm
    rw [if_pos fails]
    exact iff_of_false (by decide) fun ⟨hm', hz, _⟩ => hm ⟨hm', hz⟩
  rw [if_neg (by simp [hm])]
  by_cases hr : imgRange s = true
  case neg =>
    rw [if_pos (by simpa using hr)]
    exact iff_of_false (by decide) fun ⟨_, _, h, _⟩ => hr h
  rw [if_neg (by simp [hr])]
  by_cases hf : s.rst.fuse = 0
  case pos =>
    rw [if_pos hf]
    exact iff_of_false (by decide) fun ⟨_, _, _, h, _⟩ => h hf
  rw [if_neg hf]
  by_cases hk : keyFused s.rst.fuse (hdrBytes s 64 48) (hdrBytes s 112 48) = true
  case neg =>
    rw [if_pos (by simpa using hk)]
    exact iff_of_false (by decide) fun ⟨_, _, _, _, h, _⟩ => hk h
  rw [if_neg (by simp [hk])]
  by_cases hs : imgSigned s = true
  case neg =>
    rw [if_pos (by simpa using hs)]
    exact iff_of_false (by decide) fun ⟨_, _, _, _, _, h⟩ => hs h
  rw [if_neg (by simp [hs])]
  exact iff_of_true rfl ⟨hm.1, hm.2, hr, hf, hk, hs⟩

theorem imgCheck_magic (h : imgMagic s = false) : imgCheck s = 1 := by
  rw [imgCheck, if_pos (by simp [h])]

theorem imgCheck_unfused (hm : imgMagic s = true) (hz : imgZeros s = true) (hr : imgRange s = true) (hf : s.rst.fuse = 0) : imgCheck s = 7 := by
  rw [imgCheck, if_neg (by simp [hm, hz]), if_neg (by simp [hr]), if_pos hf]

end

/-- Settles O28: each source of the ROM by its own step, and the verdict by the first check that fails. -/
theorem boot : Obligations.Boot := by
  refine ⟨⟨fun s u bs hr h1 hu hv => ?_, fun s u bs hr h1 hu hv hl => ?_, fun s hr h1 => exec_spiFlashTimeout hr h1,
    fun s hr h2 => exec_hostGo hr h2, fun s hr h3 hc hw => ⟨_, exec_imageVerify_accepts hr h3 hc, enterFw_pc hw, enterFw_mgtMem s⟩,
    fun s u hr h3 hc hu => ⟨fun h => ?_, fun h => ?_⟩, fun s hr h3 => exec_romWdtKick hr h3⟩,
    fun s => imgCheck_eq_zero, fun s h => imgCheck_magic h, fun s hm hz hr hf => imgCheck_unfused hm hz hr hf⟩
  · rw [exec_spiLoadComplete hr h1, spiLoaded_invalid hu hv]
  · rw [exec_spiLoadComplete hr h1, spiLoaded_valid hu hv hl]
  · rw [exec_imageVerify_refuses hr h3 hc hu, nextSource_copy h.1 h.2]
  · rw [exec_imageVerify_refuses hr h3 hc hu, nextSource_host h]

/-! ## MGT's slots -/

section
variable {s : State} {i : Fin 8}

theorem exec_mgtFaultDone (h : mgtUp s = true) :
    exec (.mgtFaultDone i) s = .next (setThr s (0x2000 + i.val) { thrOf s (0x2000 + i.val) with inFault := false }) := by
  change execMgtFaultDone i s = _
  rw [execMgtFaultDone, if_pos h, mgtFaultDone]

theorem exec_mgtThrctlStart {pc : W32} (h : mgtUp s = true) : exec (.mgtThrctlStart i pc) s = .next (mgtThrctl s i.val 6 pc 0) := by
  change execMgtThrctlStart i pc s = _
  rw [execMgtThrctlStart, if_pos h]

theorem mgtThrctl_start {k : Nat} {pc : W32} (h : (thrOf s (0x2000 + k)).st = .dormant) :
    mgtThrctl s k 6 pc 0 = settleAll (startThr s (0x2000 + k) (BitVec.ofNat 32 (pc.toNat / 4 * 4)) true) := by
  rw [mgtThrctl, h]
  rfl

/-- A slot that is not DORMANT is not started. -/
theorem mgtThrctl_start_refused {k : Nat} {pc : W32} (h : (thrOf s (0x2000 + k)).st ≠ .dormant) :
    mgtThrctl s k 6 pc 0 = settleAll (s.setFlag F.MGT_STS_THRCTL_REJECT 0 true) := by
  have awake : ((thrOf s (0x2000 + k)).st == .dormant) = false := beq_false_of_ne h
  rw [mgtThrctl, awake]
  rfl

theorem exec_mgtThrctlReset (h : mgtUp s = true) : exec (.mgtThrctlReset i) s = .next (settleAll (thrReset s (0x2000 + i.val))) := by
  change execMgtThrctlReset i s = _
  rw [execMgtThrctlReset, if_pos h, mgtThrctl]
  rfl

theorem exec_mgtThrctlSignal {sev : Byte} (h : mgtUp s = true) (ht : (thrOf s (0x2000 + i.val)).st ≠ .dormant) :
    exec (.mgtThrctlSignal i sev) s = .next (settleAll (setEv s (0x2000 + i.val) (BitVec.ofNat 16 (sev.toNat * 256)))) := by
  have awake : ((thrOf s (0x2000 + i.val)).st == .dormant) = false := beq_false_of_ne ht
  have whole : sev.toNat % 256 = sev.toNat := Nat.mod_eq_of_lt sev.isLt
  change execMgtThrctlSignal i sev s = _
  rw [execMgtThrctlSignal, if_pos h, mgtThrctl, awake, whole]
  rfl

/-! ## The memory window -/

theorem exec_mgtMemwinAccess {ofs : W16} {wide : Bool} {wr : Option W64} (h : mgtUp s = true) :
    exec (.mgtMemwinAccess ofs wide wr) s = .next (winAccess s ofs.toNat (if wide then 8 else 4) wr) := by
  change execMgtMemwinAccess ofs wide wr s = _
  rw [execMgtMemwinAccess, if_pos h]

theorem winAccess_write {ofs n : Nat} {v : W64} (ho : ofs % n = 0) (h : winAllowed s true = true) :
    winAccess s ofs n (some v) = mgtWrite s (s.fld F.MGT_MEMWIN_BASE_PAGE 0 * 65536 + ofs) (leBytes n v.toNat) := by
  rw [winAccess, if_neg (not_not_intro ho), if_neg (by simp [h])]
  rfl

theorem winAccess_read {ofs n : Nat} (ho : ofs % n = 0) (h : winAllowed s false = true) :
    winAccess s ofs n none = setRdata s (leNat (rdBytes s.mgtMem (s.fld F.MGT_MEMWIN_BASE_PAGE 0 * 65536 + ofs) n)) := by
  rw [winAccess, if_neg (not_not_intro ho), if_neg (by simp [h])]
  rfl

theorem winAccess_refused {ofs n : Nat} {v : W64} (ho : ofs % n = 0) (h : winAllowed s true = false) :
    winAccess s ofs n (some v) = { s.setFlag F.MGT_BOOT_STS_WIN_REJECT 0 true with rdata := 0 } := by
  rw [winAccess, if_neg (not_not_intro ho), if_pos (by simp [h])]

end

/-- Settles O29: what MGT_THRCTL does to a slot by whether it is DORMANT, and an aligned access by whether the window serves it. -/
theorem managementController : Obligations.ManagementController := by
  refine ⟨fun s t h => exec_mgtFaultDone h, fun s i pc h ht => ?_, fun s i pc h ht => ?_, fun s i h => exec_mgtThrctlReset h,
    fun s i sev h ht => exec_mgtThrctlSignal h ht, fun s ofs v h ho ha => ?_, fun s ofs h ho ha => ?_, fun s ofs v h ho ha => ?_⟩
  · rw [exec_mgtThrctlStart h, mgtThrctl_start ht]
  · rw [exec_mgtThrctlStart h, mgtThrctl_start_refused ht]
  · rw [exec_mgtMemwinAccess h, if_pos rfl, winAccess_write ho ha]
  · rw [exec_mgtMemwinAccess h, if_neg (by decide), winAccess_read ho ha]
  · rw [exec_mgtMemwinAccess h, if_neg (by decide), winAccess_refused ho ha]

end Sys2Proof.Machine

/-!
PROOF. The drain of a resource (R24, R25), and the SPI and I2C controllers (R532, R534, R536, R547).
-/

namespace Sys2Proof.Machine

section
variable {s u : State}

/-! ## Drains -/

theorem exec_resourceDrainComplete (r : Resource) (s : State) : exec (.resourceDrainComplete r) s = .next (drainOne s r) := rfl

theorem drainOne_parser (hp : pktUp s = true) (he : s.flag F.PRS_CTL_EN 0 = false) (hw : s.prs.waiting = []) :
    drainOne s .parser = s.setFlag F.PRS_STS_DRAINED 0 true := by
  rw [drainOne, if_pos (by simp [hp, he, hw])]

theorem drainOne_orrery (hp : pktUp s = true) (he : s.flag F.ORY_CTL_EN 0 = false) : drainOne s .orrery = oryDrain s := by
  rw [drainOne, if_pos (by simp [hp, he])]

theorem drainOne_drc (h : memUp s = true) : drainOne s .drc = drcDrain s := by
  rw [drainOne, if_pos h]

theorem drainOne_channel {n : Fin 32} {c : Fin 64} (h : clUp s n.val = true) : drainOne s (.channel n c) = chanDrain s (64 * n.val + c.val) := by
  rw [drainOne, if_pos h]

/-! ## SPI -/

/-- A transfer starts while the ROM does not own the controller and none runs. -/
theorem exec_spiTransfer_starts {ctl : W32} {c : Nat} (ha : s.rst.aon = true) (hr : s.flag F.PIO_SPI_CTL_ROM_OWN 0 = false)
    (hb : s.flag F.PIO_SPI_CTL_BUSY 0 = false) (hc : c = setBits ctl.toNat 31 29 0) (hu : u = s.setReg .PIO_SPI_CTL 0 (c + 2 ^ 30)) :
    exec (.spiTransfer ctl) s = .next { u with pio := { u.pio with spi := some ⟨BitVec.ofNat 32 c, BitVec.ofNat 32 (u.reg .PIO_SPI_ADDR 0),
      if bitOf c 25 then [] else bufBytes u .PIO_SPI_DATA (min 64 (bits c 6 0))⟩ } } := by
  change execSpiTransfer ctl s = _
  rw [execSpiTransfer, if_pos ha, spiGo, if_neg (by simp [hr, hb])]
  dsimp only
  rw [← hc, ← hu, spiLen]

theorem exec_spiTransfer_romOwned {ctl : W32} (h : s.flag F.PIO_SPI_CTL_ROM_OWN 0 = true) : exec (.spiTransfer ctl) s = .next s := by
  have refused : spiGo s ctl.toNat = s := by rw [spiGo, if_pos (by simp [h])]
  change execSpiTransfer ctl s = _
  rw [execSpiTransfer, refused, ite_self]

theorem exec_spiTransferDone {bs : List Byte} {x : Xfer} (hx : s.pio.spi = some x)
    (hu : u = { s with pio := { s.pio with spi := none, spiSent := x :: s.pio.spiSent } }.setFlag F.PIO_SPI_CTL_BUSY 0 false) :
    exec (.spiTransferDone bs) s =
      .next (if x.ctl.getLsbD 25 then bufPut u .PIO_SPI_DATA (flashBytes bs 0 (spiLen x.ctl.toNat)) else u) := by
  change execSpiTransferDone bs s = _
  rw [execSpiTransferDone, hx]
  dsimp only
  rw [spiDone, ← hu]

/-! ## I2C -/

theorem exec_i2c1Transfer_starts {ctl : W32} {c : Nat} (ha : s.rst.aon = true) (hb : s.flag F.PIO_I2C1_CTL_BUSY 0 = false)
    (hc : c = setBits (setBits (setBits ctl.toNat 31 29 0) 25 14 0) 6 6 0)
    (hu : u = s.setReg .PIO_I2C1_CTL 0 (c + 2 ^ 30 + b2n (s.flag F.PIO_I2C1_CTL_NACK 0 && !bitOf ctl.toNat 29) * 2 ^ 29)) :
    exec (.i2c1Transfer ctl) s = .next { u with pio := { u.pio with i2c1 := some ⟨BitVec.ofNat 32 c, 0,
      if bitOf c 27 then [] else bufBytes u .PIO_I2C1_DATA (min 32 (bits c 5 0))⟩ } } := by
  change execI2c1Transfer ctl s = _
  rw [execI2c1Transfer, if_pos ha, i2c1Go, if_neg (by simp [hb])]
  dsimp only
  rw [← hc, ← hu, i2cLen]

theorem exec_i2c1TransferDone {ack : Bool} {bs : List Byte} {x : Xfer} (hx : s.pio.i2c1 = some x)
    (hu : u = { s with pio := { s.pio with i2c1 := none, i2c1Sent := x :: s.pio.i2c1Sent } }.setFlag F.PIO_I2C1_CTL_BUSY 0 false) :
    exec (.i2c1TransferDone ack bs) s = .next (if !ack then u.setFlag F.PIO_I2C1_CTL_NACK 0 true
      else if x.ctl.getLsbD 27 then bufPut u .PIO_I2C1_DATA (flashBytes bs 0 (i2cLen x.ctl.toNat)) else u) := by
  change execI2c1TransferDone ack bs s = _
  rw [execI2c1TransferDone, hx]
  dsimp only
  rw [i2c1Done, ← hu]

theorem exec_i2c0Transaction_on {ofs : W32} {n : Nat} (ha : s.rst.aon = true) (he : s.flag F.PIO_I2C0_CFG_EN 0 = true) :
    exec (.i2c0Transaction ofs n) s = .next (i2cReads n s (ofs.toNat / 4 * 4) []) := by
  change execI2c0Transaction ofs n s = _
  rw [execI2c0Transaction, if_pos (by simp [ha, he])]

theorem exec_i2c0Transaction_off {ofs : W32} {n : Nat} (he : s.flag F.PIO_I2C0_CFG_EN 0 = false) :
    exec (.i2c0Transaction ofs n) s = .next s := by
  change execI2c0Transaction ofs n s = _
  rw [execI2c0Transaction, if_neg (by simp [he])]

end

/-- Settles O34: a drain by its resource, a transfer by its start and its end. -/
theorem drainsAndSerialControllers : Obligations.DrainsAndSerialControllers := by
  refine ⟨⟨fun s hp he hw => ?_, fun s hp he => ?_, fun s h => ?_, fun s n c h => ?_⟩,
    fun s u ctl c ha hr hb hc hu => exec_spiTransfer_starts ha hr hb hc hu, fun s ctl h => exec_spiTransfer_romOwned h,
    fun s u bs x hx hu => ⟨fun h => ?_, fun h => ?_⟩, fun s u ctl c ha hb hc hu => exec_i2c1Transfer_starts ha hb hc hu,
    fun s u bs x hx hu => ⟨?_, fun h => ?_⟩, fun s ofs n ha he => exec_i2c0Transaction_on ha he, fun s ofs n he => exec_i2c0Transaction_off he⟩
  · rw [exec_resourceDrainComplete, drainOne_parser hp he hw]
  · rw [exec_resourceDrainComplete, drainOne_orrery hp he]
  · rw [exec_resourceDrainComplete, drainOne_drc h]
  · rw [exec_resourceDrainComplete, drainOne_channel h]
  · rw [exec_spiTransferDone hx hu, h, if_neg Bool.false_ne_true]
  · rw [exec_spiTransferDone hx hu, if_pos h]
  · rw [exec_i2c1TransferDone hx hu, if_pos (by decide)]
  · rw [exec_i2c1TransferDone hx hu, if_neg (by decide), h, if_neg Bool.false_ne_true]

end Sys2Proof.Machine

/-!
PROOF. A host's accesses and MGT's register-port loads (R8, R87, R89, R93, R491, R550, R551).
-/

namespace Sys2Proof.Machine

section
variable {s u : State}

/-! ## PF1 BAR0 -/

/-- With its link down or PF1 not in D0, a host's access reaches nothing. -/
theorem exec_pf1_down {h : Fin 2} {a : BitVec 28} {n : Nat} {wr : Option W64} (hd : pf1Up s h.val = false) :
    exec (.registerWrite (.pf1 h a n wr)) s = .next (if wr.isNone then setRdata s 0 else s) := by
  rw [exec_registerWrite, execRegisterWrite, if_pos (by simp [hd])]

theorem exec_pf1_reaches {h : Fin 2} {a : BitVec 28} {n : Nat} {wr : Option W64} (hu : pf1Up s h.val = true)
    (ha : h = 0 ∨ wr = none ∨ s.flag F.HIF_LINK_CFG_PF1_HL1_ACC 0 = true) :
    exec (.registerWrite (.pf1 h a n wr)) s = busAcc (.host h) a.toNat n (wr.map (·.toNat)) s := by
  have allowed : ¬(wr.isSome && h == 1 && !s.flag F.HIF_LINK_CFG_PF1_HL1_ACC 0) = true := by
    obtain rfl | rfl | hf := ha
    · simp
    · simp
    · simp [hf]
  rw [exec_registerWrite, execRegisterWrite, if_neg (by simp [hu]), if_neg allowed]

/-- A write of the second link without leave is an unsupported request. -/
theorem exec_pf1_unsupported {a : BitVec 28} {n : Nat} {v : W64} (hu : pf1Up s 1 = true) (hf : s.flag F.HIF_LINK_CFG_PF1_HL1_ACC 0 = false) :
    exec (.registerWrite (.pf1 1 a n (some v))) s = .next (setFn s 257 { fnOf s 257 with aer := (fnOf s 257).aer ||| 0x100000 }) := by
  have up : pf1Up s (1 : Fin 2).val = true := hu
  have refused : ((some v).isSome && (1 : Fin 2) == 1 && !s.flag F.HIF_LINK_CFG_PF1_HL1_ACC 0) = true := by
    rw [hf]
    rfl
  rw [exec_registerWrite, execRegisterWrite, if_neg (by rw [up]; decide), if_pos refused, unsupported]

/-! ## One access of four bytes -/

/-- Outside MGT's window and the clusters' shared memories an aligned access of 4 bytes is one of the register space. -/
theorem busAcc_four {q : Req} {a : Nat} {wr : Option Nat} (ha : a % 4 = 0) (hm : ¬(0x1210000 ≤ a ∧ a < 0x1220000))
    (hc : ¬(0x4000000 ≤ a ∧ a < 0xC000000 ∧ 0x200000 ≤ a % 0x400000 ∧ a % 0x400000 < 0x300000)) : busAcc q a 4 wr s = acc4 q a wr s := by
  have aligned : ¬(!((4 = 4 || 4 = 8) && a % 4 == 0)) = true := by simp [ha]
  have mgt : ¬(0x1210000 ≤ a && decide (a < 0x1220000)) = true := by simpa using hm
  have shared : ¬(0x4000000 ≤ a && decide (a < 0xC000000) && decide (0x200000 ≤ a % 0x400000) && decide (a % 0x400000 < 0x300000)) = true := by
    simpa [and_assoc] using hc
  rw [busAcc, if_neg aligned, if_neg mgt, if_neg shared, if_pos rfl]

theorem acc4_empty {q : Req} {a : Nat} {wr : Option Nat} (hw : winAt a = none) (hr : regAt a = none) :
    acc4 q a wr s = .next (if wr.isNone then setRdata s 0 else s) := by
  rw [acc4.eq_def, hw, hr]

theorem acc4_read {q : Req} {a i : Nat} {r : RegName} {hi : Bool} (hw : winAt a = none) (hr : regAt a = some (r, i, hi)) :
    acc4 q a none s = .next (regReadAcc s r i ((2 ^ 32 - 1) * 2 ^ (if hi then 32 else 0))) := by
  rw [acc4, hw, hr]

theorem acc4_write {q : Req} {a i v : Nat} {r : RegName} {hi : Bool} (hw : winAt a = none) (hr : regAt a = some (r, i, hi)) :
    acc4 q a (some v) s = if regLive s r i then
      regWrite q r i ⟨(2 ^ 32 - 1) * 2 ^ (if hi then 32 else 0), v % 2 ^ 32 * 2 ^ (if hi then 32 else 0)⟩ s else .next s := by
  rw [acc4, hw, hr]

/-- Registers without a rule of their own take what is written by their fields' access codes. -/
theorem regWrite_plain {q : Req} {r : RegName} {i : Nat} {w : Wr}
    (hr : r ∈ [RegName.GCL_ENTRY, .GCL_WG_WINDOW, .LPT_PRI, .ORY_DOM_CFG, .CRN_REQ_HARD, .RST_SCRUB_CFG]) :
    regWrite q r i w s = .next (wrReg s r i w []) := by
  simp only [List.mem_cons, List.not_mem_nil, or_false] at hr
  obtain rfl | rfl | rfl | rfl | rfl | rfl := hr
  · rfl
  · rfl
  · rfl
  · rfl
  · rfl
  · rfl

/-! ## Configuration space and vectors -/

theorem configAcc_read {f : Nat} {r : CfgReg} (h : fnUp s f = true) : configAcc s f r none = setRdata s (cfgRead s f r) := by
  rw [configAcc, if_neg (by simp [h])]

theorem configAcc_write {f : Nat} {r : CfgReg} {v : W32} (h : fnUp s f = true) : configAcc s f r (some v) = cfgWrite s f r v := by
  rw [configAcc, if_neg (by simp [h])]

theorem configAcc_down {f : Nat} {r : CfgReg} {wr : Option W32} (h : fnUp s f = false) :
    configAcc s f r wr = if wr.isNone then setRdata s 0 else s := by
  rw [configAcc.eq_def, if_pos (by simp [h])]

theorem vectorAcc_read {f k : Nat} (hf : fnUp s f = true) (hk : k < tableWords f) :
    vectorAcc s f k none = setRdata s (mget vtabReset (fnOf s f).vtab k).toNat := by
  rw [vectorAcc, if_neg (by simp [hf, hk])]

/-- Words 1 and 2 of a vector's entry are taken whole. -/
theorem vectorAcc_write {f k : Nat} {v : W32} (hf : fnUp s f = true) (hk : k < tableWords f) (h3 : k % 4 ≠ 3) (h0 : k % 4 ≠ 0) :
    vectorAcc s f k (some v) = setFn s f { fnOf s f with vtab := mset vtabReset (fnOf s f).vtab k v } := by
  rw [vectorAcc, if_neg (by simp [hf, hk])]
  dsimp only
  rw [if_neg h3, if_neg h0]

/-! ## Doorbell and MSI-X BARs -/

theorem execBar_down {f : BitVec 9} {ofs n : Nat} {wr : Option W64} (h : fnUp s f.toNat = false) :
    execBar f ofs n wr s = .next (if wr.isNone then setRdata s 0 else s) := by
  rw [execBar.eq_def, if_pos (by simp [h])]

theorem execBar_page {f : BitVec 9} {ofs : Nat} {v : W64} (hf : fnUp s f.toNat = true) (hp : barPart f.toNat ofs = .page) (ho : ofs % 8 = 0) :
    execBar f ofs 8 (some v) s = doorbellWrite f v true s := by
  have whole : (decide (8 = 8) && ofs % 8 == 0) = true := by simp [ho]
  rw [execBar.eq_def, if_neg (by simp [hf]), hp]
  dsimp only
  rw [whole]

theorem execBar_empty_read {f : BitVec 9} {ofs : Nat} (hf : fnUp s f.toNat = true) (hp : barPart f.toNat ofs = .empty) :
    execBar f ofs 8 none s = .next { s with rdata := 0 } := by
  rw [execBar.eq_def, if_neg (by simp [hf]), hp]
  rfl

theorem execBar_empty_write {f : BitVec 9} {ofs : Nat} {v : W64} (hf : fnUp s f.toNat = true) (hp : barPart f.toNat ofs = .empty) :
    execBar f ofs 8 (some v) s = .next s := by
  rw [execBar.eq_def, if_neg (by simp [hf]), hp]

/-! ## MGT's loads through the register port -/

theorem exec_registerPortLoadComplete {k : Fin 8} {op rd : Nat} {a : W32} (hw : (thrOf s (0x2000 + k.val)).wait = .rport op rd a)
    (hb : busAcc (.mgt k) a.toNat (accBytes op) none s = .next u) :
    exec (.registerPortLoadComplete k) s = .next (portLoadDone u (0x2000 + k.val) op rd a) := by
  change execRegisterPortLoadComplete k s = _
  rw [execRegisterPortLoadComplete]
  rw [hw]
  dsimp only
  rw [hb]

end

/-- Settles O33: an access by whether its link or function answers, then by what lies at its address. -/
theorem registerAccesses : Obligations.RegisterAccesses := by
  refine ⟨⟨fun s h a n hd => ⟨exec_pf1_down hd, fun v => exec_pf1_down hd⟩, fun s h a n wr hu ha => exec_pf1_reaches hu ha,
    fun s a n v hu hf => exec_pf1_unsupported hu hf, fun s q a hw hr ha hm hc => ?_, fun s q a i r hi hw hr ha hm hc => ⟨?_, fun v => ⟨fun hl => ?_, fun hl hp => ?_⟩⟩,
    fun s f r v => ⟨fun h => ⟨congrArg _ (configAcc_read h), congrArg _ (configAcc_write h)⟩, fun h => ⟨congrArg _ (configAcc_down h), congrArg _ (configAcc_down h)⟩⟩,
    fun s f k v hf hk h3 h0 => ⟨congrArg _ (vectorAcc_read hf hk), congrArg _ (vectorAcc_write hf hk h3 h0)⟩, fun s f k => rfl,
    fun s f o v hf => ⟨fun hp ho => execBar_page hf hp ho, fun hp => ⟨execBar_empty_read hf hp, execBar_empty_write hf hp⟩⟩,
    fun s f o n v hf => ⟨execBar_down hf, execBar_down hf⟩⟩, fun s u k op rd a hw hb => exec_registerPortLoadComplete hw hb⟩
  · have notShared : ¬(0x4000000 ≤ a ∧ a < 0xC000000 ∧ 0x200000 ≤ a % 0x400000 ∧ a % 0x400000 < 0x300000) := fun ⟨lo, hi, _⟩ => hc ⟨lo, hi⟩
    refine ⟨?_, fun v => ?_⟩
    · rw [busAcc_four ha hm notShared]
      exact acc4_empty hw hr
    · rw [busAcc_four ha hm notShared]
      exact acc4_empty hw hr
  · rw [busAcc_four ha hm hc, acc4_read hw hr]
  · rw [busAcc_four ha hm hc, acc4_write hw hr, hl, if_neg Bool.false_ne_true]
  · rw [busAcc_four ha hm hc, acc4_write hw hr, if_pos hl, regWrite_plain hp]

end Sys2Proof.Machine

/-!
PROOF. The TAP (R507, R535), the debug session and DBGACC (R508, R509), and unlocking (R510–R512).
-/

namespace Sys2Proof.Machine

section
variable {s u v : State} {j : Bool}

/-! ## The TAP -/

theorem exec_tapExtest_unlocked {l n : BitVec 169} (ha : s.rst.aon = true) (hu : unlocked s = true) :
    exec (.tapExtest l n) s = .next { s with dbg := { s.dbg with ir := 0, scan := l, cells := n } } := by
  change execTapExtest l n s = _
  rw [execTapExtest, if_neg (by simp [ha]), if_pos hu]
  rfl

/-- A locked Edsen makes EXTEST BYPASS. -/
theorem exec_tapExtest_locked {l n : BitVec 169} (ha : s.rst.aon = true) (hu : unlocked s = false) :
    exec (.tapExtest l n) s = .next { s with dbg := { s.dbg with ir := 0x3F } } := by
  change execTapExtest l n s = _
  rw [execTapExtest, if_neg (by simp [ha]), if_neg (by simp [hu]), tapBypass]

theorem exec_tapSamplePreload {l n : BitVec 169} (ha : s.rst.aon = true) :
    exec (.tapSamplePreload l n) s = .next { s with dbg := { s.dbg with ir := 1, scan := l, cells := n } } := by
  change execTapSamplePreload l n s = _
  rw [execTapSamplePreload, if_pos ha]
  rfl

theorem exec_tapBypass (ha : s.rst.aon = true) : exec .tapBypass s = .next { s with dbg := { s.dbg with ir := 0x3F } } := by
  change execTapBypass s = _
  rw [execTapBypass, if_pos ha, tapBypass]

/-! ## The session -/

theorem exec_dbgClaim_free (ha : s.rst.aon = true) (ho : s.fld F.DBG_SESSION_OWNER 0 = 0) :
    exec (.dbgClaim j) s = .next (s.setFld F.DBG_SESSION_OWNER 0 (if j then 1 else 2)) := by
  change execDbgClaim j s = _
  rw [execDbgClaim, if_pos ha, claimSession, if_pos ho, pathCode]

theorem exec_dbgClaim_owned (ho : s.fld F.DBG_SESSION_OWNER 0 ≠ 0) : exec (.dbgClaim j) s = .next s := by
  change execDbgClaim j s = _
  rw [execDbgClaim, claimSession, if_neg ho, ite_self]

theorem exec_dbgRelease_owner (ha : s.rst.aon = true) (ho : s.fld F.DBG_SESSION_OWNER 0 = (if j then 1 else 2)) :
    exec (.dbgRelease j) s = .next (s.setFld F.DBG_SESSION_OWNER 0 0) := by
  change execDbgRelease j s = _
  rw [execDbgRelease, if_pos ha, releaseSession, pathCode, if_pos ho]

theorem exec_dbgRelease_other (ho : s.fld F.DBG_SESSION_OWNER 0 ≠ (if j then 1 else 2)) : exec (.dbgRelease j) s = .next s := by
  change execDbgRelease j s = _
  rw [execDbgRelease, releaseSession, pathCode, if_neg ho, ite_self]

/-! ## Writes by a path -/

theorem dbgRow_on {b : Option Nat} {f : State → State} (ha : s.rst.aon = true) : dbgRow s j b f = .next (dbgWrite s j b f) := by
  rw [dbgRow, if_pos ha]

/-- While the other path owns the session, a write is refused whatever it is. -/
theorem dbgWrite_other {b : Option Nat} {f : State → State} (ho : s.fld F.DBG_SESSION_OWNER 0 = (if j then 2 else 1)) :
    dbgWrite s j b f = s.setFlag F.DBG_SESSION_REJECT 0 true := by
  rw [dbgWrite.eq_def, ho, pathCode, if_pos (by cases j <;> decide), dbgReject]

/-- A write of a register that is reached while Edsen is locked. -/
theorem dbgWrite_open {f : State → State} (ho : s.fld F.DBG_SESSION_OWNER 0 = 0) : dbgWrite s j none f = f s := by
  rw [dbgWrite, if_neg (by simp [ho])]

theorem dbgWrite_scoped {k : Nat} {f : State → State} (ho : s.fld F.DBG_SESSION_OWNER 0 = 0) (hu : unlocked s = true) (hs : dbgScope s k = true) :
    dbgWrite s j (some k) f = f s := by
  rw [dbgWrite, if_neg (by simp [ho])]
  rw [if_neg (by simp [hu]), if_pos hs]

theorem dbgWrite_unscoped {k : Nat} {f : State → State} (ho : s.fld F.DBG_SESSION_OWNER 0 = 0) (hu : unlocked s = true)
    (hs : dbgScope s k = false) : dbgWrite s j (some k) f = s.setFlag F.DBG_SESSION_REJECT 0 true := by
  rw [dbgWrite, if_neg (by simp [ho])]
  rw [if_neg (by simp [hu]), if_neg (by simp [hs]), dbgReject]

theorem exec_dbgHalt {sc : BitVec 2} {t : BitVec 14} (ha : s.rst.aon = true) :
    exec (.dbgHalt j sc t) s = .next (dbgWrite s j (some 0) (fun u => thrOp u t.toNat sc.toNat dbgHaltOne)) := by
  change execDbgHalt j sc t s = _
  rw [execDbgHalt, thrRow, if_pos ha]
  rfl

theorem exec_debugResetRequest {r c : W32} (ha : s.rst.aon = true) :
    exec (.debugResetRequest j r c) s = .next (dbgWrite s j (some 2) (fun u => dbgReset u r.toNat c.toNat)) := by
  change execDebugResetRequest j r c s = _
  rw [execDebugResetRequest, dbgRow_on ha]

/-! ## DBGACC -/

/-- A read that Edsen's scope allows, or that stays in Edsen's own registers, answers with the bus's data. -/
theorem exec_dbgacc_read {w : BitVec 96} {a : Nat} (ha : s.rst.aon = true) (hA : a = bits w.toNat 91 64) (hr : bitOf w.toNat 95 = false)
    (hu : u = { s with dbg := { s.dbg with ir := 0x20 } }) (hs : (0x1300000 ≤ a ∧ a < 0x1400000) ∨ dbgScope u 1 = true)
    (hb : busAcc .jtag a (if bitOf w.toNat 94 then 8 else 4) none u = .next v) :
    exec (.dbgacc w) s = .next { v with dbg := { v.dbg with acc := BitVec.ofNat 96 (2 ^ 95 + v.rdata.toNat) } } := by
  have allowed : ¬(!(0x1300000 ≤ a && decide (a < 0x1400000)) && !dbgScope u 1) = true := by
    obtain ⟨lo, hi⟩ | hs := hs
    · simp [lo, hi]
    · simp [hs]
  have data : 2 ^ 95 + b2n false * 2 ^ 94 + v.rdata.toNat % 2 ^ 64 = 2 ^ 95 + v.rdata.toNat := by
    rw [b2n, Nat.mod_eq_of_lt v.rdata.isLt]
    rfl
  change execDbgacc w s = _
  rw [execDbgacc, if_neg (by simp [ha])]
  dsimp only
  rw [← hA, ← hu, if_neg allowed, hr, if_neg Bool.false_ne_true, hb]
  dsimp only
  rw [Option.isNone_none, if_pos rfl, data]

theorem exec_dbgacc_denied {w : BitVec 96} {a : Nat} (ha : s.rst.aon = true) (hA : a = bits w.toNat 91 64) (ho : a < 0x1300000 ∨ 0x1400000 ≤ a)
    (hu : u = { s with dbg := { s.dbg with ir := 0x20 } }) (hs : dbgScope u 1 = false) :
    exec (.dbgacc w) s = .next { u with dbg := { u.dbg with acc := BitVec.ofNat 96 (2 ^ 95 + 2 ^ 94) } } := by
  have denied : (!(0x1300000 ≤ a && decide (a < 0x1400000)) && !dbgScope u 1) = true := by
    rw [hs]
    simp only [Bool.not_false, Bool.and_true, Bool.not_eq_true', Bool.and_eq_false_iff, decide_eq_false_iff_not]
    omega
  have data : 2 ^ 95 + b2n true * 2 ^ 94 + 0 % 2 ^ 64 = 2 ^ 95 + 2 ^ 94 := rfl
  change execDbgacc w s = _
  rw [execDbgacc, if_neg (by simp [ha])]
  dsimp only
  rw [← hA, ← hu, if_pos denied, data, hu]

end

/-- Settles O30: each instruction of the TAP, the session by its owner, and DBGACC by its scope. -/
theorem tapAndSession : Obligations.TapAndSession := by
  refine ⟨⟨fun s l n ha hu => exec_tapExtest_unlocked ha hu, fun s l n ha hu => exec_tapExtest_locked ha hu,
    fun s l n ha => exec_tapSamplePreload ha, fun s ha => exec_tapBypass ha, fun s => rfl⟩,
    ⟨fun s j ha ho => exec_dbgClaim_free ha ho, fun s j ho => exec_dbgClaim_owned ho, fun s j ha ho => exec_dbgRelease_owner ha ho,
      fun s j ho => exec_dbgRelease_other ho, fun s j sc t ha ho => ⟨?_, ?_⟩⟩,
    fun s u v w a ha hA hr hu hs hb => exec_dbgacc_read ha hA hr hu hs hb, fun s u w a ha hA ho hu hs => exec_dbgacc_denied ha hA ho hu hs⟩
  · rw [exec_dbgHalt ha, dbgWrite_other ho]
  · rw [exec_debugResetRequest ha, dbgWrite_other ho]

/-! ## Unlocking -/

section
variable {s u : State} {j : Bool}

theorem exec_chalGo (ha : s.rst.aon = true) (ho : s.fld F.DBG_SESSION_OWNER 0 = 0) : exec (.chalGo j) s = .next (chalGo s) := by
  change execChalGo j s = _
  rw [execChalGo, dbgRow_on ha, dbgWrite_open ho]

theorem chalGo_lockedOut (h : s.dbg.lockout.isSome = true) : chalGo s = s.setFlag F.DBG_SESSION_REJECT 0 true := by
  rw [chalGo, if_pos h, dbgReject]

/-- A challenge is drawn and written to the registers; nothing else of the machine moves. -/
theorem chalGo_issues (h : s.dbg.lockout = none) :
    RegsMove { s with fresh := s.fresh + 1, dbg := { s.dbg with chal := some (Config.random s.fresh, s.clk) } } (chalGo s) := by
  rw [chalGo, if_neg (by simp [h])]
  exact RegsMove.foldS (fun _ _ h => h.setReg _ _ _) _ (.refl _)

theorem exec_verifyGo (ha : s.rst.aon = true) (ho : s.fld F.DBG_SESSION_OWNER 0 = 0) : exec (.verifyGo j) s = .next (verifyGo s) := by
  change execVerifyGo j s = _
  rw [execVerifyGo, dbgRow_on ha, dbgWrite_open ho]

theorem verifyGo_starts {ws : List W32} (h : s.flag F.DBG_LOCK_BUSY 0 = false)
    (hw : ws = (List.range 64).map (fun j => BitVec.ofNat 32 (s.reg .DBG_TOKEN j))) :
    verifyGo s = { s with dbg := { s.dbg with verify := some (ws, goodChal s), chal := none } }.setFlag F.DBG_LOCK_BUSY 0 true := by
  rw [verifyGo, if_neg (by simp [h]), hw]

/-- The end of a verification that had a good challenge. -/
theorem tokenDone_challenged {ws : List W32} {c : BitVec 256} (h : s.dbg.verify = some (ws, some c))
    (hu : u = { s with dbg := { s.dbg with verify := none } }.setFlag F.DBG_LOCK_BUSY 0 false) :
    tokenDone s = if tokenOk u ws c then tokenPass u ws else tokenFail u := by
  rw [tokenDone, h, hu]

theorem tokenDone_unchallenged {ws : List W32} (h : s.dbg.verify = some (ws, none))
    (hu : u = { s with dbg := { s.dbg with verify := none } }.setFlag F.DBG_LOCK_BUSY 0 false) : tokenDone s = tokenFail u := by
  rw [tokenDone, h, hu]

theorem noteWrite_dbg (s : State) (m c unit addr : Nat) (whole : Bool) : (noteWrite s m c unit addr whole).dbg = s.dbg := by
  have marked : (if whole then setUnitErr s m unit 0 else s).dbg = s.dbg := by
    split
    · rfl
    · rfl
  rw [noteWrite]
  dsimp only
  generalize (if whole then setUnitErr s m unit 0 else s) = v at marked ⊢
  split
  · exact marked
  · exact marked

theorem setPending_dbg (s : State) (i : Nat) (b : Bool) : (setPending s i b).dbg = s.dbg := noteWrite_dbg ..

theorem raiseSrc_dbg (s : State) (i detail : Nat) : (raiseSrc s i detail).dbg = s.dbg := by
  rw [raiseSrc]
  split
  · exact setPending_dbg s i true
  · rfl

theorem tokenFail_lockout (s : State) : (tokenFail s).dbg.lockout = some (s.clk + 1500000000) := by
  rw [tokenFail, dbgEvent, raiseSrc_dbg]
  rfl

theorem exec_challengeLockoutEnd {n e : Nat} (hu : u = advance s n) (he : u.dbg.lockout = some e) (hle : e ≤ u.clk) :
    exec (.challengeLockoutEnd n) s = .next { u with dbg := { u.dbg with lockout := none } } := by
  change execChallengeLockoutEnd n s = _
  rw [execChallengeLockoutEnd, ← hu]
  dsimp only
  rw [he]
  dsimp only
  rw [if_pos hle]

theorem exec_relock (ha : s.rst.aon = true) (ho : s.fld F.DBG_SESSION_OWNER 0 = 0) : exec (.relock j) s = .next (relock s) := by
  change execRelock j s = _
  rw [execRelock, dbgRow_on ha, dbgWrite_open ho]

end

/-- Settles O31: the challenge, the verification and its end by what they record. -/
theorem unlocking : Obligations.Unlocking := by
  refine ⟨fun s j ha ho hl => ?_, fun s j ha ho hl => ?_, fun s j ws ha ho hb hw => ?_, fun s ws c u hv hu => ⟨fun h => ?_, fun h => ?_⟩,
    fun s ws u hv hu => congrArg _ (tokenDone_unchallenged hv hu), tokenFail_lockout, fun s u n e hu he hle => exec_challengeLockoutEnd hu he hle,
    fun s j ha ho => exec_relock ha ho⟩
  · have issued := chalGo_issues hl
    refine ⟨_, _, exec_chalGo ha ho, ?_, rfl, ?_⟩ <;> rw [issued]
  · rw [exec_chalGo ha ho, chalGo_lockedOut hl]
  · rw [exec_verifyGo ha ho, verifyGo_starts hb hw]
  · refine congrArg _ ((tokenDone_challenged hv hu).trans ?_)
    rw [if_pos h, tokenPass, tokWord]
  · refine congrArg _ ((tokenDone_challenged hv hu).trans ?_)
    rw [if_neg (by simp [h])]

end Sys2Proof.Machine

/-!
PROOF. Debug control of one thread (R513–R516, R525).
-/

namespace Sys2Proof.Machine

section
variable {s u : State} {j : Bool} {t : BitVec 14}

/-- Every operation of DBG_THR_CTL but RESET is a write under scope bit 0. -/
theorem exec_dbgResume (ha : s.rst.aon = true) :
    exec (.dbgResume j 0 t) s = .next (dbgWrite s j (some 0) (fun u => thrOp u t.toNat 0 dbgResumeOne)) := by
  change execDbgResume j 0 t s = _
  rw [execDbgResume, thrRow, if_pos ha]
  rfl

theorem exec_dbgStep (ha : s.rst.aon = true) :
    exec (.dbgStep j 0 t) s = .next (dbgWrite s j (some 0) (fun u => thrOp u t.toNat 0 dbgStepOne)) := by
  change execDbgStep j 0 t s = _
  rw [execDbgStep, thrRow, if_pos ha]
  rfl

theorem exec_discardStage (ha : s.rst.aon = true) :
    exec (.discardStage j 0 t) s = .next (dbgWrite s j (some 0) (fun u => thrOp u t.toNat 0 dbgDiscardOne)) := by
  change execDiscardStage j 0 t s = _
  rw [execDiscardStage, thrRow, if_pos ha]
  rfl

theorem exec_dbgThreadReset (ha : s.rst.aon = true) :
    exec (.dbgThreadReset j 0 t) s = .next (dbgWrite s j (some 2) (fun u => thrOp u t.toNat 0 dbgResetOne)) := by
  change execDbgThreadReset j 0 t s = _
  rw [execDbgThreadReset, thrRow, if_pos ha]
  rfl

/-- With SCOPE 0 the operation is one on the thread that TID names. -/
theorem thrOp_one {i : Nat} {f : State → Nat → State} (hx : thrExists s i = true) (hu : u = { s with dbg := { s.dbg with named := i } }) :
    thrOp s i 0 f = settleAll (f u i) := by
  have named : namedThreads u i 0 = [i] := by
    have there : thrExists u i = true := by
      rw [hu]
      exact hx
    rw [namedThreads, if_neg (by simp [there]), if_pos (by decide)]
  rw [thrOp]
  dsimp only
  rw [← hu, named, if_neg (by simp)]
  rfl

theorem dbgHaltOne_awake {i : Nat} (h : (thrOf s i).st ≠ .dormant) : dbgHaltOne s i = halt s i 0 := by
  rw [dbgHaltOne, if_neg h]

theorem dbgHaltOne_dormant {i : Nat} (h : (thrOf s i).st = .dormant) : dbgHaltOne s i = s.setFlag F.DBG_THR_STS_REJECT 0 true := by
  rw [dbgHaltOne, if_pos h, thrRefused]

theorem dbgResumeOne_halted {i : Nat} (h : isHalted s i = true) : dbgResumeOne s i = resumeThr s i false := by
  rw [dbgResumeOne, if_pos (by simp [h])]

theorem dbgStepOne_halted {i : Nat} (h : isHalted s i = true) : dbgStepOne s i = resumeThr s i true := by
  rw [dbgStepOne, if_pos h]

theorem dbgStepOne_refused {i : Nat} (h : isHalted s i = false) : dbgStepOne s i = s.setFlag F.DBG_THR_STS_REJECT 0 true := by
  rw [dbgStepOne, if_neg (by simp [h]), thrRefused]

theorem dbgDiscardOne_halted {i : Nat} (h : isHalted s i = true) : dbgDiscardOne s i = setThr s i { thrOf s i with stage := 0 } := by
  rw [dbgDiscardOne, if_pos h]

theorem dbgDiscardOne_refused {i : Nat} (h : isHalted s i = false) : dbgDiscardOne s i = s.setFlag F.DBG_THR_STS_REJECT 0 true := by
  rw [dbgDiscardOne, if_neg (by simp [h]), thrRefused]

theorem dbgResetOne_packet {i : Nat} (h : isSupv s i = false) : dbgResetOne s i = thrReset s i := by
  rw [dbgResetOne, if_neg (by simp [h])]

/-- Naming a thread leaves every thread as it is. -/
theorem thrOf_named {i : Nat} (hu : u = { s with dbg := { s.dbg with named := i } }) (k : Nat) : thrOf u k = thrOf s k := by
  rw [hu]
  rfl

end

section
variable {s u : State} {j : Bool} {t : BitVec 14} (ha : s.rst.aon = true) (ho : s.fld F.DBG_SESSION_OWNER 0 = 0) (hl : unlocked s = true)
  (hx : thrExists s t.toNat = true) (hu : u = { s with dbg := { s.dbg with named := t.toNat } })
include ha ho hl hx hu

theorem exec_dbgHalt_one (hs : dbgScope s 0 = true) : exec (.dbgHalt j 0 t) s = .next (settleAll (dbgHaltOne u t.toNat)) := by
  rw [exec_dbgHalt ha, dbgWrite_scoped ho hl hs]
  exact congrArg _ (thrOp_one hx hu)

theorem exec_dbgResume_one (hs : dbgScope s 0 = true) : exec (.dbgResume j 0 t) s = .next (settleAll (dbgResumeOne u t.toNat)) := by
  rw [exec_dbgResume ha, dbgWrite_scoped ho hl hs, thrOp_one hx hu]

theorem exec_dbgStep_one (hs : dbgScope s 0 = true) : exec (.dbgStep j 0 t) s = .next (settleAll (dbgStepOne u t.toNat)) := by
  rw [exec_dbgStep ha, dbgWrite_scoped ho hl hs, thrOp_one hx hu]

theorem exec_discardStage_one (hs : dbgScope s 0 = true) : exec (.discardStage j 0 t) s = .next (settleAll (dbgDiscardOne u t.toNat)) := by
  rw [exec_discardStage ha, dbgWrite_scoped ho hl hs, thrOp_one hx hu]

theorem exec_dbgThreadReset_one (hs : dbgScope s 2 = true) : exec (.dbgThreadReset j 0 t) s = .next (settleAll (dbgResetOne u t.toNat)) := by
  rw [exec_dbgThreadReset ha, dbgWrite_scoped ho hl hs, thrOp_one hx hu]

end

/-- Settles O32: each operation reaches the one thread that is named, and acts or refuses by what that thread is. -/
theorem debugThreadControl : Obligations.DebugThreadControl := by
  intro s u j t ha ho hl hx hu
  have same := thrOf_named hu t.toNat
  refine ⟨fun hs => ⟨fun h => ?_, fun h => ?_, fun h => ?_, fun h => ?_⟩, fun hs => ?_, fun hs hv => ?_, fun hs r c => ?_⟩
  · rw [exec_dbgHalt_one ha ho hl hx hu hs, dbgHaltOne_awake (by rw [same]; exact h)]
  · rw [exec_dbgHalt_one ha ho hl hx hu hs, dbgHaltOne_dormant (by rw [same]; exact h)]
  · have halted : isHalted u t.toNat = true := by rw [isHalted, same]; exact h
    refine ⟨?_, ?_, ?_⟩
    · rw [exec_dbgResume_one ha ho hl hx hu hs, dbgResumeOne_halted halted]
    · rw [exec_dbgStep_one ha ho hl hx hu hs, dbgStepOne_halted halted]
    · rw [exec_discardStage_one ha ho hl hx hu hs, dbgDiscardOne_halted halted, same]
  · have running : isHalted u t.toNat = false := by rw [isHalted, same, h]; rfl
    refine ⟨?_, ?_⟩
    · rw [exec_dbgStep_one ha ho hl hx hu hs, dbgStepOne_refused running]
    · rw [exec_discardStage_one ha ho hl hx hu hs, dbgDiscardOne_refused running]
  · rw [exec_dbgHalt ha, dbgWrite_unscoped ho hl hs]
  · rw [exec_dbgThreadReset_one ha ho hl hx hu hs, dbgResetOne_packet hv]
  · rw [exec_debugResetRequest ha, dbgWrite_scoped ho hl hs]

end Sys2Proof.Machine
